-- ==== Sys2Proof/Word.lean ====
section
/-!
DEFINITION. Words: the device's bytes, dwords and 64-bit words (R6), and reading a field of one.
-/

namespace Sys2Proof

/-- One byte. -/
abbrev Byte := BitVec 8

/-- One dword: a register of a map, or one dword of a parameter block (R6). -/
abbrev Word := BitVec 32

/-- One 64-bit word: a count of ticks, a host address, a result. -/
abbrev QWord := BitVec 64

/-- Field `[hi:lo]` of a dword, as a number (R6). -/
def Word.fld (w : Word) (hi lo : Nat) : Nat := w.toNat / 2 ^ lo % 2 ^ (hi + 1 - lo)

/-- The dword whose field `[hi:lo]` holds `v` and whose other bits are 0. -/
def Word.place (hi lo v : Nat) : Word := BitVec.ofNat 32 (v % 2 ^ (hi + 1 - lo) * 2 ^ lo)

/-- The mask of field `[hi:lo]`. -/
def Word.mask (hi lo : Nat) : Word := Word.place hi lo (2 ^ 32 - 1)

/-- `w` with field `[hi:lo]` set to `v`. -/
def Word.setFld (w : Word) (hi lo v : Nat) : Word := (w &&& ~~~ Word.mask hi lo) ||| Word.place hi lo v

/-- The low dword of a 64-bit word. -/
def QWord.lo (q : QWord) : Word := q.setWidth 32

/-- The high dword of a 64-bit word. -/
def QWord.hi (q : QWord) : Word := (q >>> 32).setWidth 32

/-- The 64-bit word of a low and a high dword (R6: the low dword lies at the lower address). -/
def QWord.ofHalves (lo hi : Word) : QWord := hi ++ lo

/-- The value of the low `n` bits of `v` read as two's complement. -/
def signedOf (n v : Nat) : Int := if v % 2 ^ n < 2 ^ (n - 1) then (v % 2 ^ n : Nat) else ((v % 2 ^ n : Nat) : Int) - 2 ^ n

/-- The two's complement code of `v` in `n` bits. -/
def codeOf (n : Nat) (v : Int) : Nat := (v % (2 ^ n : Nat)).toNat

end Sys2Proof
end

