-- ==== Sys2Proof/Syntax.lean ====
section
/-!
DEFINITION. The commands of the block: one constructor for each row of the operation table, with the row's operands.
The first operand `dt` of every command is the number of ticks that have passed since the command before it (assumption 1).
-/

namespace Sys2Proof

/-- A command entry of a submission queue (R77). -/
structure Entry where
  /-- OPCODE, bits [7:0] of the dword at 0x00: it picks the command (R90). -/
  opcode : Nat := 0
  /-- PTR and NOIRQ, bits 8 and 9 of the dword at 0x00. -/
  ptr : Bool := false
  noirq : Bool := false
  /-- RSVD, bits [15:10]. -/
  rsvd : Nat := 0
  cmdId : Nat := 0
  target : Nat := 0
  timeoutMs : Nat := 0
  /-- The dwords at 0x08 (OUT_LEN) and 0x0C (RSVD). -/
  outDw : Word := 0
  rsvdDw : Word := 0
  /-- The ten dwords at 0x10 to 0x37. -/
  body : List Word := [0, 0, 0, 0, 0, 0, 0, 0, 0, 0]
  outPtr : QWord := 0
  /-- With PTR 1: the dwords that the device's reads of the block at IN_PTR return. -/
  mem : List Word := []
  deriving DecidableEq, Repr

/-- Who reads a register: the access paths of R59. -/
inductive Port where
  | host
  | sequencer
  | mc
  deriving DecidableEq, Repr

/-- A register of configuration space that the spec names (R39, R40). -/
inductive CfgReg where
  /-- The Command register; bit 2 is Bus Master Enable. -/
  | command
  /-- The MSI-X Message Control register; bit 15 is MSI-X Enable, bit 14 Function Mask. -/
  | msixControl
  /-- The power-management control register; bits [1:0] 0 is D0, 3 is D3hot. -/
  | power
  /-- Vendor ID and Device ID. -/
  | identity
  /-- The class code and the revision. -/
  | classCode
  /-- Device Control of the PCI Express capability; bits [7:5] are Max_Payload_Size, [14:12] Max_Read_Request_Size. -/
  | deviceControl
  /-- Device Capabilities: bits [2:0] are the largest payload supported. -/
  | deviceCaps
  deriving DecidableEq, Repr

/-- Where a register write goes. -/
inductive RegSpace where
  | bar0 (off : Nat)
  | bar4 (off : Nat)
  | config (r : CfgReg)
  deriving DecidableEq, Repr

/-- What firmware finds of the source from which it rebuilds the bytes of region 4 that a sequencer core met marked: it is whole, it is marked code, or it
is a marked configuration on whose tables apertures depend (R402). -/
inductive TrapSource where
  | whole
  | code
  | tables (apertures : List Nat)
  deriving DecidableEq, Repr

/-- Stored bits of capture memory that a read finds other than they were written (R361, R397): the line by its number, the byte of it from 0 to 71,
of which 64 on are check bytes, and the bits. -/
structure Upset where
  line : Nat
  pos : Nat
  bits : Nat
  deriving DecidableEq, Repr

/-- A block read by a slot of pseudo-channel `pc`, and what it finds upset. -/
structure PcRead where
  pc : Nat
  errs : List Upset
  deriving DecidableEq, Repr

/-- A packet read from staging by DMA channel `chan`, and what the read finds upset. -/
structure ChanRead where
  chan : Nat
  errs : List Upset
  deriving DecidableEq, Repr

/-- A byte of region 4 that a sequencer core met marked, and its source. -/
structure TrapRead where
  addr : Nat
  source : TrapSource
  deriving DecidableEq, Repr

/-- The loop of the timebase (R115): its correction and its frequency error, in units of 10⁻¹². -/
structure Loop where
  trim : Int
  freq : Int
  deriving DecidableEq, Repr

/-- The residuals of a slice after its calibration, in the units of R195: of offset, gain, skew and bandwidth. -/
structure Residuals where
  offset : Nat
  gain : Nat
  skew : Nat
  bandwidth : Nat
  deriving DecidableEq, Repr

/-- A configuration request: the ticks before it, and the register it reads. -/
structure CfgRead where
  dt : Nat
  reg : CfgReg
  deriving DecidableEq, Repr

/-- How a read of host memory fails (R642). -/
inductive ReadFail where
  /-- Unsupported Request. -/
  | ur
  /-- Completer Abort. -/
  | ca
  /-- The EP bit. -/
  | ep
  deriving DecidableEq, Repr

/-- What a read of host memory was for (R528, R541, R548, R642). -/
inductive HostReq where
  | sqEntry (q : Nat)
  | paramBlock (q : Nat) (e : Entry)
  | flush (c : Nat)
  /-- A read of a block command: `data` is what its reads before the failing one returned. -/
  | block (ch : Nat) (data : List Word)
  /-- Relay's flush read of the SQ entry of a command. -/
  | relay (slot cid : Nat)
  deriving DecidableEq, Repr

/-- A sync word as received, less its TYPE (R122). -/
structure SyncWord where
  repeated : Bool := false
  prov : Bool := false
  seq : Nat := 0
  id : Nat := 0
  arg : Nat := 0
  tick : QWord := 0
  /-- LOAD_VALUE of the word that follows a RESET_FIRE with TIME, low half first. -/
  payload : List Word := []
  deriving DecidableEq, Repr

/-- How the lanes of an extended multiblock arrived (R173, R174). -/
inductive MbArrival where
  | good
  | crcFails
  /-- Lane `lane` of the link was not complete by the release tick. -/
  | late (lane : Nat)
  deriving DecidableEq, Repr

/-- A real sample of a converter: its 12-bit code and over-range flag (R177). -/
structure AinCode where
  code : Int := 0
  ovr : Bool := false
  deriving DecidableEq, Repr



/-- The commands. -/
inductive Instr where
  /-- NOP (R90): Command that does nothing and completes. -/
  | nop (dt q : Nat) (e : Entry)
  /-- DESCRIBE (R54): Command that writes the capability records to the OUT buffer in ascending REC_TYPE. -/
  | describe (dt q : Nat) (e : Entry)
  /-- RING_CREATE (R66): Ring 0 command that creates mailbox ring 1-63 from an inline parameter block. -/
  | ringCreate (dt q : Nat) (e : Entry)
  /-- RING_DELETE (R67): Ring 0 command that finishes the ring's command in execution, discards untaken commands and deletes the ring. -/
  | ringDelete (dt q : Nat) (e : Entry)
  /-- EVENT_RING_SET (R96): Ring 0 command that sets up, replaces or disables the event ring. -/
  | eventRingSet (dt q : Nat) (e : Entry)
  /-- EVENT_ROUTE (R97): Command that sets RECORD, IRQ and VECTOR for a range of event sources. -/
  | eventRoute (dt q : Nat) (e : Entry)
  /-- TIME_READ (R151): Command that writes the timebase status block to the OUT buffer. -/
  | timeRead (dt q : Nat) (e : Entry)
  /-- TIME_REF_SET (R120): Command that sets the reference mode, PPS, role, group position, masks and PPS load. -/
  | timeRefSet (dt q : Nat) (e : Entry)
  /-- LAUNCH_AT (R133): LAUNCH_AT in mode AT: lead-checked device-scope launch of the listed apertures at TICK. -/
  | launchAt (dt q : Nat) (e : Entry)
  /-- LAUNCH_BIND (R133): LAUNCH_AT in mode BIND: marks the listed apertures launch pending under an identifier for a later FIRE. -/
  | launchBind (dt q : Nat) (e : Entry)
  /-- LAUNCH_FIRE (R133): LAUNCH_AT in mode FIRE: lead-checks and sends FIRE through the group or system scope. -/
  | launchFire (dt q : Nat) (e : Entry)
  /-- LAUNCH_CANCEL (R142): Command that removes a pending launch, sending CANCEL through the scope on a FIRE origin. -/
  | launchCancel (dt q : Nat) (e : Entry)
  /-- BARRIER (R145): Wait command that completes when every device of the scope has arrived at the barrier. -/
  | barrier (dt q : Nat) (e : Entry)
  /-- SNAPSHOT (R147): SNAPSHOT in mode AT: schedules a device latch of every non-EMPTY aperture at a tick. -/
  | snapshot (dt q : Nat) (e : Entry)
  /-- SNAPSHOT_JOIN (R147): SNAPSHOT in mode JOIN: supplies this device's OUT buffer for a snapshot FIRE issued elsewhere. -/
  | snapshotJoin (dt q : Nat) (e : Entry)
  /-- SNAPSHOT_FIRE (R147): SNAPSHOT in mode FIRE: sends SNAP_FIRE through the scope for a snapshot at a tick. -/
  | snapshotFire (dt q : Nat) (e : Entry)
  /-- RESET_AT (R150): Command that schedules an acquisition restart and/or timebase load at a tick over a scope. -/
  | resetAt (dt q : Nat) (e : Entry)
  /-- BROADCAST (R149): Command on the top of a scope that delivers 32 payload bytes to every device of the scope. -/
  | broadcast (dt q : Nat) (e : Entry)
  /-- APERTURE_STAGE (R82): Command that checks a stage list of configuration blocks and places them in the aperture's staged plane. -/
  | apertureStage (dt q : Nat) (e : Entry)
  /-- APERTURE_ADMIT (R24): Command that runs the admission sums in code order and admits the staged configuration. -/
  | apertureAdmit (dt q : Nat) (e : Entry)
  /-- APERTURE_HALT (R343): Command that schedules the halt of a LIVE aperture at a lead-checked tick. -/
  | apertureHalt (dt q : Nat) (e : Entry)
  /-- APERTURE_RELEASE (R94): Command that returns an aperture to EMPTY and frees its resources. -/
  | apertureRelease (dt q : Nat) (e : Entry)
  /-- APERTURE_QUERY (R93): Command that writes an aperture's state, counters, terms and block headers to the OUT buffer. -/
  | apertureQuery (dt q : Nat) (e : Entry)
  /-- APERTURE_WAIT (R91): Wait command that completes when the aperture reaches the awaited state and sub-state. -/
  | apertureWait (dt q : Nat) (e : Entry)
  /-- CAPTURE_ARM (R342): Command that schedules the start of REARM on a COMPLETE aperture at check tick plus 150. -/
  | captureArm (dt q : Nat) (e : Entry)
  /-- CAPTURE_TRIGGER (R342): Command that delivers a confirmed candidate to the aperture on its DONE_TB. -/
  | captureTrigger (dt q : Nat) (e : Entry)
  /-- CAPTURE_FREEZE (R342): Command that schedules a freeze of the acquisition at check tick plus 150. -/
  | captureFreeze (dt q : Nat) (e : Entry)
  /-- RECORD_LIST (R341): Command that writes listed record headers and descriptors from RECNO FROM onward to the OUT buffer. -/
  | recordList (dt q : Nat) (e : Entry)
  /-- BLOCK_READ (R539): Command that copies capture memory to host memory on a plain DMA channel. -/
  | blockRead (dt q : Nat) (e : Entry)
  /-- BLOCK_WRITE (R540): Command that copies host memory whole blocks into a permitted capture-memory target through a bounce area. -/
  | blockWrite (dt q : Nat) (e : Entry)
  /-- TP_LOAD (R484): Command that writes a program image into a trace processor's local memory. -/
  | tpLoad (dt q : Nat) (e : Entry)
  /-- TP_START (R485): TP_START without RESUME: fresh start of a trace processor at ENTRY at a lead-checked tick. -/
  | tpStart (dt q : Nat) (e : Entry)
  /-- TP_RESUME (R485): TP_START with RESUME 1: continues a stopped or trapped processor at PC with its registers kept. -/
  | tpResume (dt q : Nat) (e : Entry)
  /-- TP_STOP (R486): Command that stops a running trace processor at the first boundary not held off. -/
  | tpStop (dt q : Nat) (e : Entry)
  /-- DISPLAY_MODE (R441): Command that sets the raster timing and link, taking effect at the next start of vertical blanking. -/
  | displayMode (dt q : Nat) (e : Entry)
  /-- LAYER_SET (R442): Command that sets a layer's enable, source feed, zoom, alpha and position for the next latch. -/
  | layerSet (dt q : Nat) (e : Entry)
  /-- LAYER_FLIP (R444): Command that requests a flip of a layer to a buffer, latched at the next start of vertical blanking. -/
  | layerFlip (dt q : Nat) (e : Entry)
  /-- RELAY_ATTACH (R543): Command that attaches an NVMe drive's I/O queues to a Relay drive slot. -/
  | relayAttach (dt q : Nat) (e : Entry)
  /-- RELAY_DETACH (R549): Command that returns a drive slot's queues to the host when no stream is on it. -/
  | relayDetach (dt q : Nat) (e : Entry)
  /-- CAL_SWEEP (R610): Command that sweeps the calibration tone over the named converters. -/
  | calSweep (dt q : Nat) (e : Entry)
  /-- CAL_APPLY (R575): Command that applies a correction set to the named converters by a launch. -/
  | calApply (dt q : Nat) (e : Entry)
  /-- SENSOR_READ (R565): Command that writes temperatures and rail figures to the OUT buffer. -/
  | sensorRead (dt q : Nat) (e : Entry)
  /-- LOG_READ (R572): Command that writes event-log records from SEQ FROM onward to the OUT buffer. -/
  | logRead (dt q : Nat) (e : Entry)
  /-- SPARE_STATUS (R420): Command that writes the spare inventory and retired units to the OUT buffer. -/
  | spareStatus (dt q : Nat) (e : Entry)
  /-- SPARE_POLICY (R594): Ring 0 command that reads or sets a wear threshold and mode, optionally persisting it. -/
  | sparePolicy (dt q : Nat) (e : Entry)
  /-- FW_UPDATE_BEGIN (R583): Ring 0 command that opens an update and erases the inactive image slot. -/
  | fwUpdateBegin (dt q : Nat) (e : Entry)
  /-- FW_UPDATE_DATA (R583): Ring 0 command that programs the next image bytes into the slot. -/
  | fwUpdateData (dt q : Nat) (e : Entry)
  /-- FW_UPDATE_COMMIT (R583): Ring 0 command that verifies the received image and makes the slot PENDING. -/
  | fwUpdateCommit (dt q : Nat) (e : Entry)
  /-- ATTEST (R590): Command that signs an attestation report with the next XMSS leaf. -/
  | attest (dt q : Nat) (e : Entry)
  /-- IDENTITY_READ (R587): Command that writes the identity block to the OUT buffer. -/
  | identityRead (dt q : Nat) (e : Entry)
  /-- SQ_DB (R69): Write of a submission doorbell that commits new SQ entries or is refused and faults the ring. -/
  | sqDb (dt : Nat) (q : Nat) (v : Word)
  /-- CQ_DB (R74): Write of a completion doorbell that frees CQ room, releasing any held completion. -/
  | cqDb (dt : Nat) (q : Nat) (v : Word)
  /-- EVQ_DB (R101): Write of the event-ring head doorbell. -/
  | evqDb (dt : Nat) (v : Word)
  /-- RING0_ENABLE (R51): Write of RING0_CFG.ENABLE from 0 to 1 that samples and accepts or faults ring 0. -/
  | ring0Enable (dt : Nat) (v : Word)
  /-- RING0_DISABLE (R50): Write of RING0_CFG.ENABLE from 1 to 0 that deletes ring 0 as RING_DELETE does. -/
  | ring0Disable (dt : Nat) (v : Word)
  /-- IND_DATA_READ (R62): Read of IND_DATA that reads the register at IND_ADDR, with auto-increment. -/
  | indDataRead (dt : Nat) (lo len : Nat)
  /-- IND_DATA_WRITE (R62): Write of IND_DATA that writes the register at IND_ADDR, with auto-increment. -/
  | indDataWrite (dt : Nat) (v : Word)
  /-- LOW_HALF_READ (R59): Read of the low half of a 64-bit register that latches its high half into the path's shadow. -/
  | lowHalfRead (dt : Nat) (p : Port) (addr lo len : Nat)
  /-- HIGH_HALF_READ (R60): Read of the high half of a 64-bit register, from the shadow or live with SHADOW_MISS. -/
  | highHalfRead (dt : Nat) (p : Port) (addr lo len : Nat)
  /-- RC_FIELD_READ (R11): Read of an RC field that returns the value and clears it. -/
  | rcFieldRead (dt : Nat) (addr lo len : Nat)
  /-- BAR0_PARTIAL_WRITE (R48): A BAR0 write not covering a whole dword is discarded and sets PARTIAL_WR. -/
  | bar0PartialWrite (dt : Nat) (addr lo len : Nat)
  /-- REGISTER_WRITE (R49): Write of a register field that has no row of its own. -/
  | registerWrite (dt : Nat) (sp : RegSpace) (vs : List Word)
  /-- BAR2_READ (R42): Host read through the capture window served in whole 64-byte lines. -/
  | bar2Read (dt : Nat) (off len : Nat) (errs : List Upset)
  /-- BAR2_WRITE (R45): Host write to BAR2, discarded with BAR2_WR set. -/
  | bar2Write (dt : Nat) (off : Nat)
  /-- MSIX_VECTOR_UNMASK (R102): Unmasking a vector sends its pending MSI-X message. -/
  | msixVectorUnmask (dt : Nat) (v : Nat)
  /-- EXP_HEAD_WRITE (R527): Write of EXP_HEAD_HI that applies a new HEAD to a streaming channel or refuses it. -/
  | expHeadWrite (dt : Nat) (c : Nat) (hi : Word)
  /-- EXP_PAUSE (R536): Write of PAUSE 1 that pauses a streaming channel after a final publication. -/
  | expPause (dt : Nat) (c : Nat)
  /-- EXP_RESUME (R536): Write of PAUSE 0 that resumes a paused channel at EXP_STG. -/
  | expResume (dt : Nat) (c : Nat)
  /-- CLEAR_HALT (R535): Write of 1 to CLEAR_HALT that restarts a halted channel at its last publication. -/
  | clearHalt (dt : Nat) (c : Nat)
  /-- MKQ_DATA_READ (R501): Read of an MKQ_DATA alias that pops one word of a marker queue. -/
  | mkqDataRead (dt : Nat) (n k : Nat)
  /-- FLR (R39): Function Level Reset that stops device requests, deletes rings and clears MSI-X. -/
  | flr (dt : Nat)
  /-- D3HOT_ENTRY (R39): Transition to D3hot with the effects of an FLR on rings and streams. -/
  | d3hotEntry (dt : Nat)
  /-- BUS_MASTER_CLEAR (R39): Clear of Bus Master Enable with the effects of an FLR on rings and streams. -/
  | busMasterClear (dt : Nat)
  /-- HOT_RESET (R616): PCIe hot reset with the effects of R39. -/
  | hotReset (dt : Nat)
  /-- READY_RETURN (R40): FW_STATUS.READY returns to 1 once deletion is done and the function is in D0 with bus mastering. -/
  | readyReturn (dt : Nat)
  /-- HOST_READ_ERROR_COMPLETION (R642): A device read of host memory completes with UR, CA or EP and is retried or failed. -/
  | hostReadErrorCompletion (dt : Nat) (r : HostReq) (kind : ReadFail) (addr : QWord)
  /-- HOST_READ_TIMEOUT (R642): A device read of host memory has no completion within 10 ms. -/
  | hostReadTimeout (dt : Nat) (r : HostReq) (addr : QWord)
  /-- COMMAND_TIMEOUT (R645): TIMEOUT_MS of a taken command expires before its condition or tick. -/
  | commandTimeout (dt : Nat) (q : Nat)
  /-- REF_IN_PRESENT (R113): REF_IN becomes present after 1,000 periods within tolerance. -/
  | refInPresent (dt : Nat)
  /-- REF_IN_LOST (R113): REF_IN is lost after 16 missing or out-of-range periods. -/
  | refInLost (dt : Nat)
  /-- PPS_EDGE (R114): An edge of PPS_IN of the configured polarity disciplines the phase of the count. -/
  | ppsEdge (dt : Nat) (falling : Bool) (frac : Nat)
  /-- PPS_LOST (R114): No PPS edge arrives within 1.1 s of the previous one. -/
  | ppsLost (dt : Nat)
  /-- TIMEBASE_LOCK (R115): The timebase reaches LOCKED when every reference is present and errors are within limits. -/
  | timebaseLock (dt : Nat) (loop : Loop) (phase : Int)
  /-- IDLE (R129): Sync IDLE word received, carrying TQ and the scope-complete bit. -/
  | idle (dt k : Nat) (w : SyncWord)
  /-- RANGE_REQ (R125): Ranging request word received and echoed. -/
  | rangeReq (dt k : Nat) (w : SyncWord)
  /-- RANGE_ECHO (R125): Ranging echo word received, updating the filtered one-way delay. -/
  | rangeEcho (dt k : Nat) (w : SyncWord)
  /-- FIRE (R136): FIRE word received and kept until its launch tick, or repeated downward by the top. -/
  | fire (dt k : Nat) (w : SyncWord)
  /-- CANCEL (R142): CANCEL word received, removing the pending launch on the device. -/
  | cancel (dt k : Nat) (w : SyncWord)
  /-- APPLIED (R133): APPLIED count word received; at the origin it completes the FIRE. -/
  | applied (dt k : Nat) (w : SyncWord)
  /-- SNAP_FIRE (R147): SNAP_FIRE word received, scheduling a snapshot latch. -/
  | snapFire (dt k : Nat) (w : SyncWord)
  /-- RESET_FIRE (R150): RESET_FIRE word received, scheduling a scope reset. -/
  | resetFire (dt k : Nat) (w : SyncWord)
  /-- BARRIER_ARRIVE (R145): Barrier arrival word received and counted toward the top. -/
  | barrierArrive (dt k : Nat) (w : SyncWord)
  /-- BARRIER_WITHDRAW (R146): Barrier withdraw word received by the top. -/
  | barrierWithdraw (dt k : Nat) (w : SyncWord)
  /-- BARRIER_RELEASE (R145): Barrier release word received, completing the barrier at the release tick. -/
  | barrierRelease (dt k : Nat) (w : SyncWord)
  /-- BARRIER_WITHDRAWN (R146): Barrier withdrawn word received, completing the barrier with EFS_TIMEOUT. -/
  | barrierWithdrawn (dt k : Nat) (w : SyncWord)
  /-- BCAST_DATA (R149): Broadcast payload word received and stored at the delivery tick. -/
  | bcastData (dt k : Nat) (w : SyncWord)
  /-- BCAST_ACK (R149): Broadcast acknowledgement word received by the sender. -/
  | bcastAck (dt k : Nat) (w : SyncWord)
  /-- TRIG (R307): Remote TRIG word received, confirmed or provisional. -/
  | trig (dt k : Nat) (w : SyncWord)
  /-- VERDICT (R308): Remote VERDICT word received, resolving a pending provisional TRIG. -/
  | verdict (dt k : Nat) (w : SyncWord)
  /-- REMOTE_TRIG_TIMEOUT (R308): A provisional TRIG gets no VERDICT within 16,384 ticks and is resolved as cancelled. -/
  | remoteTrigTimeout (dt : Nat) (id fire : Nat)
  /-- RANGING_TIMER (R125): Every 1 s while a link is up, ranging is repeated. -/
  | rangingTimer (dt : Nat) (k : Nat)
  /-- SYNC_LINK_UP (R126): A sync link comes up after 1 ms of word alignment and successful ranging. -/
  | syncLinkUp (dt : Nat) (k delayPs : Nat) (upstream : QWord)
  /-- SYNC_LINK_DOWN (R126): A sync link goes down after 16 word slots without a good CRC. -/
  | syncLinkDown (dt : Nat) (k cause : Nat)
  /-- LAUNCH_TICK (R139): At a launch tick every unit of every named aperture makes its staged plane live. -/
  | launchTick (dt : Nat) (id : Nat)
  /-- SNAPSHOT_TICK (R147): At the snapshot tick every non-EMPTY aperture is latched. -/
  | snapshotTick (dt : Nat) (id : Nat)
  /-- SNAPSHOT_OUT_WRITE (R148): After the verdicts of triggers provisional at the snapshot tick, the snapshot is written and completes. -/
  | snapshotOutWrite (dt : Nat) (id : Nat)
  /-- RESET_TICK (R150): At the reset tick LIVE apertures restart in FILLING and/or the count is loaded. -/
  | resetTick (dt : Nat) (id : Nat)
  /-- BROADCAST_DELIVERY (R149): At the delivery tick the payload is stored and BCAST_SEQ advances. -/
  | broadcastDelivery (dt : Nat)
  /-- APERTURE_HALT_TICK (R342): At the halt tick records in post-fill are cut and the aperture goes HALTED. -/
  | apertureHaltTick (dt : Nat) (a : Nat)
  /-- CAPTURE_ARM_EFFECT (R342): At its tick of effect CAPTURE_ARM begins REARM. -/
  | captureArmEffect (dt : Nat) (a : Nat)
  /-- CAPTURE_FREEZE_EFFECT (R342): At its tick of effect a freeze makes a NO_TRIGGER record or cuts records and ends the sequence. -/
  | captureFreezeEffect (dt : Nat) (a : Nat)
  /-- TP_START_TICK (R485): At the start tick the processor issues its first instruction and the command completes. -/
  | tpStartTick (dt : Nat) (n : Nat)
  /-- PSL_FRAME (R159): A PSL frame is received whole, checked, and held, discarded or counted. -/
  | pslFrame (dt : Nat) (pad : Nat) (words : List Word)
  /-- PSL_GROUP_RELEASE (R162): After the deskew hold a whole PSL group is released to the Splitter with stamps and drift check. -/
  | pslGroupRelease (dt : Nat) (s : Nat)
  /-- STREAM_DOWN_TIMEOUT (R189): An UP stream with no good frame for 1 ms goes DOWN. -/
  | streamDownTimeout (dt : Nat) (s : Nat)
  /-- SUBSTITUTE_DUE (R647): A due tick passes without the sample, so a poisoned zero substitute is delivered. -/
  | substituteDue (dt : Nat) (s : Nat)
  /-- JESD_MULTIBLOCK_RELEASE (R173): At B + RELEASE an extended multiblock's samples are released or declared lost. -/
  | jesdMultiblockRelease (dt : Nat) (link : Nat) (arr : MbArrival) (convs : List (List Word))
  /-- SYSREF_EDGE (R171): A SYSREF edge aligns the LEMC or is checked against it. -/
  | sysrefEdge (dt : Nat)
  /-- JESD_LANE_ALIGNMENT_LOSS (R174): A lane losing multiblock alignment takes its JESD link down. -/
  | jesdLaneAlignmentLoss (dt : Nat) (pad : Nat)
  /-- SPLITTER_DELIVERY (R185): A stream sample entering the Splitter is delivered to every port of its DEST mask 12 ticks later. -/
  | splitterDelivery (dt : Nat) (s : Nat) (r0 r1 : AinCode)
  /-- ROTATION_SWAP (R181): Every 8 ms a calibrated slice takes a position of the interleave. -/
  | rotationSwap (dt : Nat) (n : Nat) (res : Residuals)
  /-- SPARE_LOCKSTEP_END (R412): A spare's lockstep span ends in agreement, scheduling the take-over, or in mismatch. -/
  | spareLockstepEnd (dt : Nat) (id : Nat) (agree : Bool)
  /-- WEAR_EVALUATION (R593): Once per second the MC evaluates every wear indicator against the spare policy. -/
  | wearEvaluation (dt : Nat) (kind unit ind : Nat) (value : Nat)
  /-- CHANNEL_OUTPUT_WRITE (R226): A channeliser output sample is written to frame staging. -/
  | channelOutputWrite (dt : Nat) (c : Nat)
  /-- FRAME_READ_START (R241): The engine pair begins reading the completed frame with the earliest deadline. -/
  | frameReadStart (dt : Nat) (sector engine : Nat) (errs : List (Nat × Nat))
  /-- SPECTRUM_DELIVERY (R256): A spectrum is delivered to the consumers at tick D. -/
  | spectrumDelivery (dt : Nat) (c : Nat) (checkFails : Bool)
  /-- BIN_EMISSION (R256): A bin leaves the engine at its tick and reaches the consumers. -/
  | binEmission (dt : Nat) (c : Nat)
  /-- TIME_SAMPLE_DELIVERY (R242): A channel output sample is delivered to the consumers 8 ticks after its write. -/
  | timeSampleDelivery (dt : Nat) (c : Nat)
  /-- MASK_VERDICT (R286): At D + N/8 + 48 a mask unit confirms, cancels or makes its fire for the frame. -/
  | maskVerdict (dt : Nat) (u : Nat)
  /-- COMBINER_EVENT (R290): An input event arrives at a combiner and advances its stage sequence. -/
  | combinerEvent (dt : Nat) (k : Nat)
  /-- COMBINER_VERDICT (R292): A verdict arrives at a combiner, resolving held events or its provisional output and journal. -/
  | combinerVerdict (dt : Nat) (k : Nat)
  /-- APERTURE_CANDIDATE (R310): A trigger candidate arrives at an aperture and acts by acquisition sub-state. -/
  | apertureCandidate (dt : Nat) (a : Nat)
  /-- APERTURE_VERDICT (R311): The verdict of the current provisional candidate arrives at the aperture. -/
  | apertureVerdict (dt : Nat) (a : Nat)
  /-- TRIGGER_PULSE (R301): A queued pulse starts on a trigger output. -/
  | triggerPulse (dt : Nat) (n : Nat)
  /-- CANCEL_CODE (R301): A queued cancel or confirm code starts on a TC line. -/
  | cancelCode (dt : Nat) (n : Nat)
  /-- REARM_END (R312): REARM ends 384 ticks after it began and a new sequence starts in FILLING. -/
  | rearmEnd (dt : Nat) (a : Nat)
  /-- ENTRY_WRITE (R330): The capture writer writes a reduction entry into the current slice. -/
  | entryWrite (dt : Nat) (a slot ch : Nat)
  /-- RECORD_COMPLETE (R335): A record completes when its last entry is written in every slot and channel. -/
  | recordComplete (dt : Nat) (a : Nat)
  /-- PERIOD_BOUNDARY (R365): At a schedule period boundary a compiled schedule or map comes into force and settings apply. -/
  | periodBoundary (dt : Nat)
  /-- SCHEDULED_SLOT (R364): A scheduled slot moves one capture block to or from the DRAM. -/
  | scheduledSlot (dt : Nat) (x : Nat)
  /-- REFRESH_SLOT (R370): A refresh slot issues one per-bank refresh of 8 rows. -/
  | refreshSlot (dt : Nat) (x : Nat)
  /-- NEIGHBOUR_REFRESH_SLOT (R371): A neighbour-refresh slot serves one queued neighbour refresh or a correction write-back. -/
  | neighbourRefreshSlot (dt : Nat) (x : Nat)
  /-- LEFTOVER_SLOT (R368): A leftover slot is given to the highest-ranked waiting requester. -/
  | leftoverSlot (dt : Nat) (r : PcRead)
  /-- RANK_POWER_DOWN (R373): A rank enters power-down after PD_IDLE slots without a command. -/
  | rankPowerDown (dt : Nat) (x rank : Nat)
  /-- STACK_TEMPERATURE_SAMPLE (R370): Every 1 ms the stack readout sets the 32 ms or 16 ms refresh rate. -/
  | stackTemperatureSample (dt : Nat) (stack : Nat) (t : Int)
  /-- RETRAIN_START (R379): A pseudo-channel's periodic or triggered retraining starts. -/
  | retrainStart (dt : Nat) (x : Nat)
  /-- TRAINING_STEP_END (R379): A training step ends and applies, repeats or fails its setting. -/
  | trainingStepEnd (dt : Nat) (x : Nat) (eyeW eyeH : Nat) (ok : Bool)
  /-- PHY_RELOCK_DONE (R377): After a rate change the PHY relocks and training restarts at the new rate. -/
  | phyRelockDone (dt : Nat)
  /-- CE_WRITEBACK (R399): A corrected block or byte is written back unless a newer write competes. -/
  | ceWriteback (dt : Nat) (addr : Nat)
  /-- CAPTURE_SCRUB_READ (R405): The capture scrubber reads a block in a rank-5 slot and corrects or poisons it. -/
  | captureScrubRead (dt : Nat) (x : Nat) (errs : List Upset)
  /-- FACET_SCRUB_READ (R407): The Facet scrubber reads one line of an idle bank. -/
  | facetScrubRead (dt : Nat) (g line : Nat) (errs : List (Nat × Nat))
  /-- SEQUENCER_TRAP (R402): A sequencer access meeting a memory mark makes firmware rebuild the bytes. -/
  | sequencerTrap (dt : Nat) (r : TrapRead)
  /-- DECAY_SWEEP_START (R428): At each decay period a sweep over every cell of the plane starts. -/
  | decaySweepStart (dt : Nat) (p : Nat)
  /-- RENDER_START (R432): At t_k render k starts into buffer k mod NBUF. -/
  | renderStart (dt : Nat) (p : Nat)
  /-- RENDER_COMPLETE (R434): Render k completes at t_(k+1) and with AUTO_FLIP requests a flip. -/
  | renderComplete (dt : Nat) (p : Nat)
  /-- VERTICAL_BLANKING_START (R446): At each start of vertical blanking frame-done, blank, mode, latches and fetch start in order. -/
  | verticalBlankingStart (dt : Nat)
  /-- ACTIVE_LINE_START (R439): An active line of the raster begins and its pixels are composed from the line buffers. -/
  | activeLineStart (dt : Nat)
  /-- PIXEL_CLOCK_LOCK (R441): The pixel clock locks and the raster starts with a black frame. -/
  | pixelClockLock (dt : Nat)
  /-- HPD_RISE (R451): A rising HPD makes firmware read DPCD and EDID and train the link. -/
  | hpdRise (dt : Nat) (edid dpcd : List Byte)
  /-- IRQ_HPD (R451): An IRQ_HPD pulse makes firmware check link status and retrain. -/
  | irqHpd (dt : Nat) (locked : Bool)
  /-- HPD_LOSS (R451): Loss of HPD raises EV_DP_HPD cause 2. -/
  | hpdLoss (dt : Nat)
  /-- DP_LINK_TRAINING_END (R451): DisplayPort link training ends in success or failure. -/
  | dpLinkTrainingEnd (dt : Nat) (ok : Bool)
  /-- TP_NOP (R474): Trace processor instruction nop. -/
  | tpNop (dt : Nat) (n : Nat)
  /-- TP_HALT (R474): Instruction halt stops the processor in STOPPED with EV_TP cause 2. -/
  | tpHalt (dt : Nat) (n : Nat)
  /-- WAIT (R471): Instruction wait stops issue until IPEND and MASK share a bit. -/
  | tpWait (dt : Nat) (n mask : Nat)
  /-- WAIT_WAKE (R471): A waited source becomes pending and issue resumes 3 cycles later. -/
  | waitWake (dt : Nat) (n : Nat)
  /-- SIG (R474): Instruction sig raises EV_TP cause 1 with CODE. -/
  | tpSig (dt : Nat) (n code : Nat)
  /-- ADD (R463): Instruction add on d registers, setting flags. -/
  | tpAdd (dt : Nat) (n : Nat)
  /-- SUB (R463): Instruction sub on d registers, setting flags. -/
  | tpSub (dt : Nat) (n : Nat)
  /-- AND (R463): Instruction and on d registers. -/
  | tpAnd (dt : Nat) (n : Nat)
  /-- OR (R463): Instruction or on d registers. -/
  | tpOr (dt : Nat) (n : Nat)
  /-- XOR (R463): Instruction xor on d registers. -/
  | tpXor (dt : Nat) (n : Nat)
  /-- SHL (R474): Instruction shl by register or immediate. -/
  | tpShl (dt : Nat) (n : Nat)
  /-- SHR (R474): Instruction shr by register or immediate. -/
  | tpShr (dt : Nat) (n : Nat)
  /-- SAR (R474): Instruction sar by register or immediate. -/
  | tpSar (dt : Nat) (n : Nat)
  /-- MUL (R463): Instruction mul of the low 32 bits giving a 64-bit product. -/
  | tpMul (dt : Nat) (n : Nat)
  /-- CMP (R463): Instruction cmp setting the flags of dA minus dB. -/
  | tpCmp (dt : Nat) (n : Nat)
  /-- MOV (R474): Instruction mov between d registers. -/
  | tpMov (dt : Nat) (n : Nat)
  /-- LI (R474): Instruction li loading a sign-extended immediate. -/
  | tpLi (dt : Nat) (n : Nat)
  /-- LIH (R474): Instruction lih shifting in 16 immediate bits. -/
  | tpLih (dt : Nat) (n : Nat)
  /-- LD (R458): Instruction ld loading 16, 32 or 64 bits with pointer post-update. -/
  | tpLd (dt : Nat) (n : Nat)
  /-- ST (R462): Instruction st storing 16, 32 or 64 bits with saturation and pointer post-update. -/
  | tpSt (dt : Nat) (n : Nat)
  /-- STACC (R462): Instruction stacc storing a rounded accumulator as a complex word. -/
  | tpStacc (dt : Nat) (n : Nat)
  /-- MOVP (R474): Instruction movp writing a pointer register. -/
  | tpMovp (dt : Nat) (n : Nat)
  /-- MOVB (R474): Instruction movb writing a circular-buffer base. -/
  | tpMovb (dt : Nat) (n : Nat)
  /-- MOVL (R474): Instruction movl writing a circular-buffer length. -/
  | tpMovl (dt : Nat) (n : Nat)
  /-- MVP (R474): Instruction mvp reading a pointer register. -/
  | tpMvp (dt : Nat) (n : Nat)
  /-- MVB (R474): Instruction mvb reading a base register. -/
  | tpMvb (dt : Nat) (n : Nat)
  /-- MVL (R474): Instruction mvl reading a length register. -/
  | tpMvl (dt : Nat) (n : Nat)
  /-- ADDP (R458): Instruction addp updating a pointer by an immediate. -/
  | tpAddp (dt : Nat) (n : Nat)
  /-- CMAC4 (R460): Instruction cmac4 accumulating four complex lanes into a0-a3. -/
  | tpCmac4 (dt : Nat) (n : Nat)
  /-- CMAC1 (R460): Instruction cmac1 accumulating one complex product into an accumulator. -/
  | tpCmac1 (dt : Nat) (n : Nat)
  /-- CLRA (R474): Instruction clra clearing an accumulator and its AV. -/
  | tpClra (dt : Nat) (n : Nat)
  /-- ADDA (R461): Instruction adda adding one accumulator into another with clamping. -/
  | tpAdda (dt : Nat) (n : Nat)
  /-- MVA (R462): Instruction mva moving a rounded accumulator part to a d register. -/
  | tpMva (dt : Nat) (n : Nat)
  /-- BR (R465): Instruction br branching on COND after two delay slots. -/
  | tpBr (dt : Nat) (n : Nat)
  /-- JAL (R465): Instruction jal jumping and linking after two delay slots. -/
  | tpJal (dt : Nat) (n : Nat)
  /-- JR (R465): Instruction jr jumping to a register address after two delay slots. -/
  | tpJr (dt : Nat) (n : Nat)
  /-- RTI (R469): Instruction rti returning to EPC and re-enabling interrupts. -/
  | tpRti (dt : Nat) (n : Nat)
  /-- REP (R466): Instruction rep repeating the following LEN instructions COUNT times. -/
  | tpRep (dt : Nat) (n : Nat)
  /-- POP (R481): Instruction pop taking a descriptor from a feed queue. -/
  | tpPop (dt : Nat) (n : Nat)
  /-- PUSH (R520): Instruction push placing a word, optionally with end mark, in the result queue. -/
  | tpPush (dt : Nat) (n : Nat)
  /-- QCNT_FEED (R474): Instruction qcnt reading the whole packets waiting in a feed. -/
  | tpQcntFeed (dt : Nat) (n : Nat)
  /-- QCNT_RESULT (R474): Instruction qcnt reading the free words of the result queue. -/
  | tpQcntResult (dt : Nat) (n : Nat)
  /-- MFC (R457): Instruction mfc reading a control register. -/
  | tpMfc (dt : Nat) (n : Nat)
  /-- MTC (R457): Instruction mtc writing a control register. -/
  | tpMtc (dt : Nat) (n : Nat)
  /-- BIND_CLR (R457): An mtc with BIND_CLR 1 clears IPEND_BIND. -/
  | tpBindClr (dt : Nat) (n : Nat)
  /-- TCMP_HI_WRITE (R457): An mtc to TCMP_HI arms the timer with the whole 64-bit compare value. -/
  | tpTcmpHiWrite (dt : Nat) (n : Nat)
  /-- RDT (R474): Instruction rdt reading the timebase count. -/
  | tpRdt (dt : Nat) (n : Nat)
  /-- INTERRUPT_ENTRY (R469): An enabled pending interrupt is taken at a boundary, transferring to IVEC. -/
  | interruptEntry (dt : Nat) (n : Nat)
  /-- TIMER_COMPARE (R467): The timebase count reaches TCMP and interrupt source 8 becomes pending. -/
  | timerCompare (dt : Nat) (n : Nat)
  /-- FEED_DESCRIPTOR_PUSH (R481): A finished feed item's descriptor is pushed into its feed queue. -/
  | feedDescriptorPush (dt : Nat) (n f : Nat)
  /-- MARKER_EDGE (R491): An edge at a marker input is recognised and stamped. -/
  | markerEdge (dt : Nat) (n : Nat) (falling : Bool) (sub : Nat)
  /-- MARKER_ENTRY_PUSH (R499): A stamp or interval entry is pushed into the marker queue 40 ticks after its edge. -/
  | markerEntryPush (dt : Nat) (n : Nat)
  /-- INTERVAL_TIMEOUT (R505): A pending measurement reaches start + TIMEOUT + 36 and closes with TIMEOUT. -/
  | intervalTimeout (dt : Nat) (n : Nat)
  /-- QUEUE_DRAIN (R518): The capture writer drains a whole queue packet into export staging. -/
  | queueDrain (dt : Nat) (c : Nat)
  /-- PACKET_START (R529): A streaming channel starts a packet while its request is asserted and the host ring has room. -/
  | packetStart (dt : Nat) (r : ChanRead)
  /-- FLUSH_TIMER (R529): The oldest unsent byte has waited FLUSH_US and a flush asserts the request. -/
  | flushTimer (dt : Nat) (c : Nat)
  /-- PUBLICATION_START (R528): A channel sends a flush read of the last byte written to publish. -/
  | publicationStart (dt : Nat) (c : Nat)
  /-- FLUSH_READ_COMPLETE (R528): A flush read completes, the new TAIL is written and staging is released. -/
  | flushReadComplete (dt : Nat) (c : Nat)
  /-- BLOCK_TRANSFER_COMPLETE (R541): A block command's final flush read returns and the command completes. -/
  | blockTransferComplete (dt : Nat) (ch : Nat) (data : List Word) (errs : List Upset)
  /-- RELAY_CHUNK_SUBMIT (R547): Relay writes a Write command for a published chunk and rings the drive's SQ doorbell. -/
  | relayChunkSubmit (dt : Nat) (st : Nat)
  /-- NVME_COMPLETION (R547): A drive writes a completion into BAR4 CQ memory and Relay consumes it. -/
  | nvmeCompletion (dt : Nat) (slot cid status : Nat)
  /-- NVME_COMMAND_TIMEOUT (R548): An NVMe command has no completion within 2,000 ms and is resubmitted or fails the slot. -/
  | nvmeCommandTimeout (dt : Nat) (slot cid : Nat)
  /-- RELAY_DRAIN_COMPLETE (R549): A stopped stream's outstanding commands finish, drives are flushed and EV_RELAY cause 5 is raised. -/
  | relayDrainComplete (dt : Nat) (st : Nat)
  /-- SENSOR_CONVERSION (R564): Every 1 ms the MC converts every temperature sensor and rail monitor. -/
  | sensorConversion (dt : Nat) (temps : List Int) (rails : List (Nat × Nat))
  /-- CAL_SWEEP_END (R614): A sweep measures its last point, completes and holds its result. -/
  | calSweepEnd (dt : Nat)
  /-- LOG_FLUSH (R570): Buffered log records reach flash. -/
  | logFlush (dt : Nat)
  /-- MC_WATCHDOG_RESTART (R562): The watchdog restarts the MC after 100 ms without service. -/
  | mcWatchdogRestart (dt : Nat)
  /-- UPDATE_IDLE_TIMEOUT (R583): An update with no FW_UPDATE_DATA for 600 s is closed. -/
  | updateIdleTimeout (dt : Nat)
  /-- TRIAL_READY_TIMEOUT (R584): A trial image not READY within 10 s is rolled back. -/
  | trialReadyTimeout (dt : Nat)
  /-- TRIAL_SUCCESS (R584): A trial image that keeps FAULT 0 for 60 s after READY becomes ACTIVE. -/
  | trialSuccess (dt : Nat)
  /-- FIRMWARE_FAULT_RESTART (R616): Firmware FAULT held for 1 s makes the MC issue a restart as MRST_N. -/
  | firmwareFaultRestart (dt : Nat)
  /-- STAGE_FAILURE_RESTART (R623): One second after a bring-up stage fails the MC restarts the part. -/
  | stageFailureRestart (dt : Nat)
  /-- STANDBY_POWER_UP (R618): The standby rail enters its window and bring-up begins at stage 0x00. -/
  | standbyPowerUp (dt : Nat) (rcvLow shdnLow : Bool)
  /-- RAIL_ENABLE (R598): 1 ms after the previous rail is in its window the MC asserts the next enable. -/
  | railEnable (dt : Nat)
  /-- RAIL_WINDOW_TIMEOUT (R598): A rail misses its window within 10 ms and every main rail goes off. -/
  | railWindowTimeout (dt : Nat)
  /-- SHDN_N_LOW (R600): SHDN_N low for 1 ms starts an ordered shutdown. -/
  | shdnNLow (dt : Nat)
  /-- SHUTDOWN_COMPLETE (R600): All main rails are below 10 % and the log buffer is empty, so MAIN_OK goes low. -/
  | shutdownComplete (dt : Nat)
  /-- SHDN_N_HIGH (R600): SHDN_N returns high and bring-up restarts at stage 0x02. -/
  | shdnNHigh (dt : Nat)
  /-- MRST_N_LOW (R637): MRST_N low for at least 1 µs resets everything but the MC. -/
  | mrstNLow (dt : Nat)
  /-- MRST_N_RELEASE (R616): Release of MRST_N resumes bring-up at stage 0x10. -/
  | mrstNRelease (dt : Nat)
  /-- REFCLK_PRESENT (R602): REFCLK becomes present after 1,000 good periods. -/
  | refclkPresent (dt : Nat)
  /-- REFCLK_LOST (R605): REFCLK loses 16 periods and the MC stops every root-derived clock. -/
  | refclkLost (dt : Nat)
  /-- MDLL_LOCK (R603): The root MDLL completes its band search and locks or fails. -/
  | mdllLock (dt : Nat) (ok : Bool)
  /-- SYNTHESISER_LOCK (R607): A synthesiser completes its lock and its output starts. -/
  | synthesiserLock (dt : Nat) (n : Nat) (ok : Bool)
  /-- BRINGUP_STAGE_END (R618): A bring-up stage ends and the next stage code is entered. -/
  | bringupStageEnd (dt : Nat) (ok : Bool) (bad : List (Nat × Nat))
  /-- PERST_ASSERT (R616): PERST# asserted resets the PCIe controller and link with the effects of R39. -/
  | perstAssert (dt : Nat)
  /-- PERST_RELEASE (R620): PERST# released starts link training and configuration retry handling. -/
  | perstRelease (dt : Nat)
  /-- TRST_N_LOW (R616): TRST_N low resets the JTAG TAP. -/
  | trstNLow (dt : Nat)
  /-- BYPASS (R640): JTAG instruction BYPASS. -/
  | bypass (dt : Nat)
  /-- IDCODE (R640): JTAG instruction IDCODE returning 0x1751_23CB. -/
  | idcode (dt : Nat)
  /-- SAMPLE_PRELOAD (R640): JTAG instruction SAMPLE/PRELOAD. -/
  | samplePreload (dt : Nat) (v : Nat)
  /-- EXTEST (R640): JTAG instruction EXTEST, effective only while MRST_N is low. -/
  | extest (dt : Nat) (v : Nat)
  /-- CLAMP (R640): JTAG instruction CLAMP, effective only while MRST_N is low. -/
  | clamp (dt : Nat)
  /-- HIGHZ (R640): JTAG instruction HIGHZ, effective only while MRST_N is low. -/
  | highz (dt : Nat)
  /-- SMBUS_BLOCK_READ (R639): SMBus Block Read returning a Periscope dword. -/
  | smbusBlockRead (dt : Nat) (cmd : Nat)
  /-- SMBUS_ALERT_RESPONSE (R639): Read of the Alert Response Address returning the target address while alert is low. -/
  | smbusAlertResponse (dt : Nat)
  /-- JESD_LANE_ALIGNED (R174): A JESD204C lane gains block and multiblock alignment, which can bring its link and stream up. -/
  | jesdLaneAligned (dt : Nat) (pad : Nat)
  /-- SYNC_WORD_CRC_ERROR (R123): A sync word with a bad CRC is received, discarded and counted in the link's error counter. -/
  | syncWordCrcError (dt : Nat) (k : Nat)
  /-- SYNC_WORD_SLOT (R124): Each 45-tick word slot of a sync lane sends the waiting launch-class word, then TRIG or VERDICT, then other words, or an IDLE word with TQ and scope-complete. -/
  | syncWordSlot (dt : Nat) (k : Nat)
  /-- STANDBY_POWER_LOSS (R561): Standby power is lost: the MC stops, the log write buffer, held sweep results and leaf state in standby memory are lost, and a trial in progress counts as failed. -/
  | standbyPowerLoss (dt : Nat)
  /-- PCIE_LINK_UP (R620): PCIe link training completes at a negotiated rate and width, which sets the export limit of admission. -/
  | pcieLinkUp (dt : Nat) (rate10 width : Nat)
  /-- CONFIGURATION_REQUEST (R620): A PCIe configuration request is answered with Configuration Request Retry Status until 100 ms after PERST# release, and normally after that. -/
  | configurationRequest (r : CfgRead)
  /-- PERISCOPE_REFRESH (R646): On each CLK_STBY edge the Periscope mirror is refreshed and PSC_SEQ advances by 1. -/
  | periscopeRefresh (dt : Nat)
  /-- TRIGGER_PULSE_END (R299): A TOn pulse goes inactive PULSE_W ticks after the latest candidate in CONFIRMED mode, or 6 ticks after it starts in EARLY mode. -/
  | triggerPulseEnd (dt : Nat) (n : Nat)
  /-- OVER_RANGE_SAMPLE (R178): An AIN input beyond the outer code edge is clamped and flagged, advances OVR_COUNT and may raise EV_AIN_OVERRANGE, whether or not a route names the converter. -/
  | overRangeSample (dt : Nat) (n : Nat) (code : Int)
  /-- SMBUS_WRITE (R639): An SMBus write, or any protocol other than Block Read, addressed to the target is not acknowledged. -/
  | smbusWrite (dt : Nat)
  /-- EARLY_READ (R64): A BAR0 read of a register that does not answer before READY returns 0 and sets HOST_STATUS.EARLY. -/
  | earlyRead (dt : Nat) (addr : Nat)
  deriving DecidableEq, Repr

end Sys2Proof
end

