-- ==== Sys2Proof/Decode.lean ====
section
/-!
DEFINITION. The commands that a word of the operation table spells. No row of spec/opcode_table.json gives bits: its rows are commands, not encodings.
-/

namespace Sys2Proof

/-- The command that a word of `nbits` bits spells: none, for every row. -/
def decodeTableWord (_nbits _w : Nat) : Option Instr := none

end Sys2Proof
end

