-- ==== Sys2Proof/Machine/Tbl.lean ====
section
/-!
DEFINITION. Sparse tables: a list of (number, entry) pairs in rising order of number; a number not listed has the
table's default entry. The device's arrays of units (channels, apertures, rings, pads …) are held so.
-/

namespace Sys2Proof.Machine

/-- A sparse array of `α` by unit number. -/
abbrev Tbl (α : Type) := List (Nat × α)

/-- Entry `k`, or `d` when it is not listed. -/
def Tbl.look {α : Type} (d : α) : Tbl α → Nat → α
  | [], _ => d
  | (j, v) :: t, k => if j = k then v else Tbl.look d t k

/-- The table with entry `k` set to `v`. -/
def Tbl.put {α : Type} (k : Nat) (v : α) : Tbl α → Tbl α
  | [] => [(k, v)]
  | (j, w) :: t => if j = k then (k, v) :: t else if k < j then (k, v) :: (j, w) :: t else (j, w) :: Tbl.put k v t

/-- The table with entry `k` removed. -/
def Tbl.drop {α : Type} (k : Nat) (t : Tbl α) : Tbl α := t.filter (fun p => p.1 != k)

/-- The table with entry `k` changed by `f` from its present value, the default `d` when it is not listed. -/
def Tbl.upd {α : Type} (d : α) (t : Tbl α) (k : Nat) (f : α → α) : Tbl α := Tbl.put k (f (Tbl.look d t k)) t

/-- The first `n` elements and the rest, padded with `d` when the list is short. -/
def takePad {α : Type} (d : α) : Nat → List α → List α
  | 0, _ => []
  | n + 1, [] => d :: takePad d n []
  | n + 1, x :: t => x :: takePad d n t

/-- The list with element `i` changed by `f`. -/
def modAt {α : Type} (f : α → α) : Nat → List α → List α
  | _, [] => []
  | 0, x :: t => f x :: t
  | n + 1, x :: t => x :: modAt f n t

/-- Insert by a rising key, before the entries of equal key (those come later in the list being sorted). -/
def insertBy {α : Type} (key : α → Nat) (x : α) : List α → List α
  | [] => [x]
  | y :: t => if key x ≤ key y then x :: y :: t else y :: insertBy key x t

/-- A stable insertion sort by key. -/
def sortBy {α : Type} (key : α → Nat) : List α → List α
  | [] => []
  | x :: t => insertBy key x (sortBy key t)

/-- The element of least key, the first such. -/
def leastBy {α : Type} (key : α → Nat) : List α → Option α
  | [] => none
  | x :: t =>
    match leastBy key t with
    | none => some x
    | some y => if key y < key x then some y else some x

/-- Put an element into a list that rises by a key, after those of the same key. -/
def insertAfter {α : Type} (key : α → Nat) (x : α) : List α → List α
  | [] => [x]
  | y :: t => if key y ≤ key x then y :: insertAfter key x t else x :: y :: t

end Sys2Proof.Machine
end

