-- ==== Sys2Proof/Machine/Codes.lean ====
section
/-!
DEFINITION. The codes of stored data (R394–R398): the check column of a Facet byte, and the Reed-Solomon code of a capture line, strong and
light, each with its encoder, its poison pattern and its decoder.
-/

namespace Sys2Proof.Machine

/-- What a decoder says of a read. -/
inductive Verdict where
  | clean
  | corrected
  /-- The poison pattern (R396, R398). -/
  | poison
  | uncorrectable
  deriving DecidableEq, Repr

/-- The mark of a read: the poison pattern, or uncorrectable (R401). -/
def Verdict.marked (v : Verdict) : Bool := decide (v = .poison ∨ v = .uncorrectable)

/-! ### A Facet byte (R394–R396): 13 stored bits, d0 to d7 in bits 0 to 7 and c0 to c4 in bits 8 to 12 -/

/-- Bit `i` of a number. -/
def nbit (v i : Nat) : Nat := v / 2 ^ i % 2

/-- Even parity of the bits of a number below 2¹³. -/
def parity (v : Nat) : Nat := ((List.range 13).map (nbit v)).sum % 2

/-- c0 to c3 of a data byte. -/
def hammingOf (v : Nat) : Nat := parity (v &&& 0x5B) + 2 * parity (v &&& 0x6D) + 4 * parity (v &&& 0x8E) + 8 * parity (v &&& 0xF0)

/-- The stored bits of a data byte. Under the light code c0 to c3 are powered down, and stand as 0. -/
def facetEncode (light : Bool) (v : Nat) : Nat :=
  if light then v + 2 ^ 12 * parity v
  else let w := v + 2 ^ 8 * hammingOf v; w + 2 ^ 12 * parity w

/-- The poison pattern of a byte (R396). -/
def facetPoison (light : Bool) : Nat := if light then 0x1000 else 0x0F00

/-- The stored bit that each position of the (12, 8) Hamming code names: c0, c1, d0, c2, d1, d2, d3, c3, d4, d5, d6, d7 at 1 to 12. -/
def facetPosition (s : Nat) : Option Nat := [8, 9, 0, 10, 1, 2, 3, 11, 4, 5, 6, 7][s - 1]?

/-- The decoder of a byte: its verdict, and the data byte it gives. -/
def facetDecode (light : Bool) (stored : Nat) : Verdict × Nat :=
  let v := stored % 256
  if light then
    let w := v + 2 ^ 12 * nbit stored 12
    if w = facetPoison true then (.poison, 0)
    else if parity w = 0 then (.clean, v) else (.uncorrectable, v)
  else if stored = facetPoison false then (.poison, 0)
  else
    let s := hammingOf v ^^^ (stored / 256 % 16)
    if parity stored = 0 then (if s = 0 then (.clean, v) else (.uncorrectable, v))
    else if s = 0 then (.corrected, v)
    else match facetPosition s with
      | some p => (.corrected, (stored ^^^ 2 ^ p) % 256)
      | none => (.uncorrectable, v)

/-- A byte as it is read when the stored bits of `mask` have been upset. -/
def facetRead (light : Bool) (v mask : Nat) : Verdict × Nat :=
  if mask = 0 then (.clean, v) else facetDecode light (facetEncode light v ^^^ mask % 2 ^ 13)

/-! ### GF(2⁸) with x⁸ + x⁴ + x³ + x² + 1 (R397) -/

/-- A number times α. -/
def gfDouble (a : Nat) : Nat := if 128 ≤ a then (2 * a) ^^^ 0x11D else 2 * a

def gfMul (a b : Nat) : Nat :=
  ((List.range 8).foldl (fun (p : Nat × Nat) i => (if nbit b i = 1 then p.1 ^^^ p.2 else p.1, gfDouble p.2)) (0, a)).1

/-- αⁿ. -/
def gfExp : Nat → Nat
  | 0 => 1
  | n + 1 => gfDouble (gfExp n)

def gfPow (a : Nat) : Nat → Nat
  | 0 => 1
  | n + 1 => gfMul (gfPow a n) a

/-- 1 / a, which is a²⁵⁴. -/
def gfInv (a : Nat) : Nat := gfPow a 254

/-- A polynomial, highest power first, at a point. -/
def gfEval (p : List Nat) (x : Nat) : Nat := p.foldl (fun s c => gfMul s x ^^^ c) 0

/-- The solution of `n` linear equations: rows of coefficients with the right-hand side last. -/
def gfSolve : Nat → List (List Nat) → Option (List Nat)
  | 0, _ => some []
  | n + 1, rows =>
    match rows.find? (fun r => decide (r.headD 0 ≠ 0)) with
    | none => none
    | some r =>
      let r := r.map (gfMul (gfInv (r.headD 0)))
      let rest := ((rows.filter (fun q => decide (q.headD 0 ≠ 0))).drop 1 ++ rows.filter (fun q => decide (q.headD 0 = 0))).map (fun q =>
        List.zipWith (fun a b => a ^^^ gfMul (q.headD 0) b) q.tail r.tail)
      match gfSolve n rest with
      | none => none
      | some xs => some ((List.zipWith gfMul r.tail xs).foldl (· ^^^ ·) (r.getLastD 0) :: xs)

/-! ### A capture line (R397, R398): 64 data bytes and the check bytes its code uses -/

/-- Check symbols of a code. -/
def rsChecks (light : Bool) : Nat := if light then 2 else 8

/-- The generator with roots α⁰ on, highest power first, its leading 1 left out. -/
def rsGen : Nat → List Nat
  | 0 => []
  | r + 1 =>
    let g := rsGen r
    List.zipWith (· ^^^ ·) (g ++ [0]) ((1 :: g).map (gfMul (gfExp r)))

/-- The check bytes of data bytes: the remainder of the data by the generator, the first byte the highest power (assumption 119). -/
def rsEncode (light : Bool) (data : List Nat) : List Nat :=
  let g := rsGen (rsChecks light)
  data.foldl (fun (s : List Nat) b => let f := s.headD 0 ^^^ b; List.zipWith (fun a c => a ^^^ gfMul f c) (s.tail ++ [0]) g) (List.replicate (rsChecks light) 0)

/-- The syndromes of a codeword. -/
def rsSyndromes (r : Nat) (word : List Nat) : List Nat := (List.range r).map (fun j => gfEval word (gfExp j))

/-- The codeword with `n` errors taken out, where exactly `n` errors explain its syndromes. -/
def rsCorrect (word s : List Nat) (n : Nat) : Option (List Nat) :=
  match gfSolve n ((List.range n).map (fun j => (List.range (n + 1)).map (fun i => if i = n then s.getD (j + n) 0 else s.getD (j + n - 1 - i) 0))) with
  | none => none
  | some loc =>
    let at_ := (List.range word.length).filter (fun k => decide (gfEval (1 :: loc) (gfExp (word.length - 1 - k)) = 0))
    if at_.length ≠ n then none
    else match gfSolve n ((List.range n).map (fun j => at_.map (fun k => gfPow (gfExp (word.length - 1 - k)) j) ++ [s.getD j 0])) with
      | none => none
      | some es =>
        let fixed := (at_.zip es).foldl (fun w p => modAt (fun b => b ^^^ p.2) p.1 w) word
        if (rsSyndromes s.length fixed).all (· = 0) then some fixed else none

/-- The decoder of a line: its verdict, and the 64 data bytes it gives. -/
def rsDecode (light : Bool) (word : List Nat) : Verdict × List Nat :=
  if word.take 64 = List.replicate 64 0 ∧ (word.drop 64).all (· = 255) then (.poison, List.replicate 64 0)
  else
    let s := rsSyndromes (rsChecks light) word
    if s.all (· = 0) then (.clean, word.take 64)
    else match (List.range (rsChecks light / 2)).findSome? (fun n => rsCorrect word s (n + 1)) with
      | some w => (.corrected, w.take 64)
      | none => (.uncorrectable, word.take 64)

/-- A line as it is read: the data written there, or the poison pattern, with the stored bytes of `flips` upset: position, bits. Positions 64 on are the
check bytes; those the code does not use are ignored. -/
def lineRead (light poisoned : Bool) (data : List Byte) (flips : List (Nat × Nat)) : Verdict × List Byte :=
  if flips.isEmpty then (if poisoned then (.poison, List.replicate 64 0) else (.clean, data))
  else
    let word := if poisoned then List.replicate 64 0 ++ List.replicate (rsChecks light) 255 else let ns := data.map (·.toNat); ns ++ rsEncode light ns
    let r := rsDecode light (flips.foldl (fun w p => modAt (fun b => b ^^^ p.2 % 256) p.1 w) word)
    (r.1, r.2.map (BitVec.ofNat 8))

end Sys2Proof.Machine
end

