-- ==== Sys2Proof/Machine/Frac.lean ====
section
/-!
DEFINITION. Exact fractions: instants and rates that are not whole ticks (R164, R222, R225, R226) are held as a numerator
and a denominator and rounded only where the spec rounds.
-/

namespace Sys2Proof.Machine

/-- A fraction `num / den`; `den` is never 0 in a value the model builds. -/
structure Frac where
  num : Int
  den : Nat := 1
  deriving DecidableEq, Repr

/-- The same fraction in lowest terms. -/
def Frac.norm (a : Frac) : Frac :=
  let g := Nat.gcd a.num.natAbs a.den
  if g = 0 then a else ⟨a.num / (g : Int), a.den / g⟩

/-- A whole number. -/
def Frac.ofInt (n : Int) : Frac := ⟨n, 1⟩

def Frac.add (a b : Frac) : Frac := Frac.norm ⟨a.num * b.den + b.num * a.den, a.den * b.den⟩

def Frac.sub (a b : Frac) : Frac := Frac.norm ⟨a.num * b.den - b.num * a.den, a.den * b.den⟩

def Frac.mul (a b : Frac) : Frac := Frac.norm ⟨a.num * b.num, a.den * b.den⟩

/-- `a / b`; 0 when `b` is 0 or negative (the model divides by rates only). -/
def Frac.div (a b : Frac) : Frac :=
  if b.num ≤ 0 then ⟨0, 1⟩ else Frac.norm ⟨a.num * b.den, a.den * b.num.toNat⟩

/-- The greatest whole number not above the fraction. -/
def Frac.floor (a : Frac) : Int := a.num / (a.den : Int)

/-- The least whole number not below the fraction. -/
def Frac.ceil (a : Frac) : Int := -((-a.num) / (a.den : Int))

def Frac.le (a b : Frac) : Bool := decide (a.num * b.den ≤ b.num * a.den)

def Frac.lt (a b : Frac) : Bool := decide (a.num * b.den < b.num * a.den)

/-- Division of whole numbers rounded to nearest, ties away from zero (R217). -/
def roundDiv (n : Int) (d : Nat) : Int :=
  if 0 ≤ n then (2 * n + d) / (2 * (d : Int)) else -((-(2 * n) + d) / (2 * (d : Int)))

/-- `⌈a / b⌉` of natural numbers. -/
def ceilDiv (a b : Nat) : Nat := (a + b - 1) / b

/-- `v` held to the range `lo` to `hi`. -/
def clampInt (lo hi v : Int) : Int := if v < lo then lo else if hi < v then hi else v

end Sys2Proof.Machine
end

