-- ==== Sys2Proof/Machine/RegMap.lean ====
section
/-!
DEFINITION. The register maps of the spec (R50, R65, R200, R231, R270, R317, R353, R388, R421, R452, R489, R512, R537,
R550, R551, R577): every register's address, its array, its fields, and each field's access code (R11) and reset value.
BAR0 registers lie below 0x0040_0000; the addresses from there on are those of the indirect space (R62).
-/

namespace Sys2Proof.Machine

/-- The access codes of R11. -/
inductive Access where
  /-- RW: read the value, write the value. -/
  | rw
  /-- RO: read the value; a write has no effect. -/
  | ro
  /-- RC: read the value, then clear to reset; a write has no effect. -/
  | rc
  /-- WO: reads 0; a write sets the value or issues the action. -/
  | wo
  /-- W1P: reads 0; writing 1 issues a pulse. -/
  | w1p
  /-- PR: the value read must be written back unchanged (R13). -/
  | pr
  deriving DecidableEq, Repr

/-- The Reset column of a field: a number, or the index of the register in its array. A field whose column shows a dash
is listed as 0 (assumption 7). -/
inductive ResetVal where
  | const (v : Nat)
  | index
  deriving DecidableEq, Repr

/-- One row of a map. -/
structure RegField where
  hi : Nat
  lo : Nat
  access : Access
  reset : ResetVal
  deriving DecidableEq, Repr

/-- One register array of a map: `count` registers from `base`, `stride` bytes apart. -/
structure RegRow where
  base : Nat
  stride : Nat
  count : Nat
  fields : List RegField
  deriving DecidableEq, Repr

/-- The registers of R50. -/
def RegMap.host : List RegRow :=
  [
    ⟨0x00000000, 4, 1, [⟨15, 0, .ro, .const 20050⟩, ⟨31, 16, .ro, .const 29970⟩]⟩,
    ⟨0x00000004, 4, 1, [⟨7, 0, .ro, .const 1⟩, ⟨15, 8, .ro, .const 1⟩, ⟨31, 16, .pr, .const 0⟩]⟩,
    ⟨0x00000008, 4, 1, [⟨0, 0, .ro, .const 0⟩, ⟨1, 1, .ro, .const 0⟩, ⟨2, 2, .ro, .const 0⟩, ⟨3, 3, .ro, .const 0⟩, ⟨7, 4, .pr, .const 0⟩, ⟨15, 8, .ro, .const 0⟩, ⟨31, 16, .pr, .const 0⟩]⟩,
    ⟨0x0000000C, 4, 1, [⟨0, 0, .rc, .const 0⟩, ⟨1, 1, .rc, .const 0⟩, ⟨2, 2, .rc, .const 0⟩, ⟨3, 3, .rc, .const 0⟩, ⟨4, 4, .rc, .const 0⟩, ⟨5, 5, .rc, .const 0⟩, ⟨31, 6, .pr, .const 0⟩]⟩,
    ⟨0x00000010, 4, 1, [⟨31, 0, .ro, .const 0⟩]⟩,
    ⟨0x00000014, 4, 1, [⟨31, 0, .ro, .const 0⟩]⟩,
    ⟨0x00000018, 4, 1, [⟨1, 0, .pr, .const 0⟩, ⟨31, 2, .rw, .const 0⟩]⟩,
    ⟨0x0000001C, 4, 1, [⟨31, 0, .rw, .const 0⟩]⟩,
    ⟨0x00000020, 4, 1, [⟨0, 0, .rw, .const 0⟩, ⟨31, 1, .pr, .const 0⟩]⟩,
    ⟨0x00000024, 4, 1, [⟨7, 0, .rw, .const 0⟩, ⟨31, 8, .pr, .const 0⟩]⟩,
    ⟨0x00000028, 4, 1, [⟨31, 0, .rc, .const 0⟩]⟩,
    ⟨0x00000040, 4, 1, [⟨31, 0, .rw, .const 0⟩]⟩ ] ++
  [
    ⟨0x00000044, 4, 1, [⟨31, 0, .rw, .const 0⟩]⟩,
    ⟨0x00000048, 4, 1, [⟨31, 0, .rw, .const 0⟩]⟩,
    ⟨0x0000004C, 4, 1, [⟨31, 0, .rw, .const 0⟩]⟩,
    ⟨0x00000050, 4, 1, [⟨3, 0, .rw, .const 4⟩, ⟨7, 4, .rw, .const 4⟩, ⟨15, 8, .rw, .const 0⟩, ⟨16, 16, .rw, .const 0⟩, ⟨31, 17, .pr, .const 0⟩]⟩,
    ⟨0x00000054, 4, 1, [⟨0, 0, .ro, .const 0⟩, ⟨1, 1, .ro, .const 0⟩, ⟨31, 2, .pr, .const 0⟩]⟩,
    ⟨0x00000100, 4, 28, [⟨31, 0, .ro, .const 0⟩]⟩,
    ⟨0x00001000, 16, 64, [⟨11, 0, .wo, .const 0⟩, ⟨31, 12, .pr, .const 0⟩]⟩,
    ⟨0x00001004, 16, 64, [⟨11, 0, .wo, .const 0⟩, ⟨31, 12, .pr, .const 0⟩]⟩,
    ⟨0x00001400, 4, 1, [⟨15, 0, .wo, .const 0⟩, ⟨31, 16, .pr, .const 0⟩]⟩,
    ⟨0x00002000, 4, 256, [⟨31, 0, .ro, .const 0⟩]⟩ ]

/-- The registers of R65. -/
def RegMap.periscope : List RegRow :=
  [
    ⟨0x00002000, 4, 1, [⟨31, 0, .ro, .const 0⟩]⟩,
    ⟨0x00002004, 4, 1, [⟨7, 0, .ro, .const 0⟩, ⟨11, 8, .ro, .const 0⟩, ⟨31, 12, .pr, .const 0⟩]⟩,
    ⟨0x00002008, 4, 1, [⟨15, 0, .ro, .const 0⟩, ⟨21, 16, .ro, .const 0⟩, ⟨31, 22, .pr, .const 0⟩]⟩,
    ⟨0x0000200C, 4, 1, [⟨6, 0, .ro, .const 0⟩, ⟨31, 7, .pr, .const 0⟩]⟩,
    ⟨0x00002010, 4, 1, [⟨31, 0, .ro, .const 0⟩]⟩,
    ⟨0x00002014, 4, 1, [⟨31, 0, .ro, .const 0⟩]⟩,
    ⟨0x00002100, 4, 48, [⟨15, 0, .ro, .const 0⟩, ⟨31, 16, .pr, .const 0⟩]⟩ ]

/-- The registers of R200. -/
def RegMap.ingress : List RegRow :=
  [
    ⟨0x00400000, 16, 96, [⟨1, 0, .ro, .const 0⟩, ⟨2, 2, .ro, .const 0⟩, ⟨9, 3, .ro, .index⟩, ⟨31, 10, .pr, .const 0⟩]⟩,
    ⟨0x00400004, 16, 96, [⟨31, 0, .rc, .const 0⟩]⟩,
    ⟨0x00400008, 16, 96, [⟨15, 0, .ro, .const 0⟩, ⟨31, 16, .ro, .const 0⟩]⟩,
    ⟨0x0040000C, 16, 96, [⟨15, 0, .rc, .const 0⟩, ⟨31, 16, .rc, .const 0⟩]⟩,
    ⟨0x00410000, 32, 244, [⟨1, 0, .ro, .const 0⟩, ⟨31, 2, .pr, .const 0⟩]⟩,
    ⟨0x00410004, 32, 244, [⟨31, 0, .rc, .const 0⟩]⟩,
    ⟨0x00410008, 32, 244, [⟨31, 0, .ro, .const 0⟩]⟩,
    ⟨0x0041000C, 32, 244, [⟨31, 0, .ro, .const 0⟩]⟩,
    ⟨0x00410010, 32, 244, [⟨31, 0, .rc, .const 0⟩]⟩,
    ⟨0x00410014, 32, 244, [⟨31, 0, .rc, .const 0⟩]⟩,
    ⟨0x00410018, 32, 244, [⟨31, 0, .ro, .const 0⟩]⟩,
    ⟨0x0041001C, 32, 244, [⟨31, 0, .ro, .const 0⟩]⟩ ] ++
  [
    ⟨0x00420000, 32, 4, [⟨6, 0, .ro, .const 64⟩, ⟨7, 7, .ro, .const 0⟩, ⟨31, 8, .pr, .const 0⟩]⟩,
    ⟨0x00420004, 32, 4, [⟨31, 0, .ro, .const 0⟩]⟩,
    ⟨0x00420008, 32, 4, [⟨31, 0, .rc, .const 0⟩]⟩ ]

/-- The registers of R231. -/
def RegMap.channel : List RegRow :=
  [
    ⟨0x00440000, 32, 512, [⟨1, 0, .ro, .const 0⟩, ⟨2, 2, .ro, .const 0⟩, ⟨3, 3, .pr, .const 0⟩, ⟨13, 4, .ro, .index⟩, ⟨31, 14, .pr, .const 0⟩]⟩,
    ⟨0x00440004, 32, 512, [⟨31, 0, .rc, .const 0⟩]⟩,
    ⟨0x00440008, 32, 512, [⟨31, 0, .rc, .const 0⟩]⟩,
    ⟨0x0044000C, 32, 512, [⟨31, 0, .rc, .const 0⟩]⟩,
    ⟨0x00440010, 32, 512, [⟨31, 0, .ro, .const 0⟩]⟩,
    ⟨0x00440014, 32, 512, [⟨31, 0, .ro, .const 0⟩]⟩,
    ⟨0x00440018, 32, 512, [⟨31, 0, .ro, .const 0⟩]⟩,
    ⟨0x0044001C, 32, 512, [⟨31, 0, .pr, .const 0⟩]⟩ ]

/-- The registers of R270. -/
def RegMap.transform : List RegRow :=
  [
    ⟨0x00460000, 32, 512, [⟨31, 0, .ro, .const 0⟩]⟩,
    ⟨0x00460004, 32, 512, [⟨31, 0, .ro, .const 0⟩]⟩,
    ⟨0x00460008, 32, 512, [⟨31, 0, .rc, .const 0⟩]⟩,
    ⟨0x0046000C, 32, 512, [⟨31, 0, .rc, .const 0⟩]⟩,
    ⟨0x00460010, 32, 512, [⟨31, 0, .rc, .const 0⟩]⟩,
    ⟨0x00460014, 32, 512, [⟨31, 0, .ro, .const 0⟩]⟩,
    ⟨0x00460018, 32, 512, [⟨31, 0, .ro, .const 0⟩]⟩,
    ⟨0x0046001C, 32, 512, [⟨15, 0, .ro, .const 0⟩, ⟨31, 16, .ro, .const 0⟩]⟩,
    ⟨0x00470000, 32, 18, [⟨1, 0, .ro, .const 0⟩, ⟨4, 2, .ro, .const 0⟩, ⟨5, 5, .ro, .const 0⟩, ⟨31, 6, .pr, .const 0⟩]⟩,
    ⟨0x00470004, 32, 18, [⟨31, 0, .rc, .const 0⟩]⟩,
    ⟨0x00470008, 32, 18, [⟨31, 0, .ro, .const 0⟩]⟩,
    ⟨0x0047000C, 32, 18, [⟨31, 0, .ro, .const 0⟩]⟩ ] ++
  [
    ⟨0x00470010, 32, 18, [⟨9, 0, .ro, .const 0⟩, ⟨31, 10, .pr, .const 0⟩]⟩,
    ⟨0x00471000, 16, 8, [⟨31, 0, .ro, .const 0⟩]⟩,
    ⟨0x00471004, 16, 8, [⟨31, 0, .ro, .const 48000000⟩]⟩,
    ⟨0x00471008, 16, 8, [⟨31, 0, .rc, .const 0⟩]⟩,
    ⟨0x0047100C, 16, 8, [⟨31, 0, .pr, .const 0⟩]⟩ ]

/-- The registers of R317. -/
def RegMap.trigger : List RegRow :=
  [
    ⟨0x00480000, 16, 512, [⟨31, 0, .rc, .const 0⟩]⟩,
    ⟨0x00480004, 16, 512, [⟨15, 0, .rc, .const 0⟩, ⟨31, 16, .rc, .const 0⟩]⟩,
    ⟨0x00480008, 16, 512, [⟨23, 0, .ro, .const 0⟩, ⟨24, 24, .ro, .const 0⟩, ⟨25, 25, .ro, .const 0⟩, ⟨31, 26, .pr, .const 0⟩]⟩,
    ⟨0x0048000C, 16, 512, [⟨31, 0, .pr, .const 0⟩]⟩,
    ⟨0x00490000, 32, 256, [⟨31, 0, .rc, .const 0⟩]⟩,
    ⟨0x00490004, 32, 256, [⟨31, 0, .rc, .const 0⟩]⟩,
    ⟨0x00490008, 32, 256, [⟨31, 0, .rc, .const 0⟩]⟩,
    ⟨0x0049000C, 32, 256, [⟨31, 0, .rc, .const 0⟩]⟩,
    ⟨0x00490010, 32, 256, [⟨31, 0, .rc, .const 0⟩]⟩,
    ⟨0x00490014, 32, 256, [⟨15, 0, .rc, .const 0⟩, ⟨31, 16, .rc, .const 0⟩]⟩,
    ⟨0x00490018, 32, 256, [⟨31, 0, .ro, .const 0⟩]⟩,
    ⟨0x0049001C, 32, 256, [⟨31, 0, .pr, .const 0⟩]⟩ ] ++
  [
    ⟨0x004A0000, 32, 64, [⟨1, 0, .ro, .const 0⟩, ⟨15, 2, .pr, .const 0⟩, ⟨31, 16, .ro, .const 0⟩]⟩,
    ⟨0x004A0004, 32, 64, [⟨31, 0, .rc, .const 0⟩]⟩,
    ⟨0x004A0008, 32, 64, [⟨31, 0, .rc, .const 0⟩]⟩,
    ⟨0x004A000C, 32, 64, [⟨15, 0, .rc, .const 0⟩, ⟨31, 16, .rc, .const 0⟩]⟩,
    ⟨0x004A0010, 32, 64, [⟨31, 0, .rc, .const 0⟩]⟩,
    ⟨0x004A0014, 32, 64, [⟨31, 0, .rc, .const 0⟩]⟩,
    ⟨0x004A0018, 32, 64, [⟨31, 0, .pr, .const 0⟩]⟩,
    ⟨0x004A001C, 32, 64, [⟨31, 0, .pr, .const 0⟩]⟩,
    ⟨0x004A1000, 16, 8, [⟨31, 0, .rc, .const 0⟩]⟩,
    ⟨0x004A1004, 16, 8, [⟨31, 0, .rc, .const 0⟩]⟩,
    ⟨0x004A1008, 16, 8, [⟨31, 0, .rc, .const 0⟩]⟩,
    ⟨0x004A100C, 16, 8, [⟨31, 0, .pr, .const 0⟩]⟩ ] ++
  [
    ⟨0x004A2000, 4, 1, [⟨31, 0, .rc, .const 0⟩]⟩,
    ⟨0x004A2004, 4, 1, [⟨31, 0, .rc, .const 0⟩]⟩,
    ⟨0x004A2008, 4, 1, [⟨31, 0, .rc, .const 0⟩]⟩,
    ⟨0x004A200C, 4, 1, [⟨31, 0, .rc, .const 0⟩]⟩ ]

/-- The registers of R353. -/
def RegMap.acquisition : List RegRow :=
  [
    ⟨0x004C0000, 32, 1024, [⟨3, 0, .ro, .const 0⟩, ⟨15, 4, .ro, .const 0⟩, ⟨19, 16, .ro, .const 0⟩, ⟨31, 20, .pr, .const 0⟩]⟩,
    ⟨0x004C0004, 32, 1024, [⟨31, 0, .ro, .const 0⟩]⟩,
    ⟨0x004C0008, 32, 1024, [⟨31, 0, .ro, .const 0⟩]⟩,
    ⟨0x004C000C, 32, 1024, [⟨31, 0, .ro, .const 0⟩]⟩,
    ⟨0x004C0010, 32, 1024, [⟨31, 0, .ro, .const 0⟩]⟩,
    ⟨0x004C0014, 32, 1024, [⟨31, 0, .ro, .const 0⟩]⟩,
    ⟨0x004C0018, 32, 1024, [⟨31, 0, .rc, .const 0⟩]⟩,
    ⟨0x004C001C, 32, 1024, [⟨31, 0, .pr, .const 0⟩]⟩ ]

/-- The registers of R388. -/
def RegMap.capMem : List RegRow :=
  [
    ⟨0x004E0000, 32, 192, [⟨1, 0, .ro, .const 0⟩, ⟨9, 2, .ro, .const 0⟩, ⟨10, 10, .ro, .const 0⟩, ⟨11, 11, .ro, .const 0⟩, ⟨12, 12, .ro, .const 0⟩, ⟨31, 13, .pr, .const 0⟩]⟩,
    ⟨0x004E0004, 32, 192, [⟨15, 0, .ro, .const 0⟩, ⟨31, 16, .ro, .const 0⟩]⟩,
    ⟨0x004E0008, 32, 192, [⟨31, 0, .rc, .const 0⟩]⟩,
    ⟨0x004E000C, 32, 192, [⟨31, 0, .rc, .const 0⟩]⟩,
    ⟨0x004E0010, 32, 192, [⟨31, 0, .ro, .const 0⟩]⟩,
    ⟨0x004E0014, 32, 192, [⟨31, 0, .ro, .const 0⟩]⟩,
    ⟨0x004E0018, 32, 192, [⟨31, 0, .rc, .const 0⟩]⟩,
    ⟨0x004E001C, 32, 192, [⟨31, 0, .ro, .const 0⟩]⟩,
    ⟨0x004E2000, 4, 1, [⟨1, 0, .ro, .const 0⟩, ⟨7, 2, .pr, .const 0⟩, ⟨15, 8, .ro, .const 180⟩, ⟨19, 16, .ro, .const 12⟩, ⟨31, 20, .pr, .const 0⟩]⟩,
    ⟨0x004E2004, 4, 1, [⟨31, 0, .ro, .const 5000000⟩]⟩,
    ⟨0x004E2008, 4, 1, [⟨11, 0, .rw, .const 32⟩, ⟨15, 12, .rw, .const 9⟩, ⟨31, 16, .pr, .const 0⟩]⟩,
    ⟨0x004E200C, 4, 1, [⟨7, 0, .ro, .const 0⟩, ⟨15, 8, .ro, .const 163⟩, ⟨31, 16, .pr, .const 0⟩]⟩ ] ++
  [
    ⟨0x004E2010, 4, 1, [⟨31, 0, .rc, .const 0⟩]⟩,
    ⟨0x004E2014, 4, 1, [⟨15, 0, .rc, .const 0⟩, ⟨31, 16, .pr, .const 0⟩]⟩,
    ⟨0x004E2018, 4, 1, [⟨31, 0, .rc, .const 0⟩]⟩,
    ⟨0x004E201C, 4, 1, [⟨13, 0, .ro, .const 0⟩, ⟨31, 14, .pr, .const 0⟩]⟩ ]

/-- The registers of R421. -/
def RegMap.integrity : List RegRow :=
  [
    ⟨0x00500000, 32, 7, [⟨0, 0, .ro, .const 0⟩, ⟨1, 1, .ro, .const 0⟩, ⟨31, 2, .pr, .const 0⟩]⟩,
    ⟨0x00500200, 32, 1024, [⟨0, 0, .ro, .const 0⟩, ⟨1, 1, .ro, .const 0⟩, ⟨31, 2, .pr, .const 0⟩]⟩,
    ⟨0x00500004, 32, 7, [⟨31, 0, .rc, .const 0⟩]⟩,
    ⟨0x00500204, 32, 1024, [⟨31, 0, .rc, .const 0⟩]⟩,
    ⟨0x00500008, 32, 7, [⟨31, 0, .rc, .const 0⟩]⟩,
    ⟨0x00500208, 32, 1024, [⟨31, 0, .rc, .const 0⟩]⟩,
    ⟨0x0050000C, 32, 7, [⟨31, 0, .rc, .const 0⟩]⟩,
    ⟨0x0050020C, 32, 1024, [⟨31, 0, .rc, .const 0⟩]⟩,
    ⟨0x00500010, 32, 7, [⟨31, 0, .rc, .const 0⟩]⟩,
    ⟨0x00500210, 32, 1024, [⟨31, 0, .rc, .const 0⟩]⟩,
    ⟨0x00500014, 32, 7, [⟨31, 0, .rc, .const 0⟩]⟩,
    ⟨0x00500214, 32, 1024, [⟨31, 0, .rc, .const 0⟩]⟩ ] ++
  [
    ⟨0x00500018, 32, 7, [⟨31, 0, .rw, .const 1000⟩]⟩,
    ⟨0x00500218, 32, 1024, [⟨31, 0, .rw, .const 1000⟩]⟩,
    ⟨0x0050001C, 32, 7, [⟨15, 0, .rw, .const 16⟩, ⟨31, 16, .pr, .const 0⟩]⟩,
    ⟨0x0050021C, 32, 1024, [⟨15, 0, .rw, .const 16⟩, ⟨31, 16, .pr, .const 0⟩]⟩,
    ⟨0x00510000, 4, 1, [⟨0, 0, .rw, .const 1⟩, ⟨1, 1, .rw, .const 1⟩, ⟨3, 2, .pr, .const 0⟩, ⟨9, 4, .rw, .const 4⟩, ⟨31, 10, .pr, .const 0⟩]⟩,
    ⟨0x00510004, 4, 1, [⟨31, 0, .ro, .const 0⟩]⟩,
    ⟨0x00510008, 4, 1, [⟨31, 0, .ro, .const 0⟩]⟩,
    ⟨0x0051000C, 4, 1, [⟨20, 0, .ro, .const 0⟩, ⟨31, 21, .pr, .const 0⟩]⟩,
    ⟨0x00510010, 4, 1, [⟨31, 0, .ro, .const 0⟩]⟩,
    ⟨0x00510014, 4, 1, [⟨0, 0, .ro, .const 0⟩, ⟨1, 1, .ro, .const 0⟩, ⟨2, 2, .ro, .const 0⟩, ⟨3, 3, .ro, .const 0⟩, ⟨31, 4, .pr, .const 0⟩]⟩ ]

/-- The registers of R452. -/
def RegMap.display : List RegRow :=
  [
    ⟨0x00520000, 4, 1, [⟨0, 0, .ro, .const 0⟩, ⟨1, 1, .ro, .const 0⟩, ⟨2, 2, .ro, .const 0⟩, ⟨3, 3, .ro, .const 0⟩, ⟨4, 4, .ro, .const 0⟩, ⟨7, 5, .pr, .const 0⟩, ⟨19, 8, .ro, .const 0⟩, ⟨31, 20, .pr, .const 0⟩]⟩,
    ⟨0x00520004, 4, 1, [⟨31, 0, .ro, .const 0⟩]⟩,
    ⟨0x00520008, 4, 1, [⟨7, 0, .rw, .const 96⟩, ⟨15, 8, .rw, .const 160⟩, ⟨31, 16, .pr, .const 0⟩]⟩,
    ⟨0x0052000C, 4, 1, [⟨31, 0, .rc, .const 0⟩]⟩,
    ⟨0x00520100, 32, 3, [⟨1, 0, .ro, .const 3⟩, ⟨3, 2, .ro, .const 3⟩, ⟨4, 4, .ro, .const 0⟩, ⟨7, 5, .ro, .const 0⟩, ⟨31, 8, .pr, .const 0⟩]⟩,
    ⟨0x00520104, 32, 3, [⟨7, 0, .ro, .const 0⟩, ⟨15, 8, .rc, .const 255⟩, ⟨31, 16, .pr, .const 0⟩]⟩,
    ⟨0x00520108, 32, 3, [⟨31, 0, .rc, .const 0⟩]⟩,
    ⟨0x0052010C, 32, 3, [⟨31, 0, .rc, .const 0⟩]⟩,
    ⟨0x00520110, 32, 3, [⟨31, 0, .rc, .const 0⟩]⟩,
    ⟨0x00520114, 32, 3, [⟨31, 0, .pr, .const 0⟩]⟩,
    ⟨0x00520118, 32, 3, [⟨31, 0, .pr, .const 0⟩]⟩,
    ⟨0x0052011C, 32, 3, [⟨31, 0, .pr, .const 0⟩]⟩ ] ++
  [
    ⟨0x00520400, 64, 8, [⟨31, 0, .ro, .const 0⟩]⟩,
    ⟨0x00520404, 64, 8, [⟨31, 0, .rc, .const 0⟩]⟩,
    ⟨0x00520408, 64, 8, [⟨31, 0, .rc, .const 0⟩]⟩,
    ⟨0x0052040C, 64, 8, [⟨31, 0, .rc, .const 0⟩]⟩,
    ⟨0x00520410, 64, 8, [⟨31, 0, .ro, .const 0⟩]⟩,
    ⟨0x00520418, 64, 8, [⟨31, 0, .ro, .const 0⟩]⟩,
    ⟨0x00520420, 64, 8, [⟨31, 0, .ro, .const 0⟩]⟩,
    ⟨0x00520414, 64, 8, [⟨31, 0, .ro, .const 0⟩]⟩,
    ⟨0x0052041C, 64, 8, [⟨31, 0, .ro, .const 0⟩]⟩,
    ⟨0x00520424, 64, 8, [⟨31, 0, .ro, .const 0⟩]⟩,
    ⟨0x00520428, 64, 8, [⟨15, 0, .ro, .const 0⟩, ⟨31, 16, .pr, .const 0⟩]⟩,
    ⟨0x0052042C, 64, 8, [⟨31, 0, .pr, .const 0⟩]⟩ ] ++
  [
    ⟨0x00520430, 64, 8, [⟨31, 0, .pr, .const 0⟩]⟩,
    ⟨0x00520434, 64, 8, [⟨31, 0, .pr, .const 0⟩]⟩,
    ⟨0x00520438, 64, 8, [⟨31, 0, .pr, .const 0⟩]⟩,
    ⟨0x0052043C, 64, 8, [⟨31, 0, .pr, .const 0⟩]⟩,
    ⟨0x00521000, 4, 128, [⟨31, 0, .ro, .const 0⟩]⟩,
    ⟨0x00521200, 4, 4, [⟨31, 0, .ro, .const 0⟩]⟩ ]

/-- The registers of R489. -/
def RegMap.traceProc : List RegRow :=
  [
    ⟨0x00540000, 64, 32, [⟨1, 0, .ro, .const 0⟩, ⟨7, 2, .ro, .index⟩, ⟨11, 8, .ro, .const 0⟩, ⟨12, 12, .ro, .const 0⟩, ⟨13, 13, .ro, .const 0⟩, ⟨14, 14, .ro, .const 0⟩, ⟨31, 15, .pr, .const 0⟩]⟩,
    ⟨0x00540004, 64, 32, [⟨18, 0, .ro, .const 0⟩, ⟨31, 19, .pr, .const 0⟩]⟩,
    ⟨0x00540008, 64, 32, [⟨3, 0, .ro, .const 0⟩, ⟨31, 4, .pr, .const 0⟩]⟩,
    ⟨0x0054000C, 64, 32, [⟨18, 0, .ro, .const 0⟩, ⟨31, 19, .pr, .const 0⟩]⟩,
    ⟨0x00540010, 64, 32, [⟨31, 0, .ro, .const 0⟩]⟩,
    ⟨0x00540014, 64, 32, [⟨31, 0, .ro, .const 0⟩]⟩,
    ⟨0x00540018, 64, 32, [⟨9, 0, .ro, .const 0⟩, ⟨31, 10, .pr, .const 0⟩]⟩,
    ⟨0x0054001C, 64, 32, [⟨31, 0, .rc, .const 0⟩]⟩,
    ⟨0x00540020, 64, 32, [⟨31, 0, .rc, .const 0⟩]⟩,
    ⟨0x00540024, 64, 32, [⟨31, 0, .rc, .const 0⟩]⟩,
    ⟨0x00540028, 64, 32, [⟨31, 0, .rc, .const 0⟩]⟩,
    ⟨0x0054002C, 64, 32, [⟨31, 0, .rc, .const 0⟩]⟩ ] ++
  [
    ⟨0x00540030, 64, 32, [⟨31, 0, .rc, .const 0⟩]⟩,
    ⟨0x00540034, 64, 32, [⟨31, 0, .rc, .const 0⟩]⟩,
    ⟨0x00540038, 64, 32, [⟨31, 0, .rc, .const 0⟩]⟩,
    ⟨0x0054003C, 64, 32, [⟨31, 0, .rc, .const 0⟩]⟩ ]

/-- The registers of R512. -/
def RegMap.marker : List RegRow :=
  [
    ⟨0x00560000, 64, 16, [⟨0, 0, .ro, .const 0⟩, ⟨1, 1, .ro, .const 0⟩, ⟨31, 2, .pr, .const 0⟩]⟩,
    ⟨0x00560004, 64, 16, [⟨31, 0, .rc, .const 0⟩]⟩,
    ⟨0x00560008, 64, 16, [⟨15, 0, .rc, .const 0⟩, ⟨31, 16, .rc, .const 0⟩]⟩,
    ⟨0x0056000C, 64, 16, [⟨31, 0, .rc, .const 0⟩]⟩,
    ⟨0x00560010, 64, 16, [⟨31, 0, .rc, .const 0⟩]⟩,
    ⟨0x00560014, 64, 16, [⟨15, 0, .rc, .const 0⟩, ⟨31, 16, .rc, .const 0⟩]⟩,
    ⟨0x00560018, 64, 16, [⟨8, 0, .ro, .const 0⟩, ⟨9, 9, .ro, .const 0⟩, ⟨10, 10, .rc, .const 0⟩, ⟨31, 11, .pr, .const 0⟩]⟩,
    ⟨0x0056001C, 64, 16, [⟨31, 0, .pr, .const 0⟩]⟩,
    ⟨0x00560020, 64, 16, [⟨31, 0, .ro, .const 0⟩]⟩,
    ⟨0x00560024, 64, 16, [⟨31, 0, .ro, .const 0⟩]⟩,
    ⟨0x00560028, 64, 16, [⟨31, 0, .ro, .const 0⟩]⟩,
    ⟨0x0056002C, 64, 16, [⟨31, 0, .ro, .const 0⟩]⟩ ] ++
  [
    ⟨0x00560030, 64, 16, [⟨31, 0, .pr, .const 0⟩]⟩,
    ⟨0x00560034, 64, 16, [⟨31, 0, .pr, .const 0⟩]⟩,
    ⟨0x00560038, 64, 16, [⟨31, 0, .pr, .const 0⟩]⟩,
    ⟨0x0056003C, 64, 16, [⟨31, 0, .pr, .const 0⟩]⟩ ]

/-- The registers of R537. -/
def RegMap.export : List RegRow :=
  [
    ⟨0x00580000, 64, 64, [⟨2, 0, .ro, .const 0⟩, ⟨3, 3, .ro, .const 0⟩, ⟨6, 4, .ro, .const 0⟩, ⟨7, 7, .ro, .const 0⟩, ⟨15, 8, .ro, .const 0⟩, ⟨31, 16, .pr, .const 0⟩]⟩,
    ⟨0x00580004, 64, 64, [⟨0, 0, .rw, .const 0⟩, ⟨1, 1, .w1p, .const 0⟩, ⟨31, 2, .pr, .const 0⟩]⟩,
    ⟨0x00580008, 64, 64, [⟨31, 0, .rw, .const 0⟩]⟩,
    ⟨0x0058000C, 64, 64, [⟨31, 0, .rw, .const 0⟩]⟩,
    ⟨0x00580010, 64, 64, [⟨31, 0, .ro, .const 0⟩]⟩,
    ⟨0x00580014, 64, 64, [⟨31, 0, .ro, .const 0⟩]⟩,
    ⟨0x00580018, 64, 64, [⟨31, 0, .ro, .const 0⟩]⟩,
    ⟨0x0058001C, 64, 64, [⟨31, 0, .ro, .const 0⟩]⟩,
    ⟨0x00580020, 64, 64, [⟨31, 0, .rc, .const 0⟩]⟩,
    ⟨0x00580024, 64, 64, [⟨31, 0, .rc, .const 0⟩]⟩,
    ⟨0x00580028, 64, 64, [⟨31, 0, .rc, .const 0⟩]⟩,
    ⟨0x0058002C, 64, 64, [⟨31, 0, .ro, .const 0⟩]⟩ ] ++
  [
    ⟨0x00580030, 64, 64, [⟨31, 0, .pr, .const 0⟩]⟩,
    ⟨0x00580034, 64, 64, [⟨31, 0, .pr, .const 0⟩]⟩,
    ⟨0x00580038, 64, 64, [⟨31, 0, .pr, .const 0⟩]⟩,
    ⟨0x0058003C, 64, 64, [⟨31, 0, .pr, .const 0⟩]⟩,
    ⟨0x00590000, 16, 32, [⟨12, 0, .ro, .const 0⟩, ⟨31, 13, .pr, .const 0⟩]⟩,
    ⟨0x00590004, 16, 32, [⟨12, 0, .ro, .const 0⟩, ⟨31, 13, .pr, .const 0⟩]⟩,
    ⟨0x00590008, 16, 32, [⟨31, 0, .rc, .const 0⟩]⟩,
    ⟨0x0059000C, 16, 32, [⟨31, 0, .pr, .const 0⟩]⟩ ]

/-- The registers of R550. -/
def RegMap.relay : List RegRow :=
  [
    ⟨0x005A0000, 32, 16, [⟨1, 0, .ro, .const 0⟩, ⟨15, 2, .pr, .const 0⟩, ⟨25, 16, .ro, .const 0⟩, ⟨31, 26, .pr, .const 0⟩]⟩,
    ⟨0x005A0004, 32, 16, [⟨31, 0, .rc, .const 0⟩]⟩,
    ⟨0x005A0008, 32, 16, [⟨31, 0, .rc, .const 0⟩]⟩,
    ⟨0x005A000C, 32, 16, [⟨31, 0, .rc, .const 0⟩]⟩,
    ⟨0x005A0010, 32, 16, [⟨15, 0, .ro, .const 0⟩, ⟨31, 16, .pr, .const 0⟩]⟩,
    ⟨0x005A0014, 32, 16, [⟨31, 0, .pr, .const 0⟩]⟩,
    ⟨0x005A0018, 32, 16, [⟨31, 0, .pr, .const 0⟩]⟩,
    ⟨0x005A001C, 32, 16, [⟨31, 0, .pr, .const 0⟩]⟩ ]

/-- The registers of R551. -/
def RegMap.load : List RegRow :=
  [
    ⟨0x005C0000, 4, 1, [⟨9, 0, .ro, .const 0⟩, ⟨19, 10, .ro, .const 0⟩, ⟨29, 20, .ro, .const 0⟩, ⟨31, 30, .pr, .const 0⟩]⟩,
    ⟨0x005C0004, 4, 1, [⟨31, 0, .rc, .const 0⟩]⟩,
    ⟨0x005C0008, 4, 1, [⟨31, 0, .rc, .const 0⟩]⟩,
    ⟨0x005C000C, 4, 1, [⟨31, 0, .pr, .const 0⟩]⟩ ]

/-- The registers of R577. -/
def RegMap.calQuality : List RegRow :=
  [
    ⟨0x005E0000, 32, 4, [⟨15, 0, .ro, .const 0⟩, ⟨31, 16, .ro, .const 0⟩]⟩,
    ⟨0x005E0004, 32, 4, [⟨15, 0, .ro, .const 0⟩, ⟨31, 16, .ro, .const 0⟩]⟩,
    ⟨0x005E0008, 32, 4, [⟨31, 0, .ro, .const 0⟩]⟩,
    ⟨0x005E000C, 32, 4, [⟨15, 0, .ro, .const 0⟩, ⟨31, 16, .pr, .const 0⟩]⟩,
    ⟨0x005E0010, 32, 4, [⟨31, 0, .rc, .const 0⟩]⟩,
    ⟨0x005E0014, 32, 4, [⟨31, 0, .pr, .const 0⟩]⟩,
    ⟨0x005E0018, 32, 4, [⟨31, 0, .pr, .const 0⟩]⟩,
    ⟨0x005E001C, 32, 4, [⟨31, 0, .pr, .const 0⟩]⟩ ]

/-- Every register of the spec's maps. -/
def RegMap.all : List RegRow :=
  RegMap.periscope ++ RegMap.host ++ RegMap.ingress ++ RegMap.channel ++ RegMap.transform ++ RegMap.trigger ++ RegMap.acquisition ++ RegMap.capMem ++ RegMap.integrity ++ RegMap.display ++ RegMap.traceProc ++ RegMap.marker ++ RegMap.export ++ RegMap.relay ++ RegMap.load ++ RegMap.calQuality

/-- The index of an address in a register array, if it is one of its registers. -/
def RegRow.indexOf (r : RegRow) (addr : Nat) : Option Nat :=
  if addr < r.base then none
  else if (addr - r.base) % r.stride = 0 ∧ (addr - r.base) / r.stride < r.count then some ((addr - r.base) / r.stride)
  else none

/-- The first register array of a list that holds an address, with the index. -/
def RegMap.findIn : List RegRow → Nat → Option (RegRow × Nat)
  | [], _ => none
  | r :: t, addr =>
    match r.indexOf addr with
    | some i => some (r, i)
    | none => RegMap.findIn t addr

/-- The register at an address: its row and its index in the array; none for an address no map lists (R49, R63). -/
def RegMap.find (addr : Nat) : Option (RegRow × Nat) := RegMap.findIn RegMap.all addr

/-- The reset value of one field of register `i`. -/
def RegField.resetAt (f : RegField) (i : Nat) : Nat :=
  match f.reset with
  | .const v => v
  | .index => i

/-- The reset value of register `i` of an array. -/
def RegRow.resetAt (r : RegRow) (i : Nat) : Word :=
  r.fields.foldl (fun w f => w ||| Word.place f.hi f.lo (f.resetAt i)) 0

/-- The reset value of the register at an address; 0 where no map lists one. -/
def RegMap.resetOf (addr : Nat) : Word :=
  match RegMap.find addr with
  | some (r, i) => r.resetAt i
  | none => 0

end Sys2Proof.Machine
end

