-- ==== Sys2Proof/Machine/StCap.lean ====
section
/-!
DEFINITION. The state of the capture memory controller (R356–R388), of stored-data integrity (R391–R408) and of the spare
inventory (R411–R420).
-/

namespace Sys2Proof.Machine

/-- A retraining under way (R379). -/
structure Training where
  /-- 0 periodic, 2 temperature, 3 error threshold, 4 steps discarded by a rate change (R389). -/
  cause : Nat
  /-- Steps ended with usable data so far (write strobe, read delays, write delays, ZQ). -/
  step : Nat := 0
  /-- Repeats of the present step. -/
  tries : Nat := 0
  gathering : Bool := true
  /-- Narrowest eye so far, ps and mV. -/
  eyeW : Nat := 65535
  eyeH : Nat := 65535
  deriving DecidableEq, Repr

/-- What a slot of a pseudo-channel is used for (R362). -/
inductive SlotKind where
  | refresh
  | neighbour
  | scheduled
  | leftover
  deriving DecidableEq, Repr

/-- The use of the slots of a pseudo-channel: the newest used, by period and number, and the reserved and scheduled ones used in that period (R362). -/
structure SlotUse where
  period : Nat := 0
  slot : Option Nat := none
  refresh : Nat := 0
  neighbour : Nat := 0
  scheduled : Nat := 0
  deriving DecidableEq, Repr

/-- A physical pseudo-channel. -/
structure Pc where
  /-- 0 active, 1 spare idle, 2 spare receiving a copy, 3 retired. -/
  role : Nat
  /-- Logical pseudo-channel served, 0xFF when none. -/
  logical : Nat
  pd0 : Bool := false
  pd1 : Bool := false
  hot : Bool := false
  /-- Cycle of the last command to each rank (R373). -/
  used0 : Nat := 0
  used1 : Nat := 0
  /-- The LFSR of R371. -/
  lfsr : Word := 0
  /-- Queued neighbour refreshes, oldest first: the selected block indexes (R371, R372). -/
  nrq : List Nat := []
  /-- Selections that found the queue full, to be served at rank 2 of R368. -/
  nrOver : List Nat := []
  /-- Corrected blocks queued for write-back: block number and the cycle of the read (R399). -/
  wbq : List (Nat × Nat) := []
  /-- Per-bank refreshes issued (R370). -/
  refreshed : Nat := 0
  train : Option Training := none
  /-- A trained setting that waits for a period boundary (R379). -/
  setting : Option Training := none
  /-- Activates in the present millisecond, and the millisecond. -/
  acts : Nat := 0
  actsMs : Nat := 0
  /-- Temperature at the last training, °C (R379). -/
  trainTemp : Int := 0
  /-- The second in which its last periodic retraining began, counted from 1 (R379). -/
  trainSec : Nat := 0
  slots : SlotUse := {}
  deriving DecidableEq, Repr

/-- A pseudo-channel being retired (R381–R384). -/
structure Retire where
  phys : Nat
  logical : Nat
  /-- The tick of detection. -/
  tf : Nat
  cause : Nat
  /-- The spare taken, none when none is left. -/
  spare : Option Nat
  /-- Its writes have been redirected, or are discarded (R381, R383). -/
  redirected : Bool := false
  /-- The launch tick of the new map. -/
  launch : Option Nat := none
  deriving DecidableEq, Repr

/-- An area of capture memory in use: region g of R391, owner aperture or unit, first address and size. -/
structure Alloc where
  region : Nat
  owner : Nat
  base : Nat
  size : Nat
  /-- Placed under the light code (R391). -/
  light : Bool := false
  deriving DecidableEq, Repr

/-- The controller. -/
structure Cmc where
  pcs : Tbl Pc := []
  /-- P of R358. -/
  p : Nat := 180
  /-- 0 9.6, 1 7.2, 2 4.8 Gb/s. -/
  rate : Nat := 0
  /-- A requested rate that waits for steps to end or for a relock (R377). -/
  rateReq : Option Nat := none
  /-- The rate the PHY is relocking to. -/
  relock : Option Nat := none
  /-- PD_IDLE and NR_LOG2 in force (R374). -/
  pdIdle : Nat := 32
  nrLog2 : Nat := 9
  /-- A compiled schedule that waits: launch tick and its most slots in a period (R365). -/
  schedNext : Option (Nat × Nat) := none
  /-- The write buffer: block numbers with the cycle of their write (R365, R366). -/
  wbuf : List (Nat × Nat) := []
  retiring : List Retire := []
  /-- Scan-out has panic asserted (R369). -/
  panic : Bool := false
  allocs : List Alloc := []
  /-- Lines that hold the poison pattern, by line number (R398). -/
  poison : List Nat := []
  /-- Facet bytes that hold the poison pattern: region and byte address within it (R396). -/
  facet : List (Nat × Nat) := []
  /-- Logical pseudo-channels all of whose blocks read as poisoned, but for the block numbers written since (R381). -/
  poisonPcs : List (Nat × List Nat) := []
  /-- Planned take-overs: logical pseudo-channel and the next block index to copy (R416). -/
  copy : Tbl Nat := []
  /-- Blocks written since they were copied (R382). -/
  copyWritten : List Nat := []
  /-- The scrubbers: position, time the lap began, uncorrectable findings in the lap (R405–R407). -/
  scrubPos : Nat := 0
  scrubAt : Nat := 0
  scrubFound : Nat := 0
  /-- Pseudo-channels that have passed the present position; the period in progress and its positions. -/
  scrubDone : List Nat := []
  scrubPeriod : Nat := 0
  scrubCount : Nat := 0
  /-- Temperature readout of each stack, °C (R370). -/
  temps : Tbl Int := []
  /-- The cycle of the last write of STAGE_CODE, and the code before it (R392). -/
  stageWas : Option (Nat × Bool) := none
  facetAt : Nat := 0
  /-- The cycle from which the Facet scrubber may read a bank again (R407). -/
  facetNext : Tbl Nat := []
  facetFound : Nat := 0
  deriving DecidableEq, Repr

/-- The counting of a region's errors within a second and between events (R400, R404, R408). -/
structure RegionCount where
  second : Nat := 0
  ce : Nat := 0
  raised : Bool := false
  /-- Cycle of the last uncorrectable read, and those since the last EV_UE. -/
  ueAt : Option Nat := none
  ueSince : Nat := 0
  scrubRaised : Bool := false
  /-- Code of the newest placement: light. -/
  light : Bool := false
  deriving DecidableEq, Repr

/-- A take-over under way (R412). -/
structure Takeover where
  /-- 0 lane receiver, 1 ADC slice, 2 butterfly lane, 3 Prism engine, 4 channel unit, 5 trace processor, 6 Facet bank,
  7 pseudo-channel, 8 DRAM row, 9 sequencer core (R411). -/
  kind : Nat
  unit : Nat
  spare : Nat
  cause : Nat := 1
  mismatches : Nat := 0
  /-- The launch tick, once the lockstep has agreed. -/
  launch : Option Nat := none
  /-- The lockstep that passed found a difference before (R261). -/
  differed : Bool := false
  /-- Cycle at which the present attempt began. -/
  began : Nat := 0
  /-- The value of the indicator that crossed. -/
  value : Nat := 0
  deriving DecidableEq, Repr

/-- A unit retired: the entry of R420. -/
structure Retired where
  kind : Nat
  cause : Nat
  unit : Nat
  spare : Option Nat
  tick : Nat
  deriving DecidableEq, Repr

/-- The spare inventory (R411–R420). -/
structure Spares where
  running : List Takeover := []
  retired : List Retired := []
  takeovers : Nat := 0
  abandoned : Nat := 0
  /-- Spares used, by kind and scope: (kind, scope, spare unit). -/
  used : List (Nat × Nat × Nat) := []
  /-- Scopes with no spare left, by kind. -/
  exhausted : List (Nat × Nat) := []
  /-- The latest margins to the thresholds, per mille: kind, unit, indicator, margin. -/
  margins : List (Nat × Nat × Nat × Nat) := []
  /-- The latest values of indicators, in their units: kind, unit, indicator, value (R195). -/
  values : List (Nat × Nat × Nat × Nat) := []
  /-- The times of the latest evaluations: kind, unit, indicator, time (R593). -/
  evalAt : List (Nat × Nat × Nat × Nat) := []
  /-- Rows entered in the repair list (R417). -/
  rows : List Nat := []
  /-- What was lost without a spare (R419): channels, logical processors, and the Facet region of each bank. -/
  lostChans : List Nat := []
  lostTps : List Nat := []
  shrunk : List Nat := []
  deriving DecidableEq, Repr

end Sys2Proof.Machine
end

