-- ==== Sys2Proof/Machine/StPath.lean ====
section
/-!
DEFINITION. The state of the data path from a pad to the bins of a spectrum: pads and receivers (R153–R159), source
streams (R160–R166, R189–R193, R647), JESD204C links (R167–R174), converters (R175–R183), channelisers (R202–R230), frame
staging and the Prism engines (R235–R270).
-/

namespace Sys2Proof.Machine

/-- A configuration block: its type, its unit and all its dwords, header included (R82). -/
structure Block where
  type : Nat
  unit : Nat
  words : List Word
  deriving DecidableEq, Repr

/-- A pad and the receiver that serves it (R153, R156, R158, R200). -/
structure Pad where
  /-- 0 idle, 1 PSL, 2 JESD. -/
  mode : Nat := 0
  rx : Nat := 0
  aligned : Bool := false
  /-- Aligned at least once since the launch that set the mode. -/
  everAligned : Bool := false
  good : Nat := 0
  bad : Nat := 0
  /-- The last 58 bits received, the newest uppermost: the state of the descrambler (R158). -/
  scr : Nat := 0
  /-- The last whole frame was bad (R196). -/
  lastBad : Bool := false
  deriving DecidableEq, Repr

/-- A PSL frame held for its group (R162). -/
structure PslHeld where
  bpos : Nat
  seq : Nat
  real : Bool
  ovr : Bool
  bad : Bool
  time : QWord
  /-- Cycle of its first bit. -/
  arrive : Nat
  data : List Word
  deriving DecidableEq, Repr

/-- One complex sample of a source stream: its codes, its marks and its acquisition instant in ticks (R164). -/
structure Sample where
  i : Int
  q : Int
  poison : Bool
  ovr : Bool
  instant : Frac
  deriving DecidableEq, Repr

/-- A sample inside the Splitter: its position in the stream, whether it opens an anchor group (R165, R185), whether it is a substitute, the
cycle of its entry, the ports it goes to, and whether the route under which it entered has since gone (R186). -/
structure InSplitter where
  smp : Sample
  pos : Nat
  anchor : Bool
  sub : Bool := false
  enter : Nat := 0
  dest : Nat := 0
  old : Bool := false
  deriving DecidableEq, Repr

/-- A mixed real sample in the real-to-complex filter (R179): `lost` stands for one of a lost frame or multiblock (R191). -/
structure RealIn where
  i : Int
  q : Int
  ovr : Bool
  poison : Bool
  lost : Bool := false
  instant : Frac := ⟨0, 1⟩
  deriving DecidableEq, Repr

/-- A source stream (R160–R166, R189–R193, R647). -/
structure Stream where
  /-- 0 NOT ROUTED, 1 WAITING, 2 UP, 3 DOWN. -/
  state : Nat := 0
  /-- The route block in force and the aperture it belongs to. -/
  route : Option (Nat × Block) := none
  /-- The stream has been anchored since it last became WAITING or DOWN. -/
  anchored : Bool := false
  /-- Position `posBase` has the instant `base`; later ones follow at the rate (R164). -/
  base : Int := 0
  posBase : Nat := 0
  /-- Position of the first sample of the next group by SEQ. -/
  groupPos : Nat := 0
  /-- Next position to be delivered. -/
  nextPos : Nat := 0
  /-- SEQ expected next. -/
  seq : Nat := 0
  /-- G of R647. -/
  g : Int := 0
  /-- Cycle of the last good frame naming the stream, or of the last good multiblock. -/
  lastGood : Nat := 0
  /-- EV_PSL_STREAM cause 2 is standing (R166). -/
  drifting : Bool := false
  held : List PslHeld := []
  /-- SEQ of the group last released and the cycle of its first bit at BPOS 0 (R162). -/
  lastGroup : Option (Nat × Nat) := none
  /-- While an anchor group is on its way to the ports, the stamp sequence that the substitutes still continue: instant, its position, next
  position (R189, R190). -/
  subSeq : Option (Int × Nat × Nat) := none
  fifo : List InSplitter := []
  /-- Instants of the last substitute delivered, and of the last sample of any kind (R192). -/
  lastSub : Option Frac := none
  lastOut : Option Frac := none
  /-- Next position to reach the ports (R647). -/
  outPos : Nat := 0
  /-- The stream has come UP and none of its samples is yet later than the last substitute (R192). -/
  returning : Bool := false
  /-- The next sample carries poison after an overrun (R193). -/
  poisonNext : Bool := false
  /-- Samples × 3,000,000 of the stream that have reached each port's buffer beyond what it drains at RATE_KCS, and the cycle they were taken at
  (R193). -/
  levels : Tbl Nat := []
  levelAt : Nat := 0
  /-- Real samples delivered in the present window of 1 ms and in the last whole one, and the window's number (R200). -/
  rateNow : Nat := 0
  rateLast : Nat := 0
  rateWin : Nat := 0
  /-- Samples discarded since the last delivered one. -/
  dropped : Nat := 0
  /-- The real-to-complex filter's inputs, newest first (R179). -/
  real : List RealIn := []
  realCount : Nat := 0
  /-- A converter's route that has left force, with its instant and position base, until its last samples have reached the ports (R186). -/
  leaving : Option (Nat × Int × Nat × Block) := none
  deriving DecidableEq, Repr

/-- A JESD204C link (R167–R174). -/
structure JesdLink where
  up : Bool := false
  /-- Count at an LEMC boundary, once aligned (R171). -/
  lemc : Option Nat := none
  /-- Multiblocks begun since alignment. -/
  blocks : Nat := 0
  /-- RATE_MBPS that its synthesiser is set to; 0 before the first (R607). -/
  rate : Nat := 0
  deriving DecidableEq, Repr

/-- A converter AIN0–AIN3 (R175–R183). -/
structure Ain where
  /-- The slice at each position of the interleave that is not its own number's. -/
  slices : Tbl Nat := []
  /-- The slice outside the interleave, none when it is in permanent use. -/
  out : Option Nat := some 64
  degraded : Bool := false
  /-- Comparator health has failed with no slice left: every sample carries poison (R419). -/
  failed : Bool := false
  swaps : Nat := 0
  /-- The phase of the sampling instants in 50 fs steps, as it stood at a cycle, and the one it moves to (R608, R609). -/
  phase : Int := 0
  phaseAt : Nat := 0
  phaseGoal : Int := 0
  /-- The delay trim of the correction set in force, in 50 fs steps (R573, R608). -/
  delayTrim : Int := 0
  /-- Residual trim of each slice in 50 fs steps, −250 to +250 (R608). -/
  residuals : Tbl Int := []
  /-- Cycle of the last over-range sample (R178). -/
  ovrAt : Option Nat := none
  ovrSince : Nat := 0
  deriving DecidableEq, Repr

/-- A sample between two stages of a channeliser: path values (R203), marks, and the last channel input of its span. -/
structure PathSample where
  i : Int
  q : Int
  poison : Bool
  ovr : Bool
  last : Nat
  deriving DecidableEq, Repr

/-- A channel input, kept while an output may be centred on it: its instant and the cycle it was delivered (R226). -/
structure ChanIn where
  n : Nat
  instant : Frac
  cycle : Nat
  deriving DecidableEq, Repr

/-- An input of a channel: a complex sample in path units, its marks, its instant and the cycle of its delivery. -/
structure ShadowIn where
  i : Int
  q : Int
  poison : Bool
  ovr : Bool
  instant : Frac
  cycle : Nat
  deriving DecidableEq, Repr

/-- One decimating filter of a chain: its inputs, newest first, and how many inputs it has had. -/
structure FirState where
  hist : List PathSample := []
  seen : Nat := 0
  deriving DecidableEq, Repr

/-- A running channeliser chain under one channel block (R202–R221). -/
structure Chain where
  block : Block
  /-- f_in in kCS/s. -/
  fin : Frac
  /-- The count of its launch, or of its shadow start. -/
  start : Nat
  n : Nat := 0
  /-- φ of the next input (R209). -/
  phi : Nat := 0
  ints : List Nat := []
  combs : List Nat := []
  /-- The last inputs carrying poison and over-range, for the CIC's span. -/
  lastPoison : Option Nat := none
  lastOvr : Option Nat := none
  cfir : FirState := {}
  hb : List FirState := [{}, {}, {}]
  rs : FirState := {}
  /-- Next resampler output number m (R220). -/
  rsM : Nat := 0
  pd : FirState := {}
  hist : List ChanIn := []
  /-- Components saturated since the last output (R217). -/
  clips : Nat := 0
  deriving DecidableEq, Repr

/-- A channel output sample on its way to staging (R204, R226). -/
structure ChanOut where
  i : Int
  q : Int
  poison : Bool
  ovr : Bool
  instant : Frac
  due : Nat
  clips : Nat := 0
  /-- First output of a new configuration. -/
  first : Bool := false
  /-- The launch tick of its configuration, and CLIP_EV of it (R208, R231, R233). -/
  start : Nat := 0
  clipEv : Bool := false
  deriving DecidableEq, Repr

/-- A completed frame in staging (R235–R238). -/
structure Frame where
  k : Nat
  block : Block
  stamp : Nat
  tq : Nat
  /-- Completion cycle C and deadline C + A. -/
  c : Nat
  a : Nat
  restart : Bool
  /-- Its staging ring, and its first sample's number there (R238). -/
  ring : Nat := 0
  first : Nat := 0
  /-- The samples as they were read, once the pair has begun to read them, and whether staging met an error. -/
  samples : List ChanOut := []
  readError : Bool := false
  /-- Half-bursts of 8 samples that the pair has still to read (R240). -/
  left : Nat := 0
  engine : Nat := 0
  /-- f_ch in kCS/s, exact (R222). -/
  fch : Frac := ⟨0, 1⟩
  deriving DecidableEq, Repr

/-- A spectrum with the tag of R255 and its bins from BIN_LO up: mantissa pairs of R246. -/
structure Spectrum where
  channel : Nat
  block : Block
  stamp : Nat
  seq : Nat
  bfe : Int
  poison : Bool
  ovr : Bool
  restart : Bool
  tq : Nat
  poisonSrc : Nat
  /-- Delivery cycle D (R256). -/
  d : Nat
  bins : List (Int × Int)
  /-- Bins already emitted. -/
  emitted : Nat := 0
  deriving DecidableEq, Repr

/-- A staging ring (R34, R238, R239, R392). -/
structure Staging where
  no : Nat
  /-- N and hop: the ring has 2 × (N + hop) sample words. -/
  n : Nat
  hop : Nat
  /-- The code it was placed with. -/
  light : Bool := true
  /-- The 64-byte lines of region 0 that hold it, in its order: first line and number of lines. -/
  lines : List (Nat × Nat) := []
  /-- Samples written to it so far, and those that it holds, by position. -/
  count : Nat := 0
  words : Tbl ChanOut := []
  deriving DecidableEq, Repr

/-- The frame sequence of a channel (R235, R238, R260–R262). -/
structure FrameSeq where
  block : Block
  /-- Changed blocks, each taking over at the first frame stamped at or after its count (R260), oldest first. -/
  next : List (Nat × Block) := []
  a : Nat
  /-- Frame 0 starts at the first sample stamped at or after this count (R262). -/
  from_ : Nat
  started : Bool := false
  /-- Samples of the sequence written to staging. -/
  count : Nat := 0
  /-- Its staging ring, the number there of its first sample, and the instant of the newest. -/
  ring : Nat := 0
  first : Nat := 0
  last : Option Frac := none
  /-- f_ch in kCS/s, exact (R222). -/
  fch : Frac := ⟨0, 1⟩
  deriving DecidableEq, Repr

/-- A channel: its unit, its chains, its staging and the spectra under way (R202, R227–R230, R231, R270). -/
structure Chan where
  /-- CHAN_STAT.STATE: 0 idle, 1 settling, 2 running. -/
  state : Nat := 0
  live : Option Chain := none
  /-- The shadow chain, the count it started at, and whether its input was delivered then (R228, R229). -/
  shadow : Option (Chain × Nat × Bool) := none
  /-- The inputs of the shadow chain since its start, until its launch (R228). -/
  shadowIn : List ShadowIn := []
  /-- The chain before the last switch, which takes what comes late of its inputs stamped before the tick (R227). -/
  old : Option (Nat × Chain) := none
  /-- The launch tick of the latest switch (R231), and φ of the last input taken (R210). -/
  switchAt : Nat := 0
  lastPhi : Option Nat := none
  /-- Switches under way, oldest first (R227): inputs stamped at or after the tick go to the new chain; none ends the channel. -/
  next : List (Nat × Option Chain) := []
  /-- A settled switch under way (R228): outputs stamped before the tick are the live chain's, the others the shadow's. -/
  cross : Option Nat := none
  /-- The source stream is withdrawn: substitutes at the last rate in kCS/s, from a count, with the next one's number (R206). -/
  withdrawn : Option (Nat × Nat × Nat) := none
  /-- A Loupe child whose parent switched at a count waits for the parent's first new output (R208). -/
  gap : Option Nat := none
  /-- The frame sequences that begin with the first output stamped at or after a count, oldest first (R262). -/
  framesNext : List (Nat × Option FrameSeq) := []
  outq : List ChanOut := []
  /-- Outputs written and not yet delivered to the consumers (R242). -/
  pending : List ChanOut := []
  /-- Outputs delivered since the last break (R324). -/
  since : Nat := 0
  frames : Option FrameSeq := none
  /-- The staging rings that are held, oldest first, and the number of the next (R34, R239). -/
  rings : List Staging := []
  ringNo : Nat := 0
  done : List Frame := []
  reading : List Frame := []
  spectra : List Spectrum := []
  /-- Cycle of the last clip, and the clips since the last EV_CHANNEL cause 1 (R233). -/
  clipAt : Option Nat := none
  clipSince : Nat := 0
  deriving DecidableEq, Repr

/-- A physical Prism engine (R240, R266–R270). -/
structure Engine where
  /-- 0 active, 1 spare idle, 2 spare in lockstep, 3 retired. -/
  role : Nat := 1
  sector : Nat := 0
  laneUsed : Bool := false
  deriving DecidableEq, Repr

end Sys2Proof.Machine
end

