-- ==== Sys2Proof/Machine/StDisplay.lean ====
section
/-!
DEFINITION. The state of the density engine (R423–R437) and of scan-out (R439–R451).
-/

namespace Sys2Proof.Machine

/-- A density feed: its plane and its pixel buffers. -/
structure Feed where
  /-- The live block and its aperture. -/
  block : Option (Nat × Block) := none
  /-- The aperture is LIVE: updates, decay and renders run. -/
  running : Bool := false
  /-- L: the launch tick that started the feed's renders and decay. -/
  start : Nat := 0
  /-- Spectra stamped before this tick are discarded: the launch that cleared the plane. -/
  cleared : Nat := 0
  /-- The block before the newest launch, where that kept the plane: spectra stamped before it are counted under it (R436). -/
  old : Option (List Word) := none
  /-- Cells by `y × WIDTH + x`; a cell not listed is 0. -/
  cells : Tbl Nat := []
  /-- Bases of the buffers. -/
  bufs : List Nat := []
  nextBufs : Option (List Nat) := none
  /-- Next render and next sweep. -/
  nextRender : Nat := 0
  rendering : Option Nat := none
  nextSweep : Nat := 1
  deriving DecidableEq, Repr

/-- A layer: what is latched, what waits, and its line buffer. -/
structure Layer where
  /-- LAYER_SET's block as latched; none before the first. -/
  set : Option (List Word) := none
  waiting : Option (List Word) := none
  current : Nat := 3
  pending : Nat := 3
  /-- Bytes of the current buffer fetched and consumed in the frame, and the bytes between. -/
  fetched : Nat := 0
  consumed : Nat := 0
  line : List Byte := []
  /-- The fetch has stopped: the frame was aborted, or the feed released. -/
  stopped : Bool := true
  deriving DecidableEq, Repr

/-- The raster and its link. -/
structure Raster where
  running : Bool := false
  black : Bool := false
  /-- The pixel clock is locking for a mode. -/
  locking : Bool := false
  mode : List Word := []
  waiting : Option (List Word) := none
  frame : Nat := 0
  /-- The instant, in cycles, at which the present frame began. -/
  frameAt : Frac := ⟨0, 1⟩
  /-- Next active line. -/
  nextLine : Nat := 0
  aborted : Bool := false
  /-- The active line whose pixels are being sent and are not all held yet, with the instant of its first (R448). -/
  sending : Option (Nat × Frac) := none
  /-- Underruns in the present frame. -/
  underruns : Nat := 0
  hpd : Bool := false
  linkUp : Bool := false
  training : Bool := false
  deriving DecidableEq, Repr

end Sys2Proof.Machine
end

