-- ==== Sys2Proof/Machine/StExport.lean ====
section
/-!
DEFINITION. The state of export (R513–R541) and of Relay (R542–R550).
-/

namespace Sys2Proof.Machine

/-- An entry of a record, or a part of a queue's byte stream, that waits in staging until it is published. -/
structure StageItem where
  recno : Nat
  /-- Byte offset in the record's data, or in the queue stream (R525). -/
  off : Nat
  /-- Capture data address. -/
  addr : Nat
  len : Nat
  /-- Cycle at which it was written. -/
  cycle : Nat
  /-- Overwritten before it was sent (R531). -/
  lost : Bool := false
  /-- Last item of this channel in the record. -/
  last : Bool := false
  deriving DecidableEq, Repr

/-- The unpublished items of a sub-ring, oldest first: those of the publication in flight, those sent since it began, and those not
yet sent (R528). -/
structure StageQ where
  items : List StageItem := []
  sent : List StageItem := []
  pub : List StageItem := []
  deriving DecidableEq, Repr

/-- A record whose header and descriptors follow its data on a stream: its number, and where they lie in capture memory (R32, R525). -/
structure RecordTail where
  recno : Nat
  addr : Nat
  len : Nat
  /-- Overwritten before it was sent whole (R531). -/
  lost : Bool := false
  /-- Bytes sent of it, those of them that the publication in flight will publish, and those published. -/
  sent : Nat := 0
  inPub : Nat := 0
  pubd : Nat := 0
  deriving DecidableEq, Repr

/-- What a publication in flight will publish: bytes written to the host ring, staging bytes, SEQ, the next sub-ring, and the
address its flush read reads (R528). -/
structure Publication where
  written : Nat
  stg : Nat
  seq : Nat
  turn : Nat
  addr : QWord
  /-- The time at which the flush read was sent (R532). -/
  since : Nat := 0
  deriving DecidableEq, Repr

/-- A DMA channel (R513–R537). -/
structure DmaChan where
  /-- 0 idle, 1 running, 2 pausing, 3 paused, 4 retrying, 5 halted. -/
  state : Nat := 0
  live : Option (Nat × Block) := none
  shadow : Option (Nat × Block) := none
  /-- The launch tick at or after which the shadow set swaps in; none before a launch. -/
  swapAt : Option Nat := none
  tries : Nat := 0
  req : Bool := false
  flush : Bool := false
  /-- A flush has sent its last byte: a publication is due (R528). -/
  pubDue : Bool := false
  haltKind : Nat := 0
  /-- HEAD and the published TAIL. -/
  head : Nat := 0
  tail : Nat := 0
  /-- Bytes written to the host ring since the swap, and when the last publication began. -/
  written : Nat := 0
  pubWritten : Nat := 0
  /-- Staging bytes sent, and staging bytes published, since the swap. -/
  stgSent : Nat := 0
  stg : Nat := 0
  seq : Nat := 0
  pubSeq : Nat := 0
  pub : Option Publication := none
  /-- Queue sources: the staging ring's address and size, the ring position of byte 0 of the stream, the bytes drained into it
  since the swap, and the drains not yet published: the byte after each and its cycle (R518). -/
  stageBase : Nat := 0
  stageSize : Nat := 0
  pos0 : Nat := 0
  staged : Nat := 0
  drains : List (Nat × Nat) := []
  /-- A staging ring placed at admission for the shadow set: address and size. -/
  nextStage : Option (Nat × Nat) := none
  /-- Streaming capture: next sub-ring to be served, and the one at the last publication (R525). -/
  turn : Nat := 0
  pubTurn : Nat := 0
  tails : List RecordTail := []
  /-- Staging bytes overwritten since the last cause 5, and the cycle of the last loss (R531). -/
  lossSince : Nat := 0
  lossAt : Option Nat := none
  /-- A pause written during a retry (R536). -/
  pausePending : Bool := false
  deriving DecidableEq, Repr

/-- A block command in progress on channel 62 or 63 (R539–R541). -/
structure BlockJob where
  ring : Nat
  write : Bool
  cap : Nat
  host : Nat
  length : Nat
  /-- Bytes confirmed so far. -/
  done : Nat := 0
  fails : Nat := 0
  /-- The lowest address of a request that failed (R643), and the time at which the read now out was sent (R532). -/
  failLow : Option QWord := none
  since : Nat := 0
  deriving DecidableEq, Repr

/-- A command outstanding on a drive (R547, R548). -/
structure NvmeCmd where
  cid : Nat
  stream : Nat
  /-- The chunk; none for a Flush. -/
  chunk : Option Nat
  slba : Nat
  /-- Chunk address and length in bytes, for a resubmission. -/
  addr : Nat := 0
  len : Nat := 0
  tries : Nat := 0
  cycle : Nat := 0
  deriving DecidableEq, Repr

/-- A drive slot (R543, R550). -/
structure DriveSlot where
  /-- 0 free, 1 attached, 2 streaming, 3 failed. -/
  state : Nat := 0
  /-- RELAY_ATTACH's block. -/
  block : List Word := []
  cmds : List NvmeCmd := []
  sqTail : Nat := 0
  cqHead : Nat := 0
  cqPhase : Bool := true
  /-- CIDs that timed out and may still complete (R548). -/
  late : List Nat := []
  /-- Chunks since the last Flush (FLUSH_CHUNKS). -/
  sinceFlush : Nat := 0
  deriving DecidableEq, Repr

/-- A Relay stream (R544–R549). -/
structure RelayStream where
  block : Option (Nat × Block) := none
  running : Bool := false
  /-- The transit ring of its channel: address and size. -/
  base : Nat := 0
  size : Nat := 0
  /-- Next chunk to submit, and chunks completed from 0 without a gap. -/
  next : Nat := 0
  headChunk : Nat := 0
  completed : List Nat := []
  /-- Stopping: why, and whether the Flushes have been sent (R549). -/
  stopping : Bool := false
  /-- A halt or release: the last partial chunk is padded and submitted; it has been. -/
  pad : Bool := false
  padded : Bool := false
  flushed : Bool := false
  deriving DecidableEq, Repr

end Sys2Proof.Machine
end

