-- ==== Sys2Proof/Machine/StHost.lean ====
section
/-!
DEFINITION. The state of the control path: the timebase (R106–R120), PCIe (R37–R40), firmware status (R50), mailbox
rings (R66–R76), the event ring and its backlog (R96–R102), read shadows (R59) and everything the device sends out.
-/

namespace Sys2Proof.Machine

/-- Timebase quality (R111). -/
inductive Tq where
  | free
  | locked
  | holdover
  | slewing
  deriving DecidableEq, Repr

/-- The code of a timebase quality (R111). -/
def Tq.code : Tq → Nat
  | .free => 0
  | .locked => 1
  | .holdover => 2
  | .slewing => 3

/-- The tick counter, its references and the device's place in a group (R106–R120, R151). -/
structure Clock where
  /-- CLK_CORE runs (R107). -/
  run : Bool := false
  /-- Ticks of real time since standby power-up; the MC's own time is counted from it. -/
  time : Nat := 0
  /-- CLK_CORE cycles since CLK_CORE started: never loaded. -/
  cycle : Nat := 0
  /-- The timebase count (R106). -/
  count : QWord := 0
  /-- Timebase loads since bring-up (R151). -/
  epoch : Nat := 0
  tq : Tq := .free
  /-- The counts at which TQ changed, with what it became, latest first (R111). -/
  tqLog : List (Nat × Tq) := []
  /-- ROLE of R112: 0 STANDALONE, 1 ROOT, 2 LEADER, 3 MEMBER. -/
  role : Nat := 0
  group : Nat := 0
  pos : Nat := 0
  groupMask : Nat := 0
  systemMask : Nat := 0
  refMode : Nat := 0
  ppsEn : Bool := false
  ppsFall : Bool := false
  ppsOffset : Nat := 0
  /-- LOAD_AT_PPS armed: the value, and the first cycle at which an edge loads it (R119). -/
  ppsLoad : Option (QWord × Nat) := none
  refPresent : Bool := false
  ppsPresent : Bool := false
  /-- Consecutive good edges of PPS_IN (R114). -/
  ppsGood : Nat := 0
  /-- The cycle of the last PPS edge, none before the first. -/
  ppsCycle : Option Nat := none
  /-- Count at the last PPS edge (R151). -/
  lastPps : QWord := 0
  /-- Frequency correction in units of 10⁻¹² (R151), and what SLEWING adds to it (R117). -/
  trim : Int := 0
  added : Int := 0
  /-- The corrections of late, latest first, each with the time from which it held (R116). -/
  trims : List (Nat × Int) := []
  /-- Phase error in units of 0.1 ps (R151). -/
  phaseErr : Int := 0
  /-- The time at which the current holdover began. -/
  holdoverAt : Option Nat := none
  bcastSeq : Nat := 0
  /-- Sync words discarded for CRC, all links (R151). -/
  linkErr : Word := 0
  bcast : List Word := [0, 0, 0, 0, 0, 0, 0, 0]
  /-- Latest group and system scope-complete bits (R129). -/
  scopeGroup : Bool := false
  scopeSystem : Bool := false
  deriving DecidableEq, Repr

/-- One entry of the MSI-X table (R39). -/
structure MsixEntry where
  addr : QWord := 0
  data : Word := 0
  masked : Bool := true
  deriving DecidableEq, Repr

/-- The PCIe function and its link (R37–R40, R620). -/
structure Pcie where
  linkUp : Bool := false
  /-- Negotiated rate in tenths of a GT/s (2.5 GT/s is 25), and width. -/
  rate10 : Nat := 640
  width : Nat := 16
  /-- Codes of Max_Payload_Size and Max_Read_Request_Size in force: 128 bytes times 2 to the code (R37). -/
  mps : Nat := 0
  mrrs : Nat := 2
  perst : Bool := true
  d3hot : Bool := false
  busMaster : Bool := false
  msixEnable : Bool := false
  msixFnMask : Bool := false
  msix : Tbl MsixEntry := []
  /-- The pending-bit array: the vectors whose bit is set, rising. -/
  pba : List Nat := []
  /-- The time of the last release of PERST# (R620). -/
  perstAt : Nat := 0
  /-- The time of the last event of R39, while its deletion awaits READY_RETURN. -/
  deletedAt : Option Nat := none
  deriving DecidableEq, Repr

/-- FW_STATUS (R50) and what firmware is running. -/
structure Fw where
  ready : Bool := false
  recovery : Bool := false
  /-- 0 A, 1 B. -/
  image : Nat := 0
  fault : Bool := false
  stage : Nat := 0
  deriving DecidableEq, Repr

/-- One access path's 64-bit read shadow (R59): the address of the low half last read, and the high half it copied. -/
structure Shadow where
  addr : Nat
  high : Word
  deriving DecidableEq, Repr

/-- What a hardware event does to a field `[hi:lo]` of a register. -/
inductive RcOp where
  /-- Adds to a whole 32-bit counter, which wraps. -/
  | count (n : Nat)
  | wrap (hi lo n : Nat)
  | sat (hi lo n : Nat)
  | set (hi lo v : Nat)
  /-- A high-water or low-water mark. -/
  | most (hi lo v : Nat)
  | least (hi lo v : Nat)
  deriving DecidableEq, Repr

/-- The field that the event changes. -/
def RcOp.span : RcOp → Nat × Nat
  | .count _ => (31, 0)
  | .wrap hi lo _ | .sat hi lo _ | .set hi lo _ | .most hi lo _ | .least hi lo _ => (hi, lo)

/-- The register after the event. -/
def RcOp.run (w : Word) : RcOp → Word
  | .count n => w + BitVec.ofNat 32 n
  | .wrap hi lo n => w.setFld hi lo (w.fld hi lo + n)
  | .sat hi lo n => w.setFld hi lo (min (w.fld hi lo + n) (2 ^ (hi + 1 - lo) - 1))
  | .set hi lo v => w.setFld hi lo v
  | .most hi lo v => w.setFld hi lo (max (w.fld hi lo) v)
  | .least hi lo v => w.setFld hi lo (min (w.fld hi lo) v)

/-- An event of the present tick at a register, and the register before it (R12). -/
structure RcEvent where
  addr : Nat
  old : Word
  op : RcOp
  deriving DecidableEq, Repr

/-- A completion before it is written (R79); `ap` is the aperture whose state it reports. -/
structure Completion where
  cmdId : Nat
  sqHead : Nat
  status : Nat
  apState : Nat := 0
  acqState : Nat := 0
  detail : Nat := 0
  result0 : QWord := 0
  result1 : QWord := 0
  doneTb : QWord := 0
  noirq : Bool := false
  /-- The doorbell's time, for a command that did not wait (R551). -/
  bell : Option Nat := none
  deriving DecidableEq, Repr

/-- A command held for the verdict of a provisional acquisition (R81). -/
inductive HeldCmd where
  | halt (tick : QWord)
  | trigger
  | freeze
  | stage (e : Entry)
  | admission (e : Entry)
  | launch (e : Entry)
  | cancel (e : Entry)
  deriving DecidableEq, Repr

/-- What a command that firmware has taken is still waiting for (R645). -/
inductive Wait where
  /-- APERTURE_WAIT: the aperture, the awaited state and sub-state (R91). -/
  | aperture (a st sub : Nat)
  /-- BARRIER: identifier and scope; whether BARRIER_WITHDRAW was sent (R146). -/
  | barrier (id scope : Nat) (withdrawn : Bool)
  | fire (id tick : Nat)
  /-- SNAPSHOT by AT or JOIN: the identifier, and which of the device's snapshots it is (R147). -/
  | snapshot (id no : Nat)
  /-- SNAPSHOT with FIRE on its origin, which waits for the APPLIED count too (R147). -/
  | snapFire (id tick : Nat)
  | reset (id tick : Nat)
  /-- LAUNCH_CANCEL on the origin of a FIRE: its CANCEL is still to be sent (R142). -/
  | cancel (id tick : Nat)
  | halt (a : Nat)
  | arm (a : Nat)
  | freeze (a : Nat)
  /-- Held until none of these apertures is provisional (R81). -/
  | held (as : List Nat) (c : HeldCmd)
  | tpStart (n : Nat)
  | tpStop (n : Nat)
  | calApply (id : Nat)
  | calSweep
  | displayMode
  | layerSet (n : Nat)
  | layerFlip (n : Nat)
  | broadcast
  | block (ch : Nat)
  | relayDetach (slot : Nat)
  /-- RING_DELETE waiting for the command in execution of ring `q` (R67). -/
  | ringDelete (q : Nat)
  deriving DecidableEq, Repr

/-- A command in execution on a ring. -/
structure Busy where
  wait : Wait
  opcode : Nat
  cmdId : Nat
  target : Nat
  noirq : Bool
  timeoutMs : Nat
  takenAt : Nat
  sqHead : Nat
  outPtr : QWord := 0
  outLen : Nat := 0
  /-- TIMEOUT_MS expires on this tick: the command ends with it, unless what it awaits comes first (R87). -/
  expired : Bool := false
  deriving DecidableEq, Repr

/-- One mailbox ring (R66, R71–R76). -/
structure Ring where
  inUse : Bool := false
  fault : Bool := false
  sqBase : QWord := 0
  cqBase : QWord := 0
  sqLog2 : Nat := 4
  cqLog2 : Nat := 4
  vector : Nat := 0
  weight : Nat := 1
  sqHead : Nat := 0
  sqTail : Nat := 0
  cqHead : Nat := 0
  cqTail : Nat := 0
  /-- PHASE of the next completion (R76). -/
  phase : Bool := true
  /-- A completion that waits for room in the CQ (R74). -/
  held : Option Completion := none
  busy : Option Busy := none
  /-- RING_DELETE waits for the ring (R67). -/
  deleting : Bool := false
  /-- Failed reads of the SQ entry or parameter block now being read (R642), and the lowest address that failed. -/
  readFails : Nat := 0
  failLow : Option QWord := none
  /-- Those were reads of the parameter block. -/
  readsBlock : Bool := false
  /-- The time at which the read of the entry at the SQ head, or its last repetition, was sent (R642). -/
  readAt : Option Nat := none
  /-- The doorbell writes that committed entries not yet taken, oldest first: TAIL and time (R551). -/
  bells : List (Nat × Nat) := []
  /-- The time of the doorbell that committed the command taken last. -/
  bellAt : Nat := 0
  deriving DecidableEq, Repr

/-- An event as it is produced (R99). -/
structure Event where
  id : Nat
  seq : Nat := 0
  sev : Nat := 0
  unit : Nat := 0
  arg : Nat := 0
  tb : QWord := 0
  data : QWord := 0
  deriving DecidableEq, Repr

/-- The route of an event source (R97). -/
structure EvRoute where
  record : Bool := true
  irq : Bool := false
  vector : Nat := 0
  deriving DecidableEq, Repr

/-- The event ring, the backlog of R98 and the routes of R97. -/
structure EvUnit where
  enabled : Bool := false
  base : QWord := 0
  log2 : Nat := 4
  head : Nat := 0
  tail : Nat := 0
  phase : Bool := true
  /-- SEQ of the next record (R99). -/
  seq : Nat := 0
  /-- The backlog, oldest first: a record, or only the interrupt of a source with RECORD 0. -/
  backlog : List Event := []
  /-- The records and bare interrupts of the present tick, in ascending EV_ID (R100): they are written as the tick ends. -/
  due : List (EvRoute × Event) := []
  routes : Tbl EvRoute := []
  deriving DecidableEq, Repr

/-- The attributes of a request to host memory (R38, R68): No Snoop is `none` where no rule says. -/
structure TlpAttr where
  relaxed : Bool := false
  noSnoop : Option Bool := none
  deriving DecidableEq, Repr

/-- A snooped request in order: entries, blocks, completions and event records (R38, R68). -/
def TlpAttr.snooped : TlpAttr := { noSnoop := some false }

/-- Something the device sends out, in the order it is sent. -/
inductive Output where
  /-- A posted write of dwords to host memory (R38, R68). -/
  | write (addr : QWord) (dws : List Word) (a : TlpAttr)
  /-- An MSI-X message: vector, address, data (R102). -/
  | msix (v : Nat) (addr : QWord) (data : Word)
  /-- The data of a register read. -/
  | regRead (v : Nat)
  /-- The bytes of a BAR2 read and its EP bit (R42, R44). -/
  | bar2 (bytes : List Byte) (ep : Bool)
  /-- A read completed with Unsupported Request (R43). -/
  | unsupported
  /-- Configuration Request Retry Status (none), or a successful completion with its data (R620). -/
  | cfg (data : Option Word)
  /-- A read request to host memory: what it is for, its address and length (R68, R528, R642). -/
  | read (tag : Nat) (addr : QWord) (len : Nat) (a : TlpAttr)
  /-- Bytes written to host memory by a packet or a block command. -/
  | bytes (addr : QWord) (n : Nat) (a : TlpAttr)
  /-- A word sent on sync link `k` (R122). -/
  | sync (k : Nat) (type seq flags id arg : Nat) (tick : QWord) (crc : Word)
  /-- A pulse edge on trigger output `n` (R299): active or inactive. -/
  | pulse (n : Nat) (active : Bool)
  /-- A code on TC line `n`: the pulse's number, and whether it cancels (R300). -/
  | code (n num : Nat) (cancel : Bool)
  /-- A pixel line composed for the raster: line number and pixels. -/
  | line (y : Nat) (pixels : List Nat)
  /-- An SMBus answer: the bytes returned, empty when not acknowledged (R639). -/
  | smbus (bytes : List Byte)
  /-- A JTAG data register's content (R640). -/
  | jtag (bits : Nat) (v : Nat)
  deriving DecidableEq, Repr

end Sys2Proof.Machine
end

