-- ==== Sys2Proof/Machine/StMc.lean ====
section
/-!
DEFINITION. The state of the management controller (R561–R595) and of supplies, clocks, resets and pins (R596–R623,
R636–R640).
-/

namespace Sys2Proof.Machine

/-- A record of the event log (R569). -/
structure LogRec where
  seq : Nat
  boot : Nat
  sev : Nat
  /-- 0 event, 1 log-only. -/
  src : Nat
  code : Nat
  ms : Nat
  tb : QWord
  unit : Nat := 0
  arg : Nat := 0
  data : QWord := 0
  /-- Bytes 0x28 up, as a number. -/
  extra : Nat := 0
  deriving DecidableEq, Repr

/-- An image slot (R563, R578). -/
structure ImageSlot where
  /-- The bytes programmed by an update; none: the image the part was made with. -/
  data : Option (List Byte) := none
  valid : Bool := true
  deriving DecidableEq, Repr

/-- An update in progress (R583). -/
structure Update where
  slot : Nat
  total : Nat
  /-- Time of the last command of the update. -/
  at_ : Nat
  deriving DecidableEq, Repr

/-- A calibration sweep in progress (R610–R614). -/
structure Sweep where
  conv : Nat
  points : Nat
  /-- Duration in µs. -/
  us : Nat
  startAt : Nat
  /-- At least 64 points, and a span that covers 0.3 to 11.7 GHz. -/
  usable : Bool
  /-- Sum and number of the temperatures of each converter during the sweep. -/
  sums : List (Int × Nat)
  deriving DecidableEq, Repr

/-- A held sweep result (R615). -/
structure SweepResult where
  /-- Names the measured set point. -/
  token : Nat
  usable : Bool
  meanT : Int
  deriving DecidableEq, Repr

/-- New coefficients that wait for their launch tick (R574, R575). -/
structure CalLaunch where
  conv : Nat
  tick : Nat
  /-- CAL_APPLY's SOURCE; none for a reinterpolation. -/
  source : Option Nat
  persist : Bool := false
  /-- T of the coefficients, by converter, 1/16 °C. -/
  temps : Tbl Int := []
  deriving DecidableEq, Repr

/-- A monitored rail (R567). -/
structure RailMon where
  /-- Consecutive conversions outside the window, and under it, one a millisecond. -/
  bad : Nat := 0
  under : Nat := 0
  /-- EV_RAIL was raised and the rail has not returned. -/
  flagged : Bool := false
  current : Bool := false
  deriving DecidableEq, Repr

/-- A threshold of R566: conversions at or above it, conversions below it less 5 °C, and whether it stands crossed. -/
structure Threshold where
  up : Nat := 0
  down : Nat := 0
  on : Bool := false
  deriving DecidableEq, Repr

/-- The Periscope mirror (R65, R646). -/
structure Periscope where
  seq : Nat := 0
  /-- The first CLK_STBY edge since standby power-up has come (R646). -/
  begun : Bool := false
  /-- The CLK_STBY edges still to come of an MC watchdog restart: PSC_SEQ holds (R562, R646). -/
  hold : Nat := 0
  stage : Nat := 0
  state : Nat := 0
  tj : Nat := 0
  sensor : Nat := 0
  rails : Nat := 0
  logSeq : Nat := 0
  fault : Nat := 0
  temps : List Int := []
  /-- The time of the last CLK_STBY edge. -/
  edgeAt : Option Nat := none
  deriving DecidableEq, Repr

/-- The management controller. -/
structure Mc where
  /-- MC_STATE of R65. -/
  state : Nat := 0
  fault : Nat := 0
  psc : Periscope := {}
  /-- The rails in their windows, one bit per rail (R65). -/
  railGood : Nat := 64
  /-- Standby power-ups since manufacture. -/
  boots : Nat := 1
  /-- The latest conversions: temperatures in 1/16 °C, rails as (mV, 10 mA, mW), and the count at the sample. -/
  temps : List Int := []
  rails : List (Nat × Nat × Nat) := []
  sampleTb : QWord := 0
  /-- The time of the last conversion (R564). -/
  convAt : Option Nat := none
  /-- Temperatures of sensors 40–43 in the last 100 conversions, newest first. -/
  recent : List (List Int) := []
  warn : Threshold := {}
  crit : Threshold := {}
  trip : Threshold := {}
  mons : Tbl RailMon := []
  logSeq : Nat := 0
  /-- Records in flash and in the write buffer, oldest first; records dropped since the buffer filled. -/
  log : List LogRec := []
  buf : List LogRec := []
  dropped : Nat := 0
  /-- OTP: revoked root slots as a mask, security version, attestation blocks claimed. -/
  revoked : Nat := 0
  svn : Nat := 0
  blocks : Nat := 0
  leaf : Nat := 0
  /-- A block has been claimed since the MC start. -/
  claimed : Bool := false
  low64 : Bool := false
  low4 : Bool := false
  slots : List ImageSlot := [{}, {}]
  /-- The bytes of the image that was loaded last; none: an image the part was made with (R581). -/
  loaded : Option (List Byte) := none
  /-- SEQ of the boot record in force (R580). -/
  bootSeq : Nat := 0
  active : Nat := 0
  pending : Option Nat := none
  /-- The running image is on trial; TRIAL count; the slot whose rollback is still to be reported. -/
  trial : Bool := false
  trials : Nat := 0
  rolled : Option Nat := none
  /-- Times at which firmware started and set READY, and FAULTs in succession. -/
  fwAt : Nat := 0
  readyAt : Option Nat := none
  faults : Nat := 0
  update : Option Update := none
  /-- Spare policy by kind × 16 + indicator: limits and modes changed from their defaults, and the copies in flash. -/
  limits : Tbl Nat := []
  modes : Tbl Nat := []
  limitsKept : Tbl Nat := []
  modesKept : Tbl Nat := []
  /-- Set points that crossed while in REPORT mode or AUTO mode, so that a crossing is acted on once: kind, unit, indicator. -/
  crossed : List (Nat × Nat × Nat) := []
  /-- User set points in flash by converter × 8 + point: the token of the sweep. -/
  userSets : Tbl Nat := []
  /-- The set in force for a converter: the token of each of the five points, 0 for the factory's. -/
  inForce : Tbl (List Nat) := []
  /-- T of the coefficients in force, 1/16 °C. -/
  tApplied : Tbl Int := []
  results : Tbl SweepResult := []
  tokens : Nat := 0
  sweep : Option Sweep := none
  /-- Samples of the swept converters carry poison until this tick after an aborted sweep (R614). -/
  tail : Option (Nat × Nat) := none
  cals : List CalLaunch := []
  /-- RCV_N was low when standby power rose (R585). -/
  rcv : Bool := false
  deriving DecidableEq, Repr

/-- Supplies, clocks, resets (R596–R623). -/
structure Power where
  /-- Standby power is present. -/
  standby : Bool := true
  /-- Enable outputs asserted so far, of the eight of R598, and the time of the last. -/
  enables : Nat := 0
  enableAt : Nat := 0
  refclk : Bool := false
  mdll : Bool := false
  /-- Synthesisers locked: 0 sample clock, 1 PSL reference, 2 sync lanes, 3 PCIe, 4 HBM PHY, 5 pixel, 6 DisplayPort link, 7
  calibration tone, 16 + l JESD204C link l. -/
  synths : List Nat := []
  mrstLow : Bool := false
  shdnLow : Bool := false
  /-- A shutdown is under way. -/
  shutting : Bool := false
  mainOk : Bool := false
  /-- Main rails stay off until SHDN_N rises (R598) or until the next standby power-up (R566). -/
  railsLocked : Bool := false
  tripped : Bool := false
  /-- Time of the present stage's entry, and of a stage failure. -/
  stageAt : Nat := 0
  failAt : Option Nat := none
  /-- Clocks were stopped by a loss of REFCLK (R605). -/
  stopped : Bool := false
  /-- Logical pseudo-channels' physical ones that found no setting in this training (R375). -/
  untrained : List Nat := []
  deriving DecidableEq, Repr

/-- The JTAG port (R640). -/
structure Jtag where
  /-- The instruction in effect: 0 BYPASS, 1 IDCODE, 2 SAMPLE/PRELOAD, 3 EXTEST, 4 CLAMP, 5 HIGHZ. -/
  ir : Nat := 1
  /-- The preloaded boundary values. -/
  boundary : Nat := 0
  deriving DecidableEq, Repr

end Sys2Proof.Machine
end

