-- ==== Sys2Proof/Machine/StTrig.lean ====
section
/-!
DEFINITION. The state of the triggers (R271–R318) and of the apertures with their acquisition (R82–R95, R319–R355).
-/

namespace Sys2Proof.Machine

/-- A trigger candidate (R271): its source selector, fire number, trigger tick, and whether it is provisional. -/
structure Candidate where
  src : Nat
  fire : Nat
  tick : Nat
  prov : Bool
  deriving DecidableEq, Repr

/-- What travels from a source to a consumer (R271). -/
inductive TrigMsg where
  | cand (c : Candidate)
  | verdict (src fire : Nat) (confirm : Bool)
  deriving DecidableEq, Repr

/-- A level and edge unit (R274–R279). -/
structure LeUnit where
  block : Option Block := none
  /-- Changes, oldest first, each taking over at the first sample stamped at or after its count. -/
  next : List (Nat × Option Block) := []
  run : Nat := 0
  armRise : Bool := false
  armFall : Bool := false
  /-- Samples of holdoff still to pass. -/
  hold : Nat := 0
  fires : Nat := 0
  /-- Cycle of the last fire (R277). -/
  firedAt : Option Nat := none
  deriving DecidableEq, Repr

/-- A spectrum under evaluation at a mask unit (R282–R286). -/
structure MaskFrame where
  block : Block
  seq : Nat
  stamp : Nat
  d : Nat
  channel : Nat
  n : Nat
  fch : Frac
  poison : Bool
  ovr : Bool
  restart : Bool
  viol : Nat := 0
  excluded : Bool := false
  /-- The check of R248 fails at the end of the spectrum. -/
  checkFails : Bool := false
  /-- Fire number of the provisional fire made for the frame. -/
  fired : Option Nat := none
  deriving DecidableEq, Repr

/-- A mask unit (R280–R288). -/
structure MaskUnit where
  block : Option Block := none
  /-- Changes, oldest first, each taking over at the first spectrum stamped at or after its count. -/
  next : List (Nat × Option Block) := []
  /-- Frames delivered and not yet decided, oldest first. -/
  frames : List MaskFrame := []
  /-- Hits of the decided frames of the sequence, newest first. -/
  hist : List Bool := []
  prevQual : Bool := false
  fires : Nat := 0
  /-- The block of the last frame taken: a change of it clears the history (R284). -/
  cur : Option Block := none
  deriving DecidableEq, Repr

/-- The sequence state of a combiner (R290). -/
structure CombSeq where
  stage : Nat := 0
  count : Nat := 0
  latest : List (Option Nat) := [none, none, none, none, none, none, none, none]
  /-- Satisfaction tick of the stage before. -/
  prev : Nat := 0
  lastOut : Option Nat := none
  deriving DecidableEq, Repr

/-- A provisional output awaiting its verdict (R291, R292). -/
structure CombProv where
  fire : Nat
  tick : Nat
  /-- The provisional events it rests on: input, candidate, verdict when it has come. -/
  rests : List (Nat × Candidate × Option Bool)
  saved : CombSeq
  /-- Restores the saved state at a cancel; false once a launch has restarted the combiner (R293). -/
  restore : Bool := true
  /-- Exported with this number; skipped (R304). -/
  exported : Option Nat := none
  skipped : Bool := false
  journal : List (Nat × Candidate) := []
  /-- Events that have gone into the journal (R292). -/
  arrived : Nat := 0
  overflow : Bool := false
  /-- The block it was made under. -/
  words : List Word := []
  deriving DecidableEq, Repr

/-- A combiner (R289–R293, R303–R304). -/
structure Combiner where
  block : Option Block := none
  /-- Events with trigger ticks before this count are discarded (R293). -/
  from_ : Nat := 0
  seq : CombSeq := {}
  held : List (Nat × Candidate) := []
  /-- Provisional events dropped with 32 held: source, fire number and tick (R291). -/
  dropped : List (Nat × Nat × Nat) := []
  prov : Option CombProv := none
  fires : Nat := 0
  exports : Nat := 0
  /-- Cycle of the last exported TRIG (R304). -/
  exportAt : Option Nat := none
  /-- Messages on their way, in order of arrival: the cycle of arrival, the input, the message (R290, R316). -/
  inbox : List (Nat × Nat × TrigMsg) := []
  deriving DecidableEq, Repr

/-- What a combiner counts and tells once an output or a verdict has left it (R296, R316–R318): at `cycle`, for combiner `k`. -/
structure CombTold where
  cycle : Nat
  k : Nat
  fire : Nat
  tick : Nat
  prov : Bool
  ok : Bool
  /-- FIRE_EV of the block that made the output. -/
  tell : Bool
  exported : Bool
  skipped : Bool
  /-- The journal is discarded (R292), told by the block in force. -/
  overflow : Bool
  tellOverflow : Bool
  deriving DecidableEq, Repr

/-- A candidate at a trigger output: what it was and the cycle its pulse may start (R301). -/
structure PulseReq where
  src : Nat
  fire : Nat
  due : Nat
  early : Bool
  width : Nat
  /-- Its verdict, when known. -/
  verdict : Option Bool
  verdictAt : Nat
  deriving DecidableEq, Repr

/-- A pulse that was sent in EARLY mode and awaits its code (R300, R301). -/
structure PulseSent where
  src : Nat
  fire : Nat
  num : Nat
  start : Nat
  verdict : Option Bool
  verdictAt : Nat
  deriving DecidableEq, Repr

/-- A trigger output TOn with its TCn line (R298–R302). -/
structure TrigOut where
  block : Option Block := none
  /-- Candidates whose pulses have not started (R301). -/
  queue : List PulseReq := []
  sent : List PulseSent := []
  num : Nat := 0
  active : Bool := false
  /-- Cycle at which the present pulse ends, and at which the next may start. -/
  endAt : Nat := 0
  freeAt : Nat := 0
  codeFreeAt : Nat := 0
  /-- Candidates that found the queue full (R301). -/
  dropped : List (Nat × Nat) := []
  /-- Provisional candidates that left the source while the output was in CONFIRMED mode: source, fire number, PULSE_W (R302). -/
  seen : List (Nat × Nat × Nat) := []
  deriving DecidableEq, Repr

/-- The receiver of remote triggers (R307, R308). -/
structure Remote where
  /-- Provisional TRIGs pending: identifier, fire number, trigger tick, cycle of arrival, link. -/
  pending : List (Nat × Nat × Nat × Nat × Nat) := []
  /-- TRIGs resolved as cancelled without a VERDICT. -/
  resolved : List (Nat × Nat) := []
  deriving DecidableEq, Repr

/-- An entry finished by a reduction, waiting for the capture writer (R324–R327). -/
structure RedEntry where
  stamp : Nat
  bytes : List Byte
  poisoned : Bool
  ovr : Bool
  brk : Bool
  deriving DecidableEq, Repr

/-- An entry held in a slice: its stamp, slice, position and marks. -/
structure HeldEntry where
  stamp : Nat
  slice : Nat
  pos : Nat
  poisoned : Bool
  ovr : Bool
  brk : Bool
  deriving DecidableEq, Repr

/-- The interval or group a reduction is making (R324–R326). -/
structure Acc where
  /-- Inputs so far, and those used. -/
  n : Nat := 0
  clean : Nat := 0
  stamp : Nat := 0
  minI : Int := 0
  maxI : Int := 0
  minQ : Int := 0
  maxQ : Int := 0
  /-- Least and greatest I² + Q². -/
  minP : Nat := 0
  maxP : Nat := 0
  sumP : Nat := 0
  ovr : Bool := false
  /-- SPECTRA: the first spectrum of the group, and the sums or maxima of the bins' powers. -/
  first : Option Spectrum := none
  /-- The lowest POISON_SRC of the spectra left out, 0 with none. -/
  src : Nat := 0
  bins : List Frac := []
  /-- A read of the state met a memory mark: the entry is written with CLEAN 0 (R401). -/
  bad : Bool := false
  deriving DecidableEq, Repr

/-- A sub-ring: one slot's reduction of one channel (R329, R330). -/
structure SubRing where
  slot : Nat
  ch : Nat
  entryBytes : Nat
  rate : Frac
  pre : Nat
  post : Nat
  q : Nat
  base : Nat
  slice : Nat := 0
  p : Nat := 0
  /-- Entries of the sequence so far. -/
  count : Nat := 0
  acc : Acc := {}
  ready : List RedEntry := []
  /-- Entries held in the current slice and the one before it in the sequence, newest first. -/
  held : List HeldEntry := []
  /-- Streaming capture: the entries of records that are not yet published (R348, R525). -/
  stage : StageQ := {}
  /-- Bytes of the record in progress that have entered staging. -/
  streamOff : Nat := 0
  deriving DecidableEq, Repr

/-- A descriptor of a record (R339). -/
structure Desc where
  slot : Nat
  ch : Nat
  sliceA : Nat
  posA : Nat
  countA : Nat
  countB : Nat
  base : Nat
  sliceEntries : Nat
  entryBytes : Nat
  firstStamp : Nat
  prePresent : Nat
  poisoned : Nat
  ovrs : Nat
  short : Bool
  brk : Bool
  exportLoss : Bool := false
  deriving DecidableEq, Repr

/-- A record (R335–R338). -/
structure Rec where
  recno : Nat
  segment : Nat
  seqno : Nat
  trigTick : Nat
  noTrigger : Bool := false
  cut : Nat := 0
  tq : Nat := 0
  rateLevel : Nat := 0
  validStart : Nat := 0
  doneTick : Nat := 0
  slot : Nat := 0
  source : Nat := 0
  trigLost : Nat := 0
  compat : Bool := false
  streaming : Bool := false
  exportLoss : Bool := false
  /-- Post-trigger entries written so far, for each sub-ring in order. -/
  posts : List Nat := []
  brk : Bool := false
  /-- The descriptors: made at completion, or kept as the entries come with STREAMING 1. -/
  descs : List Desc := []
  deriving DecidableEq, Repr

/-- The acquisition of an aperture (R95, R310–R315, R328–R348). -/
structure Acq where
  /-- 0 none, 1 FILLING, 2 ARMED, 4 POSTFILL, 5 COMPLETE, 6 REARM; a provisional candidate stands beside it in `prov`. -/
  sub : Nat := 0
  /-- The current provisional candidate, and the sub-state it met (R310). -/
  prov : Option (Candidate × Nat) := none
  held : List (Candidate × Option Bool) := []
  /-- Provisional candidates to be counted if confirmed, with their cause (R310, R314). -/
  lost : List (Candidate × Nat) := []
  /-- Messages on their way from the source, with their cycle of arrival (R310). -/
  inbox : List (Nat × TrigMsg) := []
  t0 : Nat := 0
  rearmAt : Nat := 0
  /-- Records triggered, and completed, in the current sequence. -/
  triggered : Nat := 0
  completed : Nat := 0
  /-- Sequences begun since the aperture left STAGED. -/
  begun : Nat := 0
  seqno : Nat := 0
  recno : Nat := 0
  slice : Nat := 0
  wrote : Bool := false
  subs : List SubRing := []
  mirrorBase : Nat := 0
  /-- Layout placed at APERTURE_ADMIT and used from the launch: sub-rings and Mirror ring. -/
  nextLayout : Option (List SubRing × Nat) := none
  opened : List Rec := []
  listed : List Rec := []
  poisonAt : Option Nat := none
  poisonSince : Nat := 0
  /-- Tick at which the current sub-state was entered. -/
  since : Nat := 0
  deriving DecidableEq, Repr

/-- An aperture: its state, its planes and its acquisition (R82–R95). -/
structure Aperture where
  /-- 0 EMPTY, 1 STAGED, 2 ADMITTED, 3 LIVE, 4 HALTED. -/
  state : Nat := 0
  staged : List Block := []
  admitted : List Block := []
  live : List Block := []
  changeStaged : Bool := false
  changeAdmitted : Bool := false
  /-- The identifier of the pending launch. -/
  launch : Option Nat := none
  lastLaunch : Nat := 0
  haltCause : Nat := 0
  unplaced : Bool := false
  rateLevel : Nat := 0
  captureBytes : Nat := 0
  schedBps : Nat := 0
  exportBps : Nat := 0
  stagingBytes : Nat := 0
  lag : Nat := 0
  /-- Count at which the present state was reached (R91). -/
  since : Nat := 0
  acq : Acq := {}
  deriving DecidableEq, Repr

end Sys2Proof.Machine
end

