-- ==== Sys2Proof/Machine/StSync.lean ====
section
/-!
DEFINITION. The state of scheduled and global operations (R132–R150) and of the sync links (R121–R129).
-/

namespace Sys2Proof.Machine

/-- A pending launch (R132–R144). -/
structure Launch where
  id : Nat
  /-- 0 AT, 1 BIND, 2 FIRE. -/
  mode : Nat
  /-- The launch tick; none while a BIND awaits its FIRE. -/
  tick : Option Nat
  scope : Nat := 0
  apertures : List Nat
  /-- This device issued the FIRE. -/
  origin : Bool := false
  /-- The word sent down from the top has arrived (R136). -/
  fired : Bool := false
  /-- The tick at which this device's check of the launch tick was made: the check tick of R134, or the arrival of the word. -/
  check : Nat := 0
  deriving DecidableEq, Repr

/-- A count of APPLIED reports under way at a top or relay (R133). -/
structure AppliedCount where
  id : Nat
  tick : Nat
  scope : Nat
  snap : Bool
  /-- Links still to report, with 99 for this device itself, and the devices counted so far. -/
  waits : List Nat
  count : Nat
  origin : Bool
  /-- The cycle by which the count must leave (R130). -/
  until_ : Nat := 0
  deriving DecidableEq, Repr

/-- A pending snapshot (R147, R148). -/
structure Snap where
  id : Nat
  /-- Its number among the device's snapshots. -/
  no : Nat := 0
  /-- 0 AT, 1 JOIN, 2 FIRE. -/
  mode : Nat
  tick : Option Nat
  scope : Nat := 0
  origin : Bool := false
  /-- The word sent down from the top has arrived, or the scope is the device. -/
  fired : Bool := true
  /-- The APPLIED count of the scope, when it has returned. -/
  applied : Option Nat := none
  /-- Latched: the entries of R148, eight dwords each, and TQ and EPOCH at the tick. -/
  latched : Option (List (List Word) × Nat × Nat) := none
  /-- The candidates that were provisional at the tick and wait for their verdict: aperture, source, fire number, and whether the candidate was
  its aperture's current one. -/
  waits : List (Nat × Nat × Nat × Bool) := []
  deriving DecidableEq, Repr

/-- A pending RESET_AT (R150). -/
structure ResetAct where
  id : Nat
  tick : Nat
  scope : Nat
  time : Bool
  acq : Bool
  load : QWord
  origin : Bool
  /-- The word sent down from the top has arrived, or the scope is the device. -/
  fired : Bool := true
  deriving DecidableEq, Repr

/-- A device-scope action that waits for its tick. -/
structure Sched where
  unit : Nat
  tick : Nat
  /-- For a halt: the cause of R354. -/
  cause : Nat := 1
  deriving DecidableEq, Repr

/-- A broadcast under way (R149). -/
structure Bcast where
  id : Nat
  tick : Nat
  payload : List Word
  scope : Nat
  /-- Links whose acknowledgement is still to come; empty on a receiver. -/
  waits : List Nat
  count : Nat
  sender : Bool
  /-- The ring of the sender's command. -/
  ring : Nat := 0
  delivered : Bool := false
  deriving DecidableEq, Repr

/-- A barrier under way at a top or relay (R145, R146). -/
structure BarrierCount where
  id : Nat
  scope : Nat
  /-- Links that have arrived, with the devices that each reports, and whether this device has. -/
  links : List (Nat × Nat)
  own : Bool
  sentUp : Bool := false
  deriving DecidableEq, Repr

/-- A barrier released at a tick that is still to come (R145). -/
structure Release where
  id : Nat
  scope : Nat
  /-- The release tick, and the cycle at which it comes. -/
  tick : Nat
  cycle : Nat
  deriving DecidableEq, Repr

/-- A word waiting for a slot of a sync lane (R122–R124). -/
structure SyncOut where
  type : Nat
  flags : Nat := 0
  id : Nat := 0
  arg : Nat := 0
  tick : QWord := 0
  payload : List Word := []
  /-- The SEQ of its first copy, once that has been sent. -/
  seq : Option Nat := none
  /-- The cycle at which it enters its lane queue (R316). -/
  ready : Nat := 0
  deriving DecidableEq, Repr

/-- A sync link: group links are 0 to 7, system links 8 to 15 (R121–R129, R151). -/
structure SyncLink where
  up : Bool := false
  /-- Filtered one-way delay, ps (R125), and the measurements it averages, newest first. -/
  delayPs : Nat := 0
  meas : List Nat := []
  txSeq : Nat := 0
  /-- SEQ of the words acted on lately, newest first. -/
  rxSeen : List Nat := []
  /-- Launch-class words that wait on the lane, at most 4, and those that firmware still spaces, each with its repeat (R124). -/
  launchQ : List SyncOut := []
  spaced : List (List SyncOut) := []
  trigQ : List SyncOut := []
  otherQ : List SyncOut := []
  /-- Count at which the ranging request now out was sent. -/
  reqAt : Option QWord := none
  /-- Cycle of the last timed ranging (R125). -/
  rangedAt : Option Nat := none
  /-- Word slots without good CRC since the last good one, and the cycle of that (R126). -/
  bad : Nat := 0
  goodAt : Nat := 0
  /-- Parts received of broadcasts not yet whole: identifier, part, its bytes (R122). -/
  parts : List (Nat × Nat × Nat) := []
  /-- Scope-complete bit last received (R129). -/
  complete : Bool := false
  tq : Nat := 0
  deriving DecidableEq, Repr

/-- Everything scheduled on the timebase or across the scope. -/
structure Globals where
  launches : List Launch := []
  snaps : List Snap := []
  resets : List ResetAct := []
  halts : List Sched := []
  arms : List Sched := []
  freezes : List Sched := []
  applied : List AppliedCount := []
  bcasts : List Bcast := []
  barriers : List BarrierCount := []
  releases : List Release := []
  /-- Snapshots taken on so far. -/
  snapNo : Nat := 0
  links : Tbl SyncLink := []
  deriving DecidableEq, Repr

end Sys2Proof.Machine
end

