-- ==== Sys2Proof/Machine/StTrace.lean ====
section
/-!
DEFINITION. The state of the queues (R519–R523), of the trace processors with their feeds (R453–R487), and of the marker
inputs (R491–R506).
-/

namespace Sys2Proof.Machine

/-- A queue of words with end marks (R519–R523). -/
structure Queue where
  /-- Words, oldest first, each with its end mark. -/
  items : List (Nat × Bool) := []
  /-- The last word popped, and the UNDERRUN bit (R521). -/
  last : Nat := 0
  underrun : Bool := false
  /-- The rest of a packet whose start was discarded is discarded as it arrives (R520). -/
  dropping : Bool := false
  /-- A packet was lost since the last packet was drained (R518). -/
  lossy : Bool := false
  /-- Cycle of the last push, and the words pushed on it (R522). -/
  pushedAt : Option Nat := none
  pushed : Nat := 0
  /-- The last word pushed is one more than the queue holds: a pop on its cycle makes room for it, else a packet is lost (R522). -/
  tight : Bool := false
  /-- Cycle of the last loss, and the losses since the last EV_QUEUE_LOST (R523). -/
  lostAt : Option Nat := none
  lostSince : Nat := 0
  deriving DecidableEq, Repr

/-- An item being formed or waiting for its descriptor (R476–R480). -/
structure FeedItem where
  slot : Nat
  /-- Cycle at which its descriptor is pushed; none while samples are still to come. -/
  due : Option Nat
  stamp : Nat
  /-- The item's bytes, its LOST field still 0. -/
  bytes : List Byte
  /-- KIND 2: the words so far. -/
  words : List (List Byte) := []
  poison : Bool := false
  ovr : Bool := false
  restart : Bool := false
  /-- Cycle at which the last sample joined. -/
  joined : Nat := 0
  deriving DecidableEq, Repr

/-- A feed of a processor. -/
structure TFeed where
  q : Queue := {}
  /-- The slot of the most recently popped descriptor (R481). -/
  held : Option Nat := none
  items : List FeedItem := []
  /-- Items delivered since the launch, and items discarded since the last delivered. -/
  seq : Nat := 0
  lost : Nat := 0
  /-- Trigger tick of the last delivered item of KIND 3. -/
  lastTick : Option Nat := none
  /-- Provisional candidates whose verdict is to come. -/
  cands : List Candidate := []
  deriving DecidableEq, Repr

/-- A start that waits for its tick (R485). -/
structure TpStart where
  tick : Nat
  entry : Nat
  ivec : Nat
  resume : Bool
  deriving DecidableEq, Repr

/-- A trace processor, by logical number (R453–R472). -/
structure Tp where
  /-- 0 EMPTY, 1 STOPPED, 2 RUNNING, 3 TRAPPED (R483). -/
  state : Nat := 0
  /-- The physical processor that serves it when not its own number. -/
  phys : Option Nat := none
  d : List QWord := List.replicate 16 0
  /-- Accumulators as MACs read them, and as mva and stacc read them (R464). -/
  acc : List (Int × Int) := List.replicate 4 (0, 0)
  accSlow : List (Int × Int) := List.replicate 4 (0, 0)
  p : List Nat := List.replicate 8 0
  b : List Nat := List.replicate 8 0
  l : List Nat := List.replicate 8 0
  pc : Nat := 0
  z : Bool := false
  n : Bool := false
  c : Bool := false
  v : Bool := false
  u : Bool := false
  ie : Bool := false
  av : Nat := 0
  sv : Bool := false
  epc : Nat := 0
  ecause : Nat := 0
  imask : Nat := 0
  ivec : Nat := 0
  tcmpLo : Word := 0
  tcmpHi : Word := 0
  /-- The timer is armed: the whole compare value that the write of TCMP_HI took (R457). -/
  armed : Option QWord := none
  timerPend : Bool := false
  bindPend : Bool := false
  /-- Results not yet written: cycle, register and value (R464). -/
  pendD : List (Nat × Nat × QWord) := []
  pendAcc : List (Nat × Nat × Int × Int) := []
  pendMem : List (Nat × Nat × List Byte) := []
  /-- Cycle from which the next instruction may issue. -/
  nextAt : Nat := 0
  /-- Delay slots left, the target, and whether it is that of rti (R465, R469). -/
  delay : Option (Nat × Nat × Bool) := none
  /-- IE becomes 1 when the next instruction issues (R469). -/
  ieNext : Bool := false
  /-- A repeat: first body address, LEN, iterations still to begin with the one in progress (R466). -/
  rep : Option (Nat × Nat × Nat) := none
  /-- MASK of a wait in progress (R471). -/
  wait : Option Nat := none
  trap : Nat := 0
  faultAddr : Nat := 0
  start : Option TpStart := none
  stopReq : Bool := false
  /-- The binding and the aperture it belongs to; whether the feeds run. -/
  bind : Option (Nat × Block) := none
  feedsOn : Bool := false
  /-- Items take only data stamped at or after this tick. -/
  from_ : Nat := 0
  feeds : Tbl TFeed := []
  rq : Queue := {}
  /-- Busy ticks of the present millisecond, which millisecond, and those of the one before (BUSY_PM). -/
  busyMs : Nat := 0
  busyNow : Nat := 0
  busyPrev : Nat := 0
  deriving DecidableEq, Repr

/-- A marker entry that waits for its pushing tick (R499). -/
structure MkEntry where
  due : Nat
  words : List Word
  /-- The tick its EV_MARKER carries. -/
  tick : Nat
  timeout : Bool := false
  /-- MK_EV and TO_EV of the block it was made under (R509). -/
  ev : Bool := false
  toEv : Bool := false
  deriving DecidableEq, Repr

/-- An edge as stamped: sub-ticks, slope and TQ (R494). -/
structure MkStamp where
  at_ : Int
  falling : Bool
  tq : Nat
  /-- Cycle at which it reached the ball. -/
  cycle : Nat
  deriving DecidableEq, Repr

/-- An edge of an interval measurement, as a start, as a stop, or as both (R502). -/
structure MkEdge where
  st : MkStamp
  start : Bool := false
  stop : Bool := false
  deriving DecidableEq, Repr

/-- A marker input (R491–R506). -/
structure Marker where
  block : Option (Nat × Block) := none
  /-- The aperture is LIVE: the input takes edges stamped at or after `from_`. -/
  running : Bool := false
  from_ : Nat := 0
  /-- The block that the newest launch changed: edges stamped before `from_` are still taken under it (R497). -/
  old : Option (List Word) := none
  level : Bool := false
  /-- Instant, in sub-ticks, of the last accepted edge of each slope: rising, falling (R492). -/
  lastRise : Option Int := none
  lastFall : Option Int := none
  /-- Instant of the last edge of SLOPE that HOLDOFF counts from (R493). -/
  lastTaken : Option Int := none
  pending : Option MkStamp := none
  /-- Edges of the measurement not yet taken, in the order in which they are taken: an earlier stamp may still come (R502). -/
  edges : List MkEdge := []
  entries : List MkEntry := []
  q : Queue := {}
  endMark : Bool := false
  /-- Entries pushed since the launch. -/
  seq : Nat := 0
  /-- The next entry carries LOSS (R500). -/
  loss : Bool := false
  evAt : Option Nat := none
  evSince : Nat := 0
  toAt : Option Nat := none
  toSince : Nat := 0
  deriving DecidableEq, Repr

end Sys2Proof.Machine
end

