-- ==== Sys2Proof/Machine/State.lean ====
section
/-!
DEFINITION. The machine's state, the reasons it stops, and the state after reset.
-/

namespace Sys2Proof.Machine

/-- Memory: bytes by address, addresses rising, no byte equal to what an unlisted address reads as (0; assumptions 5
and 6). -/
abbrev Memory := List Host.Cell

/-- The memories the device holds for its users: capture memory by data address (R41) and the trace processors' local
memories, processor `n`'s byte `a` at `n × 2¹⁹ + a`. -/
structure Mems where
  cap : Memory := []
  tp : Memory := []
  deriving DecidableEq, Repr

/-- The device, all but its memories and the command queue. -/
structure Dev where
  clk : Clock := {}
  pcie : Pcie := {}
  fw : Fw := {}
  /-- Registers whose value differs from reset, by address; BAR0 below 0x0040_0000, the indirect space above. -/
  regs : Tbl Word := []
  /-- Events of the present tick at registers with fields that a read clears (R12). -/
  rcNow : List RcEvent := []
  shadowHost : Option Shadow := none
  shadowSeq : Option Shadow := none
  shadowMc : Option Shadow := none
  rings : Tbl Ring := []
  /-- The ring of 1–63 last served, and the commands it has had in this turn (R73). -/
  rrRing : Nat := 0
  rrUsed : Nat := 0
  ev : EvUnit := {}
  glob : Globals := {}
  pads : Tbl Pad := []
  streams : Tbl Stream := []
  jesd : Tbl JesdLink := []
  ain : Tbl Ain := []
  chans : Tbl Chan := []
  engines : Tbl Engine := []
  /-- The cycle up to which the engine pair of a sector has read (R240). -/
  pairAt : Tbl Nat := []
  le : Tbl LeUnit := []
  masks : Tbl MaskUnit := []
  combs : Tbl Combiner := []
  /-- What the combiners' counters and events show once their outputs have left them, oldest first. -/
  combTold : List CombTold := []
  tos : Tbl TrigOut := []
  remote : Remote := {}
  aps : Tbl Aperture := []
  cmc : Cmc := {}
  regions : Tbl RegionCount := []
  spares : Spares := {}
  dma : Tbl DmaChan := []
  blocks : Tbl BlockJob := []
  drives : Tbl DriveSlot := []
  relays : Tbl RelayStream := []
  feeds : Tbl Feed := []
  layers : Tbl Layer := []
  raster : Raster := {}
  tps : Tbl Tp := []
  markers : Tbl Marker := []
  mc : Mc := {}
  pwr : Power := {}
  jtag : Jtag := {}
  /-- Uses of a free value so far (assumption 8). -/
  free : Nat := 0
  /-- What the device has sent out, oldest first (assumption 3). -/
  out : List Output := []
  deriving DecidableEq, Repr

/-- The machine. -/
structure State where
  /-- Commands that wait to be taken, first in first out. -/
  pending : List Instr := []
  mem : Mems := {}
  dev : Dev := {}
  deriving DecidableEq, Repr

/-- Why the machine stops. -/
inductive Fault where
  /-- Raised by a register write that changes a field marked PR: R13 says the device gives no protection and R4 leaves
  the behaviour undefined. Safe: the machine stops where the spec states nothing. -/
  | undefinedPrWrite (addr : Nat)
  deriving DecidableEq, Repr

/-- Why a command is refused by the model. -/
inductive Refusal where
  /-- The model has no meaning for the command. Safe. -/
  | notModelled (mnemonic : String)
  deriving DecidableEq, Repr

/-- The machine right after standby power-up, at stage 0x00 with every main rail off (R616, R618): every register at the
reset value of its map, no aperture staged, no ring in use, memory listing nothing, no command waiting. -/
def State.reset : State := {}

end Sys2Proof.Machine
end

