-- ==== Sys2Proof/Config.lean ====
section
/-!
DEFINITION. What the spec leaves open: free values, as constants without a body. Nothing in Lean can evaluate one, so a
statement that holds for the model holds for every value of it. Assumptions 8 to 11 name them.
-/

namespace Sys2Proof

/-- A value the spec does not state, fresh at each use: applied to the state's counter `free` (assumption 8). -/
opaque Config.freeValue : Nat → BitVec 64

/-- SEV of an event for which no table of the spec gives one (assumption 9). -/
opaque Config.eventSev : Nat → BitVec 2

/-- The image of a slot (0 A, 1 B) as the part was manufactured. -/
opaque Config.factoryImage : Nat → List (BitVec 8)

/-- SHAKE256 with a 256-bit output, and XMSS of RFC 8391 and SP 800-208: verification of a message under a public key, and what follows the index field of the device's
signature of a message at a leaf (R579, R588). The spec names the functions and does not give them. -/
opaque Config.shake256 : List (BitVec 8) → BitVec 256
opaque Config.xmssVerify : List (BitVec 8) → List (BitVec 8) → List (BitVec 8) → Bool
opaque Config.xmssSign : Nat → List (BitVec 8) → List (BitVec 8)

/-- What OTP holds of the part since manufacture: root slots programmed and their hashes, the serial number, the attestation public key
(R561, R587). -/
opaque Config.rootSlots : BitVec 4
opaque Config.rootHash : Nat → BitVec 256
opaque Config.serial : BitVec 64
opaque Config.attestKey : List (BitVec 8)

/-- The built-in filter coefficient at an offset of the table of R648: fixed in the part, stated by no rule (assumption 10). -/
opaque Config.filterCoef : Nat → BitVec 20

/-- Which of the two codes beside its exact value a coefficient of a transform block's window takes, at a distance from the peak
(R249, R250, assumption 10). -/
opaque Config.windowRound : List Word → Nat → Bool

/-- What R244 leaves to the engine (assumption 11): whether a pass twists after its butterflies (decimation in frequency) or before them, and which of
the two 18-bit codes beside its exact value a twiddle factor takes. -/
opaque Config.fftDif : Bool
opaque Config.twiddleUp : Nat → Bool

/-- The rounding error of a log-power bin, 0 to 2 for −1 to +1 unit (R254, assumption 11); of a logarithmic colour index
(R430). -/
opaque Config.logErr : Nat → Nat → Fin 3
opaque Config.indexErr : Nat → Nat → Fin 3

/-- The 8-bit value of a 5-bit or 6-bit component of an RGB565 pixel, which no rule states (assumption 34). -/
opaque Config.expand5 : Nat → BitVec 8
opaque Config.expand6 : Nat → BitVec 8

/-- Which of the two codes beside its exact value CG_Q (0) or ENBW_Q (1) takes, and what each reads where the value does not fit its 16 bits, as the
CG of the rectangular window does not (R270, assumption 10). -/
opaque Config.figureUp : List Word → Nat → Bool
opaque Config.windowCg : List Word → BitVec 16
opaque Config.windowEnbw : List Word → BitVec 16

/-- DRAM rows in service and the row repair resources at manufacture, as SPARE_STATUS counts them (R411, R420): no rule states
them. -/
opaque Config.dramRows : BitVec 16
opaque Config.rowRepairs : BitVec 16

/-- The level of the straps SMB_ADDR1 and SMB_ADDR0, which the board fixes (R639). -/
opaque Config.smbAddr : BitVec 2

end Sys2Proof
end

