-- ==== Sys2Proof/Machine/Ops.lean ====
section
/-!
DEFINITION. The named operations every meaning is built from: the register file, free values, what
the device sends out, events (R96–R103), completions (R71–R79) and the taking of a command (R72–R87).
-/

namespace Sys2Proof.Machine

/-! ### Time -/

/-- Let `dt` ticks pass: real time always; CLK_CORE's cycles and the count while CLK_CORE runs (R106, R107). -/
def Clock.pass (c : Clock) (dt : Nat) : Clock :=
  if c.run then { c with time := c.time + dt, cycle := c.cycle + dt, count := c.count + BitVec.ofNat 64 dt }
  else { c with time := c.time + dt }

/-- The timebase count as a number. -/
def Dev.now (d : Dev) : Nat := d.clk.count.toNat

/-- CLK_CORE cycles since CLK_CORE started. -/
def Dev.cyc (d : Dev) : Nat := d.clk.cycle

/-- TQ changes at this count (R111). -/
def Clock.setTq (c : Clock) (q : Tq) : Clock := { c with tq := q, tqLog := (c.count.toNat, q) :: c.tqLog }

/-- TQ in force at tick `t` (R111). -/
def Dev.tqAt (d : Dev) (t : Nat) : Nat :=
  match d.clk.tqLog.find? (fun (p : Nat × Tq) => decide (p.1 ≤ t)) with
  | some p => p.2.code
  | none => Tq.free.code

/-! ### Free values (assumption 8) -/

/-- The next free value, and the device with its counter advanced. -/
def Dev.fresh (d : Dev) : BitVec 64 × Dev := (Config.freeValue d.free, { d with free := d.free + 1 })

/-! ### The register file -/

/-- The stored value of a register. -/
def Dev.reg (d : Dev) (addr : Nat) : Word := Tbl.look (RegMap.resetOf addr) d.regs addr

/-- Store a register whole. -/
def Dev.setReg (d : Dev) (addr : Nat) (v : Word) : Dev := { d with regs := Tbl.put addr v d.regs }

/-- A field of a register as a number. -/
def Dev.fld (d : Dev) (addr hi lo : Nat) : Nat := (d.reg addr).fld hi lo

/-- Set a field of a register. -/
def Dev.setFld (d : Dev) (addr hi lo v : Nat) : Dev := d.setReg addr ((d.reg addr).setFld hi lo v)

/-- A hardware event at a register: it acts, and is kept to the end of the tick, since a read of the same tick returns the value before it and
clears only that (R12). -/
def Dev.rcDo (d : Dev) (addr : Nat) (op : RcOp) : Dev :=
  ({ d with rcNow := d.rcNow ++ [{ addr := addr, old := d.reg addr, op := op }] } : Dev).setReg addr (op.run (d.reg addr))

/-- Advance a 32-bit counter by `n`; it wraps (assumption 12). -/
def Dev.bump (d : Dev) (addr : Nat) (n : Nat := 1) : Dev := d.rcDo addr (.count n)

/-- Advance a counter field by `n`, saturating at its largest value (R200, R317, R512). -/
def Dev.bumpSat (d : Dev) (addr hi lo : Nat) (n : Nat := 1) : Dev := d.rcDo addr (.sat hi lo n)

/-- Advance a counter field by `n`, wrapping within the field. -/
def Dev.bumpFld (d : Dev) (addr hi lo : Nat) (n : Nat := 1) : Dev := d.rcDo addr (.wrap hi lo n)

/-- The 64-bit value of a register pair whose low half is at `addr`. -/
def Dev.reg64 (d : Dev) (addr : Nat) : QWord := QWord.ofHalves (d.reg addr) (d.reg (addr + 4))

/-- Store a 64-bit register pair. -/
def Dev.setReg64 (d : Dev) (addr : Nat) (v : QWord) : Dev := (d.setReg addr v.lo).setReg (addr + 4) v.hi

/-- Advance a 64-bit counter by `n`. -/
def Dev.bump64 (d : Dev) (addr : Nat) (n : Nat := 1) : Dev := d.setReg64 addr (d.reg64 addr + BitVec.ofNat 64 n)

/-- The bits of HOST_STATUS (R50). -/
def hsPartialWr : Nat := 0
def hsEarly : Nat := 1
def hsBar2Wr : Nat := 2
def hsShadowMiss : Nat := 3
def hsDbRange : Nat := 4
def hsIndFault : Nat := 5

/-- Set a bit of HOST_STATUS. -/
def Dev.hostStatus (d : Dev) (bit : Nat) : Dev := d.rcDo 0x0C (.set bit bit 1)

/-! ### What the device sends out -/

/-- Send one thing. -/
def Dev.emit (d : Dev) (o : Output) : Dev := { d with out := d.out ++ [o] }

/-- Send MSI-X vector `v`: the message when the function and the vector are unmasked, else its pending bit (R102). -/
def Dev.sendVector (d : Dev) (v : Nat) : Dev :=
  if d.pcie.msixEnable && d.pcie.busMaster then
    let m := Tbl.look ({} : MsixEntry) d.pcie.msix v
    if d.pcie.msixFnMask || m.masked then
      { d with pcie := { d.pcie with pba := if v ∈ d.pcie.pba then d.pcie.pba else sortBy id (v :: d.pcie.pba) } }
    else d.emit (.msix v m.addr m.data)
  else d

/-! ### Events -/

/-- The eight dwords of an event record (R99). -/
def Event.dwords (e : Event) (phase : Bool) : List Word :=
  [ Word.place 10 0 e.id ||| Word.place 15 15 phase.toNat ||| Word.place 17 16 e.sev,
    BitVec.ofNat 32 e.seq, e.tb.lo, e.tb.hi, Word.place 15 0 e.unit, BitVec.ofNat 32 e.arg, e.data.lo, e.data.hi ]

/-- Write one record into the event ring, giving up the oldest when it is full (R101), then its interrupt (R102). -/
def Dev.writeRecord (d : Dev) (e : Event) : Dev :=
  let r := d.ev
  let depth := 2 ^ r.log2
  let full := decide ((r.tail + 1) % depth = r.head)
  let d := if full then ({ d with ev := { r with head := (r.head + 1) % depth } } : Dev).bump 0x28 else d
  let d := d.emit (.write (r.base + BitVec.ofNat 64 (32 * r.tail)) (e.dwords r.phase) .snooped)
  let wraps := decide (r.tail + 1 = depth)
  let d := { d with ev := { d.ev with tail := if wraps then 0 else r.tail + 1, phase := if wraps then !r.phase else r.phase } }
  let rt := Tbl.look ({} : EvRoute) d.ev.routes e.id
  if rt.irq then d.sendVector rt.vector else d

/-- Keep a record in the backlog, discarding the oldest when it holds 256 (R98). -/
def Dev.keepRecord (d : Dev) (e : Event) : Dev :=
  if d.ev.backlog.length < 256 then { d with ev := { d.ev with backlog := d.ev.backlog ++ [e] } }
  else ({ d with ev := { d.ev with backlog := d.ev.backlog.tail ++ [e] } } : Dev).bump 0x28

/-- Less than `period` has passed since an event that recurs: it is not due again yet. -/
def notYet (last : Option Nat) (period time : Nat) : Bool := match last with | some t => decide (time < t + period) | none => false

/-- Put a record into the log's write buffer (R569, R570): the next SEQ, the present time; dropped while the buffer holds 512. A
record that counts those dropped goes ahead of it (0x1006). -/
def Dev.logRecord (d : Dev) (r : LogRec) : Dev :=
  let m := d.mc
  if 512 ≤ m.buf.length then { d with mc := { m with dropped := m.dropped + 1 } }
  else
    let ms := d.clk.time / 3000000
    let tb := if d.clk.run then d.clk.count else 0
    let lost : LogRec := { seq := m.logSeq, boot := m.boots % 2 ^ 16, sev := 1, src := 1, code := 0x1006, ms := ms, tb := tb, arg := m.dropped }
    let first := if m.dropped = 0 then [] else [lost]
    let seq := m.logSeq + first.length
    let full := decide (512 ≤ m.buf.length + first.length)
    { d with mc := { m with
        buf := m.buf ++ first ++ (if full then [] else [{ r with seq := seq % 2 ^ 32, boot := m.boots % 2 ^ 16, ms := ms }])
        dropped := full.toNat
        logSeq := (if full then seq else seq + 1) % 2 ^ 32 } }

/-- A log-only record of R568. -/
def Dev.logOnly (d : Dev) (code sev arg : Nat) (unit : Nat := 0) (data : Nat := 0) (extra : Nat := 0) : Dev :=
  d.logRecord { seq := 0, boot := 0, sev := sev, src := 1, code := code, ms := 0, tb := if d.clk.run then d.clk.count else 0,
                unit := unit, arg := arg, data := BitVec.ofNat 64 data, extra := extra }

/-- An event of SEV 1 or higher is logged, whatever its route (R568). -/
def Dev.logEvent (d : Dev) (e : Event) : Dev :=
  if e.sev = 0 then d
  else d.logRecord { seq := 0, boot := 0, sev := e.sev, src := 0, code := e.id, ms := 0, tb := e.tb, unit := e.unit, arg := e.arg, data := e.data }

/-- Produce an event record: its route decides whether it is written, kept or silent. What is written or kept waits for the end of the tick,
where the records of the tick go out in ascending EV_ID; the vector of a source without records goes in its place among them, and at once
while no ring is enabled (R97, R98, R100). -/
def Dev.produce (d : Dev) (e : Event) : Dev :=
  let rt := Tbl.look ({} : EvRoute) d.ev.routes e.id
  let d := d.logEvent e
  if rt.record || (rt.irq && d.ev.enabled) then
    { d with ev := { d.ev with due := insertAfter (fun (x : EvRoute × Event) => x.2.id) (rt, e) d.ev.due } }
  else if rt.irq then d.sendVector rt.vector
  else d

/-- One of the records and bare interrupts of a tick goes out: the record takes the next SEQ (R97–R100). -/
def Dev.writeDue (d : Dev) (x : EvRoute × Event) : Dev :=
  if x.1.record then
    let e := { x.2 with seq := d.ev.seq }
    let d := { d with ev := { d.ev with seq := (d.ev.seq + 1) % 2 ^ 32 } }
    if d.ev.enabled then d.writeRecord e else d.keepRecord e
  else d.sendVector x.1.vector

/-- The records of the tick go out (R100). -/
def Dev.flushEvents (d : Dev) : Dev := d.ev.due.foldl Dev.writeDue { d with ev := { d.ev with due := [] } }

/-- Raise an event whose tick of occurrence is `tb`. -/
def Dev.raiseAt (d : Dev) (id sev unit arg : Nat) (data tb : QWord) : Dev :=
  d.produce { id := id, sev := sev, unit := unit, arg := arg, tb := tb, data := data }

/-- SEV of an event for which the spec gives none: free (assumption 9). -/
def freeSev (id : Nat) : Nat := (Config.eventSev id).toNat

/-- Raise an event that occurs now and whose SEV the spec does not give. -/
def Dev.raise (d : Dev) (id unit arg : Nat) (data : Nat := 0) : Dev :=
  d.raiseAt id (freeSev id) unit arg (BitVec.ofNat 64 data) d.clk.count

/-- The event numbers of R104. -/
def evFwReady : Nat := 0x000
def evRingFault : Nat := 0x001
def evHostmemErr : Nat := 0x002
def evLaunchDone : Nat := 0x010
def evLaunchCancelled : Nat := 0x011
def evRefLost : Nat := 0x100
def evRefLocked : Nat := 0x101
def evPpsLost : Nat := 0x102
def evPpsLocked : Nat := 0x103
def evHoldover : Nat := 0x104
def evSyncLinkDown : Nat := 0x110
def evSyncLinkUp : Nat := 0x114
def evLaneFault : Nat := 0x180
def evAinOverrange : Nat := 0x1F0
def evAinCal : Nat := 0x1F4
def evJesdLink : Nat := 0x200
def evPslStream : Nat := 0x220
def evChannel : Nat := 0x280
def evMaskTrigger : Nat := 0x480
def evCombinerTrigger : Nat := 0x580
def evMarker : Nat := 0x5C0
def evMarkerTimeout : Nat := 0x5D0
def evCaptureComplete : Nat := 0x600
def evSegmentDone : Nat := 0x601
def evTriggerIgnored : Nat := 0x602
def evShortPretrigger : Nat := 0x603
def evApertureHalted : Nat := 0x604
def evRateReduced : Nat := 0x605
def evPoisonFrame : Nat := 0x606
def evCeThreshold : Nat := 0x640
def evUe : Nat := 0x641
def evScrubPoison : Nat := 0x642
def evScrubLap : Nat := 0x643
def evPcRetired : Nat := 0x644
def evCapacityLost : Nat := 0x645
def evRetrain : Nat := 0x646
def evFrameDone : Nat := 0x680
def evLineMatch : Nat := 0x681
def evUnderrun : Nat := 0x682
def evBufferOnScan : Nat := 0x683
def evBlank : Nat := 0x684
def evModeChanged : Nat := 0x685
def evDpHpd : Nat := 0x686
def evTp : Nat := 0x6C0
def evDma : Nat := 0x700
def evRelay : Nat := 0x740
def evQueueLost : Nat := 0x750
def evThermalWarn : Nat := 0x780
def evThermalCrit : Nat := 0x781
def evRail : Nat := 0x782
def evSpareIn : Nat := 0x783
def evSpareExhausted : Nat := 0x784
def evCalApplied : Nat := 0x785
def evUpdateDone : Nat := 0x786
def evLeavesLow : Nat := 0x787
def evLogWrap : Nat := 0x788

/-! ### Completions -/

/-- The statuses of R88. -/
def efsOk : Nat := 0x0000
def efsState : Nat := 0x0001
def efsAdmit : Nat := 0x0002
def efsLead : Nat := 0x0003
def efsParam : Nat := 0x0004
def efsOpcode : Nat := 0x0005
def efsTimeout : Nat := 0x0006
def efsPoison : Nat := 0x0007
def efsLeaves : Nat := 0x0008
def efsAuth : Nat := 0x0009
def efsAccess : Nat := 0x000A
def efsHostmem : Nat := 0x000B
def efsAborted : Nat := 0x000C
def efsRange : Nat := 0x000D
def efsOwned : Nat := 0x000E

/-- The eight dwords of a completion entry (R79). -/
def Completion.dwords (c : Completion) (phase : Bool) : List Word :=
  [ Word.place 15 0 c.cmdId ||| Word.place 27 16 c.sqHead ||| Word.place 31 31 phase.toNat,
    Word.place 15 0 c.status ||| Word.place 19 16 c.apState ||| Word.place 23 20 c.acqState ||| Word.place 31 24 c.detail,
    c.result0.lo, c.result0.hi, c.result1.lo, c.result1.hi, c.doneTb.lo, c.doneTb.hi ]

/-- Ring `q`. -/
def Dev.ring (d : Dev) (q : Nat) : Ring := Tbl.look {} d.rings q

def Dev.setRing (d : Dev) (q : Nat) (r : Ring) : Dev := { d with rings := Tbl.put q r d.rings }

/-- A completion queue is full when tail + 1 equals head modulo the depth (R71). -/
def Ring.cqFull (r : Ring) : Bool := decide ((r.cqTail + 1) % 2 ^ r.cqLog2 = r.cqHead)

/-- MBX_MAX_NS of a completion that goes out now: the longest time since the doorbell of a command that does not wait, ns (R551). -/
def Dev.noteTurnaround (d : Dev) (c : Completion) : Dev :=
  match c.bell with
  | some t => d.rcDo 0x5C0008 (.most 31 0 (min ((d.clk.time - t) / 3) (2 ^ 32 - 1)))
  | none => d

/-- Write a completion at the CQ tail with its PHASE, then the ring's vector unless NOIRQ (R75, R76). -/
def Dev.writeCompletion (d : Dev) (q : Nat) (c : Completion) : Dev :=
  let r := d.ring q
  let wraps := decide (r.cqTail + 1 = 2 ^ r.cqLog2)
  let d := (d.noteTurnaround c).emit (.write (r.cqBase + BitVec.ofNat 64 (32 * r.cqTail)) (c.dwords r.phase) .snooped)
  let d := d.setRing q { r with
    cqTail := if wraps then 0 else r.cqTail + 1, phase := if wraps then !r.phase else r.phase, held := none }
  if c.noirq then d else d.sendVector r.vector

/-- A ring faults (R71): it takes no further command. -/
def Dev.faultRing (d : Dev) (q arg : Nat) (data : QWord) : Dev :=
  let d := d.setRing q { d.ring q with fault := true }
  let d := if q = 0 then d.setFld 0x54 1 1 1 else d
  d.raiseAt evRingFault 2 q arg data d.clk.count

/-- Firmware samples the RING0 registers: ring 0 runs, or faults with cause 3 (R51). -/
def Dev.sampleRing0 (d : Dev) : Dev :=
  let cfg := d.reg 0x50
  let ok := decide (4 ≤ cfg.fld 3 0 ∧ cfg.fld 3 0 ≤ 12 ∧ 4 ≤ cfg.fld 7 4 ∧ cfg.fld 7 4 ≤ 12 ∧ d.fld 0x40 11 0 = 0 ∧ d.fld 0x48 11 0 = 0)
  if ok then
    (d.setRing 0 { inUse := true, sqBase := d.reg64 0x40, cqBase := d.reg64 0x48, sqLog2 := cfg.fld 3 0, cqLog2 := cfg.fld 7 4,
                   vector := cfg.fld 15 8 }).setFld 0x54 0 0 1
  else d.faultRing 0 3 0

/-- The ring as deleted: not in use, every command not yet taken discarded (R67). With ring 0, RUN and FAULT return to 0 (R50); a ring 0
enabled anew while its deletion was under way is sampled now. -/
def Dev.dropRing (d : Dev) (q : Nat) : Dev :=
  let d := { d with rings := Tbl.drop q d.rings }
  if q = 0 then
    let d := (d.setFld 0x54 0 0 0).setFld 0x54 1 1 0
    if d.fld 0x50 16 16 = 1 then d.sampleRing0 else d
  else d

/-- Complete a command of ring `q`: write the completion, or hold it while the CQ is full (R74) or event records of the tick are still to go
before it (R75). The completion of a ring that has been deleted under the command is discarded (R39). -/
def Dev.post (d : Dev) (q : Nat) (c : Completion) : Dev :=
  if !(d.ring q).inUse then d
  else if (d.ring q).cqFull || !d.ev.due.isEmpty then d.setRing q { d.ring q with held := some c } else d.writeCompletion q c

/-- Aperture `a`. -/
def Dev.ap (d : Dev) (a : Nat) : Aperture := Tbl.look {} d.aps a

def Dev.setAp (d : Dev) (a : Nat) (p : Aperture) : Dev := { d with aps := Tbl.put a p d.aps }

def Dev.updAp (d : Dev) (a : Nat) (f : Aperture → Aperture) : Dev := d.setAp a (f (d.ap a))

/-- ACQSTATE: the sub-state when LIVE, else 0; PROVISIONAL is reported as the state it stands beside (R79, R80). -/
def Aperture.acqState (p : Aperture) : Nat := if p.state = 3 then p.acq.sub else 0

/-- The pending flags of R86. -/
def Aperture.flags (p : Aperture) : Nat :=
  p.changeStaged.toNat + 2 * p.changeAdmitted.toNat + 4 * p.launch.isSome.toNat

/-- What a completion reports of a command: status, DETAIL, results and the aperture whose state it gives. -/
structure Answer where
  status : Nat := 0
  detail : Nat := 0
  result0 : QWord := 0
  result1 : QWord := 0
  ap : Option Nat := none
  /-- A device-mode refusal, reported as APSTATE 0xF (R79). -/
  mode : Bool := false
  /-- DONE_TB when it is not the present tick (R145). -/
  doneTb : Option QWord := none
  deriving DecidableEq, Repr

/-- The completion of an answer. -/
def Dev.completion (d : Dev) (cmdId sqHead : Nat) (noirq : Bool) (w : Answer) : Completion :=
  { cmdId := cmdId, sqHead := sqHead, status := w.status,
    apState := if w.mode then 0xF else match w.ap with | some a => (d.ap a).state | none => 0,
    acqState := match w.ap with | some a => if w.mode then 0 else (d.ap a).acqState | none => 0,
    detail := w.detail, result0 := w.result0, result1 := w.result1,
    doneTb := w.doneTb.getD d.clk.count, noirq := noirq }

/-! ### Commands -/

/-- Firmware serves the mailbox: READY, or recovery mode for ring 0 (R50, R90). -/
def Dev.serves (d : Dev) (q : Nat) : Bool := d.fw.ready || (d.fw.recovery && decide (q = 0))

/-- Ring `q` has a command that firmware could take now (R71, R72, R74). -/
def Dev.waiting (d : Dev) (q : Nat) : Bool :=
  let r := d.ring q
  r.inUse && !r.fault && !r.deleting && r.busy.isNone && r.held.isNone && decide (r.sqHead ≠ r.sqTail) && d.serves q

/-- The first of the rings `from`, `from + 1`, … of 1–63, wrapping, that has a waiting command. -/
def Dev.nextRing (d : Dev) (from_ : Nat) : Option Nat :=
  ((List.range 63).map (fun i => (from_ + i) % 63 + 1)).find? (fun q => d.waiting q)

/-- The ring that is served next: ring 0 first; the ring whose turn it is, up to WEIGHT commands; then the next in
rotation (R73). -/
def Dev.served (d : Dev) : Option Nat :=
  if d.waiting 0 then some 0
  else if decide (1 ≤ d.rrRing) && d.waiting d.rrRing && decide (d.rrUsed < (d.ring d.rrRing).weight) then some d.rrRing
  else d.nextRing d.rrRing

/-- The read of the entry at ring `q`'s SQ head is sent, a snooped one, unless it is on its way (R68, R69). -/
def Dev.fetchEntry (d : Dev) (q : Nat) : Dev :=
  let r := d.ring q
  if r.readAt.isSome then d
  else (d.setRing q { r with readAt := some d.clk.time }).emit (.read (4000 + q) (r.sqBase + BitVec.ofNat 64 (64 * r.sqHead)) 64 .snooped)

/-- The ring as an entry is taken from it: the head moves on, and the doorbell that committed the entry is known (R72, R551). -/
def Ring.taken (r : Ring) : Ring :=
  let h := (r.sqHead + 1) % 2 ^ r.sqLog2
  let bell := r.bells.headD (0, r.bellAt)
  { r with
    sqHead := h, readFails := 0, failLow := none, readsBlock := false, readAt := none, bellAt := bell.2
    bells := if decide (bell.1 = h) then r.bells.tail else r.bells }

/-- Firmware takes the entry at ring `q`'s SQ head, once it has been read (R72, R73). A ring whose turn comes again begins its turn anew. -/
def Dev.take (d : Dev) (q : Nat) : Dev :=
  let d := d.fetchEntry q
  let d := d.setRing q (d.ring q).taken
  if q = 0 then d
  else if q = d.rrRing ∧ d.rrUsed < (d.ring q).weight then { d with rrUsed := d.rrUsed + 1 }
  else { d with rrRing := q, rrUsed := 1 }

/-- Answer the command just taken from ring `q`: it did not wait. -/
def Dev.answer (d : Dev) (q : Nat) (e : Entry) (w : Answer) : Dev :=
  d.post q { d.completion e.cmdId (d.ring q).sqHead e.noirq w with bell := some (d.ring q).bellAt }

/-- The command just taken from ring `q` goes on: it waits, or its action is scheduled (R645). -/
def Dev.hold (d : Dev) (q opcode : Nat) (e : Entry) (w : Wait) : Dev :=
  d.setRing q { d.ring q with busy := some {
    wait := w, opcode := opcode, cmdId := e.cmdId, target := e.target, noirq := e.noirq, timeoutMs := e.timeoutMs,
    takenAt := d.clk.time, sqHead := (d.ring q).sqHead, outPtr := e.outPtr, outLen := e.outDw.fld 23 0 } }

/-- The rings on which a command waits for `w`. -/
def Dev.ringsOn (d : Dev) (w : Wait) : List Nat :=
  (d.rings.filter (fun p => match p.2.busy with | some b => decide (b.wait = w) | none => false)).map (·.1)

/-- Ring `q` has nothing in execution and no completion held: a deletion that waits for it is done (R67). -/
def Dev.ringSettled (d : Dev) (q : Nat) : Dev :=
  let r := d.ring q
  if r.deleting && r.busy.isNone && r.held.isNone then
    (d.ringsOn (.ringDelete q)).foldl (fun (d : Dev) k => match (d.ring k).busy with
      | some b => (d.setRing k { d.ring k with busy := none }).post k (d.completion b.cmdId b.sqHead b.noirq {})
      | none => d) (d.dropRing q)
  else d

/-- End the command in execution on ring `q` with an answer. -/
def Dev.finishRing (d : Dev) (q : Nat) (w : Answer) : Dev :=
  match (d.ring q).busy with
  | some b =>
    let d := d.setRing q { d.ring q with busy := none }
    (d.post q (d.completion b.cmdId b.sqHead b.noirq w)).ringSettled q
  | none => d

/-- End every command that waits for `w` with an answer. A command that already timed out waits no more (R645). -/
def Dev.finish (d : Dev) (w : Wait) (ans : Answer) : Dev :=
  (d.ringsOn w).foldl (fun d q => d.finishRing q ans) d

/-- Write `dws` to a command's OUT buffer, as many bytes as OUT_LEN allows (posted: R642). -/
def Dev.writeOut (d : Dev) (ptr : QWord) (outLen : Nat) (dws : List Word) : Dev :=
  let n := min (outLen / 4) dws.length
  if n = 0 then d else d.emit (.write ptr (dws.take n) {})

/-- Write to the OUT buffer of the entry in hand. -/
def Dev.writeOutE (d : Dev) (e : Entry) (dws : List Word) : Dev := d.writeOut e.outPtr (e.outDw.fld 23 0) dws

/-! ### Waits on aperture states -/

/-- The aperture is in the awaited state and sub-state, as reported (R91, R92). -/
def Aperture.matchesWait (p : Aperture) (st sub : Nat) : Bool :=
  decide (p.state = st) && (decide (sub = 0) || decide (p.acqState = sub))

/-- The tick at which the awaited state was reached (R91). -/
def Aperture.reachedAt (p : Aperture) (sub : Nat) : Nat := if sub = 0 then p.since else p.acq.since

/-- End the APERTURE_WAITs on `a` whose state has come (R91). -/
def Dev.wakeWaits (d : Dev) (a : Nat) : Dev :=
  d.rings.foldl (fun d p => match p.2.busy with
    | some b => match b.wait with
      | .aperture a' st sub =>
        if a' = a ∧ (d.ap a).matchesWait st sub then
          d.finishRing p.1 { result0 := BitVec.ofNat 64 ((d.ap a).reachedAt sub), ap := some a }
        else d
      | _ => d
    | none => d) d

/-- Put an aperture into a state, from the present tick. -/
def Dev.enterState (d : Dev) (a st : Nat) : Dev :=
  (d.updAp a (fun p => { p with state := st, since := d.now })).wakeWaits a

/-- Put an aperture's acquisition into a sub-state, from the present tick. -/
def Dev.enterSubAt (d : Dev) (a sub t : Nat) : Dev :=
  (d.updAp a (fun p => { p with acq := { p.acq with sub := sub, since := t } })).wakeWaits a

def Dev.enterSub (d : Dev) (a sub : Nat) : Dev := d.enterSubAt a sub d.now

end Sys2Proof.Machine
end

