-- ==== Sys2Proof/Machine/Queue.lean ====
section
/-!
DEFINITION. Queues (R519–R523): the result queues, the marker queues and the trace feed queues.
-/

namespace Sys2Proof.Machine

/-! ### Words and packets -/

/-- Whole packets in a list of words (R519). -/
def packetsIn (ws : List (Nat × Bool)) : Nat := (ws.filter (fun w => w.2)).length

/-- The words after the oldest whole packet. -/
def dropPacket : List (Nat × Bool) → List (Nat × Bool)
  | [] => []
  | (_, true) :: t => t
  | (_, false) :: t => dropPacket t

/-- The oldest whole packet. -/
def takePacket : List (Nat × Bool) → List (Nat × Bool)
  | [] => []
  | (v, true) :: _ => [(v, true)]
  | (v, false) :: t => (v, false) :: takePacket t

/-! ### Push and pop -/

/-- Words pushed on cycle `c`. -/
def Queue.pushedOn (q : Queue) (c : Nat) : Nat := if q.pushedAt = some c then q.pushed else 0

/-- The words that were in the queue before cycle `c`: there is no bypass (R522). -/
def Queue.ready (q : Queue) (c : Nat) : List (Nat × Bool) := q.items.take (q.items.length - q.pushedOn c)

/-- A push into a full queue for which no pop has come on its cycle discards the oldest whole packet; of a queue that holds none the partial
packet goes, with the rest of it as it arrives (R520, R522): the queue after it and whether a packet was lost. -/
def Queue.settle (q : Queue) : Queue × Bool :=
  match q.tight, q.items.getLast? with
  | true, some w =>
    let old := q.items.dropLast
    if 0 < packetsIn old then ({ q with items := dropPacket old ++ [w], tight := false, lossy := true }, true)
    else ({ q with items := [], tight := false, dropping := !w.2, lossy := true }, true)
  | _, _ => (q, false)

/-- Whole packets in a queue (R519). -/
def Queue.packets (q : Queue) : Nat := packetsIn q.settle.1.items

/-- Words in a queue. -/
def Queue.words (q : Queue) : Nat := q.settle.1.items.length

/-- Push a word into a queue of `depth` words on cycle `c` (R520): the queue after it and whether a packet was lost. A word that is one too many
stays until a pop on the same cycle makes room for it or the cycle ends (R522). -/
def Queue.push (q : Queue) (depth c v : Nat) (end_ : Bool) : Queue × Bool :=
  let s := q.settle
  if s.1.dropping then ({ s.1 with dropping := !end_ }, s.2)
  else
    ({ s.1 with
        items := s.1.items ++ [(v, end_)]
        pushedAt := some c
        pushed := s.1.pushedOn c + 1
        tight := decide (depth ≤ s.1.items.length) }, s.2)

/-- Pop a word (R521, R522): the queue after it, the word, its end mark, and whether the pop underran. -/
def Queue.pop (q : Queue) (c : Nat) : Queue × Nat × Bool × Bool :=
  match q.items with
  | [] => ({ q with underrun := true }, q.last, false, true)
  | (v, e) :: t =>
    if (q.ready c).isEmpty then ({ q with underrun := true }, q.last, false, true)
    else ({ q with items := t, last := v, tight := false }, v, e, false)

/-- The oldest item of a queue is discarded as an overwritten item would be (R401, R520). -/
def Queue.discard (q : Queue) : Queue :=
  if 0 < packetsIn q.items then { q with items := dropPacket q.items, tight := false, lossy := true }
  else { q with items := [], tight := false, dropping := !q.items.isEmpty, lossy := true }

/-- The packets of a queue without its oldest, which is drained (R518). -/
def Queue.drained (q : Queue) (p : List (Nat × Bool)) : Queue :=
  { q with items := q.items.drop p.length, last := match p.getLast? with | some w => w.1 | none => q.last, lossy := false, tight := false }

/-! ### Losses (R500, R481, R523) -/

/-- A loss of queue number `k`, whose LOST counter reads `total`: EV_QUEUE_LOST (R523). -/
def Dev.queueLoss (d : Dev) (k total : Nat) (q : Queue) : Queue × Dev :=
  let quiet := match q.lostAt with | some t => decide (t + 3000000 ≤ d.cyc) | none => true
  let n := q.lostSince + 1
  if quiet then ({ q with lostAt := some d.cyc, lostSince := 0 }, d.raise evQueueLost k n total)
  else ({ q with lostAt := some d.cyc, lostSince := n }, d)

def tpReg (n off : Nat) : Nat := 0x540000 + 64 * n + off
def rqReg (n off : Nat) : Nat := 0x590000 + 16 * n + off
def mkReg (n off : Nat) : Nat := 0x560000 + 64 * n + off

def Dev.tp (d : Dev) (n : Nat) : Tp := Tbl.look ({} : Tp) d.tps n
def Dev.setTp (d : Dev) (n : Nat) (t : Tp) : Dev := { d with tps := Tbl.put n t d.tps }

def Tp.feed (t : Tp) (f : Nat) : TFeed := Tbl.look ({} : TFeed) t.feeds f
def Tp.setFeed (t : Tp) (f : Nat) (x : TFeed) : Tp := { t with feeds := Tbl.put f x t.feeds }

def Dev.marker (d : Dev) (n : Nat) : Marker := Tbl.look ({} : Marker) d.markers n
def Dev.setMarker (d : Dev) (n : Nat) (x : Marker) : Dev := { d with markers := Tbl.put n x d.markers }

/-- The result queue of processor `n`, now `q`, has lost a packet. -/
def Dev.resultLoss (d : Dev) (n : Nat) (q : Queue) : Queue × Dev :=
  let d := d.bump (rqReg n 0x08)
  d.queueLoss n (d.reg (rqReg n 0x08)).toNat q

/-- Feed `f` of processor `n`, whose queue is now `q`, has lost its oldest item (R481). -/
def Dev.feedLoss (d : Dev) (n f : Nat) (q : Queue) : Dev :=
  let d := d.bump (tpReg n 0x20 + 4 * f)
  let l := d.queueLoss (64 + 8 * n + f) (d.reg (tpReg n 0x20 + 4 * f)).toNat q
  let x := (l.2.tp n).feed f
  l.2.setTp n ((l.2.tp n).setFeed f { x with q := l.1, lost := min (x.lost + 1) (2 ^ 32 - 1) })

/-- The queue of marker `n`, now `q`, has lost its oldest entry: the next entry pushed carries LOSS (R500). -/
def Dev.markerLoss (d : Dev) (n : Nat) (q : Queue) : Dev :=
  let d := d.bump (mkReg n 0x0C)
  let l := d.queueLoss (32 + n) (d.reg (mkReg n 0x0C)).toNat q
  l.2.setMarker n { l.2.marker n with q := l.1, loss := true }

/-! ### The end of a cycle -/

/-- The queues of processor `n` at the end of a cycle. -/
def Dev.settleTp (d : Dev) (n : Nat) : Dev :=
  let r := (d.tp n).rq.settle
  let d := if r.2 then let l := d.resultLoss n r.1; l.2.setTp n { l.2.tp n with rq := l.1 } else d
  (d.tp n).feeds.foldl (fun (d : Dev) p => let s := p.2.q.settle; if s.2 then d.feedLoss n p.1 s.1 else d) d

/-- A push into a full queue that no pop of its cycle has made room for has cost a packet (R520, R522). -/
def Dev.settleQueues (d : Dev) : Dev :=
  let d := d.tps.foldl (fun (d : Dev) p => d.settleTp p.1) d
  d.markers.foldl (fun (d : Dev) p => let s := p.2.q.settle; if s.2 then d.markerLoss p.1 s.1 else d) d

end Sys2Proof.Machine
end

