-- ==== Sys2Proof/Machine/Operands.lean ====
section
/-!
DEFINITION. Operand forms: the parameter block of a command (R77, R78), the checks of R85 up to the parameters, and the
fields of blocks.
-/

namespace Sys2Proof.Machine

/-- The dword at byte offset `off` of a block; a block shorter than that reads 0 there. -/
def dwAt (b : List Word) (off : Nat) : Word := b.getD (off / 4) 0

/-- Field `[hi:lo]` of the dword at `off`. -/
def fldAt (b : List Word) (off hi lo : Nat) : Nat := (dwAt b off).fld hi lo

/-- A one-bit field. -/
def bitAt (b : List Word) (off bit : Nat) : Bool := decide (fldAt b off bit bit = 1)

/-- The 64-bit field at `off`. -/
def qAt (b : List Word) (off : Nat) : QWord := QWord.ofHalves (dwAt b off) (dwAt b (off + 4))

/-- A signed field. -/
def sfldAt (b : List Word) (off hi lo : Nat) : Int := signedOf (hi + 1 - lo) (fldAt b off hi lo)

/-- The least byte offset whose check fails (R88: the first bad field). -/
def firstBad : List (Nat × Bool) → Option Nat
  | [] => none
  | (off, ok) :: t =>
    match firstBad t with
    | none => if ok then none else some off
    | some o => if ok then some o else some (min off o)

/-- The offsets of the non-zero dwords of a block from `off` on, as failed checks. -/
def zeroFrom (b : List Word) (off : Nat) : List (Nat × Bool) :=
  (List.range b.length).filterMap (fun i => if off ≤ 4 * i then some (4 * i, decide (b.getD i 0 = 0)) else none)

end Sys2Proof.Machine

namespace Sys2Proof

open Sys2Proof.Machine

/-- The parameter block of an entry: inline or by pointer (R77). -/
def Entry.block (e : Entry) : List Word :=
  if e.ptr then takePad 0 ((dwAt e.body 8).fld 23 0 / 4) e.mem else e.body

/-- IN_LEN of an entry with PTR 1. -/
def Entry.inLen (e : Entry) : Nat := (dwAt e.body 8).fld 23 0

/-- OUT_LEN. -/
def Entry.outLen (e : Entry) : Nat := e.outDw.fld 23 0

end Sys2Proof

namespace Sys2Proof.Machine

/-- How an opcode takes its entry (R77, R78, R90). -/
structure CmdForm where
  opcode : Nat
  /-- "Ring 0 only". -/
  ring0 : Bool := false
  /-- Served by the MC in recovery mode. -/
  recovery : Bool := false
  /-- Always by pointer: "By pointer" or "Stage list". -/
  byPtr : Bool := false
  /-- Length in bytes of the parameter block the command defines. -/
  blockLen : Nat := 0
  /-- The range of TARGET. -/
  targetLo : Nat := 0
  targetHi : Nat := 65535
  /-- TARGET names an aperture. -/
  isAp : Bool := false

/-- The opcodes of R90. -/
def listedOpcodes : List Nat :=
  [0x00, 0x01, 0x02, 0x03, 0x04, 0x05, 0x10, 0x11, 0x12, 0x13, 0x14, 0x15, 0x16, 0x17, 0x20, 0x21, 0x22, 0x23, 0x24, 0x25, 0x30, 0x31, 0x32, 0x33,
   0x38, 0x39, 0x40, 0x41, 0x42, 0x48, 0x49, 0x4A, 0x50, 0x51, 0x58, 0x59, 0x60, 0x61, 0x62, 0x63, 0x68, 0x69, 0x6A, 0x6B, 0x6C]

/-- The opcodes whose TARGET names an aperture. -/
def targetsAperture (op : Nat) : Bool := decide (0x20 ≤ op ∧ op ≤ 0x25 ∨ 0x30 ≤ op ∧ op ≤ 0x33)

/-- The first bad field of the command entry (R77, R78). -/
def CmdForm.badEntry (f : CmdForm) (e : Entry) : Option Nat :=
  firstBad [
    (0x00, decide (e.rsvd = 0) && (e.ptr || !f.byPtr)),
    (0x04, decide (f.targetLo ≤ e.target ∧ e.target ≤ f.targetHi)),
    (0x08, decide (e.outLen % 8 = 0 ∧ e.outDw.fld 31 24 = 0)),
    (0x0C, decide (e.rsvdDw = 0)),
    (0x10, !e.ptr || decide ((dwAt e.body 0).toNat % 8 = 0)),
    (0x18, !e.ptr || decide (8 ≤ e.inLen ∧ e.inLen ≤ 16777208 ∧ e.inLen % 8 = 0 ∧ f.blockLen ≤ e.inLen)),
    (0x1C, !e.ptr || (e.body.drop 3).all (· == 0)),
    (0x38, decide (e.outPtr.toNat % 8 = 0))]

/-- Inline bytes beyond the command's block must be 0 (R78). -/
def CmdForm.inlineRest (f : CmdForm) (e : Entry) : List (Nat × Bool) :=
  if e.ptr then [] else zeroFrom e.body f.blockLen

/-- Answer a command, reporting the state of the aperture it names (R79). -/
def CmdForm.reply (f : CmdForm) (d : Dev) (q : Nat) (e : Entry) (w : Answer) : Dev :=
  d.answer q e (if f.isAp && decide (e.target ≤ 1023) then { w with ap := some e.target } else w)

/-- EFS_PARAM for the parameter block or the command entry (R88). -/
def paramError (detail off : Nat) : Answer :=
  { status := efsParam, detail := detail, result0 := BitVec.ofNat 64 off }

/-- The reads of a parameter block by pointer are sent, snooped (R68, R77). -/
def Dev.readBlock (d : Dev) (e : Entry) : Dev := if e.ptr then d.emit (.read 4100 (qAt e.body 0) e.inLen .snooped) else d

/-- Take a command and check it in the order of R85 up to its parameters: none where firmware does not take it from ring `q` now (assumption 2),
or where the entry's OPCODE is another command's (assumption 17); else whether it passed, and the device, which has answered it where not. An
entry whose OPCODE no row of R90 lists ends at the first check. -/
def checkCmd (f : CmdForm) (q : Nat) (e : Entry) (bad : Dev → List Word → List (Nat × Bool)) (d : Dev) : Option (Bool × Dev) :=
  if d.served = some q ∧ (e.opcode = f.opcode ∨ e.opcode ∉ listedOpcodes) then
    let d := d.take q
    if e.opcode ≠ f.opcode then some (false, d.answer q e { status := efsOpcode })
    else if d.fw.recovery && !f.recovery then some (false, f.reply d q e { status := efsOpcode })
    else if f.ring0 && decide (q ≠ 0) then some (false, f.reply d q e { status := efsAccess })
    else match f.badEntry e with
      | some off => some (false, f.reply d q e (paramError 1 off))
      | none =>
        let d := d.readBlock e
        match firstBad (f.inlineRest e ++ bad d e.block) with
        | some off => some (false, f.reply d q e (paramError 0 off))
        | none => some (true, d)
  else none

/-- A command that changes the device alone. -/
def runCmd (f : CmdForm) (q : Nat) (e : Entry) (bad : Dev → List Word → List (Nat × Bool)) (act : Dev → Dev) (d : Dev) : Dev :=
  match checkCmd f q e bad d with
  | some (true, d) => act d
  | some (false, d) => d
  | none => d

/-- A command that changes the memories too. -/
def runCmdM (f : CmdForm) (q : Nat) (e : Entry) (bad : Dev → List Word → List (Nat × Bool)) (act : Dev × Mems → Dev × Mems)
    (x : Dev × Mems) : Dev × Mems :=
  match checkCmd f q e bad x.1 with
  | some (true, d) => act (d, x.2)
  | some (false, d) => (d, x.2)
  | none => x

/-- No field of its own to check. -/
def noChecks : Dev → List Word → List (Nat × Bool) := fun _ _ => []

/-- The dwords of a block of bytes: little-endian, the last dword padded with 0 (R6). -/
def wordsOfBytes : List Byte → List Word
  | [] => []
  | [a] => [a.setWidth 32]
  | [a, b] => [(b ++ a).setWidth 32]
  | [a, b, c] => [(c ++ b ++ a).setWidth 32]
  | a :: b :: c :: e :: t => (e ++ c ++ b ++ a) :: wordsOfBytes t

/-- The bytes of a dword, lowest address first (R6). -/
def bytesOfWord (w : Word) : List Byte :=
  [w.setWidth 8, (w >>> 8).setWidth 8, (w >>> 16).setWidth 8, (w >>> 24).setWidth 8]

/-- The bytes of dwords in order. -/
def bytesOfWords (ws : List Word) : List Byte := ws.flatMap bytesOfWord

end Sys2Proof.Machine
end

