-- ==== Sys2Proof/Machine/Sync.lean ====
section
/-!
DEFINITION. Sync links (R121–R129) and the words that travel up and down a scope (R136, R145–R150).
-/

namespace Sys2Proof.Machine

/-- Link `k`: 0–7 group, 8–15 system. -/
def Dev.link (d : Dev) (k : Nat) : SyncLink := Tbl.look ({} : SyncLink) d.glob.links k

def Dev.setLink (d : Dev) (k : Nat) (l : SyncLink) : Dev :=
  { d with glob := { d.glob with links := Tbl.put k l d.glob.links } }

def Dev.updGlob (d : Dev) (f : Globals → Globals) : Dev := { d with glob := f d.glob }

/-- The upstream link of a LEADER or MEMBER (R121). -/
def Dev.upLink (d : Dev) : Option Nat := if d.clk.role = 3 then some 0 else if d.clk.role = 2 then some 8 else none

/-- This device is the top of the scope (R130): 1 group, 2 system. -/
def Dev.isTop (d : Dev) (scope : Nat) : Bool :=
  if scope = 1 then decide (d.clk.role = 1 ∨ d.clk.role = 2) else decide (scope = 2 ∧ d.clk.role = 1)

/-- The group links of GROUP_MASK, and the system links of SYSTEM_MASK. -/
def Dev.groupLinks (d : Dev) : List Nat := (List.range 8).filter (fun k => decide (d.clk.groupMask / 2 ^ k % 2 = 1))
def Dev.systemLinks (d : Dev) : List Nat :=
  ((List.range 8).filter (fun k => decide (d.clk.systemMask / 2 ^ k % 2 = 1))).map (· + 8)

/-- The links that lead down from this device in a scope. -/
def Dev.downLinks (d : Dev) (scope : Nat) : List Nat :=
  if d.clk.role = 1 then (if scope = 2 then d.groupLinks ++ d.systemLinks else d.groupLinks)
  else if d.clk.role = 2 then d.groupLinks else []

/-- This device's role has the scope, and the latest scope-complete bit of the scope is 1 (R135). -/
def Dev.scopeReady (d : Dev) (scope : Nat) : Bool :=
  decide (d.clk.role ≠ 0) && (if scope = 1 then d.clk.scopeGroup else if scope = 2 then d.clk.scopeSystem else false)

/-- The links that the device's role uses (R121). -/
def Dev.linkUsed (d : Dev) (k : Nat) : Bool :=
  decide (d.upLink = some k) || (decide (d.clk.role = 1) && (d.groupLinks.contains k || d.systemLinks.contains k)) ||
    (decide (d.clk.role = 2) && d.groupLinks.contains k)

/-- The link leads up from this device. -/
def Dev.fromAbove (d : Dev) (k : Nat) : Bool := decide (d.upLink = some k)

/-- UNIT of a link's events (R152). -/
def Dev.linkUnit (d : Dev) (k : Nat) : Nat := if k < 8 then (if d.fromAbove k then 0 else 2) else (if d.fromAbove k then 1 else 3)

/-- The cable allowance of a link, in ps (R126). -/
def cableAllowance (k : Nat) : Nat := if k < 8 then 250000 else 775000

/-! ### Words (R122–R124) -/

/-- Bits 139:0 of a word, bit 0 the least significant (R122). -/
def wordBits (type seq flags id arg : Nat) (tick : QWord) : Nat :=
  0b0101 + 2 ^ 4 * (type % 2 ^ 8) + 2 ^ 12 * (seq % 2 ^ 8) + 2 ^ 20 * (flags % 2 ^ 8) + 2 ^ 28 * (id % 2 ^ 16) + 2 ^ 44 * (arg % 2 ^ 32) + 2 ^ 76 * tick.toNat

/-- One bit into a CRC-32 of IEEE 802.3, reflected (R122, R157). -/
def crcBit (c : BitVec 32) (b : Bool) : BitVec 32 :=
  if (c.getLsbD 0) != b then (c >>> 1) ^^^ 0xEDB88320 else c >>> 1

/-- The CRC-32 over bits 139:0 of a word, least significant bit first, initial and final all ones (R122). -/
def wordCrc (v : Nat) : Word := ~~~ ((List.range 140).foldl (fun c i => crcBit c (v.testBit i)) 0xFFFFFFFF)

/-- A word goes out on a link with its CRC (R122). -/
def Dev.sendWord (d : Dev) (k seq : Nat) (w : SyncOut) : Dev :=
  d.emit (.sync k w.type seq w.flags w.id w.arg w.tick (wordCrc (wordBits w.type seq w.flags w.id w.arg w.tick)))

/-- The launch-class words (R123). -/
def launchClass (type : Nat) : Bool := [0x10, 0x11, 0x18, 0x1A, 0x22].contains type

/-- Launch-class words reach the lane while no more than 4 wait there (R124). `fuel` bounds the words. -/
def SyncLink.refill : Nat → SyncLink → SyncLink
  | 0, l => l
  | fuel + 1, l =>
    match l.spaced with
    | [] => l
    | g :: t => if l.launchQ.length + g.length ≤ 4 then SyncLink.refill fuel { l with launchQ := l.launchQ ++ g, spaced := t } else l

/-- A launch-class word with its repeat. A RESET_FIRE that loads the count has the load value in the TICK of a word of its own behind them, which
is repeated too (assumption 47). -/
def launchWords (w : SyncOut) : List SyncOut :=
  let two (w : SyncOut) : List SyncOut := [{ w with payload := [] }, { w with payload := [], flags := w.flags ||| 1 }]
  match w.type, w.payload with
  | 0x1A, [lo, hi] => two w ++ two { w with tick := QWord.ofHalves lo hi }
  | _, _ => two w

/-- The parts of a broadcast: 11 bytes of payload in each of parts 0, 1 and 2, 8 in TICK and 3 in ARG, and its delivery tick in part 3
(assumption 47). -/
def bcastParts (w : SyncOut) : List SyncOut :=
  let v := ((List.range 8).map (fun i => (w.payload.getD i 0).toNat * 2 ^ (32 * i))).sum
  (List.range 3).map (fun i => { w with payload := [], tick := BitVec.ofNat 64 (v / 2 ^ (88 * i)), arg := v / 2 ^ (88 * i + 64) % 2 ^ 24 + 2 ^ 24 * i }) ++
    [{ w with payload := [], arg := 2 ^ 24 * 3 }]

/-- Queue a word on link `k`: launch-class words, TRIG and VERDICT each twice, the others once (R123, R124, R306).
TRIG and VERDICT words stand in the order in which they enter the queue. -/
def Dev.queueWord (d : Dev) (k : Nat) (w : SyncOut) : Dev :=
  let l := d.link k
  let copy := { w with flags := w.flags ||| 1 }
  d.setLink k (
    if launchClass w.type then ({ l with spaced := l.spaced ++ [launchWords w] } : SyncLink).refill (l.spaced.length + 1)
    else if w.type = 0x30 ∨ w.type = 0x31 then
      let at_ := max w.ready d.cyc
      { l with trigQ := insertAfter SyncOut.ready { copy with ready := at_ } (insertAfter SyncOut.ready { w with ready := at_ } l.trigQ) }
    else { l with otherQ := l.otherQ ++ (if w.type = 0x28 ∧ w.payload ≠ [] then bcastParts w else [w]) })

/-- Queue a word on every link of a list that is up. -/
def Dev.queueWords (d : Dev) (ks : List Nat) (w : SyncOut) : Dev :=
  (ks.filter (fun k => (d.link k).up)).foldl (fun d k => d.queueWord k w) d

/-- Queue a word on the upstream link. -/
def Dev.queueUp (d : Dev) (w : SyncOut) : Dev :=
  match d.upLink with
  | some k => d.queueWords [k] w
  | none => d

/-- The minimum lead of a scope (R131). -/
def scopeLead (scope : Nat) : Nat := if scope = 0 then 150 else if scope = 1 then 3000 else 9000

/-- A word of launch class is late (R141). -/
def Dev.lateWord (d : Dev) (tick : Nat) : Bool := decide (tick < d.now + 108)

/-- A late word applies nothing (R141). -/
def Dev.noteLate (d : Dev) (id tick : Nat) : Dev := d.raise evLaunchCancelled id 3 tick

/-- A word with good CRC was received (R126). -/
def Dev.goodWord (d : Dev) (k : Nat) : Dev := d.setLink k { d.link k with bad := 0, goodAt := d.cyc }

/-- A word received on link `k` for the first time: a good repeat of one already acted on is not acted on again (R123). -/
def Dev.acceptWord (d : Dev) (k : Nat) (w : SyncWord) (f : Dev → Dev) : Dev :=
  let d := d.goodWord k
  let l := d.link k
  if w.repeated && l.rxSeen.contains (w.seq % 256) then d
  else f (d.setLink k { l with rxSeen := (w.seq % 256 :: l.rxSeen).take 64 })

/-! ### Cancels on their way (R142) -/

/-- A CANCEL for a launch has not left on some lane. -/
def Dev.cancelUnsent (d : Dev) (id tick : Nat) : Bool :=
  let is (w : SyncOut) : Bool := decide (w.type = 0x11 ∧ w.id = id ∧ w.tick.toNat = tick ∧ w.flags % 2 = 0)
  d.glob.links.any (fun (p : Nat × SyncLink) => p.2.launchQ.any is || p.2.spaced.any (fun g => g.any is))

/-- The LAUNCH_CANCELs whose CANCEL has been sent complete, each behind the FIRE that it ends (R142). -/
def Dev.settleCancels (d : Dev) : Dev :=
  d.rings.foldl (fun d p => match p.2.busy with
    | some b => match b.wait with
      | .cancel id tick =>
        if d.cancelUnsent id tick then d
        else (d.finish (.fire id tick) { status := efsAborted, detail := 5, result0 := BitVec.ofNat 64 tick }).finish (.cancel id tick) {}
      | _ => d
    | none => d) d

/-! ### Barriers (R145, R146) -/

/-- ARG of a barrier's words: the arrivals counted in [15:0], the scope in [17:16] (assumption 47). -/
def barrierArg (count scope : Nat) : Nat := count % 2 ^ 16 + 2 ^ 16 * scope

/-- The scope that ARG of a barrier's word names. -/
def argScope (arg : Nat) : Nat := arg / 2 ^ 16 % 4

/-- The barrier of an identifier and scope under way here. -/
def Dev.barrierOf (d : Dev) (id scope : Nat) : Option BarrierCount :=
  d.glob.barriers.find? (fun c => decide (c.id = id ∧ c.scope = scope))

/-- The devices that have arrived. -/
def BarrierCount.count (c : BarrierCount) : Nat := (c.links.map (·.2)).sum + c.own.toNat

/-- The arrivals counted here. -/
def Dev.arrivals (d : Dev) (id scope : Nat) : Nat :=
  match d.barrierOf id scope with
  | some c => c.count
  | none => 0

/-- The number of devices of a group-scope or system-scope barrier that a link stands for is reported in ARG; the top
has every arrival when each of its links and its own host have arrived. -/
def Dev.barrierFull (d : Dev) (c : BarrierCount) : Bool :=
  c.own && (d.downLinks c.scope).all (fun k => c.links.any (fun l => decide (l.1 = k)))

/-- The release delay of the top (R145). -/
def releaseDelay (scope : Nat) : Nat := if scope = 1 then 1575 else 4575

/-- The release of a barrier is known: RELEASE goes down with the arrivals that the top counted, and this device's command completes at the
release tick (R130, R145). -/
def Dev.releaseBarrier (d : Dev) (id scope tick count : Nat) : Dev :=
  let d := d.queueWords (d.downLinks scope) { type := 0x22, id := id, arg := barrierArg count scope, tick := BitVec.ofNat 64 tick }
  d.updGlob (fun g => { g with
    barriers := g.barriers.filter (fun c => !(decide (c.id = id ∧ c.scope = scope)))
    releases := g.releases ++ [{ id := id, scope := scope, tick := tick, cycle := d.cyc + (tick - d.now) }] })

/-- Look at a barrier after an arrival: the top releases it when it is full; a device below passes it up once (R145). -/
def Dev.barrierStep (d : Dev) (id scope : Nat) : Dev :=
  match d.barrierOf id scope with
  | some c =>
    if d.barrierFull c then
      if d.isTop scope then d.releaseBarrier id scope (d.now + releaseDelay scope) c.count
      else if c.sentUp then d
      else
        let d := d.updGlob (fun g => { g with barriers := g.barriers.map (fun (x : BarrierCount) =>
          if x.id = id ∧ x.scope = scope then { x with sentUp := true } else x) })
        d.queueUp { type := 0x20, id := id, arg := barrierArg c.count scope }
    else d
  | none => d

/-- Count an arrival at a barrier: of this device's host, or from link `k` (R145). -/
def Dev.arriveBarrier (d : Dev) (id scope : Nat) (link : Option Nat) (n : Nat) : Dev :=
  let fresh : BarrierCount := { id := id, scope := scope, links := [], own := false }
  let old := (d.barrierOf id scope).getD fresh
  let c := match link with
    | some k => { old with links := (k, n) :: old.links.filter (fun l => decide (l.1 ≠ k)) }
    | none => { old with own := true }
  let rest := d.glob.barriers.filter (fun (x : BarrierCount) => !(decide (x.id = id ∧ x.scope = scope)))
  let d := d.updGlob (fun g => { g with barriers := rest ++ [c] })
  d.barrierStep id scope

/-- Withdraw this device from a barrier (R146): the top answers at once, unless it has counted the last arrival; a device below asks up.
Answers whether the withdrawal is settled here. -/
def Dev.withdrawBarrier (d : Dev) (id scope : Nat) : Bool × Dev :=
  let unown := d.updGlob (fun g => { g with barriers := g.barriers.map (fun (x : BarrierCount) =>
    if x.id = id ∧ x.scope = scope then { x with own := false, sentUp := false } else x) })
  if d.isTop scope then ((d.barrierOf id scope).isSome, unown)
  else (false, unown.queueUp { type := 0x21, id := id, arg := barrierArg (d.arrivals id scope) scope })

/-- The barriers whose release tick has come complete (R145). -/
def Dev.releaseDue (d : Dev) : Dev :=
  (d.glob.releases.filter (fun (r : Release) => decide (r.cycle ≤ d.cyc))).foldl (fun (d : Dev) r =>
    let ans : Answer := { doneTb := some (BitVec.ofNat 64 r.tick) }
    (d.finish (.barrier r.id r.scope false) ans).finish (.barrier r.id r.scope true) ans)
    (d.updGlob (fun g => { g with releases := g.releases.filter (fun (r : Release) => decide (d.cyc < r.cycle)) }))

end Sys2Proof.Machine
end

