-- ==== Sys2Proof/Machine/Told.lean ====
section
/-!
DEFINITION. What a combiner's counters and events show of an output once it has left the combiner (R291, R292, R296, R316–R318).
-/

namespace Sys2Proof.Machine

def combReg (k off : Nat) : Nat := 0x4A0000 + 32 * k + off

/-- Its DATA is FIRES after this output. -/
def Dev.combRecord (d : Dev) (k arg tick : Nat) : Dev :=
  d.raiseAt (evCombinerTrigger + k) (freeSev (evCombinerTrigger + k)) k arg (BitVec.ofNat 64 (d.reg (combReg k 0x04)).toNat) (BitVec.ofNat 64 tick)

/-- Overflow of the held events (cause 2) or of the journal (cause 3): TB is the tick of the event dropped, or of the output whose verdict discards the
journal (R103, R291, R292, R318). -/
def Dev.combOverflow (d : Dev) (k cause : Nat) (tell : Bool) (fire tick : Nat) : Dev :=
  let d := if cause = 2 then d.bumpSat (combReg k 0x0C) 15 0 else d.bumpSat (combReg k 0x0C) 31 16
  if tell then d.combRecord k (cause + 2 ^ 8 * (fire % 256)) tick else d

/-- A confirmed output or a verdict has left: the counters and the event (R296, R304, R317, R318). -/
def Dev.combTells (d : Dev) (t : CombTold) : Dev :=
  let d := if t.ok then d.bump (combReg t.k 0x04) else d.bump (combReg t.k 0x08)
  let d := if t.ok && t.tell then d.combRecord t.k (1 + 4 * t.prov.toNat + 2 ^ 8 * (t.fire % 256)) t.tick else d
  let d := if t.exported then d.bump (combReg t.k 0x10) else if t.skipped then d.bump (combReg t.k 0x14) else d
  if t.overflow then d.combOverflow t.k 3 t.tellOverflow (t.fire + 1) t.tick else d

def Dev.tellComb (d : Dev) (t : CombTold) : Dev := { d with combTold := d.combTold ++ [t] }

/-- Those whose tick has come. -/
def Dev.toldDue (d : Dev) : Dev :=
  (d.combTold.filter (fun (t : CombTold) => decide (t.cycle ≤ d.cyc))).foldl Dev.combTells
    { d with combTold := d.combTold.filter (fun (t : CombTold) => decide (d.cyc < t.cycle)) }

end Sys2Proof.Machine
end

