-- ==== Sys2Proof/Machine/Tick.lean ====
section
/-!
DEFINITION. The end of a tick and the passing of time (R12, R69, R74, R75, R87, R100, R106, R107, R145, R645).
-/

namespace Sys2Proof.Machine

/-! ### Block commands and their channels (R541) -/

/-- A block command's channel runs: firmware has cleared a halt. A BLOCK_WRITE begins with the read of its source (R541). -/
def Dev.startBlock (d : Dev) (ch : Nat) (j : BlockJob) : Dev :=
  let d := { d with blocks := Tbl.put ch { j with since := d.clk.time } d.blocks }
  if 64 ≤ ch then d
  else
    let d := { d with dma := Tbl.put ch { ({} : DmaChan) with state := 1 } d.dma }
    if j.write then d.emit (.read (2000 + ch) (BitVec.ofNat 64 j.host) j.length {}) else d

/-- The block command that waits longest takes a channel that has become free. -/
def Dev.nextBlock (d : Dev) (ch : Nat) : Dev :=
  match (d.blocks.filter (fun p => decide (100 ≤ p.1))).head? with
  | some (k, j) =>
    let d := { d with blocks := Tbl.drop k d.blocks }
    let d := match (d.ring j.ring).busy with
      | some b => if decide (b.wait = Wait.block k) then d.setRing j.ring { d.ring j.ring with busy := some { b with wait := .block ch } } else d
      | none => d
    d.startBlock ch j
  | none => d

/-- A block command ends at its timeout: its channel starts no further request, and is free for the next one (R541). -/
def Dev.dropBlock (d : Dev) (ch : Nat) : Dev :=
  let d := { d with blocks := Tbl.drop ch d.blocks }
  if 64 ≤ ch then d else ({ d with dma := Tbl.drop ch d.dma } : Dev).nextBlock ch

/-! ### COMMAND_TIMEOUT (R87, R146, R541, R614, R645) -/

/-- The aperture whose state a command's completion reports. -/
def Busy.ap (b : Busy) : Option Nat := if targetsAperture b.opcode && decide (b.target ≤ 1023) then some b.target else none

/-- TIMEOUT_MS of the command on ring `q` has expired with the tick. -/
def Dev.expireRing (d : Dev) (q : Nat) : Dev :=
  match (d.ring q).busy with
  | none => d
  | some b =>
    if !b.expired then d
    else
      match b.wait with
      | .barrier id scope withdrawn =>
        if withdrawn then d.setRing q { d.ring q with busy := some { b with expired := false } }
        else
          let y := d.withdrawBarrier id scope
          if y.1 then y.2.finishRing q { status := efsTimeout }
          else y.2.setRing q { y.2.ring q with busy := some { b with wait := .barrier id scope true, expired := false } }
      | .calSweep =>
        let d := { d with mc := { d.mc with sweep := none }, pwr := { d.pwr with synths := d.pwr.synths.filter (fun x => decide (x ≠ 7)) } }
        d.finishRing q { status := efsTimeout }
      | .block ch =>
        let n := match (Tbl.look none (d.blocks.map (fun p => (p.1, some p.2))) ch) with | some (j : BlockJob) => j.done | none => 0
        (d.dropBlock ch).finishRing q { status := efsTimeout, result0 := BitVec.ofNat 64 n }
      | _ => d.finishRing q { status := efsTimeout, ap := b.ap }

/-- TIMEOUT_MS of the command on ring `q` expires on this tick: what it awaits may still come on the tick, which ends the command otherwise (R87,
R645). -/
def Dev.commandTimeout (d : Dev) (q : Nat) : Dev :=
  match (d.ring q).busy with
  | some b =>
    if b.timeoutMs = 0 ∨ d.clk.time < b.takenAt + b.timeoutMs * 3000000 then d
    else d.setRing q { d.ring q with busy := some { b with expired := true } }
  | none => d

/-! ### The end of a tick -/

/-- Completions that waited for the event records of the tick, and have room, are written (R74, R75). -/
def Dev.postHeld (d : Dev) : Dev :=
  d.rings.foldl (fun d p => match (d.ring p.1).held with
    | some c => if (d.ring p.1).cqFull then d else (d.writeCompletion p.1 c).ringSettled p.1
    | none => d) d

/-- The commands whose time is over and for which nothing has come end (R87). -/
def Dev.expire (d : Dev) : Dev := d.rings.foldl (fun d p => d.expireRing p.1) d

/-- The read of the entry that firmware takes next is sent (R69, R73). -/
def Dev.fetchNext (d : Dev) : Dev := match d.served with | some q => d.fetchEntry q | none => d

/-- What the end of a tick brings: full queues lose what no pop has made room for, its event records are written in order of EV_ID, the completions behind them follow, commands time out, the
read of the next entry goes out, and the events at registers are past (R12, R69, R75, R87, R100,
R522). -/
def Dev.endTick (d : Dev) : Dev := { d.settleQueues.flushEvents.postHeld.expire.fetchNext with rcNow := [] }

/-! ### The passing of time -/

/-- The tick ends and `n` ticks pass; barriers whose release tick has come then complete, and combiners count what has left them. -/
def Dev.advance (d : Dev) (n : Nat) : Dev := ({ d.endTick with clk := d.endTick.clk.pass n } : Dev).releaseDue.toldDue

/-- The steps in which `dt` ticks pass: barriers complete at their release ticks on the way (R145), and combiners count (R296, R316). -/
def Dev.passSteps (d : Dev) (dt : Nat) : List Nat :=
  let stops := d.glob.releases.map (fun (r : Release) => r.cycle - d.cyc) ++ d.combTold.map (fun (t : CombTold) => t.cycle - d.cyc)
  let ts := ((sortBy id stops).filter (fun n => decide (0 < n ∧ n < dt))).eraseDups
  let ends := ts ++ [dt]
  (ends.zip (0 :: ts)).map (fun p => p.1 - p.2)

/-- The device after `dt` ticks. -/
def Dev.pass (d : Dev) (dt : Nat) : Dev :=
  if dt = 0 then d else (if d.clk.run then d.passSteps dt else [dt]).foldl Dev.advance d

/-- A command's answer when it only changes the device: the next state, after the passing of `dt`. -/
def onDev (dt : Nat) (f : Dev → Dev) (s : State) : Host.Outcome State Fault Refusal :=
  .next { s with dev := f (s.dev.pass dt) }

/-- A command's answer when it changes the device and its memories. -/
def onAll (dt : Nat) (f : Dev → Mems → Dev × Mems) (s : State) : Host.Outcome State Fault Refusal :=
  .next { s with dev := (f (s.dev.pass dt) s.mem).1, mem := (f (s.dev.pass dt) s.mem).2 }

def execCommandTimeout (dt q : Nat) (s : State) : Host.Outcome State Fault Refusal := onDev dt (fun d => d.commandTimeout q) s

end Sys2Proof.Machine
end

