-- ==== Sys2Proof/Machine/CapMem.lean ====
section
/-!
DEFINITION. Capture memory as its users see it (R358, R391, R398, R401, R403): blocks and logical pseudo-channels, regions,
memory marks, reading lines and writing blocks, and the counting of errors.
-/

namespace Sys2Proof.Machine

def pcReg (x off : Nat) : Nat := 0x4E0000 + 32 * x + off
def regStat (g off : Nat) : Nat := 0x500000 + 32 * g + off

/-- A pseudo-channel before anything has changed it (R357). -/
def Pc.initial (x : Nat) : Pc :=
  if 30 ≤ x % 32 then { role := 1, logical := 0xFF } else { role := 0, logical := 30 * (x / 32) + x % 32 }

def Dev.pc (d : Dev) (x : Nat) : Pc := Tbl.look (Pc.initial x) d.cmc.pcs x
def Dev.setPc (d : Dev) (x : Nat) (p : Pc) : Dev := { d with cmc := { d.cmc with pcs := Tbl.put x p d.cmc.pcs } }
def Dev.updCmc (d : Dev) (f : Cmc → Cmc) : Dev := { d with cmc := f d.cmc }

/-- The physical pseudo-channel that serves a logical one. -/
def Dev.physOf (d : Dev) (l : Nat) : Option Nat :=
  (List.range 192).find? (fun x => decide ((d.pc x).role = 0 ∧ (d.pc x).logical = l))

/-- Idle spares (R388). -/
def Dev.idleSpares (d : Dev) : List Nat := (List.range 192).filter (fun x => decide ((d.pc x).role = 1))

/-- Capture capacity in bytes (R358). -/
def Dev.capacity (d : Dev) : Nat := d.cmc.p * 2 ^ 30

/-- The logical pseudo-channel and block index of block `b` (R358). -/
def Dev.pcOfBlock (d : Dev) (b : Nat) : Nat := b % d.cmc.p
def Dev.indexOfBlock (d : Dev) (b : Nat) : Nat := b / d.cmc.p

/-- S of R362. -/
def slotsAt (rate : Nat) : Nat := if rate = 0 then 163 else if rate = 1 then 117 else 71

/-- The limit of sum 5 in units of 10⁻² GB/s × 1/180 (R363): `P × (3072 × S − 736)`. -/
def Dev.sum5Raw (d : Dev) : Nat := d.cmc.p * (3072 * slotsAt d.cmc.rate - 736)

/-- The limit of sum 5 in bytes per second. -/
def Dev.sum5Limit (d : Dev) : Nat := d.sum5Raw * 10000000 / 180

/-- Region g of an address: that of the area it lies in, else region 6 (R391). -/
def Dev.regionAt (d : Dev) (a : Nat) : Nat :=
  match d.cmc.allocs.find? (fun x => decide (x.base ≤ a ∧ a < x.base + x.size)) with
  | some x => x.region
  | none => 6

/-- The code of a line: that of the area it lies in, else strong (R391). -/
def Dev.lineLight (d : Dev) (line : Nat) : Bool :=
  match d.cmc.allocs.find? (fun x => decide (x.base ≤ 64 * line ∧ 64 * line < x.base + x.size)) with
  | some x => x.light
  | none => false

/-- The counts of a region, and the code of its newest placement: the default code of R391 before any. -/
def Dev.region (d : Dev) (g : Nat) : RegionCount := Tbl.look ({ light := decide (g = 0) } : RegionCount) d.regions g
def Dev.setRegion (d : Dev) (g : Nat) (r : RegionCount) : Dev := { d with regions := Tbl.put g r d.regions }

/-- A region has a new placement: its code (R421). -/
def Dev.placedAs (d : Dev) (g : Nat) (light : Bool) : Dev := if (d.region g).light = light then d else d.setRegion g { d.region g with light := light }

/-! ### Areas -/

/-- The lowest address at or above `a`, a multiple of 512, from which `n` bytes are free among areas sorted by base. -/
def firstFit (n : Nat) : Nat → List Alloc → Nat
  | a, [] => a
  | a, x :: t => if a + n ≤ x.base then a else firstFit n (max a (ceilDiv (x.base + x.size) 512 * 512)) t

/-- Place an area under a code (assumption 30): the lowest free address. -/
def Dev.place (d : Dev) (region owner size : Nat) (light : Bool := false) : Nat × Dev :=
  let a := firstFit size 0 (sortBy (fun (x : Alloc) => x.base) d.cmc.allocs)
  (a, (d.updCmc (fun c => { c with allocs := c.allocs ++ [{ region := region, owner := owner, base := a, size := size, light := light }] })).placedAs region light)

/-- Free the areas of a region and owner. -/
def Dev.unplace (d : Dev) (region owner : Nat) : Dev :=
  d.updCmc (fun c => { c with allocs := c.allocs.filter (fun (x : Alloc) => !(decide (x.region = region ∧ x.owner = owner))) })

/-! ### Marks -/

/-- The logical pseudo-channel of a block is poisoned and the block was not written since (R381). -/
def Dev.pcPoisoned (d : Dev) (b : Nat) : Bool :=
  d.cmc.poisonPcs.any (fun (p : Nat × List Nat) => decide (p.1 = d.pcOfBlock b) && !(p.2.contains b))

/-- Line `l` (64 bytes) reads as the poison pattern (R398, R401). -/
def Dev.lineMarked (d : Dev) (l : Nat) : Bool := d.cmc.poison.contains l || d.pcPoisoned (l / 8)

/-- The first marked line of a range of bytes, as its address. -/
def Dev.firstMarked (d : Dev) (a n : Nat) : Option Nat :=
  ((List.range ((a + n + 63) / 64 - a / 64)).map (fun i => a / 64 + i)).find? (fun l => d.lineMarked l) |>.map (64 * ·)

/-- A block is written: a correction of it that waits is dropped (R399). -/
def Dev.dropWriteBack (d : Dev) (b : Nat) : Dev :=
  d.updCmc (fun c => { c with pcs := c.pcs.map (fun (p : Nat × Pc) => (p.1, { p.2 with wbq := p.2.wbq.filter (fun (w : Nat × Nat) => decide (w.1 ≠ b)) })) })

/-- A block is written: its marks are healed (R403). -/
def Dev.healBlock (d : Dev) (b : Nat) : Dev :=
  (d.dropWriteBack b).updCmc (fun c => { c with
    poison := c.poison.filter (fun l => !(decide (l / 8 = b)))
    copyWritten := if c.copy.any (fun (p : Nat × Nat) => decide (p.1 = b % c.p ∧ b / c.p < p.2)) && !(c.copyWritten.contains b)
      then b :: c.copyWritten else c.copyWritten
    poisonPcs := c.poisonPcs.map (fun (p : Nat × List Nat) =>
      if p.1 = d.pcOfBlock b ∧ ¬ p.2.contains b then (p.1, b :: p.2) else p) })

/-- The blocks that a range of bytes touches. -/
def blocksOf (a n : Nat) : List Nat := if n = 0 then [] else (List.range ((a + n - 1) / 512 + 1 - a / 512)).map (· + a / 512)

/-- Writes of the block are discarded: its pseudo-channel was lost with no spare (R383). -/
def Dev.blockLost (d : Dev) (b : Nat) : Bool :=
  d.cmc.retiring.any (fun (r : Retire) => r.redirected && r.spare.isNone && decide (r.logical = d.pcOfBlock b))

/-- Write bytes to capture memory: each block touched is written, and waits in the write buffer (R365–R367, R403). -/
def capWrite (a : Nat) (bs : List Byte) (x : Dev × Mems) : Dev × Mems :=
  let all := blocksOf a bs.length
  let blocks := all.filter (fun b => !(x.1.blockLost b))
  -- a block that read as poisoned holds data bytes 0x00 in what is not written (R398)
  let m := blocks.foldl (fun m b => if x.1.pcPoisoned b then Memory.clear m (512 * b) 512 else m) x.2.cap
  let d := blocks.foldl (fun d b => d.healBlock b) x.1
  let d := d.updCmc (fun c => { c with wbuf := c.wbuf ++ ((blocks.filter (fun b => !(c.wbuf.any (fun w => decide (w.1 = b))))).map (fun b => (b, d.cyc))) })
  if blocks.length = all.length then (d, { x.2 with cap := m.writeBytes a bs })
  else (d, { x.2 with cap := (bs.zipIdx).foldl (fun (m : Memory) p => if x.1.blockLost ((a + p.2) / 512) then m else m.write (a + p.2) p.1) m })

/-- Write the poison pattern into a line (R398). -/
def poisonLine (l : Nat) (x : Dev × Mems) : Dev × Mems :=
  ((x.1.dropWriteBack (l / 8)).updCmc (fun c => { c with poison := if c.poison.contains l then c.poison else l :: c.poison }),
   { x.2 with cap := x.2.cap.clear (64 * l) 64 })

/-! ### Errors (R399–R404, R422) -/

/-- A corrected error in region `g` at a bank or pseudo-channel (R399, R400). -/
def Dev.countCe (d : Dev) (g where_ : Nat) : Dev :=
  let r := d.region g
  let sec := d.cyc / 3000000000
  let r := if r.second = sec then r else { r with second := sec, ce := 0, raised := false }
  let r := { r with ce := r.ce + 1 }
  let d := d.bump (regStat g 0x04)
  let thr := (d.reg (regStat g 0x18)).toNat
  if decide (thr ≠ 0) && decide (thr ≤ r.ce) && !r.raised then
    (d.setRegion g { r with raised := true }).raise evCeThreshold g r.ce where_
  else d.setRegion g r

/-- EV_UE at the first uncorrectable read after at least 1 ms without one in the region (R404). -/
def Dev.ueEvent (d : Dev) (g requester addr : Nat) : Dev :=
  let r := d.region g
  let quiet := match r.ueAt with | some t => decide (t + 3000000 ≤ d.cyc) | none => true
  let n := r.ueSince + 1
  if quiet then
    (d.setRegion g { r with ueAt := some d.cyc, ueSince := 0 }).raise evUe g (requester + 2 ^ 8 * n) addr
  else d.setRegion g { r with ueAt := some d.cyc, ueSince := n }

/-- A requester's read meets a memory mark: the poison pattern, or an uncorrectable line (R401, R404). -/
def Dev.countMark (d : Dev) (g requester addr : Nat) (pattern : Bool) : Dev :=
  if pattern then d.bump (regStat g 0x10) else (d.bump (regStat g 0x08)).ueEvent g requester addr

/-- A read of region 3 by a requester of R401: the addresses of the region's memory marks that lie in what it reads. The spec places nothing in the region, so
each is a free choice (assumption 128). -/
def Dev.meets (d : Dev) (requester : Nat) : List Nat × Dev :=
  (d.cmc.facet.filter (fun (p : Nat × Nat) => decide (p.1 = 3))).foldl (fun (x : List Nat × Dev) p =>
    let f := x.2.fresh
    if f.1.getLsbD 0 then (x.1 ++ [p.2], f.2.countMark 3 requester p.2 true) else (x.1, f.2)) ([], d)

/-! ### Commands to the DRAM -/

/-- Ticks of a slot at a rate. -/
def slotTicks (rate : Nat) : Nat := if rate = 0 then 45 else if rate = 1 then 60 else 90

/-! ### Slots (R362) -/

def slotsIn (rate : Nat) : SlotKind → Nat
  | .refresh => 14
  | .neighbour => 4
  | .scheduled => slotsAt rate
  | .leftover => 9000

def SlotUse.of (u : SlotUse) : SlotKind → Nat
  | .refresh => u.refresh
  | .neighbour => u.neighbour
  | .scheduled => u.scheduled
  | .leftover => 0

/-- The use of slots as it stands in a period. -/
def SlotUse.at_ (u : SlotUse) (period : Nat) : SlotUse := if u.period = period then u else { period := period }

def Dev.slotNow (d : Dev) : Nat := d.cyc % 9000 / slotTicks d.cmc.rate

/-- The slot in progress has not been used, and the period has one left of the kind. -/
def Dev.maySlot (d : Dev) (x : Nat) (k : SlotKind) : Bool :=
  let u := (d.pc x).slots.at_ (d.cyc / 9000)
  decide (u.slot ≠ some d.slotNow ∧ u.of k < slotsIn d.cmc.rate k)

def Dev.useSlot (d : Dev) (x : Nat) (k : SlotKind) : Dev :=
  let u := { (d.pc x).slots.at_ (d.cyc / 9000) with slot := some d.slotNow }
  d.setPc x { d.pc x with slots := match k with
    | .refresh => { u with refresh := u.refresh + 1 }
    | .neighbour => { u with neighbour := u.neighbour + 1 }
    | .scheduled => { u with scheduled := u.scheduled + 1 }
    | .leftover => u }

/-- The rank of a block within its pseudo-channel (R358). -/
def rankOf (i : Nat) : Nat := i / 64 % 2

/-- A command goes to a rank: it is out of power-down (R373). -/
def Pc.touch (p : Pc) (rank cycle : Nat) : Pc :=
  if rank = 0 then { p with used0 := cycle, pd0 := false } else { p with used1 := cycle, pd1 := false }

/-- Transactions are in flight: how many the controller has now no rule states, at least the one that begins and at most 8,192 (R387, R388,
assumption 8). -/
def Dev.inFlight (d : Dev) : Dev :=
  let f := d.fresh
  f.2.rcDo 0x4E2014 (.most 15 0 (1 + f.1.toNat % 8192))

/-- An activate: counted by the millisecond, and selected for a neighbour refresh with probability 2^−NR_LOG2 from the LFSR,
whose feedback no rule states: its next content is a free value (R371, R372). -/
def Dev.activate (d : Dev) (x i : Nat) : Dev :=
  let f := d.fresh
  let d := f.2.inFlight
  let p := (d.pc x).touch (rankOf i) d.cyc
  let ms := d.cyc / 3000000
  let lfsr : Word := f.1.setWidth 32
  let p := { p with lfsr := lfsr, acts := if p.actsMs = ms then p.acts + 1 else 1, actsMs := ms }
  let d := if (d.pc x).actsMs = ms then d else
    d.setReg (pcReg x 0x1C) (BitVec.ofNat 32 (if (d.pc x).actsMs + 1 = ms then (d.pc x).acts else 0))
  if lfsr.toNat % 2 ^ d.cmc.nrLog2 ≠ 0 then d.setPc x p
  else if p.nrq.length < 32 then d.setPc x { p with nrq := p.nrq ++ [i] }
  else (d.setPc x { p with nrOver := p.nrOver ++ [i] }).bump 0x4E2010

/-! ### Reading a line -/

/-- A correction found by a read is queued for write-back; a full queue skips it (R399). -/
def Dev.queueWriteBack (d : Dev) (b : Nat) : Dev :=
  match d.physOf (d.pcOfBlock b) with
  | some x =>
    let p := d.pc x
    if p.wbq.any (fun (w : Nat × Nat) => decide (w.1 = b)) then d
    else if p.wbq.length < 8 then d.setPc x { p with wbq := p.wbq ++ [(b, d.cyc)] }
    else d.bump (regStat (d.regionAt (512 * b)) 0x14)
  | none => d

/-- The upset bits of a line. -/
def upsetsOf (errs : List Upset) (line : Nat) : List (Nat × Nat) := (errs.filter (fun e => decide (e.line = line))).map (fun e => (e.pos, e.bits))

/-- A line through its decoder: the verdict, and the 64 bytes it gives (R397, R398). -/
def Dev.lineData (d : Dev) (m : Memory) (errs : List Upset) (line : Nat) : Verdict × List Byte :=
  lineRead (d.lineLight line) (d.lineMarked line) (m.readBytes (64 * line) 64) (upsetsOf errs line)

/-- What a decoder's verdict on a line read for a requester does: a correction is counted and queued for write-back, a mark counted (R399, R401). -/
def Dev.lineMet (d : Dev) (line requester : Nat) (v : Verdict) : Dev :=
  let g := d.regionAt (64 * line)
  match v with
  | .clean => d
  | .corrected => (d.countCe g ((d.physOf (d.pcOfBlock (line / 8))).getD 0)).queueWriteBack (line / 8)
  | v => d.countMark g requester (64 * line) (decide (v = .poison))

/-- The lines that a range of bytes touches. -/
def linesOf (a n : Nat) : List Nat := if n = 0 then [] else (List.range ((a + n - 1) / 64 + 1 - a / 64)).map (· + a / 64)

/-- Lines read for a requester: what their verdicts do, the bytes of those that are not marked by address, and the marked lines. -/
structure LinesRead where
  dev : Dev
  lines : Tbl (List Byte) := []
  marked : List Nat := []
  /-- The block of the line before. -/
  block : Option Nat := none

/-- A block that does not wait in the write buffer is read from the DRAM: its row is activated (R367, R371). -/
def Dev.openBlock (d : Dev) (b : Nat) : Dev :=
  if d.cmc.wbuf.any (fun w => decide (w.1 = b)) then d
  else match d.physOf (d.pcOfBlock b) with
    | some x => d.activate x (d.indexOfBlock b)
    | none => d

/-- One more line. -/
def LinesRead.next (x : LinesRead) (m : Memory) (errs : List Upset) (requester line : Nat) : LinesRead :=
  let x := if x.block = some (line / 8) then x else { x with dev := x.dev.openBlock (line / 8), block := some (line / 8) }
  let r := x.dev.lineData m errs line
  if r.1.marked then { x with dev := x.dev.lineMet line requester r.1, marked := x.marked ++ [line] }
  else { x with dev := x.dev.lineMet line requester r.1, lines := Tbl.put line r.2 x.lines }

def Dev.readLines (d : Dev) (m : Memory) (errs : List Upset) (requester : Nat) (lines : List Nat) : LinesRead :=
  lines.foldl (fun x l => x.next m errs requester l) { dev := d }

/-- A byte as it was read: 0 in a marked line. -/
def LinesRead.byte (x : LinesRead) (a : Nat) : Byte := (Tbl.look [] x.lines (a / 64)).getD (a % 64) 0

end Sys2Proof.Machine
end

