-- ==== Sys2Proof/Machine/Wave.lean ====
section
/-!
DEFINITION. The NCO's cosine and sine (R211) and the window coefficients (R243, R249, R250), computed in fixed point: a real
number `v` stands as `v × 2⁸⁰`.
-/

namespace Sys2Proof.Machine

/-- 1.0 in fixed point. -/
def fixOne : Int := 2 ^ 80

/-- `1 − x² / ((2k − 1) 2k) × (the terms after it)`, from the last of `n` terms on. -/
def cosTerms (x2 : Int) : Nat → Nat → Int
  | 0, _ => fixOne
  | n + 1, k => fixOne - x2 * cosTerms x2 n (k + 1) / (fixOne * ((2 * k - 1) * (2 * k) : Nat))

/-- Cosine of `2πq / 2²⁰`, for `q` up to a quarter turn. The factor is `2π × 2⁸⁰`. -/
def cosQuarter (q : Nat) : Int :=
  if q = 2 ^ 18 then 0
  else
    let x : Int := 7595904947272677161575987 * (q : Int) / 2 ^ 20
    cosTerms (x * x / fixOne) 16 1

/-- Cosine of `2πk / 2²⁰`. -/
def cosFix (k : Nat) : Int :=
  let q := k % 2 ^ 18
  let turn := k / 2 ^ 18 % 4
  if turn = 0 then cosQuarter q
  else if turn = 1 then -cosQuarter (2 ^ 18 - q)
  else if turn = 2 then -cosQuarter q
  else cosQuarter (2 ^ 18 - q)

/-- C of R211, of the phase index `k`. -/
def ncoCos (k : Nat) : Int := roundDiv (131071 * cosFix k) (2 ^ 80)

/-- S of R211. -/
def ncoSin (k : Nat) : Int := ncoCos (k + 3 * 2 ^ 18)

/-- Cosine of `2π num / den`. -/
def cosRatio (num den : Nat) : Int :=
  let m := 4 * (num % den)
  let quarter (r : Nat) : Int := let x : Int := 7595904947272677161575987 * (r : Int) / (4 * den : Nat); cosTerms (x * x / fixOne) 16 1
  if m / den = 0 then quarter (m % den)
  else if m / den = 1 then -quarter (den - m % den)
  else if m / den = 2 then -quarter (m % den)
  else quarter (den - m % den)

/-! ### Windows, by the distance `d` of a position from the peak at N/2: w[n] = w[N − n] -/

/-- A coefficient of the exact value `num / den`: how a value between two codes is rounded is not stated (assumption 10). -/
def coefOf (tf : List Word) (d : Nat) (num den : Int) : Int :=
  num / den + (if num % den = 0 then 0 else ((Config.windowRound tf d).toNat : Int))

/-- A cosine sum with terms in `1 / unit`, at distance `d` of size `n` (R249, R250). -/
def cosineSum (terms : List Int) (n d : Nat) : Int :=
  ((terms.zipIdx).map (fun (p : Int × Nat) => p.1 * cosFix (p.2 * d * 2 ^ 20 / n))).foldl (· + ·) 0

/-- I₀ of twice the square root of `z`: the terms `zᵏ / k!²`. -/
def besselTerms (z : Int) : Nat → Nat → Int → Int
  | 0, _, _ => 0
  | n + 1, k, t => t + besselTerms z n (k + 1) (t * z / (fixOne * (k * k : Nat)))

def bessel (z : Int) : Int := besselTerms z 60 1 fixOne

/-- The terms `yᵏ / k!` of the exponential. -/
def expTerms (y : Int) : Nat → Nat → Int → Int
  | 0, _, _ => 0
  | n + 1, k, t => t + expTerms y n (k + 1) (t * y / (fixOne * (k : Nat)))

/-- A Kaiser window of β in thousandths (R249): the quarters of the squares of the two arguments of I₀ are rational. -/
def kaiser (tf : List Word) (beta n d : Nat) : Int :=
  let z (num den : Nat) : Int := (beta * beta * num : Nat) * fixOne / (4000000 * den : Nat)
  coefOf tf d (bessel (z (n * n - 4 * d * d) (n * n)) * 2 ^ 17) (bessel (z 1 1))

/-- The whole square root, by bits: the largest `r` with `r² ≤ n`, `r` below `2 ^ bits`. -/
def isqrtBits (n : Nat) : Nat → Nat → Nat
  | 0, r => r
  | b + 1, r => let c := r + 2 ^ b; isqrtBits n b (if c * c ≤ n then c else r)

def isqrt (n : Nat) : Nat := isqrtBits n (n.log2 / 2 + 1) 0

/-- Applied `n` times. -/
def iterate {α : Type} (f : α → α) : Nat → α → α
  | 0, x => x
  | n + 1, x => iterate f n (f x)

/-- The Chebyshev polynomial of order `2 ^ k` at a point. -/
def chebyshev (k : Nat) (x : Int) : Int := iterate (fun t => 2 * (t * t / fixOne) - fixOne) k x

/-- The point at which the polynomial of order `2 ^ k` reaches 10⁴, which is 80 dB. -/
def chebyPoint (k : Nat) : Int := iterate (fun (t : Int) => ((isqrt ((t + fixOne) / 2 * fixOne).toNat : Nat) : Int)) k (10000 * fixOne)

/-- A Dolph-Chebyshev window of −80 dB: the transform of its equal ripples, one period of `n` of the window of `n + 1` points (assumption 10). -/
def dolph (k n d : Nat) : Int :=
  let x0 := chebyPoint k
  10000 * fixOne + 2 * ((List.range (n / 2)).map (fun i =>
    chebyshev k (x0 * cosRatio (i + 1) (2 * (n + 1)) / fixOne) * cosRatio ((i + 1) * d) (n + 1) / fixOne)).sum

/-- H(i) of a user table (R250). -/
def tableCoef (w : List Word) (i : Nat) : Int := sfldAt w (0x18 + 4 * i) 18 0

/-- The terms A(k) of a user cosine sum, in units of 2⁻³⁰. -/
def userTerms (w : List Word) : List Int := (List.range (fldAt w 0x14 3 0)).map (fun i => sfldAt w (0x18 + 4 * i) 31 0)

/-- The coefficient at distance `d` from the peak of a transform block's window, in units of 2⁻¹⁷ (R243, R249, R250). Hann is the
two-term cosine sum of CG 0.500; the terms of windows 4 to 6 and the form of window 11 are those known by their names (assumption 10). -/
def windowAtDistance (w : List Word) (d : Nat) : Int :=
  let n := 2 ^ fldAt w 0x08 4 0
  let sum (unit : Nat) (terms : List Int) : Int := coefOf w d (cosineSum terms n d * 2 ^ 17) (unit * fixOne)
  match fldAt w 0x08 12 8 with
  | 0 => 131072
  | 1 => sum 2 [1, 1]
  | 2 => sum 100 [54, 46]
  | 3 => sum 100 [42, 50, 8]
  | 4 => sum 100000 [35875, 48829, 14128, 1168]
  | 5 => sum 10000000 [3635819, 4891775, 1365995, 106411]
  | 6 => sum 1000000000 [215578950, 416631580, 277263158, 83578947, 6947368]
  | 7 => kaiser w 6283 n d
  | 8 => kaiser w 9425 n d
  | 9 => kaiser w 10996 n d
  | 10 => coefOf w d (fixOne * 2 ^ 17) (expTerms ((18 * d * d : Nat) * fixOne / (n * n : Nat)) 80 1 fixOne)
  | 16 =>
    let m := min (n / 2) 1024
    let i := d * (2 * m) / n
    let rest := d * (2 * m) % n
    coefOf w d (tableCoef w i * (n - rest : Nat) + tableCoef w (i + 1) * (rest : Nat)) n
  | 17 => sum (2 ^ 30) (userTerms w)
  | _ => coefOf w d (dolph (fldAt w 0x08 4 0) n d * 2 ^ 17) (dolph (fldAt w 0x08 4 0) n 0)

/-- Window coefficient `i` (R243). -/
def windowAt (w : List Word) (i : Nat) : Int :=
  let half := 2 ^ fldAt w 0x08 4 0 / 2
  windowAtDistance w (if half ≤ i then i - half else half - i)

/-- The sum of the coefficients over a frame: N × CG × 2¹⁷ (R246). -/
def windowSum (w : List Word) : Int := ((List.range (2 ^ fldAt w 0x08 4 0)).map (windowAt w)).sum

/-- The sum of their squares. -/
def windowPower (w : List Word) : Int := ((List.range (2 ^ fldAt w 0x08 4 0)).map (fun i => windowAt w i * windowAt w i)).sum

/-- A figure of a window in 16 bits: one of the two codes beside its exact value (assumption 10). -/
def windowFigure (w : List Word) (k : Nat) (num den : Int) (other : BitVec 16) : Nat :=
  let v := num / den + (if num % den = 0 then 0 else ((Config.figureUp w k).toNat : Int))
  if 0 ≤ v ∧ v < 65536 then v.toNat else other.toNat

/-- CG_Q and ENBW_Q (R249, R251, R270). -/
def cgQ (w : List Word) : Nat := windowFigure w 0 (windowSum w) (2 * 2 ^ fldAt w 0x08 4 0) (Config.windowCg w)
def enbwQ (w : List Word) : Nat := windowFigure w 1 (256 * 2 ^ fldAt w 0x08 4 0 * windowPower w) (windowSum w * windowSum w) (Config.windowEnbw w)

/-- Firmware takes a user window: CG, which is the mean of the coefficients of R250, is at least 2⁻¹⁰, and every coefficient is in
the range of R243 (R251). -/
def userWindowOk (w : List Word) : Bool :=
  let n := 2 ^ fldAt w 0x08 4 0
  if fldAt w 0x08 12 8 = 17 then
    decide (2 ^ 20 ≤ sfldAt w 0x18 31 0) &&
      (List.range (n / 2 + 1)).all (fun d => decide (-262144 ≤ windowAtDistance w d ∧ windowAtDistance w d ≤ 262143))
  else
    let m := min (n / 2) 1024
    let total := ((List.range m).map (tableCoef w)).foldl (· + ·) 0
    decide (256 * (m : Int) ≤ 2 * total + tableCoef w m - tableCoef w 0)

end Sys2Proof.Machine
end

