-- ==== Sys2Proof/Machine/Channel.lean ====
section
/-!
DEFINITION. Channelisers (R202–R233): the stages of a chain, the stamps, flags and write ticks of its outputs, and the
writing of an output to frame staging with the frames it completes (R235–R238).
-/

namespace Sys2Proof.Machine

/-! ### The channel block (R223) -/

def chSource (w : List Word) : Nat := fldAt w 0x08 7 0
def chLoupe (w : List Word) : Bool := bitAt w 0x08 8
def chParent (w : List Word) : Nat := fldAt w 0x08 11 9
def chSettle (w : List Word) : Bool := bitAt w 0x08 12
def chNcoCont (w : List Word) : Bool := bitAt w 0x08 13
def chClipEv (w : List Word) : Bool := bitAt w 0x08 14
/-- FREQ modulo 2⁴⁸. -/
def chFreq (w : List Word) : Nat := (dwAt w 0x0C).toNat + 2 ^ 32 * fldAt w 0x10 15 0
def chPhaseOff (w : List Word) : Nat := fldAt w 0x10 31 16
def chCicEn (w : List Word) : Bool := bitAt w 0x14 0
def chOrder (w : List Word) : Nat := fldAt w 0x14 2 1 + 3
/-- R of the CIC, 1 when it is bypassed. -/
def chR (w : List Word) : Nat := if chCicEn w then fldAt w 0x14 15 4 + 1 else 1
/-- The shift after stage `s`, numbered 0 to 2K − 1: integrators, then combs (R213). -/
def chShift (w : List Word) (s : Nat) : Nat :=
  if s < chOrder w then fldAt w 0x18 (5 * s + 4) (5 * s) else fldAt w 0x1C (5 * (s - chOrder w) + 4) (5 * (s - chOrder w))
def chCfirEn (w : List Word) : Bool := bitAt w 0x20 0
def chCfirDec2 (w : List Word) : Bool := bitAt w 0x20 1
def chCfirUser (w : List Word) : Bool := bitAt w 0x20 2
def chTaps (w : List Word) : Nat := fldAt w 0x20 9 4
def chHb (w : List Word) : Nat := fldAt w 0x20 11 10
def chRsEn (w : List Word) : Bool := bitAt w 0x20 12
def chPdEn (w : List Word) : Bool := bitAt w 0x20 13
def chGain (w : List Word) : Nat := fldAt w 0x24 17 0
def chStep (w : List Word) : Nat := (dwAt w 0x28).toNat
def chDelayFrac (w : List Word) : Nat := fldAt w 0x2C 7 0
def chDelayInt (w : List Word) : Nat := fldAt w 0x2C 19 8

/-- D_f × 2^HB_COUNT × R_c: the whole decimation before the resampler (R222). -/
def chDecim (w : List Word) : Nat :=
  chR w * (if chCfirEn w && chCfirDec2 w then 2 else 1) * 2 ^ chHb w

/-- f_ch in kCS/s from f_in (R222). -/
def chRate (w : List Word) (fin : Frac) : Frac :=
  let a := Frac.div fin (Frac.ofInt (chDecim w))
  if chRsEn w then Frac.div (Frac.mul a (Frac.ofInt (2 ^ 31))) (Frac.ofInt (chStep w)) else a

/-- `⌈log₂ n⌉`. -/
def clog2 (n : Nat) : Nat := if n ≤ 1 then 0 else (n - 1).log2 + 1

/-- B_max of R212. -/
def chBmax (w : List Word) : Nat := 24 + clog2 (chR w ^ chOrder w)

/-- C_s of R213: the sum of the first `s` shifts. -/
def chCum (w : List Word) (s : Nat) : Nat := ((List.range s).map (chShift w)).foldl (· + ·) 0

/-- Σ GD in ticks, and Σ pipeline (R226). Rates are in kCS/s, so `g` samples last `g × 3,000,000 / rate` ticks. -/
def ticksAt (g : Frac) (rate : Frac) : Frac := Frac.div (Frac.mul g (Frac.ofInt 3000000)) rate

def chGroupDelay (w : List Word) (fin : Frac) : Frac :=
  let k := chOrder w
  let cic : Frac := if chCicEn w then ticksAt ⟨k * (chR w - 1 : Nat), 2⟩ fin else ⟨0, 1⟩
  let f1 := Frac.div fin (Frac.ofInt (chR w))
  let cfir : Frac := if chCfirEn w then ticksAt (Frac.ofInt ((chTaps w - 1) / 2 : Nat)) f1 else ⟨0, 1⟩
  let f2 := if chCfirEn w && chCfirDec2 w then Frac.div f1 (Frac.ofInt 2) else f1
  let hb (i : Nat) : Frac := if i < chHb w then ticksAt (Frac.ofInt 15) (Frac.div f2 (Frac.ofInt (2 ^ i))) else ⟨0, 1⟩
  let f3 := Frac.div f2 (Frac.ofInt (2 ^ chHb w))
  let rs : Frac := if chRsEn w then ticksAt (Frac.ofInt 12) f3 else ⟨0, 1⟩
  let pd : Frac := if chPdEn w then
    ticksAt (Frac.add (Frac.ofInt (6 + chDelayInt w)) ⟨chDelayFrac w, 256⟩) (chRate w fin) else ⟨0, 1⟩
  Frac.add cic (Frac.add cfir (Frac.add (hb 0) (Frac.add (hb 1) (Frac.add (hb 2) (Frac.add rs pd)))))

def chPipeline (w : List Word) : Nat :=
  6 + (if chCicEn w then 10 else 0) + (if chCfirEn w then 6 else 0) + 2 + 4 * chHb w + (if chRsEn w then 6 else 0) +
    (if chPdEn w then 4 else 0) + 6

/-- DELAY_INT in ticks: the outputs by which the newest runs ahead of the last input of its span (R221). -/
def chAheadTicks (w : List Word) (fin : Frac) : Frac := if chPdEn w then ticksAt (Frac.ofInt (chDelayInt w)) (chRate w fin) else ⟨0, 1⟩

/-- DELAY in ticks (R221). -/
def chDelayTicks (w : List Word) (fin : Frac) : Frac :=
  if chPdEn w then ticksAt (Frac.add (Frac.ofInt (chDelayInt w)) ⟨chDelayFrac w, 256⟩) (chRate w fin) else ⟨0, 1⟩

/-! ### Arithmetic (R217) -/

/-- A component saturated to the 24-bit path, and whether it saturated (R203, R217). -/
def sat24 (v : Int) : Int × Bool := (clampInt (-8388608) 8388607 v, decide (v < -8388608 ∨ 8388607 < v))

/-- Both components rounded by `2 ^ sh`, saturated; the count of those that saturated. -/
def roundPath (i q : Int) (sh : Nat) : Int × Int × Nat :=
  let a := sat24 (roundDiv i (2 ^ sh))
  let b := sat24 (roundDiv q (2 ^ sh))
  (a.1, b.1, a.2.toNat + b.2.toNat)

/-- A coefficient of the tables of R648 as a signed number. -/
def coefAt (off : Nat) : Int := (Config.filterCoef off).toInt

/-- The dot product of coefficients (for the newest input first) with a history, newest first. -/
def dot (cs : List Int) (hs : List PathSample) : Int × Int :=
  (cs.zip hs).foldl (fun acc p => (acc.1 + p.1 * p.2.i, acc.2 + p.1 * p.2.q)) (0, 0)

/-- A filter output over the newest `cs.length` inputs: rounded by `2¹⁸`, flags joined, with its count of clips. -/
def firOut (cs : List Int) (hs : List PathSample) : PathSample × Nat :=
  let win := hs.take cs.length
  let v := dot cs win
  let r := roundPath v.1 v.2 18
  ({ i := r.1, q := r.2.1, poison := win.any (·.poison), ovr := win.any (·.ovr) || decide (r.2.2 ≠ 0),
     last := match hs with | x :: _ => x.last | [] => 0 }, r.2.2)

/-- The taps of the CFIR, symmetric (R215, R216, R648). -/
def cfirTaps (w : List Word) : List Int :=
  let t := chTaps w
  (List.range t).map (fun i =>
    let k := min i (t - 1 - i)
    if chCfirUser w then signedOf 20 (fldAt w (0x38 + 4 * k) 19 0)
    else coefAt (0x600000 + 128 * (2 * (chOrder w - 3) + (chCfirDec2 w).toNat) + 4 * k))

/-- The taps of a halfband (R219, R648). -/
def hbTaps : List Int := (List.range 31).map (fun i => coefAt (0x600400 + 4 * min i (30 - i)))

/-- The taps of the resampler for a fraction of 31 bits (R220, R648). -/
def rsTaps (frac : Nat) : List Int :=
  let p := frac / 2 ^ 21
  let f : Nat := frac / 2 ^ 13 % 256
  (List.range 24).map (fun t =>
    let c0 := coefAt (0x610000 + 96 * p + 4 * t)
    let c1 := coefAt (0x610000 + 96 * (p + 1) + 4 * t)
    roundDiv (256 * c0 + (c1 - c0) * (f : Int)) 256)

/-- The taps of the fractional-delay filter (R221, R648). -/
def pdTaps (frac : Nat) : List Int := (List.range 12).map (fun t => coefAt (0x630000 + 48 * frac + 4 * t))

/-! ### The stages: each takes one sample and gives those it makes, with the clips made -/

/-- NCO and mixer (R209–R211). -/
def mixer (phi : Nat) (x : PathSample) : PathSample × Nat :=
  if phi = 0 then
    let r := roundPath x.i x.q 0
    ({ x with i := r.1, q := r.2.1, ovr := x.ovr || decide (r.2.2 ≠ 0) }, r.2.2)
  else
    let k := (phi + 2 ^ 27) / 2 ^ 28 % 2 ^ 20
    let c := ncoCos k
    let s := ncoSin k
    let r := roundPath (x.i * c + x.q * s) (x.q * c - x.i * s) 17
    ({ x with i := r.1, q := r.2.1, ovr := x.ovr || decide (r.2.2 ≠ 0) }, r.2.2)

/-- A register of `b` bits: the value modulo `2 ^ b`. -/
def wrapBits (b : Nat) (v : Int) : Nat := (v % (2 ^ b : Nat)).toNat

/-- One component through the integrators: new registers and the value handed on, shifted stage by stage (R213, R214). -/
def integrate (w : List Word) : Nat → List Nat → Int → List Nat × Int
  | _, [], x => ([], x)
  | s, r :: t, x =>
    let bits := chBmax w - chCum w s
    let v := wrapBits bits ((r : Int) + x)
    let y := signedOf bits v / (2 ^ chShift w s : Nat)
    let u := integrate w (s + 1) t y
    (v :: u.1, u.2)

/-- One component through the combs. -/
def combs (w : List Word) : Nat → List Nat → Int → List Nat × Int
  | _, [], x => ([], x)
  | s, r :: t, x =>
    let bits := chBmax w - chCum w s
    let cur := wrapBits bits x
    let v := wrapBits bits ((cur : Int) - (r : Int))
    let y := signedOf bits v / (2 ^ chShift w s : Nat)
    let u := combs w (s + 1) t y
    (cur :: u.1, u.2)

/-- The CIC on one mixed sample (R212–R214): I and Q registers stand one list after the other. -/
def cicStage (c : Chain) (x : PathSample) : Chain × Option PathSample × Nat :=
  let w := c.block.words
  if !chCicEn w then (c, some x, 0)
  else
    let k := chOrder w
    let zeros := List.replicate (2 * k) 0
    let ints := if c.ints.isEmpty then zeros else c.ints
    let cmb := if c.combs.isEmpty then zeros else c.combs
    let a := integrate w 0 (ints.take k) x.i
    let b := integrate w 0 (ints.drop k) x.q
    let c := { c with
      ints := a.1 ++ b.1
      lastPoison := if x.poison then some x.last else c.lastPoison
      lastOvr := if x.ovr then some x.last else c.lastOvr }
    if (x.last + 1) % chR w ≠ 0 then ({ c with combs := cmb }, none, 0)
    else
      let p := combs w k (cmb.take k) a.2
      let r := combs w k (cmb.drop k) b.2
      let c := { c with combs := p.1 ++ r.1 }
      let span := k * (chR w - 1)
      let hit (o : Option Nat) : Bool := match o with | some n => decide (x.last ≤ n + span) | none => false
      let i := sat24 p.2
      let q := sat24 r.2
      let clips := i.2.toNat + q.2.toNat
      if x.last < span then (c, none, 0)
      else (c, some { i := i.1, q := q.1, poison := hit c.lastPoison, ovr := hit c.lastOvr || decide (clips ≠ 0), last := x.last }, clips)

/-- A FIR that keeps every `dec`-th output, from the first whose span is whole (R215, R219). -/
def firStage (cs : List Int) (dec : Nat) (f : FirState) (x : PathSample) : FirState × Option PathSample × Nat :=
  let f := { hist := (x :: f.hist).take cs.length, seen := f.seen + 1 }
  if f.seen < cs.length ∨ (f.seen - cs.length) % dec ≠ 0 then (f, none, 0)
  else
    let o := firOut cs f.hist
    (f, some o.1, o.2)

/-- The resampler outputs that input number `seen − 1` completes (R220): output m stands at `m × step / 2³¹` input
periods and needs the 24 inputs up to the one at or before it. At most one output stands at each input, since Δ ≥ 1. -/
def rsStage (step : Nat) (f : FirState) (m : Nat) (x : PathSample) : FirState × Nat × Option PathSample × Nat :=
  let f := { hist := (x :: f.hist).take 24, seen := f.seen + 1 }
  let n := f.seen - 1
  let pos := m * step
  if pos / 2 ^ 31 ≠ n then (f, m, none, 0)
  else if n < 23 then (f, m + 1, none, 0)
  else
    let o := firOut (rsTaps (pos % 2 ^ 31)) f.hist
    (f, m + 1, some o.1, o.2)

/-- The phase delay (R221): its input j is the last of the span of output j + DELAY_INT, which 12 inputs make. -/
def pdStage (w : List Word) (f : FirState) (x : PathSample) : FirState × Option PathSample × Nat :=
  let f := { hist := (x :: f.hist).take 12, seen := f.seen + 1 }
  if f.seen < 12 then (f, none, 0)
  else if chDelayFrac w = 0 then
    match f.hist.drop 6 with
    | y :: _ => (f, some { y with poison := f.hist.any (·.poison), ovr := f.hist.any (·.ovr), last := x.last }, 0)
    | [] => (f, none, 0)
  else
    let o := firOut (pdTaps (chDelayFrac w)) f.hist
    (f, some o.1, o.2)

/-- Everything after the CIC, on one sample: the output it makes, if any. -/
def postCic (c : Chain) (x : PathSample) : Chain × Option PathSample × Nat :=
  let w := c.block.words
  let a : Chain × Option PathSample × Nat :=
    if chCfirEn w then
      let r := firStage (cfirTaps w) (if chCfirDec2 w then 2 else 1) c.cfir x
      ({ c with cfir := r.1 }, r.2.1, r.2.2)
    else (c, some x, 0)
  match a.2.1 with
  | none => (a.1, none, a.2.2)
  | some y =>
    let g := roundPath (y.i * chGain w) (y.q * chGain w) 16
    let y : PathSample := { y with i := g.1, q := g.2.1, ovr := y.ovr || decide (g.2.2 ≠ 0) }
    let hb (acc : Chain × Option PathSample × Nat) (i : Nat) : Chain × Option PathSample × Nat :=
      if i < chHb w then
        match acc.2.1 with
        | none => acc
        | some z =>
          let r := firStage hbTaps 2 (acc.1.hb.getD i {}) z
          ({ acc.1 with hb := acc.1.hb.set i r.1 }, r.2.1, acc.2.2 + r.2.2)
      else acc
    let b := hb (hb (hb (a.1, some y, a.2.2 + g.2.2) 0) 1) 2
    match b.2.1 with
    | none => (b.1, none, b.2.2)
    | some z =>
      let r : Chain × Option PathSample × Nat :=
        if chRsEn w then
          let r := rsStage (chStep w) b.1.rs b.1.rsM z
          ({ b.1 with rs := r.1, rsM := r.2.1 }, r.2.2.1, b.2.2 + r.2.2.2)
        else (b.1, some z, b.2.2)
      match r.2.1 with
      | none => (r.1, none, r.2.2)
      | some u =>
        if chPdEn w then
          let p := pdStage w r.1.pd u
          ({ r.1 with pd := p.1 }, p.2.1, r.2.2 + p.2.2)
        else (r.1, some u, r.2.2)

/-! ### A chain as a whole -/

/-- φ of the first input under a block (R210). -/
def startPhase (w : List Word) : Nat := chPhaseOff w * 2 ^ 32

/-- A chain with cleared state under a block, started at a count. -/
def Chain.fresh (b : Block) (fin : Frac) (start : Nat) : Chain :=
  { block := b, fin := fin, start := start, phi := startPhase b.words }

/-- One input sample through a chain: the chain after it, and the output it completes. `cycle` is the cycle it is delivered
to the port, or written by the parent. -/
def Chain.input (c : Chain) (i q : Int) (poison ovr : Bool) (instant : Frac) (cycle : Nat) : Chain × Option ChanOut :=
  let w := c.block.words
  let m := mixer c.phi { i := i, q := q, poison := poison, ovr := ovr, last := c.n }
  let gd := chGroupDelay w c.fin
  let keep := (Frac.div (Frac.mul gd c.fin) (Frac.ofInt 3000000)).ceil.toNat + 2
  let c := { c with
    n := c.n + 1
    phi := (c.phi + chFreq w) % 2 ^ 48
    hist := ({ n := c.n, instant := instant, cycle := cycle } :: c.hist).take keep }
  let a := cicStage c m.1
  match a.2.1 with
  | none => ({ a.1 with clips := a.1.clips + m.2 + a.2.2 }, none)
  | some y =>
    let r := postCic a.1 y
    let clips := r.1.clips + m.2 + a.2.2 + r.2.2
    match r.2.1 with
    | none => ({ r.1 with clips := clips }, none)
    | some z =>
      -- the input is the last of the span; its output stands DELAY_INT outputs on (R221, R225, assumption 102)
      let centre := Frac.sub (Frac.add instant (chAheadTicks w c.fin)) gd
      let stamp := Frac.add centre (chDelayTicks w c.fin)
      let p := match c.hist.find? (fun h => Frac.le h.instant centre) with
        | some h => h.cycle
        | none => cycle - gd.floor.toNat
      let due := max ((Frac.add gd (Frac.ofInt (p + chPipeline w))).ceil.toNat) (cycle + chPipeline w)
      ({ r.1 with clips := 0 },
        some { i := z.i, q := z.q, poison := z.poison, ovr := z.ovr, instant := stamp, due := due, clips := clips, start := c.start, clipEv := chClipEv w })

def Dev.chan (d : Dev) (c : Nat) : Chan := Tbl.look ({} : Chan) d.chans c
def Dev.setChan (d : Dev) (c : Nat) (x : Chan) : Dev := { d with chans := Tbl.put c x d.chans }

def chanReg (c off : Nat) : Nat := 0x440000 + 32 * c + off
def xformReg (c off : Nat) : Nat := 0x460000 + 32 * c + off

def tfN (w : List Word) : Nat := 2 ^ fldAt w 0x08 4 0
def tfHop (w : List Word) : Nat := tfN w / 2 ^ fldAt w 0x08 7 5
def tfWindow (w : List Word) : Nat := fldAt w 0x08 12 8
def tfFormat (w : List Word) : Nat := fldAt w 0x08 17 16
def tfBinLo (w : List Word) : Int := sfldAt w 0x0C 15 0
def tfBinCount (w : List Word) : Nat := fldAt w 0x10 16 0

/-- A of R241. -/
def readAllowance (w : List Word) (fch : Frac) : Nat := (ticksAt (Frac.ofInt (tfHop w)) fch).ceil.toNat + 1

/-- L_N of R257. -/
def engineLatency (w : List Word) : Nat :=
  let k := fldAt w 0x08 4 0
  tfN w / 8 + 6 * ((k + 1) / 2) + 30 + (if tfFormat w = 1 then 4 else if tfFormat w = 2 then 10 else 0)

/-- Put an output into a queue in order of write tick, after those of the same tick. -/
def insertDue (o : ChanOut) : List ChanOut → List ChanOut
  | [] => [o]
  | p :: t => if p.due ≤ o.due then p :: insertDue o t else o :: p :: t

/-- Queue an output in order of its write tick. -/
def Chan.enqueue (x : Chan) (o : Option ChanOut) : Chan :=
  match o with
  | some o => { x with outq := insertDue o x.outq }
  | none => x

/-- A new chain as it takes its first input: with NCO_CONT its phase continues that of the channel's last input (R210). -/
def Chan.entering (x : Chan) (ch : Chain) : Chain :=
  match x.lastPhi with
  | some p => if ch.n = 0 ∧ chNcoCont ch.block.words then { ch with phi := (p + chFreq ch.block.words) % 2 ^ 48 } else ch
  | none => ch

/-- The shadow chain at the first input stamped at or after its launch: run over every input since its start, its phase set so
that this input has the phase of R210; and its outputs (R210, R228). -/
def shadowReplay (first : Chain) (ins : List ShadowIn) : Chain × List ChanOut :=
  let back := ins.length * (chFreq first.block.words % 2 ^ 48) % 2 ^ 48
  ins.foldl (fun (r : Chain × List ChanOut) (y : ShadowIn) =>
    let z := r.1.input y.i y.q y.poison y.ovr y.instant y.cycle
    (z.1, r.2 ++ z.2.toList)) ({ first with phi := (first.phi + 2 ^ 48 - back + chFreq first.block.words) % 2 ^ 48 }, [])

/-- The shadow chain takes an input (R228): before its launch the inputs stamped since its start are kept; from the first input stamped at or after the
launch on, its outputs stamped at or after the launch are the channel's; the mark `ok` says that the first is still to come. -/
def Chan.shadowInput (x : Chan) (y : ShadowIn) : Chan :=
  match x.shadow with
  | none => x
  | some (ch, t, ok) =>
    if Frac.lt y.instant (Frac.ofInt t) then x
    else match x.cross with
    | none => { x with shadowIn := x.shadowIn ++ [y] }
    | some l =>
      let own (os : List ChanOut) (ch : Chain) (phi : Nat) (x : Chan) : Chan :=
        let x := { x with lastPhi := some phi }
        match os.filter (fun (o : ChanOut) => Frac.le (Frac.ofInt l) o.instant) with
        | [] => { x with shadow := some (ch, t, ok) }
        | o :: rest => rest.foldl (fun (x : Chan) o => x.enqueue (some o))
            (({ x with shadow := some (ch, t, false) } : Chan).enqueue (some { o with first := ok }))
      if ch.n ≠ 0 then
        let r := ch.input y.i y.q y.poison y.ovr y.instant y.cycle
        own r.2.toList r.1 ch.phi x
      else if Frac.lt y.instant (Frac.ofInt l) then { x with shadowIn := x.shadowIn ++ [y] }
      else
        let first := x.entering ch
        let r := shadowReplay first (x.shadowIn ++ [y])
        own r.2 r.1 first.phi { x with shadowIn := [] }

/-- The live chain takes an input (R202). Across a settled launch its outputs stamped at or after the launch are dropped, and the
first of them, once the shadow chain runs, ends it. -/
def Chan.liveInput (x : Chan) (y : ShadowIn) : Chan :=
  match x.live with
  | none => x
  | some ch =>
    let r := ch.input y.i y.q y.poison y.ovr y.instant y.cycle
    let crossed := x.cross.isSome && x.shadow.any (fun s => decide (s.1.n ≠ 0))
    let x := { x with live := some r.1, lastPhi := if crossed then x.lastPhi else some ch.phi }
    match x.cross, r.2, x.shadow with
    | some l, some o, some s =>
      if Frac.lt o.instant (Frac.ofInt l) then x.enqueue (some o)
      else if s.1.n ≠ 0 then { x with live := some s.1, shadow := none, cross := none }
      else x
    | _, o, _ => x.enqueue o

/-- An input that comes late and is stamped before the last switch goes through the chain before it (R227). -/
def Chan.oldInput (x : Chan) (y : ShadowIn) : Chan :=
  match x.old with
  | none => x
  | some (t, ch) =>
    let r := ch.input y.i y.q y.poison y.ovr y.instant y.cycle
    ({ x with old := some (t, r.1) } : Chan).enqueue r.2

/-- The last of the switches whose tick has come for an instant. -/
def lastDue {α : Type} (instant : Frac) (xs : List (Nat × α)) : Option (Nat × α) :=
  (xs.filter (fun p => Frac.le (Frac.ofInt p.1) instant)).getLast?

/-- The switches whose tick is still to come at an instant. -/
def notDue {α : Type} (instant : Frac) (xs : List (Nat × α)) : List (Nat × α) :=
  xs.filter (fun p => !(Frac.le (Frac.ofInt p.1) instant))

/-- The configuration that a channel is to run: that of its latest switch, else the live one. -/
def Chan.current (x : Chan) : Option Chain := match x.next.getLast? with | some (_, c) => c | none => x.live

/-- A chain of the channel, of those the live one, the one before and those that follow, takes an input. -/
def Chan.anyTakes (x : Chan) (takes : Chain → Bool) : Bool :=
  x.live.any takes || x.next.any (fun p => p.2.any takes) || x.shadow.any (fun p => takes p.1) || x.old.any (fun p => takes p.2)

/-- One input sample to a channel, for the chains that `takes` names (R202, R227, R228): under the chain that its stamp falls under.
`ok` says whether the channel takes it still (R206). -/
def Chan.input (x : Chan) (takes : Chain → Bool) (ok : Bool) (i q : Int) (poison ovr : Bool) (instant : Frac) (cycle : Nat) : Chan :=
  let y : ShadowIn := { i := i, q := q, poison := poison, ovr := ovr, instant := instant, cycle := cycle }
  if !ok then x
  else
    match lastDue instant x.next with
    | none =>
      let x := if x.shadow.any (fun p => takes p.1) then x.shadowInput y else x
      if x.old.any (fun p => takes p.2 && Frac.lt instant (Frac.ofInt p.1)) then x.oldInput y
      else if x.live.any (fun ch => takes ch && Frac.le (Frac.ofInt ch.start) instant) then x.liveInput y else x
    | some (t, some ch) =>
      if takes ch then
        -- after a halt or a removal the channel starts as for the first time (R210)
        let x := if x.next.any (fun p => p.2.isNone) then { x with live := none, lastPhi := none } else x
        let e := x.entering ch
        let r := e.input i q poison ovr instant cycle
        let x := { x with lastPhi := some e.phi }
        match r.2 with
        | some o =>
          ({ x with live := some r.1, old := x.live.map (fun c => (t, c)), next := notDue instant x.next, shadow := none, cross := none } : Chan).enqueue
            (some { o with first := true })
        | none => { x with next := (t, some r.1) :: notDue instant x.next }
      else x
    | some (_, none) =>
      if x.anyTakes takes then { x with live := none, old := none, lastPhi := none, next := notDue instant x.next, shadow := none, cross := none } else x

/-- A chain takes a stream that is delivered to its channel's port (R16, R205). -/
def Chain.takes (ch : Chain) (c s dest : Nat) : Bool :=
  !(chLoupe ch.block.words) && decide (chSource ch.block.words = s) && decide (dest / 2 ^ (c / 8) % 2 = 1)

/-- A chain is a Loupe child of channel `p` (R207). -/
def Chain.childOf (ch : Chain) (c p : Nat) : Bool :=
  chLoupe ch.block.words && decide (8 * (c / 8) + chParent ch.block.words = p) && decide (c ≠ p)

/-- Frames of a sequence that have begun and are not complete. -/
def FrameSeq.open_ (f : FrameSeq) : Nat :=
  let n := tfN f.block.words
  let hop := tfHop f.block.words
  if f.started then ceilDiv f.count hop - (if f.count < n then 0 else (f.count - n) / hop + 1) else 0

/-- A ring is held while a sequence, or a frame not read in full, lies in it (R34). -/
def Chan.holds (x : Chan) (r : Staging) : Bool :=
  let seqs := x.frames.toList ++ x.framesNext.filterMap (fun p => p.2)
  seqs.any (fun f => decide (f.ring = r.no)) || x.done.any (fun f => decide (f.ring = r.no)) ||
    x.reading.any (fun f => decide (f.ring = r.no ∧ f.left ≠ 0))

/-- Rings that nothing lies in any longer are freed. -/
def Chan.freeRings (x : Chan) : Chan := { x with rings := x.rings.filter x.holds }

/-- Position of sample number `i` of a ring (R238). -/
def Staging.pos (r : Staging) (i : Nat) : Nat := i % (2 * (r.n + r.hop))

/-- The sample word of number `i`. -/
def Staging.at_ (r : Staging) (i : Nat) : Option ChanOut := Tbl.look none (r.words.map (fun p => (p.1, some p.2))) (r.pos i)

/-- The next sample is written to a ring. -/
def Staging.write (r : Staging) (o : ChanOut) : Staging := { r with words := Tbl.put (r.pos r.count) o r.words, count := r.count + 1 }

/-- The number of the 64-byte line at a place of a ring, in lines. -/
def lineAt : List (Nat × Nat) → Nat → Nat
  | [], k => k
  | (b, l) :: t, k => if k < l then b + k else lineAt t (k - l)

/-- The byte address in region 0 of byte `b` of sample number `i`. -/
def Staging.addr (r : Staging) (i b : Nat) : Nat := let a := 8 * r.pos i + b; 64 * lineAt r.lines (a / 64) + a % 64

def Chan.ring (x : Chan) (no : Nat) : Option Staging := x.rings.find? (fun r => decide (r.no = no))

/-- The old frame sequence of a channel ends and the next begins; frames left open are discarded (R262). -/
def Dev.nextFrames (d : Dev) (c : Nat) (f : Option FrameSeq) (rest : List (Nat × Option FrameSeq)) : Dev :=
  let x := d.chan c
  let n := match x.frames with | some g => g.open_ | none => 0
  (d.setChan c ({ x with frames := f, framesNext := rest } : Chan).freeRings).bump (xformReg c 0x08) n

/-- The frame sequences due at an output's instant. -/
def Dev.framesDue (d : Dev) (c : Nat) (instant : Frac) : Dev :=
  let x := d.chan c
  match lastDue instant x.framesNext with
  | some (_, f) => d.nextFrames c f (notDue instant x.framesNext)
  | none => d

/-- Nothing more comes to a chain: its stream has no route and no sample on its way, or its parent has ended. -/
def Dev.driedUp (d : Dev) (c : Nat) (ch : Chain) : Bool :=
  if chLoupe ch.block.words then
    let p := d.chan (8 * (c / 8) + chParent ch.block.words)
    p.live.isNone && p.next.isEmpty && p.outq.isEmpty
  else
    let s := Tbl.look ({} : Stream) d.streams (chSource ch.block.words)
    s.route.isNone && s.fifo.isEmpty && s.leaving.isNone

/-- A channel that has ended, with nothing left to write: its frame sequence ends, whether or not an input stamped after its last tick has come
(R262). -/
def Dev.channelEnded (d : Dev) (c : Nat) : Dev :=
  let x := d.chan c
  let gone := x.live.isNone && x.next.isEmpty
  let dry := x.current.isNone && x.withdrawn.isNone && x.live.all (d.driedUp c) && x.next.all (fun p => p.2.all (d.driedUp c))
  if x.outq.isEmpty && (gone || dry) then
    let d := if gone then d else d.setChan c { x with live := none, next := [], old := none, lastPhi := none, shadow := none, cross := none }
    match x.framesNext.getLast? with
    | some (_, none) => d.nextFrames c none []
    | _ => d
  else d

/-- A channel, and then its Loupe children, may have ended. -/
def Dev.familyEnded (d : Dev) (c : Nat) : Dev :=
  (d.channelEnded c).chans.foldl (fun d p => if p.2.anyTakes (fun ch => ch.childOf p.1 c) then d.channelEnded p.1 else d) (d.channelEnded c)

/-- The channels that have ended with their streams. -/
def Dev.endChannels (d : Dev) : Dev := d.chans.foldl (fun d p => d.familyEnded p.1) d

/-- One sample of stream `s` at the ports: to every channel of a cluster in the DEST mask that takes the stream (R16,
R185, R205). A live channel whose stream is withdrawn takes no more of it once its substitutes begin (R206). -/
def Dev.portSample (d : Dev) (s dest : Nat) (smp : Sample) : Dev :=
  d.chans.foldl (fun d (p : Nat × Chan) =>
    let x := d.chan p.1
    let takes (ch : Chain) : Bool := ch.takes p.1 s dest
    if x.anyTakes takes then
      (d.setChan p.1 (x.input takes (x.withdrawn.all (fun w => decide (d.now < w.2.1))) (64 * smp.i) (64 * smp.q) smp.poison smp.ovr smp.instant d.clk.cycle)).channelEnded p.1
    else d) d

/-! ### The write to staging (R204, R226, R231, R233, R235–R238) -/

/-- A frame of a sequence whose last sample has been written, with the settings of R260, given its first sample. -/
def FrameSeq.complete (f : FrameSeq) (o : ChanOut) (cycle : Nat) (tqAt : Nat → Nat) : FrameSeq × Frame :=
  let n := tfN f.block.words
  let stamp := o.instant.floor.toNat
  let at_ := Frac.ofInt stamp
  let b := match lastDue at_ f.next with | some (_, b) => b | none => f.block
  ({ f with block := b, next := notDue at_ f.next },
    { k := (f.count - n) / tfHop f.block.words, block := b, stamp := stamp, tq := tqAt stamp, c := cycle, a := f.a,
      restart := decide (f.count = n), ring := f.ring, first := f.first + (f.count - n), fch := f.fch })

/-- A sample is written to the staging of the channel's frame sequence, and may complete a frame (R235, R237, R238, R262). -/
def Chan.stage (x : Chan) (o : ChanOut) (cycle : Nat) (tqAt : Nat → Nat) : Chan :=
  match x.frames with
  | none => x
  | some f =>
    if !f.started && Frac.lt o.instant (Frac.ofInt f.from_) then x
    else
      let n := tfN f.block.words
      let written := match x.ring f.ring with | some r => r.count | none => 0
      let f := { f with started := true, first := if f.count = 0 then written else f.first, count := f.count + 1, last := some o.instant }
      let x := { x with frames := some f, rings := x.rings.map (fun r => if r.no = f.ring then r.write o else r) }
      if f.count < n ∨ (f.count - n) % tfHop f.block.words ≠ 0 then x
      else
        let head := ((x.ring f.ring).bind (fun r => r.at_ (f.first + (f.count - n)))).getD o
        let y := f.complete head cycle tqAt
        { x with frames := some y.1, done := x.done ++ [y.2] }

/-- Clip events (R233): the first clip after at least 1 ms without one, where CLIP_EV of the output's configuration is set. -/
def Dev.clipEvent (d : Dev) (c n : Nat) (on : Bool) : Dev :=
  if n = 0 then d
  else
    let x := d.chan c
    let quiet := match x.clipAt with | some t => decide (t + 3000000 ≤ d.cyc) | none => true
    let total := x.clipSince + n
    if on && quiet then
      (d.setChan c { x with clipAt := some d.cyc, clipSince := 0 }).raise (evChannel + c) c 1 total
    else d.setChan c { x with clipAt := some d.cyc, clipSince := total }

/-- A Loupe child takes its parent's output as it is written (R207); over the parent's settling gap its inputs are substitutes
at the new rate (R208). -/
def Dev.feedChildren (d : Dev) (c : Nat) (o : ChanOut) : Dev :=
  d.chans.foldl (fun d (p : Nat × Chan) =>
    let x := d.chan p.1
    let takes (ch : Chain) : Bool := ch.childOf p.1 c
    if x.anyTakes takes then
      let x := match x.gap with
        | some t =>
          if o.first ∧ o.start = t then
            let fin := match x.next.find? (fun (n : Nat × Option Chain) => decide (n.1 = t)) with
              | some (_, some ch) => ch.fin
              | _ => (match x.live with | some ch => ch.fin | none => ⟨0, 1⟩)
            let n := (Frac.div (Frac.mul (Frac.sub o.instant (Frac.ofInt t)) fin) (Frac.ofInt 3000000)).ceil.toNat
            (List.range n).foldl (fun (x : Chan) k =>
              let at_ := Frac.ofInt (Frac.add (Frac.ofInt t) (ticksAt (Frac.ofInt (k : Nat)) fin)).floor
              if Frac.lt at_ o.instant then x.input takes true 0 0 true false at_ d.clk.cycle else x) { x with gap := none }
          else x
        | none => x
      d.setChan p.1 (x.input takes true o.i o.q o.poison o.ovr o.instant d.clk.cycle)
    else d) d

/-- CHANNEL_OUTPUT_WRITE (R226): the channel's next output is written to staging at its tick. -/
def Dev.writeOutput (d : Dev) (c : Nat) : Dev :=
  let x := d.chan c
  match x.outq with
  | [] => d
  | o :: rest =>
    if d.cyc < o.due then d
    else
      -- a launch that changes N or hop breaks the intervals of time samples too (R261, R327)
      let broke := x.framesNext.any (fun p => p.2.isSome && Frac.le (Frac.ofInt p.1) o.instant)
      let d := d.framesDue c o.instant
      let x := d.chan c
      let x := { x with outq := rest, pending := x.pending ++ [{ o with due := d.cyc + 8, first := o.first || broke }], state := if o.first ∧ x.state = 1 ∧ o.start = x.switchAt then 2 else x.state }
      let d := d.setChan c (x.stage o d.cyc d.tqAt)
      let d := d.bump (chanReg c 0x04) o.clips
      let d := if o.ovr then d.bump (chanReg c 0x08) else d
      let d := if o.poison then d.bump (chanReg c 0x0C) else d
      let d := d.bump64 (chanReg c 0x10)
      let d := d.clipEvent c o.clips o.clipEv
      (d.feedChildren c o).familyEnded c

def execChannelOutputWrite (dt c : Nat) (s : State) : Host.Outcome State Fault Refusal :=
  onDev dt (fun d => d.writeOutput c) s

end Sys2Proof.Machine
end

