-- ==== Sys2Proof/Machine/TraceFeed.lean ====
section
/-!
DEFINITION. The feeds of the trace processors as their sources see them (R475–R481).
-/

namespace Sys2Proof.Machine

/-! ### Processors and bindings -/

def tbRqLog (w : List Word) : Nat := fldAt w 0x08 3 0
def tbAutostart (w : List Word) : Bool := bitAt w 0x08 4
def tbKind (w : List Word) (f : Nat) : Nat := fldAt w (0x18 + 16 * f) 1 0
def tbQLog (w : List Word) (f : Nat) : Nat := fldAt w (0x18 + 16 * f) 5 2
def tbSource (w : List Word) (f : Nat) : Nat := fldAt w (0x18 + 16 * f) 31 16
def tbSlotBase (w : List Word) (f : Nat) : Nat := fldAt w (0x1C + 16 * f) 18 0
def tbCount (w : List Word) (f : Nat) : Nat := fldAt w (0x20 + 16 * f) 15 0

/-- Slots of a feed (R476). -/
def tbSlots (w : List Word) (f : Nat) : Nat := 2 ^ tbQLog w f + 4

/-- The binding of a processor. -/
def Tp.binding (t : Tp) : Option (List Word) := t.bind.map (fun b => b.2.words)

/-- The lowest-numbered free slot of a feed: neither held, queued, nor being written (R481). A queued descriptor names its
slot by its address. -/
def freeSlot (slots base bytes : Nat) (x : TFeed) : Nat :=
  let queued := x.q.items.map (fun (w : Nat × Bool) => (w.1 % 2 ^ 19 - base) / bytes)
  let busy := x.items.map (fun (i : FeedItem) => i.slot)
  let held := match x.held with | some s => [s] | none => []
  match (List.range slots).find? (fun s => !(queued.contains s) && !(busy.contains s) && !(held.contains s)) with
  | some s => s
  | none => 0

/-- ITEM_BYTES of a feed of KIND 2 or 3 (R476). -/
def sampleItemBytes (w : List Word) (f : Nat) : Nat := if tbKind w f = 2 then 32 + 8 * tbCount w f else 32

/-! ### Triggers as items (R476, R478, R479) -/

/-- The 32 bytes of an item of KIND 3, its LOST field 0. -/
def triggerItem (c : Candidate) (tq seq : Nat) : List Byte :=
  bytesOfWords [BitVec.ofNat 32 c.tick, BitVec.ofNat 32 (c.tick / 2 ^ 32),
    Word.place 15 0 c.src ||| Word.place 23 16 c.fire ||| Word.place 25 24 tq, BitVec.ofNat 32 seq, 0, 0, 0, 0]

/-- A confirmed candidate that leaves its source `wait` ticks from now, at feed `f` of processor `n` (R479). -/
def Dev.feedConfirmed (d : Dev) (n f : Nat) (w : List Word) (wait : Nat) (c : Candidate) : Dev :=
  let t := d.tp n
  let x := t.feed f
  let near := match x.lastTick with | some l => decide (c.tick < l + 64) | none => false
  if near then (d.setTp n (t.setFeed f { x with lost := min (x.lost + 1) (2 ^ 32 - 1) })).bump (tpReg n 0x20 + 4 * f)
  else
    let i : FeedItem := {
      slot := freeSlot (tbSlots w f) (tbSlotBase w f) 32 x, due := some (d.cyc + wait + 10), stamp := c.tick,
      bytes := triggerItem c (d.tqAt c.tick) (x.seq + x.items.length) }
    d.setTp n (t.setFeed f { x with items := x.items ++ [i], lastTick := some c.tick })

/-- A message of source `src` reaches the feeds of KIND 3 that name it (R479): only confirmed candidates become items. -/
def Dev.feedTrigger (d : Dev) (src wait : Nat) (m : TrigMsg) : Dev :=
  d.tps.foldl (fun d (p : Nat × Tp) =>
    match p.2.binding with
    | some w =>
      if !p.2.feedsOn then d
      else
        (List.range 8).foldl (fun d f =>
          if tbKind w f ≠ 3 ∨ tbSource w f ≠ src then d
          else
            let t := d.tp p.1
            let x := t.feed f
            match m with
            | .cand c => if c.prov then d.setTp p.1 (t.setFeed f { x with cands := x.cands ++ [c] }) else d.feedConfirmed p.1 f w wait c
            | .verdict s fire ok =>
              match x.cands.find? (fun (c : Candidate) => decide (c.src = s ∧ c.fire = fire)) with
              | some c =>
                let d := d.setTp p.1 (t.setFeed f { x with cands := x.cands.filter (fun (b : Candidate) => b != c) })
                if ok then d.feedConfirmed p.1 f w wait { c with prov := false } else d
              | none => d) d
    | none => d) d

end Sys2Proof.Machine
end

