-- ==== Sys2Proof/Machine/Trigger.lean ====
section
/-!
DEFINITION. Triggers (R271–R309): level and edge units, mask units, combiners, trigger outputs, and triggers of chained
devices. What a candidate does at an aperture is in Acquire.
-/

namespace Sys2Proof.Machine

def leReg (c off : Nat) : Nat := 0x480000 + 16 * c + off
def maskReg (u off : Nat) : Nat := 0x490000 + 32 * u + off
def toReg (n off : Nat) : Nat := 0x4A1000 + 16 * n + off

/-- Selectors of R272. -/
def selLe (c : Nat) : Nat := 0x1000 + c
def selMask (u : Nat) : Nat := 0x2000 + u
def selComb (k : Nat) : Nat := 0x3000 + k
def selMarker (n : Nat) : Nat := 0x4000 + n
def selRemote (id : Nat) : Nat := 0x5000 + id
def selCmd (a : Nat) : Nat := 0x6000 + a

def Dev.comb (d : Dev) (k : Nat) : Combiner := Tbl.look ({} : Combiner) d.combs k
def Dev.setComb (d : Dev) (k : Nat) (x : Combiner) : Dev := { d with combs := Tbl.put k x d.combs }
def Dev.to (d : Dev) (n : Nat) : TrigOut := Tbl.look ({} : TrigOut) d.tos n
def Dev.setTo (d : Dev) (n : Nat) (x : TrigOut) : Dev := { d with tos := Tbl.put n x d.tos }
def Dev.mask (d : Dev) (u : Nat) : MaskUnit := Tbl.look ({} : MaskUnit) d.masks u
def Dev.setMask (d : Dev) (u : Nat) (x : MaskUnit) : Dev := { d with masks := Tbl.put u x d.masks }
def Dev.leUnit (d : Dev) (c : Nat) : LeUnit := Tbl.look ({} : LeUnit) d.le c
def Dev.setLe (d : Dev) (c : Nat) (x : LeUnit) : Dev := { d with le := Tbl.put c x d.le }

/-! ### From a source to its consumers (R272, R294, R296) -/

def toSource (w : List Word) : Nat := fldAt w 0x08 15 0
def toMode (w : List Word) : Nat := fldAt w 0x08 17 16
def toPulseW (w : List Word) : Nat := fldAt w 0x0C 15 0

/-- A candidate reaches a trigger output under its block (R299–R302). -/
def TrigOut.candidate (x : TrigOut) (w : List Word) (cycle : Nat) (c : Candidate) : TrigOut :=
  let req (v : Option Bool) : PulseReq :=
    { src := c.src, fire := c.fire, due := cycle + 24, early := decide (toMode w = 2), width := toPulseW w, verdict := v, verdictAt := cycle }
  if toMode w = 2 then
    if x.queue.length < 16 then { x with queue := x.queue ++ [req (if c.prov then none else some true)] }
    else { x with dropped := x.dropped ++ [(c.src, c.fire)] }
  else if toMode w = 1 then
    if c.prov then { x with seen := x.seen ++ [(c.src, c.fire, toPulseW w)] } else { x with queue := x.queue ++ [req (some true)] }
  else x

/-- A verdict reaches a trigger output: what was queued under an earlier block completes under it (R299–R302). -/
def TrigOut.takeVerdict (x : TrigOut) (cycle src fire : Nat) (ok : Bool) : TrigOut :=
  let x := { x with
    queue := x.queue.map (fun (r : PulseReq) => if r.src = src ∧ r.fire = fire ∧ r.verdict = none then { r with verdict := some ok, verdictAt := cycle } else r)
    sent := x.sent.map (fun (r : PulseSent) => if r.src = src ∧ r.fire = fire ∧ r.verdict = none then { r with verdict := some ok, verdictAt := cycle } else r) }
  match x.seen.find? (fun (p : Nat × Nat × Nat) => decide (p.1 = src ∧ p.2.1 = fire)) with
  | some p =>
    let x := { x with seen := x.seen.filter (· != p) }
    if ok then
      { x with queue := x.queue ++ [{ src := src, fire := fire, due := cycle + 24, early := false, width := p.2.2, verdict := some true, verdictAt := cycle }] }
    else x
  | none => x

/-- A message leaves source `src`, `wait` ticks from now, for every output that names it; a candidate that found the queue full is counted at its
verdict (R301), and a pulse sent before its verdict is counted now. -/
def Dev.toOutputs (d : Dev) (src wait : Nat) (early : Bool) (m : TrigMsg) : Dev :=
  (List.range 8).foldl (fun d n =>
    let x := d.to n
    match m with
    | .cand c =>
      match x.block with
      | some b =>
        if toSource b.words ≠ src ∨ (early ∧ toMode b.words ≠ 2) then d
        else
          let y := x.candidate b.words (d.cyc + wait) c
          let d := d.setTo n y
          if !c.prov && decide (y.dropped.length ≠ x.dropped.length) then d.bump (toReg n 0x08) else d
      | none => d
    | .verdict s f ok =>
      let y := x.takeVerdict (d.cyc + wait) s f ok
      let d := d.setTo n y
      let d := if x.dropped.contains (s, f) then (d.setTo n { y with dropped := y.dropped.filter (· != (s, f)) }).bump (toReg n 0x08) else d
      if x.sent.any (fun r => decide (r.src = s ∧ r.fire = f ∧ r.verdict = none)) then d.bump (toReg n 0x00) else d) d

/-- The aperture's trigger source: SOURCE of its live capture block. -/
def Aperture.source (p : Aperture) : Option Nat :=
  (p.live.find? (fun b => decide (b.type = 0x09))).map (fun b => fldAt b.words 0x08 15 0)

/-- The key of a message in a combiner's inbox: events of the same tick in ascending input number (R290). -/
def arrivalKey (p : Nat × Nat × TrigMsg) : Nat := 8 * p.1 + p.2.1

/-- Aperture `a` awaits the verdict of a candidate: it holds or has discarded it, or a snapshot of the aperture rests on it (R148, R314). -/
def Dev.awaitsVerdict (d : Dev) (a : Nat) (x : Acq) (m : TrigMsg) : Bool :=
  match m with
  | .cand _ => false
  | .verdict src fire _ =>
    let is (c : Candidate) : Bool := decide (c.src = src ∧ c.fire = fire)
    (match x.prov with | some (c, _) => is c | none => false) || x.held.any (fun h => is h.1) || x.lost.any (fun l => is l.1) ||
      x.inbox.any (fun q => match q.2 with | .cand c => is c | _ => false) ||
      d.glob.snaps.any (fun (s : Snap) => s.waits.any (fun w => decide (w.1 = a ∧ w.2.1 = src ∧ w.2.2.1 = fire)))

/-- A message leaves source `src`, `wait` ticks from now: to the combiners with an input that names it, to the LIVE apertures whose
capture block names it or which await the verdict, 4 ticks further on, to the trigger outputs, and to the trace feeds (R272, R273, R310, R316,
R479). -/
def Dev.leave (d : Dev) (src wait : Nat) (m : TrigMsg) : Dev :=
  let t := d.cyc + wait
  let d := { d with combs := d.combs.map (fun (p : Nat × Combiner) =>
    match p.2.block with
    | some b =>
      let ins := (List.range 8).filter (fun i => decide (fldAt b.words (0x10 + 4 * (i / 2)) (16 * (i % 2) + 15) (16 * (i % 2)) = src))
      (p.1, { p.2 with inbox := ins.foldl (fun l i => insertAfter arrivalKey (t, i, m) l) p.2.inbox })
    | none => p) }
  let d := { d with aps := d.aps.map (fun (p : Nat × Aperture) =>
    if p.2.state = 3 ∧ p.2.source = some src ∨ d.awaitsVerdict p.1 p.2.acq m then (p.1, { p.2 with acq := { p.2.acq with inbox := p.2.acq.inbox ++ [(t + 4, m)] } }) else p) }
  (d.toOutputs src wait false m).feedTrigger src wait m

/-- Only the trigger outputs in EARLY mode see it (R307). -/
def Dev.leaveEarly (d : Dev) (src wait : Nat) (m : TrigMsg) : Dev := d.toOutputs src wait true m

/-! ### Level and edge units (R274–R279) -/

/-- `v > T` and `v < T` as R275 compares them: I, Q, or I² + Q² with T² (a negative T counts as 0). -/
def leAbove (qty : Nat) (o : ChanOut) (t : Int) : Bool :=
  if qty = 0 then decide (t < o.i) else if qty = 1 then decide (t < o.q)
  else decide ((max t 0) * (max t 0) < o.i * o.i + o.q * o.q)

def leBelow (qty : Nat) (o : ChanOut) (t : Int) : Bool :=
  if qty = 0 then decide (o.i < t) else if qty = 1 then decide (o.q < t)
  else decide (o.i * o.i + o.q * o.q < (max t 0) * (max t 0))

/-- THRESH: signed for I and Q, unsigned for the magnitude. -/
def leThresh (w : List Word) : Int := if fldAt w 0x08 1 0 = 2 then (fldAt w 0x0C 23 0 : Nat) else sfldAt w 0x0C 23 0

/-- One clean sample at a unit: the unit after it and whether the sample meets the firing condition of its MODE (R276). -/
def LeUnit.clean (u : LeUnit) (w : List Word) (o : ChanOut) : LeUnit × Bool :=
  let qty := fldAt w 0x08 1 0
  let t := leThresh w
  let h : Int := (fldAt w 0x10 23 0 : Nat)
  let mode := fldAt w 0x08 3 2
  if mode = 0 then
    let slope := fldAt w 0x08 5 4
    let rise := decide (slope ≠ 1) && u.armRise && leAbove qty o t
    let fall := decide (slope ≠ 0) && u.armFall && leBelow qty o t
    let armR := if rise then false else u.armRise || (decide (slope ≠ 1) && !leAbove qty o (t - h))
    let armF := if fall then false else u.armFall || (decide (slope ≠ 0) && !leBelow qty o (t + h))
    ({ u with armRise := armR, armFall := armF }, rise || fall)
  else
    let meet := if bitAt w 0x08 6 then leBelow qty o t else leAbove qty o t
    let width := fldAt w 0x14 23 0
    let run := if meet then min (u.run + 1) (2 ^ 24 - 1) else 0
    let fires := if mode = 1 then meet && decide (u.run + 1 = width)
      else if mode = 2 then !meet && decide (1 ≤ u.run ∧ u.run < width)
      else meet
    ({ u with run := run }, fires)

/-- A channel output sample at the level and edge unit (R276–R279): the fire leaves the unit 6 ticks later (R316). -/
def Dev.leSample (d : Dev) (c : Nat) (o : ChanOut) : Dev :=
  let u := d.leUnit c
  let u := match lastDue o.instant u.next with
    | some (_, b) => ({ fires := u.fires, block := b, next := notDue o.instant u.next } : LeUnit)
    | none => u
  match u.block with
  | none => d.setLe c u
  | some b =>
    if o.poison then (d.setLe c { u with run := 0, armRise := false, armFall := false, hold := u.hold - 1 }).bumpSat (leReg c 0x04) 31 16
    else
      let r := u.clean b.words o
      let u' := { r.1 with hold := u.hold - 1 }
      if !r.2 || decide (u.hold ≠ 0) then d.setLe c u'
      else if u.firedAt = some d.cyc then (d.setLe c u').bumpSat (leReg c 0x04) 15 0
      else
        let u' := { u' with hold := (dwAt b.words 0x18).toNat, fires := u.fires + 1, firedAt := some d.cyc }
        ((d.setLe c u').bump (leReg c 0x00)).leave (selLe c) 6
          (.cand { src := selLe c, fire := u.fires, tick := o.instant.floor.toNat, prov := false })

/-! ### Mask units (R280–R288) -/

def mkChannel (w : List Word) : Nat := fldAt w 0x08 8 0
def mkBinsMin (w : List Word) : Nat := fldAt w 0x0C 16 0
def mkM (w : List Word) : Nat := fldAt w 0x10 6 0
def mkK (w : List Word) : Nat := fldAt w 0x10 14 8
def mkPoints (w : List Word) : List (Int × Int) :=
  (List.range (fldAt w 0x08 22 16)).map (fun p => (sfldAt w (0x38 + 4 * p) 15 0, sfldAt w (0x38 + 4 * p) 31 16))

/-- The mask level at bin `j`, none outside the points (R282). -/
def maskLevel : List (Int × Int) → Int → Option Int
  | [], _ => none
  | [(b, l)], j => if j = b then some l else none
  | (b0, l0) :: (b1, l1) :: t, j =>
    if j < b0 then none
    else if j < b1 then some (l0 + (l1 - l0) * (j - b0) / (b1 - b0))
    else maskLevel ((b1, l1) :: t) j

/-- The exclusions in use, as (from, to, level, below) (R283). -/
def mkExcl (w : List Word) : List (Int × Int × Int × Bool) :=
  (List.range (fldAt w 0x08 25 23)).map (fun x =>
    (sfldAt w (0x18 + 8 * x) 15 0, sfldAt w (0x18 + 8 * x) 31 16, sfldAt w (0x1C + 8 * x) 15 0, bitAt w (0x1C + 8 * x) 16))

/-- A bin of level `l` at a frame: the violation and the exclusion (R282, R283). -/
def MaskFrame.bin (f : MaskFrame) (j l : Int) : MaskFrame × Bool :=
  let w := f.block.words
  let viol := match maskLevel (mkPoints w) j with
    | some m => if bitAt w 0x08 9 then decide (l < m) else decide (m < l)
    | none => false
  let excl := (mkExcl w).any (fun x => decide (x.1 ≤ j ∧ j ≤ x.2.1) && (if x.2.2.2 then decide (l < x.2.2.1) else decide (x.2.2.1 < l)))
  ({ f with viol := if viol then f.viol + 1 else f.viol, excluded := f.excluded || excl }, viol)

/-- Trigger tick of a frame by TPOS (R287). -/
def MaskFrame.trigTick (f : MaskFrame) : Nat :=
  let p := fldAt f.block.words 0x08 15 14
  let n : Nat := if p = 0 then 0 else if p = 1 then f.n / 2 else f.n - 1
  f.stamp + (ticksAt (Frac.ofInt n) f.fch).floor.toNat

/-- The frames of a unit before a frame, newest first, back to the last RESTART, with those pending as hits; the flag says
whether the newest is pending (R284, R285). -/
def MaskUnit.before (u : MaskUnit) (earlier : List MaskFrame) (restart : Bool) : List Bool :=
  if restart then []
  else
    let newest := earlier.reverse
    let upto := newest.takeWhile (fun f => !f.restart)
    if upto.length < newest.length then List.replicate (upto.length + 1) true
    else List.replicate newest.length true ++ u.hist

/-- The count of hits among the first `n`. -/
def hitsIn (n : Nat) (h : List Bool) : Nat := ((h.take n).filter (fun b => b)).length

/-- A provisional fire is allowed at a bin that has just brought the violations to BINS_MIN (R285). -/
def MaskUnit.mayFire (u : MaskUnit) (earlier : List MaskFrame) (f : MaskFrame) : Bool :=
  let w := f.block.words
  let mode := fldAt w 0x08 13 12
  bitAt w 0x08 10 && decide (mode ≤ 1) && !f.poison && !(bitAt w 0x08 11 && f.ovr) && !f.excluded && f.fired.isNone &&
    decide (f.viol = mkBinsMin w) && decide (mkK w - 1 ≤ hitsIn (mkM w - 1) (u.before earlier f.restart)) &&
    (decide (mode = 0) || f.restart || !earlier.isEmpty || !u.prevQual)

/-- The changes that no spectrum of channel `c` stamped at or after `at_` can precede: the block they lead to, and those left. -/
def passedBlocks (c : Nat) (at_ : Frac) : Option Block → List (Nat × Option Block) → Option Block × List (Nat × Option Block)
  | b, [] => (b, [])
  | b, (t, n) :: rest =>
    if Frac.le (Frac.ofInt t) at_ && (match b with | some x => decide (mkChannel x.words = c) | none => true) then passedBlocks c at_ n rest
    else (b, (t, n) :: rest)

/-- A spectrum of channel `c` at a unit: the block in force at its stamp, when that watches the channel, takes it as a frame; under
a changed block it begins a new history (R284, R288). -/
def MaskUnit.admitFrame (u : MaskUnit) (c : Nat) (mk : Block → MaskFrame) (stamp : Nat) : MaskUnit :=
  let at_ := Frac.ofInt (stamp : Nat)
  let now := match lastDue at_ u.next with | some (_, b) => b | none => u.block
  let p := passedBlocks c at_ u.block u.next
  let u := { u with block := p.1, next := p.2 }
  match now with
  | some b =>
    if mkChannel b.words = c then
      let f := mk b
      { u with cur := some b, frames := u.frames ++ [{ f with restart := f.restart || decide (u.cur ≠ some b) }] }
    else u
  | none => u

/-- A frame enters each mask unit that watches its channel (R282, R288). -/
def Dev.maskFrames (d : Dev) (c stamp : Nat) (mk : Block → MaskFrame) : Dev :=
  { d with masks := d.masks.map (fun (p : Nat × MaskUnit) => (p.1, p.2.admitFrame c mk stamp)) }

/-- An emitted bin at mask unit `u`, for the frame that started at cycle `dd` (R282, R285). -/
def Dev.maskBin (d : Dev) (u c dd : Nat) (j l : Int) : Dev :=
  let x := d.mask u
  match x.frames.find? (fun f => decide (f.channel = c ∧ f.d = dd)) with
  | none => d
  | some f =>
    let r := f.bin j l
    let earlier := x.frames.takeWhile (fun g => !(decide (g.channel = c ∧ g.d = dd)))
    let fire := r.2 && x.mayFire earlier r.1
    let g := if fire then { r.1 with fired := some x.fires } else r.1
    let x' := { x with
      frames := x.frames.map (fun h => if h.channel = c ∧ h.d = dd then g else h)
      fires := if fire then x.fires + 1 else x.fires }
    let d := d.setMask u x'
    if fire then d.leave (selMask u) 8 (.cand { src := selMask u, fire := x.fires, tick := g.trigTick, prov := true }) else d

/-- HIST of MASK_STAT: bit b is the hit in the frame b before the newest (R317). -/
def histWord (h : List Bool) : Word :=
  BitVec.ofNat 32 (((h.take 32).zipIdx).foldl (fun a p => a + p.1.toNat * 2 ^ p.2) 0)

/-- The decision on the oldest frame of a mask unit, at D + N/8 + 48 (R284, R286, R316). -/
def Dev.maskVerdict (d : Dev) (u : Nat) : Dev :=
  let x := d.mask u
  match x.frames with
  | [] => d
  | f :: rest =>
    if d.cyc < f.d + f.n / 8 + 48 then d
    else
      let w := f.block.words
      let hist := if f.restart then [] else x.hist
      let prevQ := !f.restart && x.prevQual
      let poison := f.poison || f.checkFails
      let enough := decide (mkBinsMin w ≤ f.viol) && !f.excluded
      let blockOvr := bitAt w 0x08 11 && f.ovr
      let hit := enough && !poison && !blockOvr
      let qualIf (h : Bool) : Bool := h && decide (mkK w ≤ hitsIn (mkM w) (h :: hist))
      let fireIf (q : Bool) : Bool :=
        let mode := fldAt w 0x08 13 12
        if mode = 0 then q else if mode = 1 then q && !prevQ else prevQ && !q
      let qual := qualIf hit
      let fires := fireIf qual && !poison
      let wouldPoison := poison && fireIf (qualIf (enough && !blockOvr))
      let wouldOvr := blockOvr && !poison && !fires && fireIf (qualIf enough)
      let hist' := (hit :: hist).take 64
      let d := d.setMask u { x with frames := rest, hist := hist', prevQual := qual, fires := if fires && f.fired.isNone then x.fires + 1 else x.fires }
      let d := d.bump (maskReg u 0x00)
      let d := if hit then d.bump (maskReg u 0x04) else d
      let d := if f.excluded then d.bump (maskReg u 0x10) else d
      let d := if wouldPoison then d.bumpSat (maskReg u 0x14) 15 0 else d
      let d := if wouldOvr then d.bumpSat (maskReg u 0x14) 31 16 else d
      let d := d.setReg (maskReg u 0x18) (histWord hist')
      let d := if fires then d.bump (maskReg u 0x08) else if f.fired.isSome then d.bump (maskReg u 0x0C) else d
      let ev := bitAt w 0x08 26
      let data := BitVec.ofNat 64 (f.seq % 2 ^ 32 + 2 ^ 32 * (f.viol % 2 ^ 17))
      let d := if ev && (fires || wouldPoison) then
          d.raiseAt (evMaskTrigger + u) (freeSev (evMaskTrigger + u)) u ((if fires then 1 else 2) + 4 * f.fired.isSome.toNat + 2 ^ 16 * f.channel)
            data (BitVec.ofNat 64 f.trigTick)
        else d
      match f.fired with
      | some n => d.leave (selMask u) 0 (.verdict (selMask u) n fires)
      | none => if fires then d.leave (selMask u) 0 (.cand { src := selMask u, fire := x.fires, tick := f.trigTick, prov := false }) else d

def execMaskVerdict (dt u : Nat) (s : State) : Host.Outcome State Fault Refusal := onDev dt (fun d => d.maskVerdict u) s

/-! ### Combiners (R289–R293) -/

def cbStages (w : List Word) : Nat := fldAt w 0x08 1 0 + 1
def cbProvEn (w : List Word) : Bool := bitAt w 0x08 2
def cbFireEv (w : List Word) : Bool := bitAt w 0x08 3
def cbExport (w : List Word) : Bool := bitAt w 0x08 4
def cbScope (w : List Word) : Nat := fldAt w 0x08 6 5
def cbReset (w : List Word) (i : Nat) : Bool := bitAt w 0x08 (8 + i)
def cbExportId (w : List Word) : Nat := fldAt w 0x08 27 16
def cbHoldoff (w : List Word) : Nat := (dwAt w 0x0C).toNat
def cbSel (w : List Word) (s i : Nat) : Bool := bitAt w (0x20 + 16 * s) i
def cbAll (w : List Word) (s : Nat) : Bool := bitAt w (0x20 + 16 * s) 8
def cbCount (w : List Word) (s : Nat) : Nat := fldAt w (0x20 + 16 * s) 31 16
def cbWin (w : List Word) (s : Nat) : Nat := (dwAt w (0x24 + 16 * s)).toNat
def cbMin (w : List Word) (s : Nat) : Nat := (dwAt w (0x28 + 16 * s)).toNat
def cbMax (w : List Word) (s : Nat) : Nat := (dwAt w (0x2C + 16 * s)).toNat

/-- Stage 0 with counts and latest ticks cleared; the last output tick is kept. -/
def CombSeq.restart (q : CombSeq) : CombSeq := { lastOut := q.lastOut }

/-- The sequence an event of tick `t` meets: past MAX_AFTER it restarts and the event is taken for stage 0 (R290). -/
def CombSeq.meet (q : CombSeq) (w : List Word) (t : Nat) : CombSeq :=
  if 0 < q.stage ∧ cbMax w q.stage ≠ 0 ∧ q.prev + cbMax w q.stage < t then q.restart else q

/-- The event is ignored by the stage it meets (R290). -/
def CombSeq.ignores (q : CombSeq) (w : List Word) (i t : Nat) : Bool :=
  !cbSel w q.stage i || (decide (0 < q.stage) && decide (t < q.prev + cbMin w q.stage)) ||
    (decide (q.stage = 0) && (match q.lastOut with | some o => decide (t < o + cbHoldoff w) | none => false))

/-- The spread rule of ALL over given latest ticks: the satisfaction tick (R290). -/
def combAll (w : List Word) (s : Nat) (latest : List (Option Nat)) : Option Nat :=
  let ticks := ((List.range 8).filter (fun i => cbSel w s i)).map (fun i => latest.getD i none)
  if ticks.any (·.isNone) then none
  else
    let ts := ticks.filterMap (fun x => x)
    let hi := ts.foldl max 0
    let lo := ts.foldl min (ts.headD 0)
    if hi - lo ≤ cbWin w s then some hi else none

/-- One satisfaction at tick `t` of the current stage: the next state, and the output tick when it was the last (R290). -/
def CombSeq.satisfy (q : CombSeq) (w : List Word) (t : Nat) : CombSeq × Option Nat :=
  let none8 : List (Option Nat) := [none, none, none, none, none, none, none, none]
  if q.count + 1 < cbCount w q.stage then ({ q with count := q.count + 1, latest := none8 }, none)
  else if q.stage + 1 < cbStages w then ({ q with stage := q.stage + 1, count := 0, latest := none8, prev := t }, none)
  else ({ lastOut := some t }, some t)

/-- A confirmed event on input `i` at trigger tick `t` (R290). -/
def CombSeq.take (q : CombSeq) (w : List Word) (i t : Nat) : CombSeq × Option Nat :=
  if cbReset w i then (q.restart, none)
  else
    let m := q.meet w t
    if m.ignores w i t then (m, none)
    else if cbAll w m.stage then
      let latest := m.latest.set i (some t)
      match combAll w m.stage latest with
      | some h => { m with latest := latest }.satisfy w h
      | none => ({ m with latest := latest }, none)
    else m.satisfy w t

/-- COMB_STAT shows the state saved at a provisional output, else the present one (R296). -/
def Dev.combStat (d : Dev) (k : Nat) : Dev :=
  let x := d.comb k
  let q := match x.prov with | some p => p.saved | none => x.seq
  (d.setFld (combReg k 0x00) 1 0 q.stage).setFld (combReg k 0x00) 31 16 (min q.count 65535)

/-- TRIG and VERDICT words go up to the top; the top sends them down (R306). -/
def Dev.exportWord (d : Dev) (scope : Nat) (w : SyncOut) : Dev :=
  if d.isTop scope then d.queueWords (d.downLinks scope) w else d.queueUp w

/-- A remote trigger is confirmed on this device (R307). -/
def Dev.remoteConfirmed (d : Dev) (id fire tick : Nat) : Dev :=
  (d.bump 0x4A2000).leave (selRemote id) 30 (.cand { src := selRemote id, fire := fire, tick := tick, prov := false })

/-- A TRIG word at this device as a receiver, from link `k` (R307, R308). -/
def Dev.receiveTrig (d : Dev) (k id fire tick : Nat) (prov : Bool) : Dev :=
  if !prov then d.remoteConfirmed id fire tick
  else
    let d := d.leaveEarly (selRemote id) 30 (.cand { src := selRemote id, fire := fire, tick := tick, prov := true })
    if d.remote.pending.length < 64 then
      { d with remote := { d.remote with pending := d.remote.pending ++ [(id, fire, tick, d.cyc, k)] } }
    else
      let d := { d with remote := { d.remote with resolved := d.remote.resolved ++ [(id, fire)] } }
      (d.leaveEarly (selRemote id) 30 (.verdict (selRemote id) fire false)).bump 0x4A2004

/-- A VERDICT word at this device as a receiver (R307, R308). -/
def Dev.receiveVerdict (d : Dev) (id fire : Nat) (ok : Bool) : Dev :=
  match d.remote.pending.find? (fun p => decide (p.1 = id ∧ p.2.1 = fire)) with
  | some p =>
    let d := { d with remote := { d.remote with pending := d.remote.pending.filter (· != p) } }
    let d := d.leaveEarly (selRemote id) 30 (.verdict (selRemote id) fire ok)
    if !ok then d
    else
      -- the outputs in CONFIRMED mode, the combiners and the apertures take it now as confirmed
      let early := { d with tos := d.tos.map (fun (q : Nat × TrigOut) => match q.2.block with
        | some b => if toMode b.words = 2 then (q.1, { q.2 with block := none }) else q | none => q) }
      let e := early.remoteConfirmed id fire p.2.2.1
      { e with tos := e.tos.map (fun (q : Nat × TrigOut) => (q.1, { q.2 with block := (d.to q.1).block })) }
  | none =>
    if d.remote.resolved.contains (id, fire) then
      { d.bump 0x4A2008 with remote := { d.remote with resolved := d.remote.resolved.filter (· != (id, fire)) } }
    else d.bump 0x4A200C

/-- Resolve a pending provisional TRIG as cancelled (R308). -/
def Dev.unresolved (d : Dev) (id fire : Nat) : Dev :=
  match d.remote.pending.find? (fun p => decide (p.1 = id ∧ p.2.1 = fire)) with
  | some p =>
    let d := { d with remote := { pending := d.remote.pending.filter (· != p), resolved := d.remote.resolved ++ [(id, fire)] } }
    (d.leaveEarly (selRemote id) 0 (.verdict (selRemote id) fire false)).bump 0x4A2004
  | none => d

/-- REMOTE_TRIG_TIMEOUT (R308): no VERDICT within 16,384 ticks, the last of them among those in which it may come. -/
def execRemoteTrigTimeout (dt id fire : Nat) (s : State) : Host.Outcome State Fault Refusal :=
  onDev dt (fun d =>
    match d.remote.pending.find? (fun p => decide (p.1 = id ∧ p.2.1 = fire)) with
    | some p => if p.2.2.2.1 + 16384 < d.cyc then d.unresolved id fire else d
    | none => d) s

/-- Export an output of a combiner (R304, R305): the combiner after it, the number sent, whether it was skipped. -/
def Dev.exportOutput (d : Dev) (k : Nat) (w : List Word) (tick : Nat) (prov : Bool) : Dev × Option Nat × Bool :=
  if !cbExport w then (d, none, false)
  else
    let x := d.comb k
    let ok := match x.exportAt with | some t => decide (t + 3000 ≤ d.cyc) | none => true
    if !ok then (d, none, true)
    else
      let n := x.exports % 256
      let d := d.setComb k { x with exports := x.exports + 1, exportAt := some d.cyc }
      let word : SyncOut := { type := 0x30, flags := if prov then 2 else 0, id := cbExportId w, arg := n + 2 ^ 8 * cbScope w, tick := BitVec.ofNat 64 tick, ready := d.cyc + 18 }
      let d := d.exportWord (cbScope w) word
      (if d.isTop (cbScope w) then d.receiveTrig 16 (cbExportId w) n tick prov else d, some n, false)

/-- The VERDICT word of an exported provisional output (R304). -/
def Dev.exportVerdict (d : Dev) (w : List Word) (n tick : Nat) (ok : Bool) : Dev :=
  let word : SyncOut := { type := 0x31, id := cbExportId w, arg := n + 2 ^ 8 * cbScope w + 2 ^ 10 * ok.toNat, tick := BitVec.ofNat 64 tick, ready := d.cyc + 18 }
  let d := d.exportWord (cbScope w) word
  if d.isTop (cbScope w) then d.receiveVerdict (cbExportId w) n ok else d

/-- A confirmed output (R290, R304). -/
def Dev.combOutput (d : Dev) (k : Nat) (w : List Word) (tick : Nat) : Dev :=
  let x := d.comb k
  let d := d.setComb k { x with fires := x.fires + 1 }
  let e := d.exportOutput k w tick false
  let d := e.1.tellComb
    { cycle := d.cyc + 6, k := k, fire := x.fires, tick := tick, prov := false, ok := true, tell := cbFireEv w,
      exported := e.2.1.isSome, skipped := e.2.2, overflow := false, tellOverflow := false }
  d.leave (selComb k) 6 (.cand { src := selComb k, fire := x.fires, tick := tick, prov := false })

/-- A provisional event that may complete the output of the last stage: the satisfaction tick and the held provisional
events it would rest on besides itself (R291). With FUNC ALL the newest held event of each input that has no latest tick may be one of them. DEDUCED
(assumption 122). -/
def Combiner.provComplete (x : Combiner) (w : List Word) (i : Nat) (c : Candidate) : Option (Nat × List (Nat × Candidate)) :=
  let m := x.seq.meet w c.tick
  if !cbProvEn w || cbReset w i || m.ignores w i c.tick || decide (m.stage + 1 ≠ cbStages w) || decide (m.count + 1 < cbCount w m.stage) then none
  else if !cbAll w m.stage then some (c.tick, [])
  else
    let from_ (j : Nat) : Option (Nat × Candidate) := x.held.reverse.find? (fun h => decide (h.1 = j))
    let sel := (List.range 8).filter (fun j => cbSel w m.stage j)
    let used := (sel.filter (fun j => decide (j ≠ i) && (m.latest.getD j none).isNone)).filterMap from_
    let latest := used.foldl (fun l h => l.set h.1 (some h.2.tick)) (m.latest.set i (some c.tick))
    match combAll w m.stage latest with
    | some t => some (t, used)
    | none => none

/-- An event on input `i` of combiner `k` (R290–R292). A provisional event that completes no output is held, whatever the sequence would make of it
on this tick: it meets the sequence at its verdict. DEDUCED (assumption 122). -/
def Dev.combEvent (d : Dev) (k : Nat) (w : List Word) (i : Nat) (c : Candidate) : Dev :=
  let x := d.comb k
  if c.tick < x.from_ then d
  else match x.prov with
    | some p =>
      if p.arrived < 32 then d.setComb k { x with prov := some { p with journal := p.journal ++ [(i, c)], arrived := p.arrived + 1 } }
      else d.setComb k { x with prov := some { p with overflow := true } }
    | none =>
      if !c.prov then
        let r := x.seq.take w i c.tick
        let d := d.setComb k { x with seq := r.1 }
        match r.2 with
        | some t => d.combOutput k w t
        | none => d
      else match x.provComplete w i c with
        | some (t, used) =>
          let p : CombProv := { fire := x.fires, tick := t, rests := (i, c, none) :: used.map (fun h => (h.1, h.2, none)), saved := x.seq, words := w }
          let d := d.setComb k { x with
            fires := x.fires + 1
            held := x.held.filter (fun h => !(used.contains h))
            seq := { lastOut := some t }
            prov := some p }
          let e := d.exportOutput k w t true
          let d := e.1.setComb k { e.1.comb k with prov := some { p with exported := e.2.1, skipped := e.2.2 } }
          d.leave (selComb k) 6 (.cand { src := selComb k, fire := p.fire, tick := t, prov := true })
        | none =>
          if x.held.length < 32 then d.setComb k { x with held := x.held ++ [(i, c)] }
          else d.setComb k { x with dropped := x.dropped ++ [(c.src, c.fire, c.tick)] }

/-- A combiner's provisional output gets its verdict; then the journal is taken (R291, R292, R304). Events that were confirmed and whose output another
event cancelled are taken again as confirmed. DEDUCED (assumption 122). -/
def Dev.combResolve (d : Dev) (k : Nat) (w : List Word) (p : CombProv) : Dev :=
  let ok := p.rests.all (fun (r : Nat × Candidate × Option Bool) => r.2.2 = some true)
  let x := d.comb k
  let seq := if ok then x.seq else if p.restore then p.saved else x.seq
  let d := d.setComb k { x with prov := none, seq := if p.overflow then seq.restart else seq }
  let d := match p.exported with
    | some n => d.exportVerdict p.words n p.tick ok
    | none => d
  let d := d.leave (selComb k) 6 (.verdict (selComb k) p.fire ok)
  let d := d.tellComb
    { cycle := d.cyc + 6, k := k, fire := p.fire, tick := p.tick, prov := true, ok := ok, tell := cbFireEv p.words,
      exported := p.exported.isSome, skipped := p.skipped, overflow := p.overflow, tellOverflow := cbFireEv w }
  let again := if ok || !p.restore then [] else (p.rests.filter (fun (r : Nat × Candidate × Option Bool) => r.2.2 = some true)).map (fun (r : Nat × Candidate × Option Bool) => (r.1, { r.2.1 with prov := false }))
  (again ++ (if p.overflow then [] else p.journal)).foldl (fun d e => d.combEvent k w e.1 e.2) d

/-- A verdict at combiner `k` (R291, R292). -/
def Dev.combVerdict (d : Dev) (k : Nat) (w : List Word) (src fire : Nat) (ok : Bool) : Dev :=
  let x := d.comb k
  let isIt (c : Candidate) : Bool := decide (c.src = src ∧ c.fire = fire)
  match x.dropped.find? (fun z => decide (z.1 = src ∧ z.2.1 = fire)) with
  | some z =>
    let d := d.setComb k { x with dropped := x.dropped.filter (· != z) }
    if ok then d.combOverflow k 2 (cbFireEv w) x.fires z.2.2 else d
  | none =>
    let d := match x.prov with
      | some p =>
        let rests := p.rests.map (fun (r : Nat × Candidate × Option Bool) => if isIt r.2.1 then (r.1, r.2.1, some ok) else r)
        let journal := if ok then p.journal.map (fun (j : Nat × Candidate) => if isIt j.2 then (j.1, { j.2 with prov := false }) else j)
                       else p.journal.filter (fun (j : Nat × Candidate) => !isIt j.2)
        let p := { p with rests := rests, journal := journal }
        let d := d.setComb k { x with prov := some p }
        if rests.all (fun (r : Nat × Candidate × Option Bool) => r.2.2.isSome) then d.combResolve k w p else d
      | none => d
    let y := d.comb k
    match y.held.find? (fun (h : Nat × Candidate) => isIt h.2) with
    | some h =>
      let d := d.setComb k { y with held := y.held.filter (fun (g : Nat × Candidate) => !isIt g.2) }
      if ok then d.combEvent k w h.1 { h.2 with prov := false } else d
    | none => d

/-- COMBINER_EVENT (R290): the oldest candidate that has arrived at combiner `k`. -/
def execCombinerEvent (dt k : Nat) (s : State) : Host.Outcome State Fault Refusal :=
  onDev dt (fun d =>
    let x := d.comb k
    match x.block, x.inbox with
    | some b, (t, i, .cand c) :: rest => if d.cyc < t then d else ((d.setComb k { x with inbox := rest }).combEvent k b.words i c).combStat k
    | _, _ => d) s

/-- COMBINER_VERDICT (R292): the oldest verdict that has arrived at combiner `k`. -/
def execCombinerVerdict (dt k : Nat) (s : State) : Host.Outcome State Fault Refusal :=
  onDev dt (fun d =>
    let x := d.comb k
    match x.block, x.inbox with
    | some b, (t, _, .verdict src fire ok) :: rest => if d.cyc < t then d else ((d.setComb k { x with inbox := rest }).combVerdict k b.words src fire ok).combStat k
    | _, _ => d) s

/-! ### Trigger outputs (R298–R302) -/

/-- TRIGGER_PULSE: the oldest queued pulse starts when its tick has come (R299–R301). -/
def Dev.startPulse (d : Dev) (n : Nat) : Dev :=
  let x := d.to n
  match x.queue with
  | [] => d
  | r :: rest =>
    if d.cyc < r.due ∨ (r.early ∧ d.cyc < x.freeAt) then d
    else if r.early then
      let p : PulseSent := { src := r.src, fire := r.fire, num := x.num, start := d.cyc, verdict := r.verdict, verdictAt := r.verdictAt }
      let d := d.setTo n { x with
        queue := rest
        sent := x.sent ++ [p]
        num := (x.num + 1) % 16
        active := true
        endAt := d.cyc + 6
        freeAt := d.cyc + 9 }
      (if r.verdict.isSome then d.bump (toReg n 0x00) else d).emit (.pulse n true)
    else
      let d := d.setTo n { x with queue := rest, active := true, endAt := r.due + r.width }
      (d.bump (toReg n 0x00)).emit (.pulse n true)

def execTriggerPulse (dt n : Nat) (s : State) : Host.Outcome State Fault Refusal := onDev dt (fun d => d.startPulse n) s

/-- TRIGGER_PULSE_END (R299, R300). -/
def execTriggerPulseEnd (dt n : Nat) (s : State) : Host.Outcome State Fault Refusal :=
  onDev dt (fun d =>
    let x := d.to n
    if x.active && decide (x.endAt ≤ d.cyc) then (d.setTo n { x with active := false }).emit (.pulse n false) else d) s

/-- CANCEL_CODE: the code of the pulse whose verdict came first starts when its tick has come (R300, R301). -/
def Dev.startCode (d : Dev) (n : Nat) : Dev :=
  let x := d.to n
  match leastBy (fun (p : PulseSent) => p.verdictAt) (x.sent.filter (fun p => p.verdict.isSome)) with
  | some p =>
    if d.cyc < p.verdictAt + 18 ∨ d.cyc < p.start + 6 ∨ d.cyc < x.codeFreeAt then d
    else
      let ok := p.verdict.getD false
      let d := d.setTo n { x with sent := x.sent.filter (· != p), codeFreeAt := d.cyc + 8 }
      (if ok then d else d.bump (toReg n 0x04)).emit (.code n p.num (!ok))
  | none => d

def execCancelCode (dt n : Nat) (s : State) : Host.Outcome State Fault Refusal := onDev dt (fun d => d.startCode n) s

end Sys2Proof.Machine
end

