-- ==== Sys2Proof/Machine/Acquire.lean ====
section
/-!
DEFINITION. Acquisition (R310–R315, R319–R348): reductions, the capture writer, records, and what candidates, verdicts,
arming and freezing do to an aperture.
-/

namespace Sys2Proof.Machine

def acqReg (a off : Nat) : Nat := 0x4C0000 + 32 * a + off

/-! ### The capture block and reduction blocks (R321, R322) -/

def cpSource (w : List Word) : Nat := fldAt w 0x08 15 0
def cpAutoRearm (w : List Word) : Bool := bitAt w 0x08 16
def cpStreaming (w : List Word) : Bool := bitAt w 0x08 17
def cpCompat (w : List Word) : Bool := bitAt w 0x08 18
def cpLight (w : List Word) : Bool := bitAt w 0x08 19
def cpShortEv (w : List Word) : Bool := bitAt w 0x08 20
def cpSegEv (w : List Word) : Bool := bitAt w 0x08 21
def cpSegments (w : List Word) : Nat := fldAt w 0x0C 11 0 + 1
def cpPre (w : List Word) : Nat := (dwAt w 0x10).toNat
def cpPost (w : List Word) : Nat := (dwAt w 0x14).toNat
def cpLagAdd (w : List Word) : Nat := (dwAt w 0x18).toNat
def rdKind (w : List Word) : Nat := fldAt w 0x08 1 0
def rdIq24 (w : List Word) : Bool := bitAt w 0x08 2
def rdShift (w : List Word) : Nat := fldAt w 0x08 6 3
def rdLog (w : List Word) : Nat := fldAt w 0x08 11 7
def rdMode (w : List Word) : Nat := fldAt w 0x08 13 12
def rdExport (w : List Word) : Nat := fldAt w 0x08 21 16
/-- The channels a reduction block names. -/
def rdChans (w : List Word) : List Nat := (List.range 512).filter (fun c => bitAt w (0x10 + 4 * (c / 32)) (c % 32))

/-- A block of a plane by type and unit. -/
def planeBlock (p : List Block) (type unit : Nat) : Option Block := p.find? (fun b => decide (b.type = type ∧ b.unit = unit))
def planeOf (p : List Block) (type : Nat) : List Block := p.filter (fun b => decide (b.type = type))

/-- A capture area is under the light code (R321, R391). -/
def captureLight (w : List Word) : Bool := cpLight w && cpStreaming w
def planeLight (p : List Block) : Bool := match planeBlock p 0x09 0 with | some b => captureLight b.words | none => false

def Aperture.capture (p : Aperture) : Option (List Word) := (planeBlock p.live 0x09 0).map (·.words)
def Aperture.reduction (p : Aperture) (slot : Nat) : Option (List Word) := (planeBlock p.live 0x0A slot).map (·.words)

/-! ### Numbers in the formats of R325 -/

/-- binary32 of a value that is not negative, rounded to nearest with ties away from zero (R325). -/
def binary32 (num den : Nat) : Word :=
  if num = 0 ∨ den = 0 then 0
  else
    -- e with 2^e ≤ num/den < 2^(e+1)
    let e0 : Int := (num.log2 : Int) - den.log2
    let ge (e : Int) : Bool := if 0 ≤ e then decide (den * 2 ^ e.toNat ≤ num) else decide (den ≤ num * 2 ^ (-e).toNat)
    let e : Int := if ge e0 then e0 else e0 - 1
    let e : Int := max e (-126)
    let sh : Int := 23 - e
    let m := if 0 ≤ sh then (roundDiv ((num * 2 ^ sh.toNat : Nat) : Int) den).toNat else (roundDiv (num : Int) (den * 2 ^ (-sh).toNat)).toNat
    if m < 2 ^ 23 then BitVec.ofNat 32 m
    else if m = 2 ^ 24 then Word.place 30 23 (e + 128).toNat
    else Word.place 30 23 (e + 127).toNat ||| BitVec.ofNat 32 (m - 2 ^ 23)

/-- The 16-bit scaled value of a path value (IQ16, R325): rounded, saturated to ±32,767; and whether it saturated. -/
def iq16 (shift : Nat) (v : Int) : Int × Bool :=
  let r := roundDiv v (2 ^ shift)
  (clampInt (-32767) 32767 r, decide (r < -32767 ∨ 32767 < r))

/-- `round(√p / 2^shift)`, saturated to 65,535 (R325). -/
def rms16 (shift p : Nat) : Nat := min 65535 ((isqrt (4 * p / 4 ^ shift) + 1) / 2)

/-- The bytes of a 16-bit value, of a 64-bit value. -/
def bytes16 (v : Nat) : List Byte := [BitVec.ofNat 8 v, BitVec.ofNat 8 (v / 256)]
def bytes64 (v : Nat) : List Byte := bytesOfWord (BitVec.ofNat 32 v) ++ bytesOfWord (BitVec.ofNat 32 (v / 2 ^ 32))

/-- `10 ^ v ≤ (num / den) ^ n`, where `v` may be negative. -/
def tenLe (num den n : Nat) (v : Int) : Bool :=
  if 0 ≤ v then decide (10 ^ v.toNat * den ^ n ≤ num ^ n) else decide (den ^ n ≤ num ^ n * 10 ^ (-v).toNat)

/-- The greatest `v` below `2 ^ bits` above `lo` with `10 ^ v ≤ (num / den) ^ 1280`. -/
def logSearch (num den : Nat) : Nat → Int → Int
  | 0, lo => lo
  | b + 1, lo => logSearch num den b (if tenLe num den 1280 (lo + 2 ^ b) then lo + 2 ^ b else lo)

/-- 128 × 10 log₁₀ of a power given as a fraction, rounded, within ±1 unit, saturated; −32,768 for 0 (R254). -/
def logBin (num den : Nat) : Int :=
  if num = 0 then -32768
  else
    let v := logSearch num den 16 (-32768)
    clampInt (-32768) 32767 (v + (tenLe num den 2560 (2 * v + 1)).toNat + ((Config.logErr num den).val : Int) - 1)

/-! ### Bins (R246, R254, R255) -/

/-- |X|² of a mantissa pair as a fraction (R246). -/
def binPower (bfe : Int) (m : Int × Int) : Frac :=
  let p : Int := m.1 * m.1 + m.2 * m.2
  let e := 2 * (bfe - 22)
  if 0 ≤ e then ⟨p * 2 ^ e.toNat, 1⟩ else ⟨p, 2 ^ (-e).toNat⟩

/-- Size of a bin (R254). -/
def binBytes (format : Nat) : Nat := if format = 0 then 8 else if format = 1 then 4 else 2

/-- A power as a bin of FORMAT 1 or 2 (R254). -/
def powerBin (format : Nat) (p : Frac) : List Byte :=
  if format = 1 then bytesOfWord (binary32 p.num.toNat p.den) else bytes16 (codeOf 16 (logBin p.num.toNat p.den))

/-- A bin as delivered (R254). -/
def binOf (format : Nat) (bfe : Int) (m : Int × Int) : List Byte :=
  if format = 0 then bytes64 (codeOf 24 m.1 + 2 ^ 24 * codeOf 24 m.2) else powerBin format (binPower bfe m)

/-- The 16 bytes of a tag (R255). -/
def tagBytes (x : Spectrum) (bfe : Int) (poison ovr : Bool) (src : Nat) : List Byte :=
  let f := tfFormat x.block.words
  bytes64 x.stamp ++
  bytes64 (x.seq % 2 ^ 32 + 2 ^ 32 * (x.channel % 512) + 2 ^ 41 * codeOf 8 (if f = 0 then bfe else 0) + 2 ^ 49 * f + 2 ^ 51 * poison.toNat +
    2 ^ 52 * ovr.toNat + 2 ^ 53 * x.restart.toNat + 2 ^ 54 * x.tq + 2 ^ 56 * src)

/-- Bytes padded with zeros to `n`. -/
def padBytes (n : Nat) (bs : List Byte) : List Byte := takePad 0 n bs

/-! ### Reductions (R324–R327) -/

/-- E of R325. -/
def entryBytes (w tf : List Word) : Nat :=
  match rdKind w with
  | 0 => if rdIq24 w then 8 else 4
  | 1 => 16
  | 2 => 8
  | _ => ceilDiv (32 + tfBinCount tf * binBytes (tfFormat tf)) 16 * 16

/-- LEN at a rate level (R322, R350). -/
def rdLen (w : List Word) (level : Nat) : Nat := 2 ^ (rdLog w + level)

/-- The entry of an ENVELOPE or MEAN_POWER interval (R325, R326). -/
def intervalEntry (w : List Word) (len : Nat) (x : Acc) (brk : Bool) : RedEntry :=
  let s := rdShift w
  let x := if x.bad then { x with clean := 0, sumP := 0 } else x
  let bytes :=
    if rdKind w = 1 then
      if x.clean = 0 then
        bytes16 0x7FFF ++ bytes16 0x8000 ++ bytes16 0x7FFF ++ bytes16 0x8000 ++ bytes16 0xFFFF ++ bytes16 0 ++ bytesOfWord 0
      else
        bytes16 (codeOf 16 (iq16 s x.minI).1) ++ bytes16 (codeOf 16 (iq16 s x.maxI).1) ++ bytes16 (codeOf 16 (iq16 s x.minQ).1) ++
          bytes16 (codeOf 16 (iq16 s x.maxQ).1) ++ bytes16 (rms16 s x.minP) ++ bytes16 (rms16 s x.maxP) ++ bytesOfWord (BitVec.ofNat 32 x.clean)
    else bytesOfWord (binary32 x.sumP (x.clean * 2097088 * 2097088)) ++ bytesOfWord (BitVec.ofNat 32 x.clean)
  { stamp := x.stamp, bytes := bytes, poisoned := decide (x.clean < len), ovr := x.ovr, brk := brk }

/-- A sample in the interval in progress. -/
def Acc.sample (x : Acc) (o : ChanOut) : Acc :=
  let x := if x.n = 0 then { x with stamp := o.instant.floor.toNat } else x
  let x := { x with n := x.n + 1 }
  if o.poison then x
  else
    let p := (o.i * o.i + o.q * o.q).toNat
    let first := decide (x.clean = 0)
    { x with
      clean := x.clean + 1
      minI := if first then o.i else min x.minI o.i
      maxI := if first then o.i else max x.maxI o.i
      minQ := if first then o.q else min x.minQ o.q
      maxQ := if first then o.q else max x.maxQ o.q
      minP := if first then p else min x.minP p
      maxP := if first then p else max x.maxP p
      sumP := x.sumP + p
      ovr := x.ovr || o.ovr }

/-- A channel output sample at a time-domain reduction (R324–R326). -/
def SubRing.sample (r : SubRing) (w : List Word) (level : Nat) (o : ChanOut) : SubRing :=
  let len := rdLen w level
  if rdKind w = 0 then
    let r' := { r with acc := { r.acc with n := (r.acc.n + 1) % len } }
    if r.acc.n ≠ 0 then r'
    else
      let s := rdShift w
      let a := iq16 s o.i
      let b := iq16 s o.q
      let bytes :=
        if rdIq24 w then bytes64 (codeOf 24 o.i + 2 ^ 24 * codeOf 24 o.q + 2 ^ 48 * o.poison.toNat + 2 ^ 49 * o.ovr.toNat)
        else if o.poison then bytes16 0x8000 ++ bytes16 0x8000
        else bytes16 (codeOf 16 a.1) ++ bytes16 (codeOf 16 b.1)
      let e : RedEntry := {
        stamp := o.instant.floor.toNat, bytes := bytes, poisoned := o.poison,
        ovr := o.ovr || (!(rdIq24 w) && !o.poison && (a.2 || b.2)), brk := false }
      { r' with ready := r'.ready ++ [e] }
  else if rdKind w = 3 then r
  else
    let x := r.acc.sample o
    if x.n < len then { r with acc := x } else { r with acc := {}, ready := r.ready ++ [intervalEntry w len x false] }

/-- The entry of a group of spectra (R325, R326). A clean PICK's CLEAN counts the clean spectra of its group (assumption 31). POISON_SRC under AVG and
PEAK is the lowest of the group's. DEDUCED (assumption 123). -/
def groupEntry (w : List Word) (len : Nat) (x : Acc) (s : Spectrum) (brk : Bool) : RedEntry :=
  let tf := s.block.words
  let f := tfFormat tf
  let pick := decide (rdMode w = 0)
  let x := if x.bad then { x with clean := 0 } else x
  let clean := if pick && s.poison then 0 else x.clean
  let bins :=
    if pick then s.bins.flatMap (fun m => binOf f s.bfe m)
    else if x.clean = 0 then (List.range (tfBinCount tf)).flatMap (fun _ => if f = 1 then bytesOfWord 0 else bytes16 0x8000)
    else x.bins.flatMap (fun p => powerBin f (if rdMode w = 1 then Frac.div p (Frac.ofInt x.clean) else p))
  let poison := if pick then s.poison || x.bad else decide (x.clean = 0)
  let bytes := tagBytes s (if pick then s.bfe else 0) poison x.ovr (if pick then s.poisonSrc else if poison then x.src else 0) ++ bytesOfWord (BitVec.ofNat 32 clean) ++ bytesOfWord (BitVec.ofNat 32 x.n) ++
    bytes64 0 ++ bins
  { stamp := s.stamp, bytes := padBytes (entryBytes w tf) bytes, poisoned := poison || decide (clean < x.n ∨ clean < len), ovr := x.ovr, brk := brk }

/-- A spectrum in the group in progress. -/
def Acc.spectrum (x : Acc) (w : List Word) (s : Spectrum) : Acc :=
  let x := match x.first with | some _ => x | none => { x with first := some s }
  let x := { x with n := x.n + 1, ovr := x.ovr || s.ovr }
  if s.poison then { x with src := if x.src = 0 then s.poisonSrc else min x.src s.poisonSrc }
  else
    let ps := s.bins.map (binPower s.bfe)
    { x with
      clean := x.clean + 1
      bins := if rdMode w = 0 then []
        else if x.clean = 0 then ps
        else (x.bins.zip ps).map (fun (b : Frac × Frac) => if rdMode w = 1 then Frac.add b.1 b.2 else if Frac.lt b.1 b.2 then b.2 else b.1) }

/-- A whole spectrum at a SPECTRA reduction (R324–R326): groups begin at each SEQ that is a multiple of LEN. -/
def SubRing.spectrum (r : SubRing) (w : List Word) (level : Nat) (s : Spectrum) : SubRing :=
  let len := rdLen w level
  if rdKind w ≠ 3 then r
  else
    let x : Acc := if s.seq % len = 0 then {} else r.acc
    if x.first.isNone && decide (s.seq % len ≠ 0) then r
    else
      let x := x.spectrum w s
      if x.n < len then { r with acc := x }
      else match x.first with
        | some f => { r with acc := {}, ready := r.ready ++ [groupEntry w len x f false] }
        | none => { r with acc := {} }

/-- A break of the channel that is no launch of the aperture ends the interval or group in progress (R327). -/
def SubRing.break_ (r : SubRing) (w : List Word) (level : Nat) : SubRing :=
  let len := rdLen w level
  let x := r.acc
  if rdKind w = 0 ∨ x.n = 0 then { r with acc := {} }
  else if rdKind w = 3 then
    match x.first with
    | some f => { r with acc := {}, ready := r.ready ++ [groupEntry w len x f true] }
    | none => { r with acc := {} }
  else { r with acc := {}, ready := r.ready ++ [intervalEntry w len x true] }

/-- Apply `f` to every sub-ring of channel `c` of the LIVE apertures, with its reduction block and rate level. -/
def Dev.onSubs (d : Dev) (c : Nat) (f : SubRing → List Word → Nat → SubRing) : Dev :=
  { d with aps := d.aps.map (fun (p : Nat × Aperture) =>
      if p.2.state = 3 then
        (p.1, { p.2 with acq := { p.2.acq with subs := p.2.acq.subs.map (fun (r : SubRing) =>
          if r.ch = c then (match p.2.reduction r.slot with | some w => f r w p.2.rateLevel | none => r) else r) } })
      else p) }

/-- The state that sub-ring `i` of aperture `a` has in region 3 is read: a mark in it makes the entry in progress a poisoned one, and is overwritten
with the state (R401, R403). -/
def Dev.stateRead (d : Dev) (a i : Nat) : Dev :=
  let m := d.meets 2
  if m.1.isEmpty then m.2
  else (m.2.updCmc (fun c => { c with facet := c.facet.filter (fun (p : Nat × Nat) => !(decide (p.1 = 3) && m.1.contains p.2)) })).updAp a (fun p => { p with acq := { p.acq with subs := p.acq.subs.mapIdx (fun j r => if j = i then { r with acc := { r.acc with bad := true } } else r) } })

/-- An input of channel `c` comes to every sub-ring of the channel (R324), which reads its state. -/
def Dev.reduce (d : Dev) (c : Nat) (f : SubRing → List Word → Nat → SubRing) : Dev :=
  let d := (d.aps.filter (fun (p : Nat × Aperture) => decide (p.2.state = 3))).foldl (fun (d : Dev) p =>
    (p.2.acq.subs.zipIdx).foldl (fun (d : Dev) r => if r.1.ch = c && decide (0 < r.1.acc.n) && (match p.2.reduction r.1.slot with | some w => decide (rdKind w ≠ 0) | none => false) then d.stateRead p.1 r.2 else d) d) d
  d.onSubs c f

/-! ### Layout (R329) -/

/-- `n(x) = ⌈x × r / (3 × 10⁹)⌉`, with `r` in thousands of entries per second. -/
def entriesIn (x : Nat) (r : Frac) : Nat := (Frac.div (Frac.mul (Frac.ofInt x) r) (Frac.ofInt 3000000)).ceil.toNat

/-- r of R324 in thousands of entries per second. -/
def entryRate (w tf : List Word) (fch : Frac) (level : Nat) : Frac :=
  let l := Frac.ofInt (rdLen w level)
  if rdKind w = 3 then Frac.div (Frac.div fch (Frac.ofInt (tfHop tf))) l else Frac.div fch l

/-- SLICE_BYTES of R329. -/
def SubRing.sliceBytes (r : SubRing) : Nat := ceilDiv (r.q * r.entryBytes) 512 * 512

/-- HB of R329 for D descriptors. -/
def headerBytes (n : Nat) : Nat := ceilDiv (64 + 48 * n) 512 * 512

/-! ### Records -/

/-- Entries of the record that the sub-ring holds: those within reach (R335, R336), oldest first, and the entries before the
trigger entry. -/
def SubRing.recordEntries (r : SubRing) (trig before postN : Nat) : List HeldEntry × Nat :=
  let all := r.held.reverse
  let pre := all.filter (fun e => decide (e.stamp < trig))
  let preKept := pre.drop (pre.length - r.pre)
  let post := (all.filter (fun e => decide (trig ≤ e.stamp ∧ e.stamp < before))).take postN
  (preKept ++ post, preKept.length)

/-- The descriptor of a sub-ring's entries (R339). Entries lie in two slices at most: piece A is in the slice of the first. -/
def SubRing.descOf (r : SubRing) (es : List HeldEntry) (pre : Nat) : Desc :=
  let first := es.headD { stamp := 0, slice := 0, pos := 0, poisoned := false, ovr := false, brk := false }
  let a := es.filter (fun e => decide (e.slice = first.slice))
  { slot := r.slot, ch := r.ch, sliceA := first.slice, posA := first.pos, countA := a.length, countB := es.length - a.length, base := r.base,
    sliceEntries := r.q, entryBytes := r.entryBytes, firstStamp := first.stamp, prePresent := pre,
    poisoned := (es.filter (·.poisoned)).length, ovrs := (es.filter (·.ovr)).length, short := decide (pre < r.pre), brk := es.any (·.brk) }

/-- The words of a descriptor (R339). -/
def Desc.words (x : Desc) : List Word :=
  let b := BitVec.ofNat 64 x.base
  let t := BitVec.ofNat 64 x.firstStamp
  [ Word.place 11 0 x.sliceA ||| Word.place 13 12 x.slot ||| Word.place 22 14 x.ch ||| Word.place 23 23 x.short.toNat ||| Word.place 24 24 x.exportLoss.toNat,
    BitVec.ofNat 32 x.posA, BitVec.ofNat 32 x.countA, BitVec.ofNat 32 x.countB, QWord.lo b, QWord.hi b, BitVec.ofNat 32 x.sliceEntries,
    Word.place 15 0 x.entryBytes, QWord.lo t, QWord.hi t, BitVec.ofNat 32 x.prePresent, BitVec.ofNat 32 x.poisoned ]

def Rec.short (x : Rec) : Bool := x.descs.any (·.short)
def Rec.poisonEntries (x : Rec) : Nat := (x.descs.map (·.poisoned)).foldl (· + ·) 0
def Rec.ovrEntries (x : Rec) : Nat := (x.descs.map (·.ovrs)).foldl (· + ·) 0

/-- Dword 0x04 of a record header (R338). -/
def Rec.flagsWord (x : Rec) : Word :=
  Word.place 11 0 x.segment ||| Word.place 15 12 x.rateLevel ||| Word.place 16 16 x.short.toNat ||| Word.place 18 17 x.cut |||
  Word.place 19 19 x.noTrigger.toNat ||| Word.place 20 20 (decide (x.poisonEntries ≠ 0)).toNat ||| Word.place 21 21 (decide (x.ovrEntries ≠ 0)).toNat |||
  Word.place 22 22 x.compat.toNat ||| Word.place 23 23 (x.brk || x.descs.any (·.brk)).toNat |||
  Word.place 24 24 (x.exportLoss || x.descs.any (·.exportLoss)).toNat ||| Word.place 25 25 x.streaming.toNat ||| Word.place 27 26 x.tq

/-- The 64-byte header of a record (R338). -/
def Rec.headerWords (x : Rec) : List Word :=
  let q (n : Nat) : List Word := [QWord.lo (BitVec.ofNat 64 n), QWord.hi (BitVec.ofNat 64 n)]
  [BitVec.ofNat 32 x.recno, x.flagsWord] ++ q x.trigTick ++ q x.validStart ++ q x.doneTick ++
  [ Word.place 15 0 x.descs.length ||| Word.place 31 16 x.seqno, BitVec.ofNat 32 x.poisonEntries, BitVec.ofNat 32 x.ovrEntries,
    Word.place 15 0 x.source, BitVec.ofNat 32 x.trigLost, 0, 0, 0 ]

/-- Header and descriptors. -/
def Rec.words (x : Rec) : List Word := x.headerWords ++ x.descs.flatMap Desc.words

/-- POST_n of a sub-ring, unbounded when POST_TICKS is 0 (R348). -/
def SubRing.postDone (r : SubRing) (unbounded : Bool) (n : Nat) : Bool := !unbounded && decide (r.post ≤ n)

/-- Every sub-ring has written the last entry of the record (R335). -/
def Acq.recordDone (x : Acq) (unbounded : Bool) (r : Rec) : Bool :=
  (x.subs.zipIdx).all (fun (p : SubRing × Nat) => p.1.postDone unbounded (r.posts.getD p.2 0))

/-- A slice of the record's pieces is being written again: it is unlisted (R340). -/
def Rec.hitBy (x : Rec) (slice segments : Nat) : Bool :=
  x.descs.any (fun (e : Desc) =>
    (decide (0 < e.countA) && decide (e.sliceA = slice)) || (decide (0 < e.countB) && decide ((e.sliceA + 1) % segments = slice)))

def Dev.updAcq (d : Dev) (a : Nat) (f : Acq → Acq) : Dev := d.updAp a (fun p => { p with acq := f p.acq })

/-- A record is accepted at a trigger tick (R310, R335). -/
def Dev.openRecord (d : Dev) (a trig : Nat) (noTrigger : Bool) : Dev :=
  let p := d.ap a
  match p.capture with
  | none => d
  | some w =>
    let x := p.acq
    let posts := x.subs.map (fun r => (r.held.filter (fun e => decide (trig ≤ e.stamp))).length)
    let descs := if cpStreaming w then x.subs.map (fun (r : SubRing) => let es := r.recordEntries trig (2 ^ 64) r.held.length; r.descOf es.1 es.2) else []
    let valid := (descs.map (·.firstStamp)).foldl max 0
    let r : Rec := {
      recno := x.recno, segment := x.triggered, seqno := x.seqno, trigTick := trig, noTrigger := noTrigger, tq := d.tqAt trig,
      rateLevel := p.rateLevel, source := cpSource w, compat := cpCompat w, streaming := cpStreaming w, posts := posts, descs := descs,
      validStart := valid }
    -- streaming: the entries held from VALID_START on are due for export (R348)
    let subs := if cpStreaming w then x.subs.map (fun (s : SubRing) =>
        let es := (s.recordEntries trig (2 ^ 64) s.held.length).1.filter (fun e => decide (valid ≤ e.stamp))
        let items := (es.zipIdx).map (fun (e : HeldEntry × Nat) =>
          ({ recno := x.recno, off := e.2 * s.entryBytes, addr := s.base + e.1.slice * s.sliceBytes + e.1.pos * s.entryBytes, len := s.entryBytes, cycle := d.cyc } : StageItem))
        { s with stage := { s.stage with items := s.stage.items ++ items }, streamOff := es.length * s.entryBytes })
      else x.subs
    d.setAp a { p with acq := { x with recno := x.recno + 1, triggered := x.triggered + 1, opened := x.opened ++ [r], subs := subs } }

/-- The end of a record's data on a sub-ring: an empty item that carries END (R524, R525). -/
def SubRing.endRecord (s : SubRing) (recno cycle : Nat) : SubRing :=
  { s with stage := { s.stage with items := s.stage.items ++ [{ recno := recno, off := s.streamOff, addr := 0, len := 0, cycle := cycle, last := true }] } }

/-- A descriptor with no entries: where its piece would lie and the stamp of its first entry are not stated, and are free
(assumption 105). -/
def Dev.openDesc (d : Dev) (x : Desc) : Dev × Desc :=
  if x.countA ≠ 0 then (d, x)
  else
    let f := d.fresh
    let g := f.2.fresh
    let h := g.2.fresh
    (h.2, { x with firstStamp := f.1.toNat, sliceA := g.1.toNat % 4096, posA := h.1.toNat % 2 ^ 32 })

/-- The descriptors of a record as it completes. -/
def Dev.openDescs (d : Dev) (xs : List Desc) : Dev × List Desc :=
  xs.foldl (fun (y : Dev × List Desc) x => let z := y.1.openDesc x; (z.1, y.2 ++ [z.2])) (d, [])

def dmaReg (c off : Nat) : Nat := 0x580000 + 64 * c + off
def Dev.dmaCh (d : Dev) (c : Nat) : DmaChan := Tbl.look ({} : DmaChan) d.dma c
def Dev.setDma (d : Dev) (c : Nat) (x : DmaChan) : Dev := { d with dma := Tbl.put c x d.dma }

/-- EV_DMA (R538). -/
def Dev.dmaEvent (d : Dev) (c cause kind data : Nat) : Dev := d.raise (evDma + c) c (cause + 2 ^ 8 * kind) data

/-- Bytes lost in the staging of channel `c` (R531), those of `entries` entries of aperture `a`, which EXPORT_LOST counts (R348). -/
def Dev.stagingLost (d : Dev) (a c slot bytes entries : Nat) : Dev :=
  let x := d.dmaCh c
  let quiet := match x.lossAt with | some t => decide (t + 3000000 ≤ d.cyc) | none => true
  let n := x.lossSince + bytes
  let d := (d.bump (dmaReg c 0x20) bytes).bump (acqReg a 0x18) entries
  if quiet then (d.setDma c { x with lossAt := some d.cyc, lossSince := 0 }).dmaEvent c 5 slot n
  else d.setDma c { x with lossAt := some d.cyc, lossSince := n }

/-- The header slot of a record of streaming capture is written: what was still to be sent of the record before it there is lost (R340, R531),
and the new one follows its data. -/
def Dev.queueHeader (d : Dev) (a c slot recno addr len : Nat) : Dev :=
  let x := d.dmaCh c
  let old := x.tails.filter (fun t => decide (t.addr = addr) && !t.lost)
  let n := (old.map (fun t => t.len - t.sent)).sum
  let d := d.setDma c { x with tails := x.tails.map (fun t => if t.addr = addr then { t with lost := true } else t) ++ [{ recno := recno, addr := addr, len := len }] }
  if n = 0 then d else d.stagingLost a c slot n 0

/-- Close a record on the present tick: whole, or cut with only the entries stamped before `before` (R335–R342). -/
def closeRecord (a : Nat) (r : Rec) (cut before : Nat) (x : Dev × Mems) : Dev × Mems :=
  let d := x.1
  let p := d.ap a
  match p.capture with
  | none => x
  | some w =>
    let q := p.acq
    let descs := if r.streaming then r.descs else q.subs.map (fun (s : SubRing) =>
      let es := s.recordEntries r.trigTick before (if r.noTrigger then 0 else if cpPost w = 0 then s.held.length else s.post)
      s.descOf es.1 es.2)
    let o := d.openDescs descs
    let descs := o.2
    -- VALID_START of a record without descriptors is not stated either
    let valid := if descs.isEmpty then o.1.fresh.1.toNat else (descs.map (·.firstStamp)).foldl max 0
    let d := if descs.isEmpty then o.1.fresh.2 else o.1
    let d := d.bump (acqReg a 0x04)
    let r := { r with
      descs := descs
      cut := cut
      validStart := valid
      doneTick := d.now
      slot := q.slice
      trigLost := (d.reg (acqReg a 0x0C)).toNat }
    let segs := cpSegments w
    let header := q.mirrorBase + q.slice * headerBytes q.subs.length
    let exps := if r.streaming then q.subs.map (fun (s : SubRing) => s.slot) else []
    let d := d.updAcq a (fun q => { q with
      opened := q.opened.filter (fun (o : Rec) => !(decide (o.recno = r.recno)))
      listed := q.listed.filter (fun (o : Rec) => decide (o.slot ≠ q.slice)) ++ [r]
      completed := q.completed + 1
      slice := (q.slice + 1) % segs
      wrote := false
      subs := q.subs.map (fun (s : SubRing) =>
        let s := if r.streaming then s.endRecord r.recno d.cyc else s
        { s with p := 0, held := s.held.filter (fun e => decide (e.slice = q.slice ∧ segs ≠ 1)) }) })
    let d := exps.eraseDups.foldl (fun d slot =>
      match p.reduction slot with
      | some rw => d.queueHeader a (rdExport rw) slot r.recno header (4 * r.words.length)
      | none => d) d
    let d := if cpSegEv w && decide (1 < segs) then
        d.raise evSegmentDone a (r.segment + 2 ^ 16 * (r.flagsWord.toNat / 2 ^ 16)) r.recno else d
    let d := if cpShortEv w && r.short then
        d.raise evShortPretrigger a ((r.descs.map (·.prePresent)).foldl min (2 ^ 32 - 1)) r.validStart else d
    capWrite header (bytesOfWords r.words) (d, x.2)

/-! ### Sub-states (R333) -/

/-- FILLING becomes ARMED when every sub-ring holds PRE_n entries of the sequence. -/
def Dev.checkArmed (d : Dev) (a : Nat) : Dev :=
  let x := (d.ap a).acq
  if decide ((d.ap a).state = 3 ∧ x.sub = 1) && x.subs.all (fun (r : SubRing) => decide (r.pre ≤ r.count)) then d.enterSub a 2 else d

/-- A new sequence starts at tick `t` (R328, R330, R345): it begins in the slice after the one last written. -/
def Dev.startSequenceAt (d : Dev) (a t : Nat) : Dev :=
  match (d.ap a).capture with
  | none => d.updAcq a (fun x => { x with sub := 0, t0 := t })
  | some w =>
    let d := d.updAcq a (fun x => { x with
      t0 := t
      triggered := 0
      completed := 0
      seqno := x.begun % 2 ^ 16
      begun := x.begun + 1
      opened := []
      slice := if x.wrote then (x.slice + 1) % cpSegments w else x.slice
      wrote := false
      subs := x.subs.map (fun (r : SubRing) => { r with p := 0, count := 0, held := [] }) })
    (d.enterSubAt a 1 t).checkArmed a

def Dev.startSequence (d : Dev) (a : Nat) : Dev := d.startSequenceAt a d.now

/-- REARM is over: the tick on which it ended is the new t0 (R312, R333). -/
def Dev.rearmOver (d : Dev) (a : Nat) : Dev :=
  let x := (d.ap a).acq
  if x.sub = 6 ∧ x.rearmAt + 384 ≤ d.cyc then d.startSequenceAt a (d.now - (d.cyc - (x.rearmAt + 384))) else d

/-- REARM begins (R342, R344). -/
def Dev.beginRearm (d : Dev) (a : Nat) : Dev := (d.updAcq a (fun x => { x with rearmAt := d.cyc })).enterSub a 6

/-- The sequence ends (R333, R355); with AUTO_REARM a whole sequence is re-armed on the same tick (R344). -/
def Dev.endSequence (d : Dev) (a recno : Nat) (whole : Bool) : Dev :=
  let x := (d.ap a).acq
  let d := d.enterSub a 5
  let d := d.raise evCaptureComplete a x.completed recno
  match (d.ap a).capture with
  | some w => if whole && cpAutoRearm w then d.beginRearm a else d
  | none => d

/-- Complete the first record whose last entry is written (R335). -/
def completeDue (a : Nat) (x : Dev × Mems) : Dev × Mems :=
  let p := x.1.ap a
  match p.capture with
  | none => x
  | some w =>
    match p.acq.opened.find? (fun r => p.acq.recordDone (cpStreaming w && decide (cpPost w = 0)) r) with
    | none => x
    | some r =>
      let y := closeRecord a r 0 (2 ^ 64) x
      if (y.1.ap a).acq.completed = cpSegments w then (y.1.endSequence a r.recno true, y.2) else y

/-- Records accepted with every entry already written complete at once (R332, R335); one of no slot and channel waits for RECORD_COMPLETE. -/
def completeFull (a : Nat) (x : Dev × Mems) : Dev × Mems :=
  if (x.1.ap a).state = 3 && !(x.1.ap a).acq.subs.isEmpty then completeDue a (completeDue a x) else x

/-- RECORD_COMPLETE (R335): a record of no slot and channel has no last entry; the tick on which this row comes completes it (assumption 123). -/
def execRecordComplete (dt a : Nat) (s : State) : Host.Outcome State Fault Refusal :=
  onAll dt (fun d m => if (d.ap a).state = 3 then completeDue a (d, m) else (d, m)) s

/-- Cut every record in post-fill on the present tick, whole ones completing first (R342, R345). -/
def cutRecords (a cut : Nat) (x : Dev × Mems) : Dev × Mems :=
  let x := completeDue a (completeDue a x)
  (x.1.ap a).acq.opened.foldl (fun y r => closeRecord a r cut y.1.now y) x

/-! ### Candidates (R310–R315) -/

/-- Count a candidate (R315). -/
def Dev.countLost (d : Dev) (a tick cause : Nat) : Dev :=
  let d := d.bump (acqReg a 0x0C)
  d.raiseAt evTriggerIgnored (freeSev evTriggerIgnored) a cause (BitVec.ofNat 64 (d.reg (acqReg a 0x0C)).toNat) (BitVec.ofNat 64 tick)

/-- Accept a confirmed candidate (R310, R315). -/
def Dev.accept (d : Dev) (a tick : Nat) : Dev :=
  let d := d.bump (acqReg a 0x08)
  let d := d.openRecord a tick false
  if (d.ap a).acq.sub = 4 then d else d.enterSub a 4

/-- The segment of a trigger that meets POSTFILL is free (R334). -/
def Aperture.freeSegment (p : Aperture) : Bool :=
  match p.capture with
  | some w => decide (p.acq.triggered < cpSegments w ∧ p.acq.opened.length < 2)
  | none => false

/-- A candidate meets an aperture (R310, R311). -/
def Dev.meetCandidate (d : Dev) (a : Nat) (c : Candidate) : Dev :=
  let p := d.ap a
  let x := p.acq
  if p.state ≠ 3 ∨ p.capture.isNone then d
  else if x.prov.isSome then
    if x.held.length < 8 then d.updAcq a (fun x => { x with held := x.held ++ [(c, none)] })
    else if c.prov then d.updAcq a (fun x => { x with lost := x.lost ++ [(c, 4)] })
    else d.countLost a c.tick 4
  else
    let takes := decide (x.sub = 1 ∨ x.sub = 2) || (decide (x.sub = 4) && p.freeSegment)
    if takes then
      if c.prov then d.updAcq a (fun x => { x with prov := some (c, x.sub) }) else d.accept a c.tick
    else
      let cause := if x.sub = 4 then 1 else if x.sub = 5 then 2 else 3
      if c.prov then d.updAcq a (fun x => { x with lost := x.lost ++ [(c, cause)] }) else d.countLost a c.tick cause

/-- What an aperture that is no longer LIVE still awaits: the verdicts on which a snapshot may rest; nothing is counted (R148, R310). -/
def Acq.forget (x : Acq) : Acq :=
  let cur := match x.prov with | some (c, _) => [(c, 0)] | none => []
  { x with
    sub := 0
    prov := none
    held := []
    lost := cur ++ x.lost.map (fun l => (l.1, 0))
    inbox := x.inbox.filter (fun q => match q.2 with | .verdict .. => true | _ => false) }

/-! ### The commands that act on an acquisition (R81, R342) -/

/-- Schedule or refuse the arming, freezing, triggering or halting of an aperture for the command on ring `q`, against its
state now (R81, R89, R342, R343). -/
def Dev.armNow (d : Dev) (q a : Nat) : Dev :=
  if (d.ap a).state = 3 ∧ (d.ap a).acq.sub = 5 then
    let t := d.now + 150
    let d := d.updGlob (fun g => { g with arms := g.arms ++ [{ unit := a, tick := t }] })
    d.setRing q { d.ring q with busy := (d.ring q).busy.map (fun b => { b with wait := .arm a }) }
  else d.finishRing q { status := efsState, detail := (d.ap a).flags, ap := some a }

def Dev.freezeNow (d : Dev) (q a : Nat) : Dev :=
  let p := d.ap a
  if p.state = 3 ∧ (p.acq.sub = 1 ∨ p.acq.sub = 2 ∨ p.acq.sub = 4) then
    let t := d.now + 150
    let d := d.updGlob (fun g => { g with freezes := g.freezes ++ [{ unit := a, tick := t }] })
    d.setRing q { d.ring q with busy := (d.ring q).busy.map (fun b => { b with wait := .freeze a }) }
  else d.finishRing q { status := efsState, detail := (d.ap a).flags, ap := some a }

/-- CAPTURE_TRIGGER's candidate reaches the aperture on DONE_TB; selectors of KIND 6 receive it too (R272, R342). -/
def Dev.triggerNow (d : Dev) (q a : Nat) : Dev :=
  let p := d.ap a
  if p.state = 3 ∧ (p.acq.sub = 1 ∨ p.acq.sub = 2) then
    let c : Candidate := { src := selCmd a, fire := d.now, tick := d.now, prov := false }
    let d := d.meetCandidate a c
    -- this aperture has it already: only the other consumers of the selector are served
    let box := (d.ap a).acq.inbox
    let d := (d.leave (selCmd a) 0 (.cand c)).updAcq a (fun x => { x with inbox := box })
    d.finishRing q { result0 := d.clk.count, ap := some a }
  else d.finishRing q { status := efsState, detail := (d.ap a).flags, ap := some a }

/-- The device lead check of a halt (R134, R343): tick 0 asks for the earliest. -/
def Dev.haltNow (d : Dev) (q a : Nat) (tick : QWord) : Dev :=
  let p := d.ap a
  if p.state ≠ 3 ∨ p.launch.isSome then d.finishRing q { status := efsState, detail := (d.ap a).flags, ap := some a }
  else
    let least := d.now + scopeLead 0
    if decide (tick ≠ 0) && decide (tick.toNat < least) then
      d.finishRing q { status := efsLead, result0 := tick, result1 := BitVec.ofNat 64 least, ap := some a }
    else
      let t := if tick = 0 then least else tick.toNat
      let d := d.updGlob (fun g => { g with halts := g.halts ++ [{ unit := a, tick := t }] })
      d.setRing q { d.ring q with busy := (d.ring q).busy.map (fun b => { b with wait := .halt a }) }

/-- A candidate that was held arrives again, with its recorded verdict when it has one (R311). -/
def Dev.againCandidate (d : Dev) (a : Nat) (h : Candidate × Option Bool) : Dev :=
  match h.2 with
  | some true => d.meetCandidate a { h.1 with prov := false }
  | some false => d
  | none => d.meetCandidate a h.1

/-- A latched entry of an aperture as a confirmed candidate makes it: POSTFILL and one trigger more, or one more that is ignored or missed
(R148). -/
def confirmEntry (current : Bool) (w : List Word) : List Word :=
  if current then modAt (fun x => x + 1) 4 (modAt (fun x => x.setFld 23 20 4) 0 w) else modAt (fun x => x + 1) 5 w

/-- A candidate of aperture `a` that was provisional at the tick of a latched snapshot has its verdict (R148). -/
def Dev.settleSnaps (d : Dev) (a src fire : Nat) (ok : Bool) : Dev :=
  let is (w : Nat × Nat × Nat × Bool) : Bool := decide (w.1 = a ∧ w.2.1 = src ∧ w.2.2.1 = fire)
  d.updGlob (fun g => { g with snaps := g.snaps.map (fun (s : Snap) =>
    match s.waits.find? is with
    | some w =>
      { s with
        waits := s.waits.filter (fun w => !is w)
        latched := if ok then s.latched.map (fun l =>
          (l.1.map (fun (e : List Word) => if (e.headD 0).fld 15 0 = a then confirmEntry w.2.2.2 e else e), l.2)) else s.latched }
    | none => s) })

/-- The candidates of an aperture that are provisional and without a verdict now, for a snapshot (R148). -/
def Acq.unresolved (x : Acq) (a : Nat) : List (Nat × Nat × Nat × Bool) :=
  (match x.prov with | some (c, _) => [(a, c.src, c.fire, true)] | none => []) ++
    (x.lost.filter (fun l => decide (l.2 ≠ 0))).map (fun l => (a, l.1.src, l.1.fire, false))

/-- The changes of sub-state that take effect on the present tick, which come before a candidate that arrives on it (R313): a record
completes, REARM ends. -/
def settleSub (a : Nat) (x : Dev × Mems) : Dev × Mems :=
  let p := x.1.ap a
  if p.acq.prov.isSome then x
  else if p.acq.sub = 4 then completeDue a (completeDue a x)
  else (x.1.rearmOver a, x.2)

/-- APERTURE_CANDIDATE (R310): the oldest candidate that has arrived at the aperture. A remote trigger's confirmation arrives
as a confirmed candidate (R307). -/
def execApertureCandidate (dt a : Nat) (s : State) : Host.Outcome State Fault Refusal :=
  onAll dt (fun d m =>
    match (d.ap a).acq.inbox with
    | (t, .cand c) :: rest =>
      if d.cyc < t then (d, m)
      else
        let x := if (d.ap a).state = 3 then settleSub a (d.updAcq a (fun x => { x with inbox := rest }), m) else (d.updAcq a (fun x => { x with inbox := rest }), m)
        completeFull a (x.1.meetCandidate a c, x.2)
    | _ => (d, m)) s

/-- Discard the current and held candidates at a restart (R314): those whose verdict is still to come are counted with cause
5 when they are confirmed, those already confirmed now (assumption 32). -/
def Dev.discardCandidates (d : Dev) (a : Nat) : Dev :=
  let x := (d.ap a).acq
  let cur := match x.prov with | some (c, _) => [(c, (none : Option Bool))] | none => []
  let all := cur ++ x.held
  let open_ := all.filter (fun (h : Candidate × Option Bool) => h.1.prov && h.2.isNone)
  let now := all.filter (fun (h : Candidate × Option Bool) => !h.1.prov || decide (h.2 = some true))
  let d := d.updAcq a (fun x => { x with prov := none, held := [], lost := x.lost ++ open_.map (fun h => (h.1, 5)) })
  now.foldl (fun d h => d.countLost a h.1.tick 5) d

/-- Restart a LIVE aperture's acquisition in FILLING (R150, R314, R345). -/
def restartAcq (a : Nat) (x : Dev × Mems) : Dev × Mems :=
  let x := cutRecords a 3 x
  ((x.1.discardCandidates a).startSequence a, x.2)

/-- REARM_END (R312, R333). -/
def execRearmEnd (dt a : Nat) (s : State) : Host.Outcome State Fault Refusal :=
  onDev dt (fun d => if (d.ap a).state = 3 then d.rearmOver a else d) s

/-- The scheduled entry of a unit whose tick has come. -/
def dueSched (d : Dev) (xs : List Sched) (u : Nat) : Option Sched := xs.find? (fun x => decide (x.unit = u ∧ x.tick ≤ d.now))

/-- CAPTURE_ARM_EFFECT (R342): REARM begins; listed records stay listed. -/
def execCaptureArmEffect (dt a : Nat) (s : State) : Host.Outcome State Fault Refusal :=
  onDev dt (fun d =>
    match dueSched d d.glob.arms a with
    | some t =>
      let d := d.updGlob (fun g => { g with arms := g.arms.filter (fun x => decide (x.unit ≠ a)) })
      let d := if (d.ap a).state = 3 ∧ (d.ap a).acq.sub = 5 then d.beginRearm a else d
      d.finish (.arm a) { result0 := BitVec.ofNat 64 t.tick, ap := some a }
    | none => d) s

/-- A freeze takes effect (R342). While a candidate is provisional it acts on the sub-state that candidate met (assumption 123). -/
def freezeEffect (a : Nat) (x : Dev × Mems) : Dev × Mems :=
  let p := x.1.ap a
  if p.state ≠ 3 then x
  else if p.acq.sub = 1 ∨ p.acq.sub = 2 then
    let d := x.1.openRecord a x.1.now true
    let y := (d.ap a).acq.opened.foldl (fun y r => closeRecord a r 1 y.1.now y) (d, x.2)
    (y.1.endSequence a (((y.1.ap a).acq.recno) - 1) false, y.2)
  else if p.acq.sub = 4 then
    let y := completeDue a (completeDue a x)
    if (y.1.ap a).acq.sub ≠ 4 then y
    else
      let y := (y.1.ap a).acq.opened.foldl (fun y r => closeRecord a r 1 y.1.now y) y
      (y.1.endSequence a (((y.1.ap a).acq.recno) - 1) false, y.2)
  else x

/-- CAPTURE_FREEZE_EFFECT (R342). -/
def execCaptureFreezeEffect (dt a : Nat) (s : State) : Host.Outcome State Fault Refusal :=
  onAll dt (fun d m =>
    match dueSched d d.glob.freezes a with
    | some t =>
      let d := d.updGlob (fun g => { g with freezes := g.freezes.filter (fun x => decide (x.unit ≠ a)) })
      let y := freezeEffect a (d, m)
      (y.1.finish (.freeze a) { result0 := BitVec.ofNat 64 t.tick, ap := some a }, y.2)
    | none => (d, m)) s

/-! ### The capture writer (R326, R330, R340, R348, R355) -/

/-- The records that lose staged entries to a write at an address. -/
def StageQ.losers (addr len : Nat) (x : StageQ) : List Nat :=
  (x.items.filter (fun (i : StageItem) => decide (addr ≤ i.addr ∧ i.addr < addr + len ∧ 0 < i.len ∧ ¬ i.lost))).map (fun (i : StageItem) => i.recno)

/-- Mark the items that lie in the entry at an address overwritten; the bytes so marked. -/
def markLost (addr len : Nat) : List StageItem → List StageItem × Nat
  | [] => ([], 0)
  | i :: t =>
    let r := markLost addr len t
    if addr ≤ i.addr ∧ i.addr < addr + len ∧ 0 < i.len ∧ ¬ i.lost then ({ i with lost := true } :: r.1, r.2 + i.len) else (i :: r.1, r.2)

/-- The writer writes over the entry at an address: the staged bytes of it are lost, and those that were not yet sent are counted
(R348, R531). -/
def StageQ.overwrite (addr len : Nat) (x : StageQ) : StageQ × Nat :=
  let r := markLost addr len x.items
  ({ items := r.1, sent := (markLost addr len x.sent).1, pub := (markLost addr len x.pub).1 }, r.2)

/-- A poisoned entry is written (R326, R355). -/
def Dev.poisonEntry (d : Dev) (a stamp : Nat) : Dev :=
  let d := d.bump (acqReg a 0x10)
  let x := (d.ap a).acq
  let quiet := match x.poisonAt with | some t => decide (t + 3000000 ≤ d.cyc) | none => true
  let n := x.poisonSince + 1
  let recno := match x.opened with | r :: _ => r.recno | [] => 0xFFFFFFFF
  if quiet then
    (d.updAcq a (fun x => { x with poisonAt := some d.cyc, poisonSince := 0 })).raiseAt evPoisonFrame (freeSev evPoisonFrame) a n
      (BitVec.ofNat 64 recno) (BitVec.ofNat 64 stamp)
  else d.updAcq a (fun x => { x with poisonAt := some d.cyc, poisonSince := n })

/-- An entry at the head of a sub-ring's finished entries is written at the position of the current slice. -/
def writeEntry (a i : Nat) (r : SubRing) (e : RedEntry) (x : Dev × Mems) : Dev × Mems :=
  let d := x.1
  let p := d.ap a
  match p.capture with
  | none => x
  | some w =>
    let q := p.acq
    let segs := cpSegments w
    let addr := r.base + q.slice * r.sliceBytes + r.p * r.entryBytes
    let h : HeldEntry := { stamp := e.stamp, slice := q.slice, pos := r.p, poisoned := e.poisoned, ovr := e.ovr, brk := e.brk }
    let lost := r.stage.overwrite addr r.entryBytes
    let losers := r.stage.losers addr r.entryBytes
    let r := { r with
      held := h :: r.held.filter (fun g => !(decide (g.slice = q.slice ∧ g.pos = r.p)))
      p := (r.p + 1) % r.q
      count := r.count + 1
      stage := lost.1 }
    -- records in post-fill take the entry while they need it
    let marked := q.opened.map (fun (o : Rec) =>
      if losers.contains o.recno then { o with exportLoss := true, descs := modAt (fun (t : Desc) => { t with exportLoss := true }) i o.descs } else o)
    let opened := marked.map (fun (o : Rec) =>
      if e.stamp < o.trigTick then o
      else
        let n := o.posts.getD i 0
        let o := { o with posts := o.posts.set i (n + 1) }
        if o.streaming && (decide (cpPost w = 0) || decide (n < r.post)) then
          { o with descs := modAt (fun (t : Desc) => { t with
              firstStamp := if t.countA = 0 then e.stamp else t.firstStamp, sliceA := if t.countA = 0 then q.slice else t.sliceA,
              posA := if t.countA = 0 then h.pos else t.posA, countA := t.countA + 1, poisoned := t.poisoned + e.poisoned.toNat, ovrs := t.ovrs + e.ovr.toNat, brk := t.brk || e.brk }) i o.descs }
        else o)
    let r := match q.opened.find? (fun (o : Rec) => o.streaming && decide (o.trigTick ≤ e.stamp) && decide (o.validStart ≤ e.stamp) &&
        (decide (cpPost w = 0) || decide (o.posts.getD i 0 < r.post))) with
      | some o =>
        { r with
          stage := { r.stage with items := r.stage.items ++ [{ recno := o.recno, off := r.streamOff, addr := addr, len := r.entryBytes, cycle := d.cyc }] }
          streamOff := r.streamOff + r.entryBytes }
      | none => r
    let d := d.updAcq a (fun q => { q with
      wrote := true
      subs := q.subs.set i r
      opened := opened
      listed := q.listed.filter (fun o => !o.hitBy q.slice segs) })
    let d := if e.poisoned then d.poisonEntry a e.stamp else d
    let d := match (if lost.2 = 0 then none else p.reduction r.slot) with
      | some rw => d.stagingLost a (rdExport rw) r.slot lost.2 1
      | none => d
    let y := capWrite addr e.bytes (d, x.2)
    (y.1.checkArmed a, y.2)

/-- ENTRY_WRITE (R330): the oldest finished entry of a slot and channel that the sequence takes (R328) is written, and completes on this tick the
records whose last entry it is (R335). A REARM that is over has ended before it. -/
def entryWrite (a slot ch : Nat) (x : Dev × Mems) : Dev × Mems :=
  let p := x.1.ap a
  if p.state ≠ 3 then x
  else
    let x := completeDue a (x.1.rearmOver a, x.2)
    let q := (x.1.ap a).acq
    match (q.subs.zipIdx).find? (fun (s : SubRing × Nat) => decide (s.1.slot = slot ∧ s.1.ch = ch)) with
    | none => x
    | some (r, i) =>
      if q.sub = 5 ∨ q.sub = 6 then (x.1.updAcq a (fun q => { q with subs := q.subs.set i { r with ready := [] } }), x.2)
      else
        match r.ready.dropWhile (fun e => decide (e.stamp < q.t0)) with
        | [] => (x.1.updAcq a (fun q => { q with subs := q.subs.set i { r with ready := [] } }), x.2)
        | e :: rest => completeFull a (writeEntry a i { r with ready := rest } e x)

def execEntryWrite (dt a slot ch : Nat) (s : State) : Host.Outcome State Fault Refusal :=
  onAll dt (fun d m => entryWrite a slot ch (d, m)) s

end Sys2Proof.Machine
end

