-- ==== Sys2Proof/Machine/Density.lean ====
section
/-!
DEFINITION. The density engine (R423–R438): counting bins into planes, decay, and rendering into pixel buffers.
-/

namespace Sys2Proof.Machine

def feedReg (p off : Nat) : Nat := 0x520400 + 64 * p + off

def Dev.feed (d : Dev) (p : Nat) : Feed := Tbl.look ({} : Feed) d.feeds p
def Dev.setFeed (d : Dev) (p : Nat) (x : Feed) : Dev := { d with feeds := Tbl.put p x d.feeds }

/-! ### The density feed block (R423) -/

def dfHost (w : List Word) : Bool := bitAt w 0x08 0
def dfFormat (w : List Word) : Nat := fldAt w 0x08 2 1
def dfNbuf (w : List Word) : Nat := fldAt w 0x08 4 3
def dfAutoFlip (w : List Word) : Bool := bitAt w 0x08 5
def dfLog (w : List Word) : Bool := bitAt w 0x08 6
def dfDecay (w : List Word) : Nat := fldAt w 0x08 9 8
def dfShift (w : List Word) : Nat := fldAt w 0x08 14 10
def dfInc (w : List Word) : Nat := fldAt w 0x08 31 16
def dfWidth (w : List Word) : Nat := fldAt w 0x0C 11 0
def dfHeight (w : List Word) : Nat := fldAt w 0x0C 27 16
def dfX0 (w : List Word) : Int := sfldAt w 0x10 15 0
def dfXBins (w : List Word) : Nat := fldAt w 0x14 16 0
def dfYTop (w : List Word) : Int := sfldAt w 0x18 15 0
def dfYStep (w : List Word) : Nat := fldAt w 0x18 31 16
def dfFull (w : List Word) : Nat := (dwAt w 0x1C).toNat
def dfDecayTicks (w : List Word) : Nat := (dwAt w 0x20).toNat
def dfRenderTicks (w : List Word) : Nat := (dwAt w 0x24).toNat
def dfNames (w : List Word) (c : Nat) : Bool := bitAt w (0x30 + 4 * (c / 32)) (c % 32)
def dfColour (w : List Word) (i : Nat) : Nat := (dwAt w (0x70 + 4 * i)).toNat

/-- Bytes of a pixel, pitch and size of a buffer (R431). -/
def pixelBytes (format : Nat) : Nat := format + 2
def dfPitch (w : List Word) : Nat := ceilDiv (dfWidth w * pixelBytes (dfFormat w)) 64 * 64
def dfBufBytes (w : List Word) : Nat := ceilDiv (dfPitch w * dfHeight w) 512 * 512

/-! ### Facet marks (R396, R401, R403) -/

def Dev.facetMarked (d : Dev) (g a : Nat) : Bool := d.cmc.facet.contains (g, a)

/-- Heal `n` bytes of a Facet region from `a` up: they are written (R403). -/
def Dev.facetHeal (d : Dev) (g a n : Nat) : Dev :=
  d.updCmc (fun c => { c with facet := c.facet.filter (fun (p : Nat × Nat) => !(decide (p.1 = g ∧ a ≤ p.2 ∧ p.2 < a + n))) })

/-- A plane's cell is read: a marked word is rewritten as 0 and counted (R401). -/
def Dev.cellRead (d : Dev) (p k : Nat) : Dev :=
  let a := p * 2 ^ 22 + 4 * k
  match (List.range 4).find? (fun i => d.facetMarked 1 (a + i)) with
  | some i =>
    let d := d.countMark 1 4 (a + i) true
    let d := (d.facetHeal 1 a 4).bump (feedReg p 0x08)
    d.setFeed p { d.feed p with cells := Tbl.drop k (d.feed p).cells }
  | none => d

/-- The cells of a plane that hold a mark. -/
def Dev.markedCells (d : Dev) (p : Nat) : List Nat :=
  ((d.cmc.facet.filter (fun (q : Nat × Nat) => decide (q.1 = 1 ∧ q.2 / 2 ^ 22 = p))).map (fun q => q.2 % 2 ^ 22 / 4)).eraseDups

/-! ### Counting (R425–R427) -/

/-- The cell of bin `j` at log power `l`, when the bin is rendered (R426). -/
def dfCell (w : List Word) (j l : Int) : Option Nat :=
  if dfX0 w ≤ j ∧ j < dfX0 w + dfXBins w then
    let x := ((j - dfX0 w) * dfWidth w / (dfXBins w : Int)).toNat
    let y := (clampInt 0 (dfHeight w - 1 : Nat) ((dfYTop w - l) / (dfYStep w : Int))).toNat
    some (y * dfWidth w + x)
  else none

/-- The feed takes spectra of channel `c` stamped at `stamp`. -/
def Feed.takes (x : Feed) (c stamp : Nat) : Bool :=
  match x.block with
  | some (_, b) => x.running && !dfHost b.words && dfNames b.words c && decide (x.cleared ≤ stamp)
  | none => false

/-- A poisoned spectrum reaches the feeds: it is skipped (R425). -/
def Dev.densitySkip (d : Dev) (c stamp : Nat) : Dev :=
  (List.range 8).foldl (fun d p => if (d.feed p).takes c stamp then d.bump (feedReg p 0x04) else d) d

/-- DECAY_SWEEP_START (R428): the sweep starts at `L + m × DECAY_TICKS` and visits every cell; here on the tick it starts
(assumption 33). -/
def Dev.decaySweep (d : Dev) (p : Nat) : Dev :=
  let x := d.feed p
  match x.block with
  | some (_, b) =>
    let w := b.words
    if x.running && !dfHost w && decide (dfDecay w ≠ 0) && decide (x.start + x.nextSweep * dfDecayTicks w ≤ d.now) then
      -- a marked word is read as 0 and counted, or written as 0 (R401, R403)
      let d := if dfDecay w = 2 then d.facetHeal 1 (p * 2 ^ 22) (4 * dfWidth w * dfHeight w) else (d.markedCells p).foldl (fun d k => d.cellRead p k) d
      let x := d.feed p
      let cells := if dfDecay w = 2 then [] else
        (x.cells.map (fun (c : Nat × Nat) => (c.1, c.2 - ceilDiv c.2 (2 ^ dfShift w)))).filter (fun c => decide (c.2 ≠ 0))
      d.setFeed p { x with cells := cells, nextSweep := x.nextSweep + 1 }
    else d
  | none => d

/-- What a feed adds for a bin of a spectrum stamped at a tick (R436). -/
def Feed.incAt (x : Feed) (w : List Word) (stamp : Nat) : Nat :=
  match x.old with
  | some o => if stamp < x.start then dfInc o else dfInc w
  | none => dfInc w

/-- A bin of log power `l` reaches the feeds (R426); a sweep that has begun comes before it (R429). -/
def Dev.densityBin (d : Dev) (c stamp : Nat) (j l : Int) : Dev :=
  (List.range 8).foldl (fun d p =>
    let x := d.feed p
    if x.takes c stamp then
      match x.block with
      | some (_, b) =>
        match dfCell b.words j l with
        | some k =>
          let d := (d.decaySweep p).cellRead p k
          let x := d.feed p
          d.setFeed p { x with cells := Tbl.put k (min (Tbl.look 0 x.cells k + x.incAt b.words stamp) (2 ^ 32 - 1)) x.cells }
        | none => d
      | none => d
    else d) d

def execDecaySweepStart (dt p : Nat) (s : State) : Host.Outcome State Fault Refusal := onDev dt (fun d => d.decaySweep p) s

/-! ### Colouring (R430, R431) -/

/-- The greatest `v` below `2 ^ bits` above `lo` with `(1 + full) ^ v ≤ (1 + cell) ^ 255`. -/
def indexSearch (cell full : Nat) : Nat → Nat → Nat
  | 0, lo => lo
  | b + 1, lo => indexSearch cell full b (if (1 + full) ^ (lo + 2 ^ b) ≤ (1 + cell) ^ 255 then lo + 2 ^ b else lo)

/-- The colour index of a cell (R430). -/
def colourIndex (w : List Word) (cell : Nat) : Nat :=
  if cell = 0 then 0
  else
    let v := if dfLog w then indexSearch cell (dfFull w) 9 0 + (Config.indexErr cell (dfFull w)).val - 1 else 255 * cell / dfFull w
    max 1 (min 255 v)

/-- A pixel in a buffer's format, from ARGB8888 (R431). -/
def pixelOut (format argb : Nat) : List Byte :=
  let b := argb % 256
  let g := argb / 2 ^ 8 % 256
  let r := argb / 2 ^ 16 % 256
  if format = 0 then bytes16 (b / 8 + 2 ^ 5 * (g / 4) + 2 ^ 11 * (r / 8))
  else if format = 1 then [BitVec.ofNat 8 b, BitVec.ofNat 8 g, BitVec.ofNat 8 r]
  else bytesOfWord (BitVec.ofNat 32 argb)

/-- The bytes of a rendered buffer line. -/
def Feed.lineBytes (x : Feed) (w : List Word) (y : Nat) : List Byte :=
  (List.range (dfWidth w)).flatMap (fun c => pixelOut (dfFormat w) (dfColour w (colourIndex w (Tbl.look 0 x.cells (y * dfWidth w + c)))))

/-! ### Layers, as far as renders need them -/

def layerReg (n off : Nat) : Nat := 0x520100 + 32 * n + off
def Dev.layer (d : Dev) (n : Nat) : Layer := Tbl.look ({} : Layer) d.layers n
def Dev.setLayer (d : Dev) (n : Nat) (x : Layer) : Dev := { d with layers := Tbl.put n x d.layers }
def lyEnable (w : List Word) : Bool := bitAt w 0x00 0
def lySource (w : List Word) : Nat := fldAt w 0x00 3 1

/-- The layer scans feed `p`: its latched SOURCE is `p` and it is enabled. -/
def Layer.scans (x : Layer) (p : Nat) : Bool :=
  match x.set with
  | some w => lyEnable w && decide (lySource w = p)
  | none => false

/-- Request a flip of layer `n` to buffer `b`; a flip pending is replaced (R434, R444). -/
def Dev.requestFlip (d : Dev) (n b : Nat) : Dev :=
  let x := d.layer n
  let d := if x.pending ≠ 3 then d.bump (layerReg n 0x0C) else d
  d.setLayer n { x with pending := b }

/-- Check a render's target buffer (R433): a failure is counted and raised once, for the first layer that causes it. -/
def Dev.checkTarget (d : Dev) (p k nbuf : Nat) : Dev :=
  if nbuf < 2 then d
  else
    let b := k % nbuf
    let cause (n : Nat) : Nat :=
      let x := d.layer n
      if !x.scans p then 0 else if x.current = b then 1 else if x.pending = b then 2 else 0
    match (List.range 3).find? (fun n => decide (cause n ≠ 0)) with
    | some n => (d.bump (feedReg p 0x0C)).raise evBufferOnScan n (b + 2 ^ 4 * cause n + 2 ^ 8 * p) k
    | none => d

/-- RENDER_COMPLETE (R432, R434): at t_(k+1). -/
def Dev.renderComplete (d : Dev) (p : Nat) : Dev :=
  let f := d.feed p
  match f.block, f.rendering with
  | some (_, b), some k =>
    let w := b.words
    if f.running && decide (f.start + (k + 1) * dfRenderTicks w ≤ d.now) then
      let d := (d.setFeed p { f with rendering := none }).bump (feedReg p 0x00)
      if dfAutoFlip w then
        (List.range 3).foldl (fun d n => if (d.layer n).scans p then d.requestFlip n (k % dfNbuf w) else d) d
      else d
    else d
  | _, _ => d

/-- RENDER_START (R432, R433): render k reads the plane and writes buffer k mod NBUF; here on the tick it starts
(assumption 33). The completion of the render before it and a sweep that has begun come first (R429, R432). -/
def renderStart (p : Nat) (x : Dev × Mems) : Dev × Mems :=
  let d := (x.1.renderComplete p).decaySweep p
  let f := d.feed p
  match f.block with
  | some (_, b) =>
    let w := b.words
    let k := f.nextRender
    if f.running && !dfHost w && decide (dfRenderTicks w ≠ 0) && f.rendering.isNone && decide (f.start + k * dfRenderTicks w ≤ d.now) then
      let d := d.checkTarget p k (dfNbuf w)
      let d := (d.markedCells p).foldl (fun d c => d.cellRead p c) d
      let f := d.feed p
      let d := d.setFeed p { f with rendering := some k, nextRender := k + 1 }
      let base := f.bufs.getD (k % dfNbuf w) 0
      (List.range (dfHeight w)).foldl (fun y r => capWrite (base + r * dfPitch w) (f.lineBytes w r) y) (d, x.2)
    else (d, x.2)
  | none => (d, x.2)

def execRenderComplete (dt p : Nat) (s : State) : Host.Outcome State Fault Refusal := onDev dt (fun d => d.renderComplete p) s

end Sys2Proof.Machine
end

