-- ==== Sys2Proof/Machine/Display.lean ====
section
/-!
DEFINITION. Scan-out (R439–R451): display modes, layers, the start of vertical blanking, active lines, fetch and panic, and
DisplayPort.
-/

namespace Sys2Proof.Machine

def Dev.updRaster (d : Dev) (f : Raster → Raster) : Dev := { d with raster := f d.raster }

/-! ### DISPLAY_MODE (R439–R441) -/

def dmHActive (w : List Word) : Nat := fldAt w 0x00 11 0
def dmVActive (w : List Word) : Nat := fldAt w 0x04 27 16
def dmHTotal (w : List Word) : Nat := dmHActive w + fldAt w 0x00 23 16 + fldAt w 0x00 31 24 + fldAt w 0x04 11 0
/-- Blanking lines. -/
def dmVBlank (w : List Word) : Nat := fldAt w 0x08 7 0 + fldAt w 0x08 15 8 + fldAt w 0x08 27 16
def dmPclk (w : List Word) : Nat := fldAt w 0x0C 19 0
def dmEnable (w : List Word) : Bool := bitAt w 0x10 0
def dmBpc10 (w : List Word) : Bool := bitAt w 0x10 3
def dmLanes (w : List Word) : Nat := fldAt w 0x10 5 4
def dmRate (w : List Word) : Nat := fldAt w 0x10 7 6
def dmBg (w : List Word) : Nat := fldAt w 0x14 23 0
def dmLineMatch (w : List Word) : Nat := fldAt w 0x18 11 0
def dmLmEn (w : List Word) : Bool := bitAt w 0x18 12

/-- Ticks of `n` lines (R441). -/
def dmLines (w : List Word) (n : Nat) : Frac :=
  Frac.div (Frac.ofInt (n * dmHTotal w * 3000000 : Nat)) (Frac.ofInt (dmPclk w))

/-- Link rate in Mb/s (R440). -/
def linkMbps (r : Nat) : Nat := if r = 0 then 1620 else if r = 1 then 2700 else if r = 2 then 5400 else 8100

def formDisplayMode : CmdForm := { opcode := 0x48, blockLen := 32 }

def displayModeChecks (_ : Dev) (b : List Word) : List (Nat × Bool) :=
  let en := dmEnable b
  [ (0x00, decide (640 ≤ dmHActive b ∧ dmHActive b ≤ 3840 ∧ dmHActive b % 8 = 0 ∧ fldAt b 0x00 15 12 = 0 ∧ 1 ≤ fldAt b 0x00 23 16 ∧ 1 ≤ fldAt b 0x00 31 24)),
    (0x04, decide (1 ≤ fldAt b 0x04 11 0 ∧ fldAt b 0x04 15 12 = 0 ∧ 480 ≤ dmVActive b ∧ dmVActive b ≤ 2160 ∧ fldAt b 0x04 31 28 = 0)),
    (0x08, decide (1 ≤ fldAt b 0x08 7 0 ∧ 1 ≤ fldAt b 0x08 15 8 ∧ 1 ≤ fldAt b 0x08 27 16 ∧ fldAt b 0x08 31 28 = 0) && decide (3 ≤ dmVBlank b)),
    (0x0C, decide (25000 ≤ dmPclk b ∧ dmPclk b ≤ 600000 ∧ fldAt b 0x0C 31 20 = 0) &&
      (!en || decide (dmPclk b * 3 * (if dmBpc10 b then 10 else 8) ≤ 2 ^ dmLanes b * linkMbps (dmRate b) * 792))),
    (0x10, decide (dmLanes b ≤ 2 ∧ fldAt b 0x10 31 8 = 0)),
    (0x14, decide (fldAt b 0x14 31 24 = 0)),
    (0x18, decide (dmLineMatch b < dmVActive b ∧ fldAt b 0x18 31 13 = 0)),
    (0x1C, decide (dwAt b 0x1C = 0)) ]

/-- A DISPLAY_MODE is taken (R441). -/
def Dev.displayMode (d : Dev) (q : Nat) (e : Entry) : Dev :=
  let b := e.block
  if !d.raster.running && !d.raster.locking && !dmEnable b then formDisplayMode.reply d q e {}
  else
    let d := d.hold q 0x48 e .displayMode
    if d.raster.running then d.updRaster (fun r => { r with waiting := some b })
    else if dmEnable b then d.updRaster (fun r => { r with waiting := some b, locking := true })
    else
      -- the raster has not started yet: the mode that waited is replaced by one that stops it
      (d.updRaster (fun r => { r with waiting := none, locking := false })).finish .displayMode {}

def execDisplayMode (dt q : Nat) (e : Entry) (s : State) : Host.Outcome State Fault Refusal :=
  onDev dt (runCmd formDisplayMode q e displayModeChecks (fun d => d.displayMode q e)) s

/-! ### LAYER_SET and LAYER_FLIP (R442–R444) -/

def lyZoomX (w : List Word) : Nat := 2 ^ fldAt w 0x00 5 4
def lyZoomY (w : List Word) : Nat := 2 ^ fldAt w 0x00 7 6
def lyAlpha (w : List Word) : Nat := fldAt w 0x00 15 8
def lyX (w : List Word) : Nat := fldAt w 0x04 11 0
def lyY (w : List Word) : Nat := fldAt w 0x04 27 16

/-- Feed `p` belongs to a LIVE or HALTED aperture: its block (R437, R444). -/
def Dev.feedBlock (d : Dev) (p : Nat) : Option (List Word) :=
  match (d.feed p).block with
  | some (a, b) => if (d.ap a).state = 3 ∨ (d.ap a).state = 4 then some b.words else none
  | none => none

/-- Latch a layer: the waiting LAYER_SET, then a pending flip (R442, R446). -/
def Layer.latch (x : Layer) : Layer × Bool :=
  let changed := match x.waiting, x.set with
    | some w, some o => decide (lySource w ≠ lySource o)
    | some _, none => true
    | none, _ => false
  let x := match x.waiting with | some w => { x with set := some w, waiting := none } | none => x
  if changed then ({ x with current := 3, pending := 3 }, false)
  else if x.pending ≠ 3 then ({ x with current := x.pending, pending := 3 }, true)
  else (x, false)

/-- The frame number and tick a latch reports (R446). -/
def Dev.latchAnswer (d : Dev) : Answer := { result0 := d.clk.count, result1 := BitVec.ofNat 64 d.raster.frame }

def formLayerSet : CmdForm := { opcode := 0x49, blockLen := 12, targetHi := 2 }

def layerSetChecks (_ : Dev) (b : List Word) : List (Nat × Bool) :=
  [ (0x00, decide (fldAt b 0x00 5 4 ≠ 3 ∧ fldAt b 0x00 7 6 ≠ 3 ∧ fldAt b 0x00 31 16 = 0)),
    (0x04, decide (fldAt b 0x04 15 12 = 0 ∧ fldAt b 0x04 31 28 = 0)), (0x08, decide (dwAt b 0x08 = 0)) ]

/-- With the raster stopped the command completes at once; its effect applies when the raster starts (R446). -/
def execLayerSet (dt q : Nat) (e : Entry) (s : State) : Host.Outcome State Fault Refusal :=
  onDev dt (runCmd formLayerSet q e layerSetChecks (fun d =>
    let d := d.setLayer e.target { d.layer e.target with waiting := some e.block }
    if d.raster.running then d.hold q 0x49 e (.layerSet e.target) else formLayerSet.reply d q e d.latchAnswer)) s

def formLayerFlip : CmdForm := { opcode := 0x4A, blockLen := 4, targetHi := 2 }

/-- The LAYER_SET that counts for a layer: the last one taken. -/
def Layer.latest (x : Layer) : Option (List Word) := match x.waiting with | some w => some w | none => x.set

/-- The buffers of a layer's feed, when it has one in a LIVE or HALTED aperture. -/
def Dev.layerFeed (d : Dev) (n : Nat) : Option (List Word) := (d.layer n).latest.bind (fun w => d.feedBlock (lySource w))

def layerFlipChecks (n : Nat) (d : Dev) (b : List Word) : List (Nat × Bool) :=
  [ (0x00, decide (fldAt b 0x00 31 2 = 0) && (match d.layerFeed n with | some f => decide (fldAt b 0x00 1 0 < dfNbuf f) | none => true)) ]

def execLayerFlip (dt q : Nat) (e : Entry) (s : State) : Host.Outcome State Fault Refusal :=
  onDev dt (runCmd formLayerFlip q e (layerFlipChecks e.target) (fun d =>
    match d.layerFeed e.target with
    | none => formLayerFlip.reply d q e { status := efsState }
    | some f =>
      if dfAutoFlip f then formLayerFlip.reply d q e { status := efsState }
      else
        let d := d.requestFlip e.target (fldAt e.block 0x00 1 0)
        if d.raster.running then d.hold q 0x4A e (.layerFlip e.target) else formLayerFlip.reply d q e d.latchAnswer)) s

/-! ### Fetch and panic (R447) -/

/-- The layer's block and feed block, when it is enabled and not transparent in the present frame. -/
def Dev.layerShown (d : Dev) (n : Nat) : Option (List Word × List Word) :=
  let x := d.layer n
  match x.set with
  | some w =>
    if lyEnable w ∧ x.current ≠ 3 then (d.feedBlock (lySource w)).map (fun f => (w, f)) else none
  | none => none

/-- Source lines of a layer that the active area shows. -/
def shownLines (m w f : List Word) : Nat := min (dfHeight f) (ceilDiv (dmVActive m - lyY w) (lyZoomY w))

/-- The next address a layer fetches, with the bytes to the end of its block. -/
def Dev.fetchWant (d : Dev) (n : Nat) : Option (Nat × Nat) :=
  let x := d.layer n
  if !d.raster.running || d.raster.black || d.raster.aborted || x.stopped then none
  else match d.layerShown n with
    | some (w, f) =>
      let total := shownLines d.raster.mode w f * dfPitch f
      let base := (d.feed (lySource w)).bufs.getD x.current 0
      let a := base + x.fetched
      let len := min (512 - a % 512) (total - x.fetched)
      if x.fetched < total ∧ x.fetched - x.consumed + len ≤ 65536 then some (a, len) else none
    | none => none

/-- The layer still has lines to fetch in its frame. -/
def Dev.fetching (d : Dev) (n : Nat) : Bool :=
  let x := d.layer n
  d.raster.running && !d.raster.black && !d.raster.aborted && !x.stopped && (match d.layerShown n with
    | some (w, f) => decide (x.fetched < shownLines d.raster.mode w f * dfPitch f)
    | none => false)

def Layer.fill (x : Layer) : Nat := (x.fetched - x.consumed) / 256

/-- Fill registers and panic after a change of fill (R447). -/
def Dev.fillChanged (d : Dev) : Dev :=
  let d := (List.range 3).foldl (fun d n =>
    let fl := min (d.layer n).fill 255
    let d := d.setFld (layerReg n 0x04) 7 0 fl
    if d.fetching n then d.setFld (layerReg n 0x04) 15 8 (min fl (d.fld (layerReg n 0x04) 15 8)) else d) d
  let on := d.fld 0x520008 7 0
  let off := if d.fld 0x520008 15 8 ≤ on then on + 1 else d.fld 0x520008 15 8
  let live := (List.range 3).filter (fun n => d.fetching n)
  let low := live.any (fun n => decide ((d.layer n).fill < on))
  let high := live.all (fun n => decide (off ≤ (d.layer n).fill))
  d.updCmc (fun c => { c with panic := if on = 0 then false else if low then true else if high then false else c.panic })

/-! ### Active lines (R439, R443, R448, R449) -/

/-- The components and opacity of source pixel bytes (R431): R, G, B and A × 255 over 255. -/
def pixelIn (format : Nat) (bs : List Byte) : Nat × Nat × Nat × Nat :=
  let b (i : Nat) : Nat := (bs.getD i 0).toNat
  if format = 0 then
    let v := b 0 + 256 * b 1
    ((Config.expand5 (v / 2 ^ 11)).toNat, (Config.expand6 (v / 2 ^ 5 % 64)).toNat, (Config.expand5 (v % 32)).toNat, 255)
  else if format = 1 then (b 2, b 1, b 0, 255)
  else (b 2, b 1, b 0, b 3)

/-- One component composed: `round(a × layer + (1 − a) × below)` with `a = num / 65,025` (R443). -/
def blend (num layer below : Nat) : Nat := (roundDiv ((num * layer + (65025 - num) * below : Nat) : Int) 65025).toNat

/-- A layer over one pixel at column `x` of active line `y`. -/
def Dev.overlay (d : Dev) (n x y : Nat) (px : Nat × Nat × Nat) : Nat × Nat × Nat :=
  match d.layerShown n with
  | some (w, f) =>
    if x < lyX w ∨ y < lyY w then px
    else
      let sx := (x - lyX w) / lyZoomX w
      let sy := (y - lyY w) / lyZoomY w
      if sx < dfWidth f ∧ sy < dfHeight f then
        let l := d.layer n
        let b := pixelBytes (dfFormat f)
        let p := pixelIn (dfFormat f) ((l.line.drop (sy * dfPitch f + sx * b - l.consumed)).take b)
        let a := lyAlpha w * p.2.2.2
        (blend a p.1 px.1, blend a p.2.1 px.2.1, blend a p.2.2.1 px.2.2)
      else px
  | none => px

/-- The source line of layer `n` that active line `y` shows, when it shows one. -/
def Dev.sourceLine (d : Dev) (n y : Nat) : Option (Nat × List Word) :=
  match d.layerShown n with
  | some (w, f) =>
    let sy := (y - lyY w) / lyZoomY w
    if lyY w ≤ y ∧ sy < dfHeight f ∧ lyX w < dmHActive d.raster.mode then some (sy, f) else none
  | none => none

/-- The line buffer of layer `n` does not hold the pixel that column `x` of active line `y` shows (R448). -/
def Dev.underruns (d : Dev) (n x y : Nat) : Bool :=
  match d.sourceLine n y, d.layerShown n with
  | some (sy, f), some (w, _) =>
    let sx := (x - lyX w) / lyZoomX w
    !(d.layer n).stopped && decide (lyX w ≤ x ∧ sx < dfWidth f ∧ (d.layer n).fetched < sy * dfPitch f + (sx + 1) * pixelBytes (dfFormat f))
  | _, _ => false

/-- The first of `k` columns of active line `y` whose pixel some layer does not hold, and the first such layer. -/
def Dev.firstMissing (d : Dev) (y k : Nat) : Option (Nat × Nat) :=
  (List.range k).findSome? (fun x => ((List.range 3).find? (fun n => d.underruns n x y)).map (fun n => (x, n)))

/-- A component as the link carries it (R443). -/
def linkComponent (ten : Bool) (v : Nat) : Nat := if ten then 4 * v + v / 64 else v

def linkPixel (ten : Bool) (p : Nat × Nat × Nat) : Nat :=
  let k := if ten then 10 else 8
  linkComponent ten p.1 * 2 ^ (2 * k) + linkComponent ten p.2.1 * 2 ^ k + linkComponent ten p.2.2

/-- What active line `y` has shown is consumed once the next line needs a later source line. -/
def Dev.consume (d : Dev) (y : Nat) : Dev :=
  (List.range 3).foldl (fun d n =>
    match d.layerShown n with
    | some (w, f) =>
      let x := d.layer n
      let upto := if y + 1 < lyY w then 0 else (y + 1 - lyY w) / lyZoomY w * dfPitch f
      let upto := min upto x.fetched
      if x.consumed < upto then d.setLayer n { x with consumed := upto, line := x.line.drop (upto - x.consumed) } else d
    | none => d) d

/-- The first `k` pixels of active line `y`, composed (R443). -/
def Dev.linePixels (d : Dev) (y k : Nat) : List Nat :=
  let w := d.raster.mode
  let bg := (dmBg w / 2 ^ 16, dmBg w / 2 ^ 8 % 256, dmBg w % 256)
  (List.range k).map (fun x => linkPixel (dmBpc10 w) (d.overlay 2 x y (d.overlay 1 x y (d.overlay 0 x y bg))))

/-- The pixels of a line that is held whole are sent. -/
def Dev.sendLine (d : Dev) (y : Nat) : Dev :=
  let d := d.updRaster (fun r => { r with sending := none })
  ((d.emit (.line y (d.linePixels y (dmHActive d.raster.mode)))).consume y).fillChanged

/-- Layer `n` underran at column `x` of active line `y`, due at instant `t`: the rest of the frame is black (R448). -/
def Dev.underrunAt (d : Dev) (n x y : Nat) (t : Frac) : Dev :=
  let w := d.raster.mode
  let d := d.emit (.line y (d.linePixels y x ++ List.replicate (dmHActive w - x) 0))
  let d := d.updRaster (fun r => { r with aborted := true, sending := none, underruns := r.underruns + 1 })
  let late := d.cyc - t.ceil.toNat
  let d := (d.bump (layerReg n 0x10)).raiseAt evUnderrun (freeSev evUnderrun) n y (BitVec.ofNat 64 d.raster.frame) (BitVec.ofNat 64 (d.now - late))
  ((List.range 3).foldl (fun (d : Dev) k => d.setLayer k { d.layer k with stopped := true }) d).fillChanged

/-- The instant at which column `x` of a line is due, the line's first at instant `t` (assumption 124). -/
def pixelAt (w : List Word) (t : Frac) (x : Nat) : Frac := Frac.add t (Frac.div (Frac.ofInt (x * 3000000 : Nat)) (Frac.ofInt (dmPclk w)))

/-- The columns of a line that were due before the present tick. -/
def Dev.columnsDue (d : Dev) (t : Frac) : Nat :=
  let w := d.raster.mode
  min (dmHActive w) ((Frac.div (Frac.mul (Frac.sub (Frac.ofInt d.cyc) t) (Frac.ofInt (dmPclk w))) (Frac.ofInt 3000000)).ceil.toNat)

/-- The line being sent has come to a pixel that is not held (R448). -/
def Dev.scan (d : Dev) : Dev :=
  match d.raster.sending with
  | some (y, t) =>
    match d.firstMissing y (d.columnsDue t) with
    | some (x, n) => d.underrunAt n x y (pixelAt d.raster.mode t x)
    | none => d
  | none => d

/-- The line being sent is sent to its end once all of it is held. -/
def Dev.lineHeld (d : Dev) : Dev :=
  match d.raster.sending with
  | some (y, _) => if (d.firstMissing y (dmHActive d.raster.mode)).isNone then d.sendLine y else d
  | none => d

/-- Fetch the next block of layer `n`: a marked line is fetched as 0 (R401, R447). -/
def Dev.fetchBlock (d : Dev) (n : Nat) (m : Memory) (errs : List Upset) : Dev :=
  let d := d.scan.lineHeld
  match d.fetchWant n with
  | none => d
  | some (a, len) =>
    let r := d.readLines m errs 5 (linesOf a len)
    let d := r.marked.foldl (fun d _ => d.bump 0x52000C) r.dev
    let x := d.layer n
    (d.setLayer n { x with fetched := x.fetched + len, line := x.line ++ (List.range len).map (fun i => r.byte (a + i)) }).fillChanged.lineHeld

/-- ACTIVE_LINE_START (R439). -/
def Dev.activeLine (d : Dev) : Dev :=
  let d := d.scan.lineHeld
  let r := d.raster
  let w := r.mode
  let y := r.nextLine
  let t := Frac.add r.frameAt (dmLines w (dmVBlank w + y))
  if !r.running || decide (dmVActive w ≤ y) || !Frac.le t (Frac.ofInt d.cyc) then d
  else
    let d := d.updRaster (fun r => { r with nextLine := y + 1 })
    let d := if dmLmEn w && decide (dmLineMatch w = y) then d.raise evLineMatch 0 y r.frame else d
    let black := List.replicate (dmHActive w) 0
    if r.black || r.aborted then d.emit (.line y black)
    else (d.updRaster (fun r => { r with sending := some (y, t) })).lineHeld.scan

def execActiveLineStart (dt : Nat) (s : State) : Host.Outcome State Fault Refusal := onDev dt (fun d => d.activeLine) s

/-! ### The start of vertical blanking (R446) -/

/-- EV_FRAME_DONE of the enabled layers (R446, R449). -/
def Dev.frameDone (d : Dev) : Dev :=
  (List.range 3).foldl (fun d n =>
    let x := d.layer n
    match x.set with
    | some w =>
      if lyEnable w then d.raise evFrameDone n (x.current + 4 * x.latch.1.current) d.raster.frame else d
    | none => d) d

/-- Latch every layer, complete LAYER_SET and LAYER_FLIP, and begin fetching (R446, steps 4 and 6). -/
def Dev.latchLayers (d : Dev) : Dev :=
  (List.range 3).foldl (fun d n =>
    let l := (d.layer n).latch
    let d := if l.2 then d.bump (layerReg n 0x08) else d
    let d := d.setLayer n { l.1 with
      fetched := 0
      consumed := 0
      line := []
      stopped := d.raster.black }
    (d.finish (.layerSet n) d.latchAnswer).finish (.layerFlip n) d.latchAnswer) d

/-- EV_DP_HPD (R449). -/
def Dev.dpEvent (d : Dev) (cause : Nat) : Dev := d.raise evDpHpd 0 cause (dmRate d.raster.mode + 4 * dmLanes d.raster.mode)

/-- The sink's DPCD capability bytes allow the rate and width of the mode: byte 1 gives the largest rate and byte 2 [4:0] the
largest lane count (assumption 35). -/
def sinkAllows (dpcd : List Byte) (w : List Word) : Bool :=
  let code := if dmRate w = 0 then 0x06 else if dmRate w = 1 then 0x0A else if dmRate w = 2 then 0x14 else 0x1E
  decide (code ≤ (dpcd.getD 1 0).toNat ∧ 2 ^ dmLanes w ≤ (dpcd.getD 2 0).toNat % 32)

/-- The link trains at the RATE and LANES of the mode; a sink that lacks them raises cause 4 (R451). -/
def Dev.trainLink (d : Dev) : Dev :=
  if sinkAllows (bytesOfWords [d.reg 0x521200]) d.raster.mode then d.updRaster (fun r => { r with linkUp := false, training := true })
  else (d.updRaster (fun r => { r with linkUp := false, training := false })).dpEvent 4

/-- A mode whose RATE or LANES differs retrains during the black frame, and any change of mode tries a link that training left down
(R451). -/
def Dev.modeLink (d : Dev) (old new : List Word) : Dev :=
  if d.raster.hpd ∧ (dmRate old ≠ dmRate new ∨ dmLanes old ≠ dmLanes new ∨ (d.raster.linkUp = false ∧ d.raster.training = false)) then d.trainLink
  else d

/-- A frame begins at instant `t`, after any change of mode (R441, R446). -/
def Dev.beginFrame (d : Dev) (t : Frac) (number : Nat) (black : Bool) : Dev :=
  (d.updRaster (fun r => { r with
    frame := number % 2 ^ 32
    frameAt := t
    black := black
    nextLine := 0
    aborted := false
    sending := none
    underruns := 0 })).latchLayers.fillChanged

/-- VERTICAL_BLANKING_START (R446); the renders that complete on the tick have requested their flips. -/
def Dev.vblank (d : Dev) : Dev :=
  let d := d.scan.lineHeld
  let r := d.raster
  let w := r.mode
  let t := Frac.add r.frameAt (dmLines w (dmVBlank w + dmVActive w))
  if !r.running || !Frac.le t (Frac.ofInt d.cyc) then d
  else
    let d := (List.range 8).foldl (fun d p => d.renderComplete p) d
    let d := d.frameDone
    let d := d.raise evBlank 0 r.underruns (r.frame + 1)
    match r.waiting with
    | some m =>
      if dmEnable m then
        let d := (d.updRaster (fun r => { r with mode := m, waiting := none })).modeLink w m
        let d := (d.beginFrame t (r.frame + 1) true).raise evModeChanged 0 1 (dmPclk m)
        d.finish .displayMode {}
      else
        let d := d.updRaster (fun r => { r with waiting := none, running := false, black := false })
        let d := (d.latchLayers.fillChanged).raise evModeChanged 0 3 (dmPclk m)
        d.finish .displayMode {}
    | none => d.beginFrame t (r.frame + 1) false

def execVerticalBlankingStart (dt : Nat) (s : State) : Host.Outcome State Fault Refusal := onDev dt (fun d => d.vblank) s

/-- RENDER_START: a start of vertical blanking on the same tick comes before it (R446). -/
def execRenderStart (dt p : Nat) (s : State) : Host.Outcome State Fault Refusal := onAll dt (fun d m => renderStart p (d.vblank, m)) s

/-- PIXEL_CLOCK_LOCK (R441): the raster starts with a black frame, frame 0. -/
def Dev.pixelLock (d : Dev) : Dev :=
  match d.raster.locking, d.raster.waiting with
  | true, some m =>
    let d := (d.updRaster (fun r => { r with running := true, locking := false, mode := m, waiting := none })).modeLink [] m
    let d := d.raise evBlank 0 0 0
    let d := (d.beginFrame (Frac.ofInt d.cyc) 0 true).raise evModeChanged 0 2 (dmPclk m)
    d.finish .displayMode {}
  | _, _ => d

def execPixelClockLock (dt : Nat) (s : State) : Host.Outcome State Fault Refusal := onDev dt (fun d => d.pixelLock) s

/-! ### DisplayPort (R451) -/

/-- Store bytes in a window of dword registers. -/
def Dev.setWindow (d : Dev) (base : Nat) (ws : List Word) : Dev := (ws.zipIdx).foldl (fun d p => d.setReg (base + 4 * p.2) p.1) d

/-- HPD_RISE: what firmware reads from the sink, then training (R451). -/
def execHpdRise (dt : Nat) (edid dpcd : List Byte) (s : State) : Host.Outcome State Fault Refusal :=
  onDev dt (fun d =>
    let d := d.setWindow 0x521000 (wordsOfBytes (padBytes 512 edid))
    let d := d.setWindow 0x521200 (wordsOfBytes (padBytes 16 dpcd))
    (d.updRaster (fun r => { r with hpd := true })).trainLink) s

/-- IRQ_HPD: the link status is checked, and the link retrained when it has lost lock, or is down (R451). -/
def execIrqHpd (dt : Nat) (locked : Bool) (s : State) : Host.Outcome State Fault Refusal :=
  onDev dt (fun d =>
    if !d.raster.hpd then d
    else
      let d := d.dpEvent 3
      if (locked && d.raster.linkUp) || d.raster.training then d else d.trainLink) s

def execHpdLoss (dt : Nat) (s : State) : Host.Outcome State Fault Refusal :=
  onDev dt (fun d =>
    if d.raster.hpd then (d.updRaster (fun r => { r with hpd := false, linkUp := false, training := false })).dpEvent 2 else d) s

def execDpLinkTrainingEnd (dt : Nat) (ok : Bool) (s : State) : Host.Outcome State Fault Refusal :=
  onDev dt (fun d =>
    if d.raster.training then (d.updRaster (fun r => { r with training := false, linkUp := ok })).dpEvent (if ok then 1 else 4) else d) s

end Sys2Proof.Machine
end

