-- ==== Sys2Proof/Machine/Prism.lean ====
section
/-!
DEFINITION. The arithmetic of a Prism engine (R243–R246): the windowed frame, the passes of the transform, and the block-floating bins.
-/

namespace Sys2Proof.Machine

/-- The windowed frame, and whether a product saturated (R243). -/
def windowed (w : List Word) (samples : List ChanOut) : List (Int × Int) × Bool :=
  let xs := (samples.zipIdx).map (fun (p : ChanOut × Nat) =>
    let c := windowAt w p.2
    (sat24 (roundDiv (p.1.i * c) (2 ^ 17)), sat24 (roundDiv (p.1.q * c) (2 ^ 17))))
  (xs.map (fun p => (p.1.1, p.2.1)), xs.any (fun p => p.1.2 || p.2.2))

/-! ### The passes (R244, R245) -/

/-- The radices of the passes for `2 ^ k` points. -/
def radices (k : Nat) : List Nat := if k % 2 = 0 then List.replicate (k / 2) 4 else 2 :: List.replicate (k / 2) 4

/-- A value turned back by `n` quarter turns: times (−i)ⁿ. -/
def quarterTurn (n : Nat) (x : Int × Int) : Int × Int :=
  if n % 4 = 0 then x else if n % 4 = 1 then (x.2, -x.1) else if n % 4 = 2 then (-x.1, -x.2) else (-x.2, x.1)

/-- The 18-bit code of the cosine of `2πk / 2²⁰`, with 2¹⁷ as 1.0 (assumption 11). -/
def twiddle (k : Nat) : Int := clampInt (-131072) 131071 (131072 * cosFix k / fixOne + ((Config.twiddleUp (k % 2 ^ 20)).toNat : Int))

/-- A value times the twiddle factor of `k / 2²⁰` of a turn back; quarter turns are exact (assumption 11). -/
def twist (k : Nat) (x : Int × Int) : Int × Int :=
  if k % 2 ^ 18 = 0 then quarterTurn (k / 2 ^ 18) x
  else
    let c := twiddle k
    let s := twiddle (k + 3 * 2 ^ 18)
    (roundDiv (x.1 * c + x.2 * s) (2 ^ 17), roundDiv (x.2 * c - x.1 * s) (2 ^ 17))

/-- The index of the twiddle factor `t / n` of a turn. -/
def turnIndex (t n : Nat) : Nat := t % n * 2 ^ 20 / n

/-- Output `q` of a butterfly: the DFT of as many points as it has. -/
def butterfly (xs : List (Int × Int)) (q : Nat) : Int × Int :=
  let ys := (xs.zipIdx).map (fun p => quarterTurn (p.2 * q * (4 / xs.length)) p.1)
  ((ys.map (·.1)).sum, (ys.map (·.2)).sum)

/-- The least shift, of at most `most`, that brings a magnitude below a limit. -/
def leastShift (m limit : Nat) : Nat → Nat
  | 0 => 0
  | n + 1 => if m < limit then 0 else 1 + leastShift m (2 * limit) n

/-- The shift before a pass of a radix: the values, and what it adds to the exponent (R245). -/
def shiftFrame (r : Nat) (xs : List (List (Int × Int))) : List (List (Int × Int)) × Nat :=
  let m := (xs.map (fun b => (b.map (fun v => max v.1.natAbs v.2.natAbs)).foldl max 0)).foldl max 0
  let s := leastShift m (if r = 4 then 2 ^ 20 else 2 ^ 21) 4
  (xs.map (fun b => b.map (fun v => (roundDiv v.1 (2 ^ s), roundDiv v.2 (2 ^ s)))), s)

/-- A pass by decimation in frequency: every block of the frame becomes `r` blocks, one for each residue of the bin number modulo `r`. -/
def difPass (r : Nat) (xs : List (List (Int × Int))) : List (List (Int × Int)) :=
  xs.flatMap (fun b =>
    let m := b.length / r
    (List.range r).map (fun q => (List.range m).map (fun i =>
      twist (turnIndex (i * q) b.length) (butterfly ((List.range r).map (fun p => b.getD (i + p * m) (0, 0))) q))))

/-- The next `r` blocks become one, and so on. -/
def mergeBlocks (r : Nat) (f : List (List (Int × Int)) → List (Int × Int)) : Nat → List (List (Int × Int)) → List (List (Int × Int))
  | 0, _ => []
  | n + 1, xs => if xs.isEmpty then [] else f (xs.take r) :: mergeBlocks r f n (xs.drop r)

/-- A pass by decimation in time: `r` blocks become one. -/
def ditPass (r : Nat) (xs : List (List (Int × Int))) : List (List (Int × Int)) :=
  mergeBlocks r (fun bs =>
    let m := (bs.headD []).length
    (List.range r).flatMap (fun q => (List.range m).map (fun i =>
      butterfly ((bs.zipIdx).map (fun p => twist (turnIndex (i * p.2) (r * m)) (p.1.getD i (0, 0)))) q))) xs.length xs

/-- The passes in order, each after its shift: the blocks, and the exponent. -/
def passes (pass : Nat → List (List (Int × Int)) → List (List (Int × Int))) : List Nat → List (List (Int × Int)) → Nat → List (List (Int × Int)) × Nat
  | [], xs, e => (xs, e)
  | r :: rs, xs, e => passes pass rs (pass r (shiftFrame r xs).1) (e + (shiftFrame r xs).2)

/-- A number whose digits, the least significant first, are those of another in mixed radices, the most significant first. -/
def digitPos : List Nat → Nat → Nat → Nat
  | [], _, p => p
  | r :: rs, n, p => digitPos rs (n / r) (p * r + n % r)

/-- The transform of a frame of `2 ^ k` points, bin 0 first, and the exponent by which it is scaled down (R244, R245). The two orders of the work
give the same bins but for their roundings; no rule names the engine's (assumption 11). -/
def transform (k : Nat) (xs : List (Int × Int)) : List (Int × Int) × Nat :=
  let rs := radices k
  if Config.fftDif then
    let y := passes difPass rs [xs] 0
    let flat := y.1.flatten
    ((List.range (2 ^ k)).map (fun j => flat.getD (digitPos rs j 0) (0, 0)), y.2)
  else
    -- the points that come together in the last pass are those of equal residue modulo its radix
    let order := sortBy (fun p : Nat × (Int × Int) => p.1) ((xs.zipIdx).map (fun p => (digitPos rs.reverse p.2 0, p.1)))
    let y := passes ditPass rs (order.map (fun p => [p.2])) 0
    (y.1.flatten, y.2)

/-! ### Bins (R246) -/

/-- Component `v` of a bin in units of full-scale amplitude, as a fraction: `v × 2ᵉ / (N × CG × 2,097,088)`, with `s` the sum of the window's
coefficients in units of 2⁻¹⁷. -/
def binScale (e : Nat) (s : Int) : Frac := ⟨2 ^ (e + 17), (max 1 (2097088 * s)).toNat⟩

/-- A component as a mantissa of block exponent `bfe`. -/
def mantissa (scale : Frac) (bfe v : Int) : Int :=
  let e := 22 - bfe
  if 0 ≤ e then roundDiv (v * scale.num * 2 ^ e.toNat) scale.den else roundDiv (v * scale.num) (scale.den * 2 ^ (-e).toNat)

/-- The greatest `e` with `2 ^ e ≤ num / den`. -/
def fracLog2 (num den : Nat) : Int :=
  let e : Int := (num.log2 : Int) - den.log2
  if (if 0 ≤ e then decide (den * 2 ^ e.toNat ≤ num) else decide (den ≤ num * 2 ^ (-e).toNat)) then e else e - 1

/-- BFE and the mantissas: the largest component of the emitted bins from 2²² up to but not including 2²³; −128 and zeros
when every bin is 0 (R246). -/
def normalise (scale : Frac) (raw : List (Int × Int)) : Int × List (Int × Int) :=
  let top := (raw.map (fun p => max p.1.natAbs p.2.natAbs)).foldl max 0
  if top = 0 then (-128, raw.map (fun _ => (0, 0)))
  else
    let b := fracLog2 (top * scale.num.toNat) scale.den
    let b := if mantissa scale b (top : Int) < 2 ^ 23 then b else b + 1
    (b, raw.map (fun p => (mantissa scale b p.1, mantissa scale b p.2)))

/-- BFE and the emitted bins of a windowed frame (R244–R246, R252, R253). -/
def frameBins (w : List Word) (xs : List (Int × Int)) : Int × List (Int × Int) :=
  let n := tfN w
  -- a frame of zeros needs no transform: its bins are 0
  let y := if xs.all (fun p => decide (p.1 = 0 ∧ p.2 = 0)) then (xs, 0) else transform (fldAt w 0x08 4 0) xs
  normalise (binScale y.2 (if xs.all (fun p => decide (p.1 = 0 ∧ p.2 = 0)) then 1 else windowSum w))
    ((List.range (tfBinCount w)).map (fun (i : Nat) => y.1.getD ((tfBinLo w + (i : Int)) % (n : Int)).toNat (0, 0)))

end Sys2Proof.Machine
end

