-- ==== Sys2Proof/Machine/Transform.lean ====
section
/-!
DEFINITION. The Prism engines (R235–R270) and what their spectra, and the channels' time samples, give the consumers: the
trigger units, the capture writer, the density engine and the feeds of the trace processors (R242, R256, R476–R481).
-/

namespace Sys2Proof.Machine

def engReg (e off : Nat) : Nat := 0x470000 + 32 * e + off
def sectorReg (s off : Nat) : Nat := 0x471000 + 16 * s + off

/-- A physical engine before anything has changed it: engines 2s and 2s + 1 serve sector s, 16 and 17 are spares (R240). -/
def Engine.initial (e : Nat) : Engine := if e < 16 then { role := 0, sector := e / 2 } else { role := 1 }

def Dev.engine (d : Dev) (e : Nat) : Engine := Tbl.look (Engine.initial e) d.engines e
def Dev.setEngine (d : Dev) (e : Nat) (x : Engine) : Dev := { d with engines := Tbl.put e x d.engines }

/-! ### Reading a frame (R240, R241, R269) -/

/-- The tick D at which a frame's spectrum is delivered (R256). -/
def Frame.delivery (f : Frame) : Nat := f.c + f.a + engineLatency f.block.words

/-- The engines that serve a sector. -/
def Dev.sectorEngines (d : Dev) (sector : Nat) : Nat :=
  ((List.range 18).filter (fun e => decide ((d.engine e).role = 0) && decide ((d.engine e).sector = sector))).length

/-- Half-bursts of 8 samples that a sector reads in a tick: two, and one with one engine left, which is the limit of sum 3 then (R240, R269). -/
def Dev.sectorReads (d : Dev) (sector : Nat) : Nat := min 2 (d.sectorEngines sector)

/-- C + A. -/
def Frame.deadline (f : Frame) : Nat := f.c + f.a

/-- The frames of a sector's channels in a list of theirs for which `p` holds, each with its channel. -/
def Dev.framesOf (d : Dev) (sector : Nat) (list : Chan → List Frame) (p : Frame → Bool) : List (Nat × Frame) :=
  (d.chans.filter (fun x => decide (x.1 / 64 = sector))).flatMap (fun x => ((list x.2).filter p).map (fun f => (x.1, f)))

/-- A frame that cannot be read by its deadline is discarded (R269). -/
def Dev.lateFrame (d : Dev) (c : Nat) (f : Frame) : Dev :=
  let x := d.chan c
  let drop (l : List Frame) : List Frame := l.filter (fun g => decide (g ≠ f))
  ((d.setChan c ({ x with done := drop x.done, reading := drop x.reading } : Chan).freeRings).bump (sectorReg (c / 64) 0x08)).bump (xformReg c 0x08)

/-- The pair has `n` half-bursts of a frame left to read. -/
def Dev.setLeft (d : Dev) (c : Nat) (f : Frame) (n : Nat) : Dev :=
  let x := d.chan c
  d.setChan c ({ x with reading := x.reading.map (fun g => if g = f then { g with left := n } else g) } : Chan).freeRings

/-- The pair reads from half-burst number `p` of its time on until now, `rate` of them to a tick: the frame of least deadline first, ties to the lower
channel (the list rises by channel) and frame (R241). -/
def Dev.serveFrom (sector rate : Nat) : Nat → Nat → Dev → Dev
  | 0, _, d => d
  | n + 1, p, d =>
    match leastBy (fun (x : Nat × Frame) => x.2.deadline) (d.framesOf sector (·.reading) (fun f => decide (f.left ≠ 0))) with
    | none => d
    | some (c, f) =>
      let limit := rate * min d.cyc f.deadline
      if f.left ≤ limit - p then Dev.serveFrom sector rate n (p + f.left) (d.setLeft c f 0)
      else if f.deadline ≤ d.cyc then Dev.serveFrom sector rate n (max p limit) (d.lateFrame c f)
      else d.setLeft c f (f.left - (limit - p))

/-- The reads of a sector's pair up to the present cycle (R240, R241); a frame whose read has not begun by its deadline is late too. -/
def Dev.serve (d : Dev) (sector : Nat) : Dev :=
  let rate := d.sectorReads sector
  let due := d.framesOf sector (·.reading) (fun f => decide (f.left ≠ 0))
  let d := Dev.serveFrom sector rate due.length (rate * Tbl.look 0 d.pairAt sector) { d with pairAt := Tbl.put sector d.cyc d.pairAt }
  (d.framesOf sector (·.done) (fun f => decide (f.deadline ≤ d.cyc))).foldl (fun d p => d.lateFrame p.1 p.2) d

/-- The stored word of a sample (R204): 50 bits, of which the pair reads 8 bytes. -/
def stagedWord (o : ChanOut) : Nat := codeOf 24 o.i + 2 ^ 24 * codeOf 24 o.q + 2 ^ 48 * o.poison.toNat + 2 ^ 49 * o.ovr.toNat

/-- A sample as it is read, and what its bytes met: byte and verdict. `errs` are the upset bits, by byte of the frame (R395, R396). -/
def readStaged (light : Bool) (errs : List (Nat × Nat)) (k : Nat) (o : ChanOut) : ChanOut × List (Nat × Verdict) :=
  let hit := (List.range 8).filter (fun b => errs.any (fun e => decide (e.1 = 8 * k + b)))
  if hit.isEmpty then (o, [])
  else
    let bytes := (List.range 8).map (fun b =>
      facetRead light (stagedWord o / 256 ^ b % 256) ((errs.filter (fun e => decide (e.1 = 8 * k + b))).foldl (fun m e => m ^^^ e.2) 0))
    let w := (bytes.zipIdx.map (fun p => p.1.2 * 256 ^ p.2)).sum
    ({ o with i := signedOf 24 (w % 2 ^ 24), q := signedOf 24 (w / 2 ^ 24 % 2 ^ 24), poison := decide (w / 2 ^ 48 % 2 = 1), ovr := decide (w / 2 ^ 49 % 2 = 1) },
      hit.map (fun b => (8 * k + b, (bytes.getD b (.clean, 0)).1)))

/-- The samples of a frame as they are read from its ring. -/
def Frame.read (f : Frame) (r : Staging) (errs : List (Nat × Nat)) : List (ChanOut × List (Nat × Verdict)) :=
  (List.range (tfN f.block.words)).map (fun k => match r.at_ (f.first + k) with
    | some o => readStaged r.light errs k o
    | none => ({ i := 0, q := 0, poison := false, ovr := false, instant := ⟨0, 1⟩, due := 0 }, []))

/-- What the read of a ring's byte met is counted: a corrected byte, or, once for a line, a mark (R399, R401, R404). -/
def Dev.countStaged (d : Dev) (r : Staging) (first : Nat) (vs : List (Nat × Verdict)) : Dev :=
  let at_ (b : Nat) : Nat := r.addr (first + b / 8) (b % 8)
  (vs.foldl (fun (y : Dev × List Nat) p =>
    if p.2 = .corrected then (y.1.countCe 0 (at_ p.1 / 262144), y.2)
    else if p.2.marked && !(y.2.contains (at_ p.1 / 64)) then (y.1.countMark 0 1 (at_ p.1) (decide (p.2 = .poison)), (at_ p.1 / 64) :: y.2)
    else y) (d, [])).1

/-- FRAME_READ_START: the pair begins to read the frame of least deadline C + A, ties to the lower channel and frame; an engine of the pair will
transform it (R240, R241). `errs` are the bits of it that are upset in staging: byte of the frame, stored bits. -/
def Dev.frameRead (d : Dev) (sector engine : Nat) (errs : List (Nat × Nat)) : Dev :=
  let d := d.serve sector
  let e := d.engine engine
  if e.role ≠ 0 ∨ e.sector ≠ sector then d
  else match leastBy (fun (p : Nat × Frame) => p.2.deadline) (d.framesOf sector (·.done) (fun _ => true)) with
    | none => d
    | some (c, f) =>
      let x := d.chan c
      match x.ring f.ring with
      | none => d
      | some r =>
        let y := f.read r errs
        let vs := y.flatMap (·.2)
        let g := { f with samples := y.map (·.1), readError := vs.any (fun v => v.2.marked), left := tfN f.block.words / 8, engine := engine }
        (d.setChan c { x with done := x.done.filter (fun h => decide (h ≠ f)), reading := insertAfter Frame.delivery g x.reading }).countStaged r f.first vs

def execFrameReadStart (dt sector engine : Nat) (errs : List (Nat × Nat)) (s : State) : Host.Outcome State Fault Refusal :=
  onDev dt (fun d => d.frameRead sector engine errs) s

/-! ### The spectrum -/

/-- The spectrum of a frame, delivered at cycle `d` (R255, R263, R264). -/
def spectrumOf (c : Nat) (f : Frame) (checkFails : Bool) (d : Nat) : Spectrum :=
  let w := f.block.words
  let x := windowed w f.samples
  let b := frameBins w x.1
  let sample := f.samples.any (fun (o : ChanOut) => o.poison)
  { channel := c, block := f.block, stamp := f.stamp, seq := f.k % 2 ^ 32, bfe := b.1,
    poison := sample || f.readError || checkFails,
    ovr := x.2 || f.samples.any (fun (o : ChanOut) => o.ovr), restart := f.restart, tq := f.tq,
    poisonSrc := if sample then 1 else if f.readError then 2 else if checkFails then 3 else 0,
    d := d, bins := b.2 }

/-- Tick, from D, at which bin `j` leaves the engine (R256). -/
def binTick (w : List Word) (j : Int) : Nat := ((j + (tfN w / 2 : Nat)) / 8).toNat

/-- The tick at which a spectrum's next bin leaves. -/
def Spectrum.nextTick (x : Spectrum) : Nat := x.d + binTick x.block.words (tfBinLo x.block.words + (x.emitted : Int))

/-! ### Items of spectra and samples (R476, R478, R479) -/

/-- A new item at a feed, its slot chosen now (R481). -/
def TFeed.begin_ (x : TFeed) (w : List Word) (f bytes : Nat) (i : FeedItem) : TFeed :=
  { x with items := x.items ++ [{ i with slot := freeSlot (tbSlots w f) (tbSlotBase w f) bytes x }] }

/-- Size of an item of KIND 1 of a transform block (R476). -/
def spectrumItemBytes (tf : List Word) : Nat := 32 + ceilDiv (tfBinCount tf * binBytes (tfFormat tf)) 32 * 32

/-- The bytes of an item of KIND 1, its LOST field 0 (R478). -/
def spectrumItem (x : Spectrum) : List Byte :=
  let w := x.block.words
  padBytes (spectrumItemBytes w) (tagBytes x x.bfe x.poison x.ovr x.poisonSrc ++
    bytesOfWords [BitVec.ofNat 32 (fldAt w 0x0C 15 0), BitVec.ofNat 32 (tfBinCount w), 0, 0] ++ x.bins.flatMap (binOf (tfFormat w) x.bfe))

/-- Apply `g` to every running feed of `kind` and SOURCE `c`, given the binding, the feed number and the processor. -/
def Dev.onFeeds (d : Dev) (kind c : Nat) (g : List Word → Nat → Tp → TFeed → TFeed) : Dev :=
  { d with tps := d.tps.map (fun (p : Nat × Tp) =>
      match p.2.binding with
      | some w =>
        if p.2.feedsOn then
          (p.1, (List.range 8).foldl (fun (t : Tp) f =>
            if tbKind w f = kind ∧ tbSource w f = c then t.setFeed f (g w f t (t.feed f)) else t) p.2)
        else p
      | none => p) }

/-- A spectrum begins at the feeds that take it: SEQ a multiple of DECIM, stamped at or after the launch (R476, R487). -/
def Dev.feedSpectrum (d : Dev) (x : Spectrum) : Dev :=
  let w := x.block.words
  let due := x.d + binTick w (tfBinLo w + (tfBinCount w : Int) - 1) + 12
  d.onFeeds 1 x.channel (fun b f t q =>
    if x.seq % tbCount b f = 0 ∧ t.from_ ≤ x.stamp then
      q.begin_ b f (spectrumItemBytes w)
        { slot := 0, due := some due, stamp := x.stamp, bytes := spectrumItem x, poison := x.poison, ovr := x.ovr, restart := x.restart }
    else q)

/-- A word of R204 as 8 bytes. -/
def sampleWord (o : ChanOut) : List Byte :=
  bytes64 (stagedWord o)

/-- The finished bytes of an item of KIND 2 (R478). -/
def sampleItem (b : List Word) (f : Nat) (i : FeedItem) (seq : Nat) : List Byte :=
  padBytes (sampleItemBytes b f) (bytes64 i.stamp ++
    bytesOfWords [BitVec.ofNat 32 (i.words.length + 2 ^ 16 * i.poison.toNat + 2 ^ 17 * i.ovr.toNat + 2 ^ 18 * i.restart.toNat),
      BitVec.ofNat 32 seq, 0, 0, 0, 0] ++ i.words.flatten)

/-- A sample joins the item in progress of a KIND 2 feed, or begins one; the item is finished by its last sample (R479). -/
def TFeed.sample (x : TFeed) (b : List Word) (f from_ cycle : Nat) (o : ChanOut) : TFeed :=
  if Frac.lt o.instant (Frac.ofInt from_) then x
  else
    let fresh : FeedItem := { slot := 0, due := none, stamp := o.instant.floor.toNat, bytes := [] }
    let x := if x.items.any (fun (i : FeedItem) => i.due.isNone) then x else x.begin_ b f (sampleItemBytes b f) fresh
    { x with items := (x.items.zipIdx).map (fun (p : FeedItem × Nat) =>
        if p.1.due.isSome then p.1
        else
          let i := { p.1 with words := p.1.words ++ [sampleWord o], joined := cycle, poison := p.1.poison || o.poison, ovr := p.1.ovr || o.ovr }
          if i.words.length < tbCount b f then i
          else { i with due := some (cycle + 12), bytes := sampleItem b f i (x.seq + p.2), words := [] }) }

/-- A break of the channel ends the item in progress with BREAK (R479); its descriptor's tick is that of its last sample (R476). -/
def TFeed.break_ (x : TFeed) (b : List Word) (f : Nat) : TFeed :=
  { x with items := (x.items.zipIdx).map (fun (p : FeedItem × Nat) =>
      if p.1.due.isSome then p.1
      else
        let i := { p.1 with restart := true }
        { i with due := some (i.joined + 12), bytes := sampleItem b f i (x.seq + p.2), words := [] }) }

/-! ### Delivery (R242, R256) -/

/-- SPECTRUM_DELIVERY at D = C + A + L_N: the tag reaches the consumers; the counters advance (R263, R264, R270). -/
def Dev.deliverSpectrum (d : Dev) (c : Nat) (checkFails : Bool) : Dev :=
  let d := d.serve (c / 64)
  let ch := d.chan c
  match ch.reading with
  | [] => d
  | f :: rest =>
    let w := f.block.words
    if d.cyc < f.delivery ∨ f.left ≠ 0 then d
    else
      let x := spectrumOf c f checkFails d.cyc
      let d := d.setChan c { ch with reading := rest, spectra := insertAfter Spectrum.nextTick x ch.spectra }
      let d := d.bump64 (xformReg c 0x00)
      let d := if x.poison then d.bump (xformReg c 0x0C) else d
      let d := if x.ovr then d.bump (xformReg c 0x10) else d
      let d := if checkFails then d.bump (engReg f.engine 0x04) else d
      let d := d.bump64 (engReg f.engine 0x08)
      let d := if x.poison then d.densitySkip c x.stamp else d
      let d := d.maskFrames c x.stamp (fun b => {
        block := b, seq := x.seq, stamp := x.stamp, d := d.cyc, channel := c, n := tfN w, fch := f.fch,
        poison := decide (x.poisonSrc = 1 ∨ x.poisonSrc = 2), ovr := x.ovr, restart := x.restart, checkFails := checkFails })
      d.feedSpectrum x

def execSpectrumDelivery (dt c : Nat) (checkFails : Bool) (s : State) : Host.Outcome State Fault Refusal :=
  onDev dt (fun d => d.deliverSpectrum c checkFails) s

/-- BIN_EMISSION: the next bin of the channel's spectra leaves at its tick (no delivery waits for another, R258); the last one ends the spectrum, and the
capture writer has it whole (R253, R254, R256). -/
def Dev.emitBin (d : Dev) (c : Nat) : Dev :=
  let ch := d.chan c
  match ch.spectra with
  | [] => d
  | x :: rest =>
    let w := x.block.words
    let j := tfBinLo w + (x.emitted : Int)
    if d.cyc < x.nextTick then d
    else
      let m := x.bins.getD x.emitted (0, 0)
      let p := binPower x.bfe m
      let l := logBin p.num.toNat p.den
      let last := decide (x.bins.length ≤ x.emitted + 1)
      let d := d.setChan c { ch with spectra := if last then rest else insertBy Spectrum.nextTick { x with emitted := x.emitted + 1 } rest }
      let d := d.masks.foldl (fun d (u : Nat × MaskUnit) => d.maskBin u.1 c x.d j l) d
      let d := if x.poison then d else d.densityBin c x.stamp j l
      if last then d.reduce c (fun r rw level =>
        let r := if x.restart ∧ rdKind rw = 3 then r.break_ rw level else r
        r.spectrum rw level x) else d

def execBinEmission (dt c : Nat) (s : State) : Host.Outcome State Fault Refusal := onDev dt (fun d => d.emitBin c) s

/-- TIME_SAMPLE_DELIVERY: 8 ticks after its write a sample reaches the level and edge unit, the capture writer and the feeds
(R242). -/
def Dev.deliverTimeSample (d : Dev) (c : Nat) : Dev :=
  let ch := d.chan c
  match ch.pending with
  | [] => d
  | o :: rest =>
    if d.cyc < o.due then d
    else
      let d := d.setChan c { ch with pending := rest, since := if o.first then 1 else ch.since + 1 }
      let d := d.leSample c o
      -- the first output of a switched channel ends what was in progress (R327, R479)
      let d := d.reduce c (fun r rw level => (if o.first ∧ rdKind rw ≠ 3 then r.break_ rw level else r).sample rw level o)
      d.onFeeds 2 c (fun b f t q => (if o.first then q.break_ b f else q).sample b f t.from_ d.cyc o)

def execTimeSampleDelivery (dt c : Nat) (s : State) : Host.Outcome State Fault Refusal := onDev dt (fun d => d.deliverTimeSample c) s

end Sys2Proof.Machine
end

