-- ==== Sys2Proof/Machine/CapCtrl.lean ====
section
/-!
DEFINITION. The capture memory controller at work (R359–R390): periods, slots, refresh, power-down, training and retirement;
the write-back of corrections, the scrubbers and the rebuild of firmware's memory (R399–R408).
-/

namespace Sys2Proof.Machine

/-! ### Retirement (R376, R380–R386) -/

/-- The spare that is taken for a pseudo-channel: of its own stack, else the lowest-numbered (R381). -/
def Dev.chooseSpare (d : Dev) (x : Nat) : Option Nat :=
  let taken := d.cmc.retiring.filterMap (fun (r : Retire) => r.spare)
  let free := d.idleSpares.filter (fun s => !(taken.contains s))
  match free.find? (fun s => decide (s / 32 = x / 32)) with
  | some s => some s
  | none => free.head?

/-- The planned take-over in which a pseudo-channel takes part, as the old one or as the spare (R416). -/
def Dev.plannedOf (d : Dev) (x : Nat) : Option Takeover :=
  d.spares.running.find? (fun (t : Takeover) => decide (t.kind = 7 ∧ (t.unit = x ∨ t.spare = x)))

/-- The blocks that a planned take-over has copied and nothing has written since (R382). -/
def Dev.keptCopies (d : Dev) (l : Nat) : List Nat :=
  ((List.range (Tbl.look 0 d.cmc.copy l)).map (fun i => i * d.cmc.p + l)).filter (fun b => !(d.cmc.copyWritten.contains b))

/-- A planned take-over ends; its copy stops (R382). -/
def Dev.dropPlanned (d : Dev) (t : Takeover) : Dev :=
  let l := (d.pc t.unit).logical
  ({ d with spares := { d.spares with running := d.spares.running.filter (fun x => decide (x ≠ t)) } } : Dev).updCmc (fun c =>
    { c with copy := Tbl.drop l c.copy, copyWritten := c.copyWritten.filter (fun b => decide (b % c.p ≠ l)) })

/-- A pseudo-channel fails or is retired at the present tick: reads of its logical pseudo-channel return poison from now; the
blocks in the write buffer will go to the spare (R381). A failure during a planned take-over ends it, and what was copied stands
(R382). An idle spare that fails is only lost (R382). -/
def Dev.retirePc (d : Dev) (x cause : Nat) : Dev :=
  let p := d.pc x
  if p.role = 3 ∨ d.cmc.retiring.any (fun (r : Retire) => decide (r.phys = x)) then d
  else if p.role = 0 then
    let l := p.logical
    let waits := (d.cmc.wbuf.map (·.1)).filter (fun b => decide (d.pcOfBlock b = l))
    let planned := d.plannedOf x
    let spare := match planned with | some t => some t.spare | none => d.chooseSpare x
    let waits := match planned with | some _ => waits ++ d.keptCopies l | none => waits
    let d := match planned with | some t => d.dropPlanned t | none => d
    let r : Retire := { phys := x, logical := l, tf := d.now, cause := cause, spare := spare }
    let d := d.setPc x { p with train := none, setting := none }
    d.updCmc (fun c => { c with
      retiring := c.retiring ++ [r]
      poisonPcs := (l, waits) :: c.poisonPcs.filter (fun (q : Nat × List Nat) => decide (q.1 ≠ l)) })
  else
    let d := match d.plannedOf x with | some t => d.dropPlanned t | none => d
    let e : Retired := { kind := 7, cause := 2, unit := x, spare := none, tick := d.now }
    let d := { d with spares := { d.spares with retired := d.spares.retired ++ [e] } }
    let d := d.setPc x { p with role := 3, logical := 0xFF, train := none }
    -- a retirement that had taken it takes another
    let again := d.chooseSpare x
    let d := d.updCmc (fun c => { c with retiring := c.retiring.map (fun (r : Retire) => if r.spare = some x then { r with spare := again, redirected := false, launch := none } else r) })
    d.raise evPcRetired x (cause + 2 ^ 8 * 0xFF + 2 ^ 16 * 0xFFFF) d.now

/-- The redirection of the retirement in hand at a period boundary, and the launch that firmware places 150 ticks later
(R381, R383, R386): one retirement at a time. -/
def Dev.redirect (d : Dev) : Dev :=
  match d.cmc.retiring with
  | r :: rest =>
    -- the first boundary after t_f
    if r.redirected ∨ r.tf = d.now then d
    else
      let r' := { r with redirected := true, launch := some (d.now + scopeLead 0) }
      d.updCmc (fun c => { c with
        retiring := r' :: rest
        poisonPcs := if r.spare.isSome then c.poisonPcs
          else (r.logical, []) :: c.poisonPcs.filter (fun (q : Nat × List Nat) => decide (q.1 ≠ r.logical))
        wbuf := if r.spare.isSome then c.wbuf else c.wbuf.filter (fun (w : Nat × Nat) => decide (d.pcOfBlock w.1 ≠ r.logical)) })
  | [] => d

/-! ### Periods and slots -/

/-- The write buffer of a pseudo-channel drains to this physical one now: its own logical pseudo-channel, or the one it is
taking over from the redirection on. A channel under retirement drains nothing before (R381). -/
def Dev.drains (d : Dev) (x : Nat) : Option Nat :=
  match d.cmc.retiring.find? (fun (r : Retire) => decide (r.phys = x) || decide (r.spare = some x)) with
  | some r => if r.redirected && decide (r.spare = some x) then some r.logical else none
  | none => if (d.pc x).role = 0 then some (d.pc x).logical else none

/-- PERIOD_BOUNDARY: every 9,000 cycles settings apply, a trained setting and a compiled schedule come into force, and a
retirement redirects its writes (R365, R374, R379, R381). -/
def Dev.periodBoundary (d : Dev) : Dev :=
  if d.cyc % 9000 ≠ 0 then d
  else
    let nr := d.fld 0x4E2008 15 12
    let d := d.setFld 0x4E201C 13 0 (d.now % 9000)
    let d := d.updCmc (fun c => { c with
      pdIdle := d.fld 0x4E2008 11 0
      nrLog2 := if nr < 6 then 6 else if 12 < nr then 12 else nr
      pcs := c.pcs.map (fun (p : Nat × Pc) => (p.1, { p.2 with setting := none })) })
    let d := match d.cmc.schedNext with
      | some (t, n) => if t ≤ d.now then (d.updCmc (fun c => { c with schedNext := none })).setFld 0x4E200C 7 0 n else d
      | none => d
    d.redirect

def execPeriodBoundary (dt : Nat) (s : State) : Host.Outcome State Fault Refusal := onDev dt (fun d => d.periodBoundary) s

/-- SCHEDULED_SLOT: the oldest waiting block of the pseudo-channel moves to the DRAM (R364, R366). -/
def Dev.scheduledSlot (d : Dev) (x : Nat) : Dev :=
  match (if d.maySlot x .scheduled then d.drains x else none) with
  | some l =>
    match d.cmc.wbuf.find? (fun (w : Nat × Nat) => decide (d.pcOfBlock w.1 = l)) with
    | some w =>
      ((d.updCmc (fun c => { c with wbuf := c.wbuf.filter (fun (v : Nat × Nat) => decide (v.1 ≠ w.1)) })).useSlot x .scheduled).activate x (d.indexOfBlock w.1)
    | none => d
  | none => d

def execScheduledSlot (dt x : Nat) (s : State) : Host.Outcome State Fault Refusal := onDev dt (fun d => d.scheduledSlot x) s

/-- REFRESH_SLOT: one per-bank refresh of 8 rows (R370). Which rank it refreshes is not stated: a free value. -/
def Dev.refreshSlot (d : Dev) (x : Nat) : Dev :=
  if !d.maySlot x .refresh then d
  else
    let f := (d.useSlot x .refresh).fresh
    let p := f.2.pc x
    f.2.setPc x { p.touch (f.1.toNat % 2) f.2.cyc with refreshed := (p.refreshed + 1) % 65536 }

def execRefreshSlot (dt x : Nat) (s : State) : Host.Outcome State Fault Refusal := onDev dt (fun d => d.refreshSlot x) s

/-- A corrected block is written back from its queue (R399). -/
def Dev.writeBack (d : Dev) (x : Nat) : Dev :=
  let p := d.pc x
  match p.wbq with
  | (b, _) :: rest => (d.setPc x { p with wbq := rest }).activate x (d.indexOfBlock b)
  | [] => d

/-- NEIGHBOUR_REFRESH_SLOT: one queued neighbour refresh, else one queued correction (R371, R399). -/
def Dev.neighbourSlot (d : Dev) (x : Nat) : Dev :=
  if !d.maySlot x .neighbour then d
  else
    let d := d.useSlot x .neighbour
    let p := d.pc x
    match p.nrq with
    | i :: rest => (d.setPc x { p.touch (rankOf i) d.cyc with nrq := rest }).bump (pcReg x 0x18)
    | [] => d.writeBack x

def execNeighbourRefreshSlot (dt x : Nat) (s : State) : Host.Outcome State Fault Refusal := onDev dt (fun d => d.neighbourSlot x) s

/-- CE_WRITEBACK: the corrected block at a capture address leaves its queue (R399). -/
def Dev.ceWriteback (d : Dev) (addr : Nat) : Dev :=
  let b := addr / 512
  match d.physOf (d.pcOfBlock b) with
  | some x =>
    if (d.pc x).wbq.any (fun (w : Nat × Nat) => decide (w.1 = b)) then
      (d.dropWriteBack b).activate x (d.indexOfBlock b)
    else d
  | none => d

def execCeWriteback (dt addr : Nat) (s : State) : Host.Outcome State Fault Refusal := onDev dt (fun d => d.ceWriteback addr) s

/-- A line of a block that a planned take-over copies: corrected on the way; an uncorrectable one is copied as the poison pattern (R416, assumption
121). -/
def copyLine (errs : List Upset) (y : Dev × Mems) (line : Nat) : Dev × Mems :=
  match (y.1.lineData y.2.cap errs line).1 with
  | .corrected => (y.1.lineMet line 0 .corrected, y.2)
  | .uncorrectable => poisonLine line y
  | _ => y

/-- The logical pseudo-channel whose blocks a physical one holds now. -/
def Dev.pcServes (d : Dev) (x : Nat) : Option Nat :=
  match d.drains x with | some l => some l | none => if (d.pc x).role = 0 then some (d.pc x).logical else none

/-- The layer whose fetch waits on a pseudo-channel. -/
def Dev.fetchOn (d : Dev) (x : Nat) : Option Nat :=
  (List.range 3).find? (fun n => match d.fetchWant n with
    | some w => decide (d.pcServes x = some (d.pcOfBlock (w.1 / 512)))
    | none => false)

/-- A requester that outranks the scrubber waits on a pseudo-channel (R368). -/
def Dev.outranksScrub (d : Dev) (x : Nat) : Bool :=
  (d.fetchOn x).isSome || !(d.pc x).nrOver.isEmpty ||
    (match d.pcServes x with | some l => d.cmc.copy.any (fun (c : Nat × Nat) => decide (c.1 = l ∧ c.2 < 2 ^ 21)) | none => false)

/-- LEFTOVER_SLOT: the highest-ranked requester that waits on the pseudo-channel takes one block (R368, R369): scan-out in
panic, an overflowed neighbour refresh, scan-out, the copy of a take-over. Requests of the host and of block commands are
served whole within their own commands, and the scrubber by its own (assumption 16). -/
def leftoverSlot (x : Nat) (errs : List Upset) (z : Dev × Mems) : Dev × Mems :=
  let d := z.1.useSlot x .leftover
  let y := (d, z.2)
  let p := d.pc x
  let serves := d.pcServes x
  let want := d.fetchOn x
  let fetch (n : Nat) : Dev × Mems :=
    let i := match d.fetchWant n with | some w => d.indexOfBlock (w.1 / 512) | none => 0
    (((if d.cmc.panic then d.bump 0x4E2018 else d).activate x i).fetchBlock n y.2.cap errs, y.2)
  match want, p.nrOver with
  | some n, waits =>
    if d.cmc.panic || waits.isEmpty then fetch n
    else ((d.setPc x { p with nrOver := waits.tail }).bump (pcReg x 0x18), y.2)
  | none, i :: waits => ((d.setPc x { p.touch (rankOf i) d.cyc with nrOver := waits }).bump (pcReg x 0x18), y.2)
  | none, [] =>
    match serves with
    | some l =>
      match d.cmc.copy.find? (fun (c : Nat × Nat) => decide (c.1 = l)) with
      | some c =>
        if c.2 < 2 ^ 21 then
          -- the reads of one period are compared from the end of the copy on (R416)
          let began (t : Takeover) : Takeover := if t.kind = 7 ∧ (d.pc t.unit).logical = l then { t with began := d.cyc } else t
          let d := { d with spares := { d.spares with running := d.spares.running.map began } }
          let b := c.2 * d.cmc.p + l
          ((List.range 8).map (8 * b + ·)).foldl (copyLine errs) ((d.updCmc (fun m => { m with copy := Tbl.put l (c.2 + 1) m.copy })).activate x c.2, y.2)
        else z
      | none => z
    | none => z

def execLeftoverSlot (dt : Nat) (r : PcRead) (s : State) : Host.Outcome State Fault Refusal :=
  onAll dt (fun d m => if d.maySlot r.pc .leftover then leftoverSlot r.pc r.errs (d, m) else (d, m)) s

/-- RANK_POWER_DOWN: a rank to which no command has gone for PD_IDLE slots (R373). -/
def Dev.powerDown (d : Dev) (x rank : Nat) : Dev :=
  let p := d.pc x
  let idle := d.cmc.pdIdle * slotTicks d.cmc.rate
  if d.cmc.pdIdle = 0 then d
  else if rank = 0 then (if p.used0 + idle ≤ d.cyc then d.setPc x { p with pd0 := true } else d)
  else if rank = 1 then (if p.used1 + idle ≤ d.cyc then d.setPc x { p with pd1 := true } else d)
  else d

def execRankPowerDown (dt x rank : Nat) (s : State) : Host.Outcome State Fault Refusal := onDev dt (fun d => d.powerDown x rank) s

/-- STACK_TEMPERATURE_SAMPLE: above 85 °C the 16 ms rate, at 83 °C or below the 32 ms rate (R370). -/
def Dev.stackTemp (d : Dev) (stack : Nat) (t : Int) : Dev :=
  let d := d.updCmc (fun c => { c with temps := Tbl.put stack t c.temps })
  ((List.range 32).map (32 * stack + ·)).foldl (fun d x =>
    let p := d.pc x
    if 85 < t then d.setPc x { p with hot := true } else if t ≤ 83 then d.setPc x { p with hot := false } else d) d

def execStackTemperatureSample (dt stack : Nat) (t : Int) (s : State) : Host.Outcome State Fault Refusal :=
  onDev dt (fun d => if stack < 6 then d.stackTemp stack t else d) s

/-! ### Training (R375–R380, R390) -/

def Dev.stackTempOf (d : Dev) (x : Nat) : Int := Tbl.look 0 d.cmc.temps (x / 32)

/-- A setting has margin: each eye at least 0.15 UI wide and 30 mV high (R379). 0.15 UI at the rate of 9.6, 7.2 or 4.8 Gb/s, in
tenths of ps × Gb/s. -/
def rateTenths (rate : Nat) : Nat := if rate = 0 then 96 else if rate = 1 then 72 else 48
def hasMargin (rate w h : Nat) : Bool := decide (1500 ≤ w * rateTenths rate ∧ 30 ≤ h)
/-- The margin lies within 10 % of the minimum (R390). -/
def nearMargin (rate w h : Nat) : Bool := decide (w * rateTenths rate ≤ 1650 ∨ h ≤ 33)

/-- RETRAIN_START: cause 2 when the stack has moved by 10 °C or more since the last training, 3 after a crossing of the error
threshold, else periodic, which comes once in each second (R379, assumption 97). -/
def Dev.retrainStart (d : Dev) (x : Nat) : Dev :=
  let p := d.pc x
  if (p.role ≠ 0 ∧ p.role ≠ 1) ∨ p.train.isSome ∨ d.cmc.relock.isSome then d
  else
    let moved := decide (10 ≤ (d.stackTempOf x - p.trainTemp).natAbs)
    let err := d.mc.crossed.any (fun (c : Nat × Nat × Nat) => decide (c.1 = 7 ∧ c.2.1 = x ∧ c.2.2 = 0))
    let sec := d.cyc / 3000000000 + 1
    if !moved && !err && decide (p.trainSec = sec) then d
    else d.setPc x { p with train := some { cause := if moved then 2 else if err then 3 else 0 }, trainSec := if moved || err then p.trainSec else sec }

def execRetrainStart (dt x : Nat) (s : State) : Host.Outcome State Fault Refusal := onDev dt (fun d => d.retrainStart x) s

/-- EV_RETRAIN (R389). -/
def Dev.retrainEvent (d : Dev) (x cause w h : Nat) : Dev := d.raise evRetrain x (cause + 2 ^ 8 * d.cmc.rate) (w % 2 ^ 16 + 2 ^ 16 * (h % 2 ^ 16))

/-- A rate change takes effect: every training stops, and the PHY relocks (R377). -/
def Dev.startRelock (d : Dev) (rate : Nat) : Dev :=
  d.updCmc (fun c => { c with relock := some rate, rateReq := none, pcs := c.pcs.map (fun (p : Nat × Pc) => (p.1, { p.2 with train := none })) })

/-- Some step gathers data. -/
def Dev.gathering (d : Dev) : Bool :=
  d.cmc.pcs.any (fun (p : Nat × Pc) => match p.2.train with | some t => t.gathering | none => false)

/-- A step ends while a rate change waits for it: its data are discarded, and the last of the steps that gather lets the change take
effect (R377). -/
def Dev.discardStep (d : Dev) (x : Nat) (t : Training) (rate : Nat) : Dev :=
  let d := ((d.setPc x { d.pc x with train := some { t with gathering := false } }).bump (pcReg x 0x0C)).retrainEvent x 4 t.eyeW t.eyeH
  if d.gathering then d else d.startRelock rate

/-- The MC requests a rate (R375, R377): at once when no step gathers and no relock runs; a request during a relock replaces
the pending one. -/
def Dev.requestRate (d : Dev) (rate : Nat) : Dev :=
  if d.cmc.relock.isSome || d.gathering then d.updCmc (fun c => { c with rateReq := some rate }) else d.startRelock rate

/-- A pseudo-channel found no setting: before READY it is noted for R375, else its retraining has failed (R380). -/
def Dev.trainingFailed (d : Dev) (x : Nat) : Dev :=
  let d := d.setPc x { d.pc x with train := none }
  if d.fw.stage = 0x3F then d.retirePc x 1
  else
    let d := { d with pwr := { d.pwr with untrained := if d.pwr.untrained.contains x then d.pwr.untrained else x :: d.pwr.untrained } }
    let all := ((List.range 32).map (32 * (x / 32) + ·)).all (fun y => d.pwr.untrained.contains y || decide ((d.pc y).role = 3))
    if all && decide (d.cmc.rate < 2) then d.requestRate (d.cmc.rate + 1) else d

/-- A training ends with a setting: it has margin, or the training fails (R379, R390). -/
def Dev.trainingDone (d : Dev) (x : Nat) (t : Training) : Dev :=
  if hasMargin d.cmc.rate t.eyeW t.eyeH then
    let p := d.pc x
    let d := d.setPc x { p with train := none, setting := some t, trainTemp := d.stackTempOf x }
    let d := (d.setReg (pcReg x 0x04) (Word.place 15 0 t.eyeW ||| Word.place 31 16 t.eyeH)).setReg64 (pcReg x 0x10) d.clk.count
    -- the training of bring-up is no retraining
    if d.fw.stage ≠ 0x3F then d
    else
    let d := d.bump (pcReg x 0x08)
    if t.cause ≠ 0 then d.retrainEvent x t.cause t.eyeW t.eyeH
    else if nearMargin d.cmc.rate t.eyeW t.eyeH then d.retrainEvent x 5 t.eyeW t.eyeH
    else d
  else d.trainingFailed x

/-- TRAINING_STEP_END: the four steps in turn; a step whose data cannot be used is repeated, up to three times; a pending rate
change acts here (R377, R379). -/
def Dev.trainingStepEnd (d : Dev) (x w h : Nat) (ok : Bool) : Dev :=
  match (d.pc x).train with
  | none => d
  | some t =>
    match d.cmc.rateReq, d.cmc.relock with
    | some r, none => if t.gathering then d.discardStep x t r else d
    | _, _ =>
      if !ok then
        if 3 ≤ t.tries then d.trainingFailed x
        else (d.setPc x { d.pc x with train := some { t with tries := t.tries + 1 } }).bump (pcReg x 0x0C)
      else
        let t := { t with step := t.step + 1, tries := 0, eyeW := min t.eyeW w, eyeH := min t.eyeH h }
        if t.step < 4 then d.setPc x { d.pc x with train := some t } else d.trainingDone x t

def execTrainingStepEnd (dt x eyeW eyeH : Nat) (ok : Bool) (s : State) : Host.Outcome State Fault Refusal :=
  onDev dt (fun d => d.trainingStepEnd x eyeW eyeH ok) s

/-- PHY_RELOCK_DONE: training restarts from its first step on every stack at the newest rate requested (R377). -/
def Dev.relockDone (d : Dev) : Dev :=
  match d.cmc.relock with
  | none => d
  | some r =>
    let d := d.updCmc (fun c => { c with rate := r, relock := none })
    let newer := match d.cmc.rateReq with | some r' => if r' = r then none else some r' | none => none
    match newer with
    | some r' => d.startRelock r'
    | none =>
      let d := ({ d with pwr := { d.pwr with untrained := [] } } : Dev).updCmc (fun c => { c with rateReq := none })
      (List.range 192).foldl (fun (d : Dev) x =>
        let p := d.pc x
        if p.role = 0 ∨ p.role = 1 then d.setPc x { p with train := some { cause := 0 } } else d) d

def execPhyRelockDone (dt : Nat) (s : State) : Host.Outcome State Fault Refusal := onDev dt (fun d => d.relockDone) s

/-! ### The scrubbers (R405–R408) -/

/-- A scrubber has poisoned a line or byte: SCRUB_UE, the log, and EV_SCRUB_POISON at the threshold (R408). -/
def Dev.scrubPoison (d : Dev) (g addr : Nat) : Dev :=
  let d := (d.bump (regStat g 0x0C)).logOnly 0x1002 1 0 (unit := g) (data := addr)
  let n := (d.reg (regStat g 0x0C)).toNat
  let thr := d.fld (regStat g 0x1C) 15 0
  let r := d.region g
  if decide (thr ≠ 0) && decide (thr ≤ n) && !r.scrubRaised then
    (d.setRegion g { r with scrubRaised := true }).raise evScrubPoison g n addr
  else d

/-- One line under the capture scrubber. -/
def scrubLine (x : Nat) (errs : List Upset) (y : Dev × Mems) (line : Nat) : Dev × Mems :=
  let d := y.1
  let a := 64 * line
  let g := d.regionAt a
  match (d.lineData y.2.cap errs line).1 with
  | .clean => y
  | .poison => (d.bump (regStat g 0x10), y.2)
  | .corrected => (d.countCe g x, y.2)
  | .uncorrectable =>
    let z := poisonLine line y
    ((z.1.scrubPoison g a).updCmc (fun c => { c with scrubFound := c.scrubFound + 1 }), z.2)

/-- The position advances when every active pseudo-channel and every idle spare has passed it; a lap ends as it wraps (R405,
R406). -/
def Dev.scrubAdvance (d : Dev) (x : Nat) : Dev :=
  let done := if d.cmc.scrubDone.contains x then d.cmc.scrubDone else x :: d.cmc.scrubDone
  let all := (List.range 192).all (fun y => decide ((d.pc y).role ≠ 0 ∧ (d.pc y).role ≠ 1) || done.contains y)
  if !all then d.updCmc (fun c => { c with scrubDone := done })
  else
    let period := d.cyc / 9000
    let d := d.updCmc (fun c => { c with
      scrubDone := []
      scrubPeriod := period
      scrubCount := if c.scrubPeriod = period then c.scrubCount + 1 else 1
      scrubPos := (c.scrubPos + 1) % 2 ^ 21 })
    if d.cmc.scrubPos ≠ 0 then d
    else
      let ms := (d.clk.time - d.cmc.scrubAt) / 3000000
      let found := d.cmc.scrubFound
      let d := (d.setReg 0x510004 (BitVec.ofNat 32 ms)).bump 0x510008
      (d.updCmc (fun c => { c with scrubAt := d.clk.time, scrubFound := 0 })).raise evScrubLap 0 ms found

/-- CAPTURE_SCRUB_READ: physical pseudo-channel `x` at the present position (R405). -/
def captureScrub (x : Nat) (errs : List Upset) (y : Dev × Mems) : Dev × Mems :=
  let d := y.1
  let p := d.pc x
  let max := d.fld 0x510000 9 4
  if (p.role ≠ 0 ∧ p.role ≠ 1) ∨ 191 < x ∨ d.cmc.scrubDone.contains x ∨ max = 0 ∨
      (d.cmc.scrubPeriod = d.cyc / 9000 ∧ min max 32 ≤ d.cmc.scrubCount) ∨ ¬ d.maySlot x .leftover ∨ d.outranksScrub x then y
  else if p.role = 1 then (((d.useSlot x .leftover).activate x d.cmc.scrubPos).scrubAdvance x, y.2)
  else
    let b := d.cmc.scrubPos * d.cmc.p + p.logical
    if d.cmc.wbuf.any (fun (w : Nat × Nat) => decide (w.1 = b)) then (d.scrubAdvance x, y.2)
    else
      let z := ((List.range 8).map (8 * b + ·)).foldl (scrubLine x errs) ((d.useSlot x .leftover).activate x d.cmc.scrubPos, y.2)
      (z.1.scrubAdvance x, z.2)

def execCaptureScrubRead (dt x : Nat) (errs : List Upset) (s : State) : Host.Outcome State Fault Refusal :=
  onAll dt (fun d m => captureScrub x errs (d, m)) s

/-- Lines of 64 bytes of the strong-code Facet regions 1 to 4 (R391). -/
def facetLines (g : Nat) : Nat :=
  (if g = 1 then 32 else if g = 2 then 17 else if g = 3 then 8 else if g = 4 then 7 else 0) * 2 ^ 14

/-- The data byte at an address of a strong-code Facet region: a density plane's word, a trace processor's local memory; what the other regions hold
there is free (assumption 121). -/
def Dev.facetData (d : Dev) (m : Mems) (g a : Nat) : Nat :=
  if g = 1 then Tbl.look 0 (d.feed (a / 2 ^ 22)).cells (a % 2 ^ 22 / 4) / 256 ^ (a % 4) % 256
  else if g = 2 then (m.tp.read a).toNat
  else (Config.freeValue d.free).toNat % 256

/-- The bank of a byte of a Facet region (assumption 60). -/
def facetBank (g a : Nat) : Nat := (if g = 1 then 512 else if g = 2 then 640 else if g = 3 then 708 else if g = 4 then 740 else 0) + a / 262144

/-- One byte under the Facet scrubber, whose stored bits of `mask` are upset (R394, R396, R408). -/
def facetByte (g : Nat) (errs : List (Nat × Nat)) (y : Dev × Mems) (a : Nat) : Dev × Mems :=
  let d := y.1
  let mask := (errs.filter (fun e => decide (e.1 = a % 64))).foldl (fun m e => m ^^^ e.2) 0
  if d.facetMarked g a && decide (mask = 0) then (d.bump (regStat g 0x10), y.2)
  else
    let v := if d.facetMarked g a then (facetDecode false (facetPoison false ^^^ mask)).1 else (facetRead false (d.facetData y.2 g a) mask).1
    let d := if mask = 0 then d else { d with free := d.free + 1 }
    match v with
    | .clean => (d, y.2)
    | .poison => (d.bump (regStat g 0x10), y.2)
    | .corrected => (d.countCe g (facetBank g a), y.2)
    | .uncorrectable =>
      let d := d.updCmc (fun c => { c with facet := if c.facet.contains (g, a) then c.facet else (g, a) :: c.facet, facetFound := c.facetFound + 1 })
      (d.scrubPoison g a, if g = 2 then { y.2 with tp := y.2.tp.clear a 1 } else y.2)

/-- FACET_SCRUB_READ: one line of a strong-code region, at most one of a bank in 16,384 CLK_ARRAY cycles; the lap ends with the last line of region 4 (R407, assumption 44). `errs` are the upset bits,
by byte of the line. -/
def facetScrub (g line : Nat) (errs : List (Nat × Nat)) (y : Dev × Mems) : Dev × Mems :=
  let bank := facetBank g (64 * line)
  if facetLines g ≤ line ∨ y.1.fld 0x510000 1 1 = 0 ∨ y.1.cyc < Tbl.look 0 y.1.cmc.facetNext bank then y
  else
    let z := ((List.range 64).map (64 * line + ·)).foldl (facetByte g errs)
      (y.1.updCmc (fun c => { c with facetNext := Tbl.put bank (y.1.cyc + 32768) c.facetNext }), y.2)
    if g ≠ 4 ∨ line + 1 ≠ facetLines 4 then z
    else
      let d := z.1
      let us := (d.clk.time - d.cmc.facetAt) / 3000
      let found := d.cmc.facetFound
      (((d.setReg 0x510010 (BitVec.ofNat 32 us)).updCmc (fun c => { c with facetAt := d.clk.time, facetFound := 0 })).raise evScrubLap 1 us found, z.2)

def execFacetScrubRead (dt g line : Nat) (errs : List (Nat × Nat)) (s : State) : Host.Outcome State Fault Refusal :=
  onAll dt (fun d m => facetScrub g line errs (d, m)) s

end Sys2Proof.Machine
end

