-- ==== Sys2Proof/Machine/Ingress.lean ====
section
/-!
DEFINITION. Ingress (R153–R193, R647): PSL frames and groups, JESD204C multiblocks, the Splitter, substitutes, and the
on-die converters. Receiver and slice spares are in Sparing.
-/

namespace Sys2Proof.Machine

def padReg (p off : Nat) : Nat := 0x400000 + 16 * p + off
def streamReg (s off : Nat) : Nat := 0x410000 + 32 * s + off
def ainReg (n off : Nat) : Nat := 0x420000 + 32 * n + off

/-- Pad `p`, served by receiver `p` unless a spare has taken over (R153). -/
def Dev.pad (d : Dev) (p : Nat) : Pad := Tbl.look { rx := p } d.pads p
def Dev.setPad (d : Dev) (p : Nat) (x : Pad) : Dev := { d with pads := Tbl.put p x d.pads }
def Dev.stream (d : Dev) (s : Nat) : Stream := Tbl.look ({} : Stream) d.streams s
def Dev.setStream (d : Dev) (s : Nat) (x : Stream) : Dev := { d with streams := Tbl.put s x d.streams }
def Dev.jlink (d : Dev) (l : Nat) : JesdLink := Tbl.look ({} : JesdLink) d.jesd l
def Dev.setJlink (d : Dev) (l : Nat) (x : JesdLink) : Dev := { d with jesd := Tbl.put l x d.jesd }
def Dev.ainOf (d : Dev) (n : Nat) : Ain := Tbl.look ({} : Ain) d.ain n
def Dev.setAin (d : Dev) (n : Nat) (x : Ain) : Dev := { d with ain := Tbl.put n x d.ain }

/-! ### The route block (R187) -/

def rtKind (w : List Word) : Nat := fldAt w 0x08 1 0
def rtReal (w : List Word) : Bool := bitAt w 0x08 2
def rtSender (w : List Word) : Bool := bitAt w 0x08 4
def rtLane (w : List Word) : Nat := fldAt w 0x08 14 8
def rtBond (w : List Word) : Nat := 2 ^ fldAt w 0x08 18 16
def rtLink (w : List Word) : Nat := fldAt w 0x08 24 20
def rtConv (w : List Word) : Nat := fldAt w 0x08 29 26
def rtRate (w : List Word) : Nat := (dwAt w 0x0C).toNat
def rtDest (w : List Word) : Nat := (qAt w 0x10).toNat
def rtLatency (w : List Word) : Nat := fldAt w 0x18 15 0
def rtDrift (w : List Word) : Nat := fldAt w 0x18 31 16
def rtL (w : List Word) : Nat := 2 ^ fldAt w 0x1C 1 0
def rtM (w : List Word) : Nat := fldAt w 0x1C 5 2 + 1
def rtBits (w : List Word) : Nat := fldAt w 0x1C 9 6 + 1
def rtCs (w : List Word) : Nat := fldAt w 0x1C 11 10
def rtE (w : List Word) : Nat := fldAt w 0x1C 20 16 + 1
def rtCsOvr (w : List Word) : Bool := bitAt w 0x1C 21
def rtLaneBase (w : List Word) : Nat := fldAt w 0x1C 29 23
def rtRelease (w : List Word) : Nat := fldAt w 0x20 15 0
/-- The source of SYSREF: 0 the SYSREF pins, 1 + k marker input k (R171). -/
def rtSysref (w : List Word) : Nat := if bitAt w 0x20 20 then 1 + fldAt w 0x20 19 16 else 0
def rtOneshot (w : List Word) : Bool := bitAt w 0x20 21
def rtMbps (w : List Word) : Nat := fldAt w 0x24 15 0
def rtDeskew (w : List Word) : Nat := fldAt w 0x24 18 16
def rtOvrEv (w : List Word) : Bool := bitAt w 0x28 1

/-- The words of the route in force for a stream, none when it is not routed (R186). -/
def Stream.rt (x : Stream) : Option (List Word) := x.route.map (fun p => p.2.words)

/-- The instant `n` positions after `base` at a rate in kCS/s (R164). -/
def instantFrom (base : Int) (n : Int) (rate : Frac) : Frac :=
  Frac.add (Frac.ofInt base) (Frac.div (Frac.ofInt (3000000 * n)) rate)

/-- Instant of position `n` of a stream at `rate` kCS/s (R164). -/
def Stream.instantOf (x : Stream) (rate n : Nat) : Frac := instantFrom x.base ((n : Int) - (x.posBase : Int)) (Frac.ofInt rate)

/-- The rate at which the positions of a route's stream stand: RATE_KCS, for JESD204C the exact converter rate (R164, R169, R173). -/
def rtExact (w : List Word) : Frac :=
  if rtKind w = 1 then Frac.div (Frac.ofInt (rtL w * rtMbps w * 64000)) (Frac.ofInt (1056 * rtM w * (if rtReal w then 2 else 1)))
  else Frac.ofInt (rtRate w)

/-- Instant of position `n` of a stream under a route. -/
def Stream.instantAt (x : Stream) (w : List Word) (n : Nat) : Frac := instantFrom x.base ((n : Int) - (x.posBase : Int)) (rtExact w)

/-! ### CRC-32 (R157): IEEE 802.3, reflected, initial and final all ones -/

def crcWord (c : BitVec 32) (w : Word) : BitVec 32 := (List.range 32).foldl (fun c i => crcBit c (w.getLsbD i)) c

def crc32 (ws : List Word) : BitVec 32 := ~~~ (ws.foldl crcWord 0xFFFFFFFF)

/-- The dwords of a frame, each LSB first, through the self-synchronising descrambler x⁵⁸ + x³⁹ + 1 (R158): a bit out is the bit in, plus the
bits in that came 39 and 58 before it. `h` holds the last 58 bits in, the newest uppermost. -/
def descramble : Nat → List Word → List Word × Nat
  | h, [] => ([], h)
  | h, w :: t =>
    let cat := h + w.toNat * 2 ^ 58
    let r := descramble (cat / 2 ^ 32) t
    (BitVec.ofNat 32 (cat / 2 ^ 58 ^^^ cat / 2 ^ 19 ^^^ cat) :: r.1, r.2)

/-! ### PSL frames (R157–R163) -/

/-- SYNC and CRC hold. -/
def pslValid (ws : List Word) : Bool :=
  decide (ws.length = 168) && decide (fldAt ws 0x000 11 0 = 0xA5C) && decide (crc32 (ws.take 167) = dwAt ws 0x29C)

/-- Alignment of a receiver by one frame (R158); whether it lost alignment. -/
def Pad.align (p : Pad) (valid : Bool) : Pad × Bool :=
  if p.aligned then
    if valid then ({ p with bad := 0 }, false)
    else if p.bad + 1 ≥ 8 then ({ p with aligned := false, bad := 0, good := 0 }, true)
    else ({ p with bad := p.bad + 1 }, false)
  else if valid then
    if p.good + 1 ≥ 4 then ({ p with aligned := true, everAligned := true, good := 0, bad := 0 }, false)
    else ({ p with good := p.good + 1 }, false)
  else ({ p with good := 0 }, false)

/-- Event of a stream: EV_JESD_LINK of its link for a JESD route, EV_PSL_STREAM for one of pads; the streams of converters have none (R189, R193,
R201). -/
def Dev.streamEvent (d : Dev) (s cause data : Nat) : Dev :=
  match (d.stream s).rt with
  | some w =>
    if rtKind w = 1 then d.raise (evJesdLink + rtLink w) (rtLink w) cause data
    else if rtKind w = 2 then d
    else d.raise evPslStream s cause data
  | none => d.raise evPslStream s cause data

/-- A good frame of a routed stream: noted, and a DATA frame held for its group (R162, R163). A frame that comes too long after the frame of
BPOS 0 is lost; the loss is counted as its group is released, or was. -/
def Dev.pslGood (d : Dev) (pad s : Nat) (w : List Word) (ws : List Word) : Dev :=
  let x := d.stream s
  if rtLane w + fldAt ws 0 23 20 ≠ pad ∨ bitAt ws 0 16 ≠ rtReal w then d.bump (padReg pad 0x04)
  else if fldAt ws 0 15 12 = 1 then d.setStream s { x with lastGood := d.cyc }
  else
    let arrive := d.cyc - 144
    let f : PslHeld := { bpos := fldAt ws 0 23 20, seq := fldAt ws 4 15 0, real := rtReal w, ovr := bitAt ws 0 17, bad := bitAt ws 0 18,
                         time := qAt ws 0x08, arrive := arrive, data := (ws.drop 4).take 163 }
    let released := match x.lastGroup with
      | some (q, a) => if q = f.seq ∧ x.anchored ∧ rtDeskew w ≠ 0 then some a else none
      | none => none
    let skew := match released, x.held.find? (fun h => decide (h.seq = f.seq ∧ h.bpos = 0)) with
      | some a, _ => arrive - a
      | none, some h => arrive - h.arrive
      | none, none => 0
    let d := d.setStream s { x with lastGood := d.cyc }
    if rtDeskew w ≠ 0 ∧ (released.isSome ∨ skew > rtDeskew w * 144 - 24) then d.raise evPslStream s 5 skew
    else d.setStream s { d.stream s with held := (d.stream s).held ++ [f] }

/-- The receiver has been retired with no spare to take its place (R198, R419). -/
def Dev.rxDead (d : Dev) (rx : Nat) : Bool := d.spares.retired.any (fun (r : Retired) => decide (r.kind = 0 ∧ r.unit = rx))

/-- A whole PSL frame at a pad, as the lane carries it: scrambled (R158, R159, R163). -/
def Dev.pslFrame (d : Dev) (pad : Nat) (wire : List Word) : Dev :=
  let u := descramble (d.pad pad).scr wire
  let ws := u.1
  let p : Pad := { d.pad pad with scr := u.2 }
  if p.mode ≠ 1 || d.rxDead p.rx then d.setPad pad p
  else
    let valid := pslValid ws
    let a := p.align valid
    let d := d.setPad pad { a.1 with lastBad := !valid || decide (2 ≤ fldAt ws 0 15 12) }
    let d := if a.2 then ((d.bumpFld (padReg pad 0x0C) 15 0)).raise (evLaneFault + p.rx) p.rx 1 pad else d
    if !p.aligned then (if p.everAligned then d.bump (padReg pad 0x04) else d)
    else if !valid || decide (2 ≤ fldAt ws 0 15 12) then d.bump (padReg pad 0x04)
    else
      let s := fldAt ws 0 31 24
      if fldAt ws 0 15 12 = 1 ∧ s = 0xFF then d
      else match (d.stream s).rt with
        | some w => if rtKind w = 0 ∧ rtLane w ≤ pad ∧ pad < rtLane w + rtBond w then d.pslGood pad s w ws
                    else d.bumpSat (padReg pad 0x0C) 31 16
        | none => d.bumpSat (padReg pad 0x0C) 31 16

def execPslFrame (dt pad : Nat) (words : List Word) (s : State) : Host.Outcome State Fault Refusal :=
  onDev dt (fun d => d.pslFrame pad words) s

/-! ### Real to complex (R179, R180) -/

/-- Real sample `n` mixed by −fs/4. -/
def mixQuarter (n : Nat) (v : Int) : Int × Int :=
  if n % 4 = 0 then (v, 0) else if n % 4 = 1 then (0, -v) else if n % 4 = 2 then (-v, 0) else (0, v)

/-- A component saturated to 16 bits. -/
def sat16 (v : Int) : Int := clampInt (-32768) 32767 v

/-- A complex sample that the real-to-complex filter gives. -/
structure RealOut where
  i : Int
  q : Int
  ovr : Bool
  poison : Bool
  lost : Bool
  pos : Nat
  instant : Frac

/-- A real sample into a stream's halfband: the complex sample centred 23 samples back, when that one is even-numbered and was taken (R179).
One centred on a lost real sample is a zero-valued substitute (R191). -/
def Stream.pushReal (x : Stream) (v : Int) (ovr poison lost : Bool) (instant : Frac) : Stream × Option RealOut :=
  let n := x.realCount
  let m := mixQuarter n v
  let real := (({ i := m.1, q := m.2, ovr := ovr, poison := poison, lost := lost, instant := instant } : RealIn) :: x.real).take 47
  let x := { x with real := real, realCount := n + 1 }
  if real.length < 24 ∨ (n - 23) % 2 ≠ 0 then (x, none)
  else
    let cs := (List.range 47).map (fun i => coefAt (0x600480 + 4 * min i (46 - i)))
    let acc := (cs.zip real).foldl (fun (a : Int × Int) p => (a.1 + p.1 * p.2.i, a.2 + p.1 * p.2.q)) (0, 0)
    let gone := match real[23]? with | some r => r.lost | none => false
    let at_ := match real[23]? with | some r => r.instant | none => ⟨0, 1⟩
    (x, some { i := if gone then 0 else sat16 (roundDiv (2 * acc.1) (2 ^ 18)), q := if gone then 0 else sat16 (roundDiv (2 * acc.2) (2 ^ 18)),
               ovr := !gone && real.any (fun r => r.ovr), poison := real.any (fun r => r.poison || r.lost), lost := gone, pos := (n - 23) / 2, instant := at_ })

/-! ### Into the Splitter -/

/-- A position of a stream enters the Splitter. A substitute is counted as it does (R200). -/
def Dev.intoSplitter (d : Dev) (s : Nat) (e : InSplitter) : Dev :=
  let x := d.stream s
  d.setStream s { x with fifo := x.fifo ++ [e], nextPos := max x.nextPos (e.pos + 1) }

/-- A substitute for position `n`, stamped `t`: a zero-valued, poison-marked sample, counted (R191); none for a position already substituted. -/
def Dev.substitute (d : Dev) (s : Nat) (w : List Word) (n : Nat) (t : Frac) : Dev :=
  if n < (d.stream s).nextPos then d
  else
    (d.intoSplitter s { smp := { i := 0, q := 0, poison := true, ovr := false, instant := t }, pos := n, anchor := false, sub := true,
                        enter := d.cyc, dest := rtDest w }).bump64 (streamReg s 0x08)

/-- A real sample of a pad's stream enters the real-to-complex filter; what it completes enters the Splitter `wait` ticks on. -/
def Dev.enterReal (d : Dev) (s : Nat) (w : List Word) (v : Int) (ovr poison lost : Bool) (anchorPos wait : Nat) : Dev :=
  let x := d.stream s
  let r := x.pushReal v ovr poison lost (x.instantAt w (x.realCount / 2))
  let d := d.setStream s r.1
  match r.2 with
  | some o =>
    if o.lost then d.substitute s w o.pos o.instant
    else d.intoSplitter s { smp := { i := o.i, q := o.q, poison := o.poison, ovr := o.ovr, instant := o.instant }, pos := o.pos,
                            anchor := decide (o.pos = anchorPos), enter := d.cyc + wait, dest := rtDest w }
  | none => d

/-- The complex or real value of sample word `i` of a group frame. -/
def Dev.releaseWord (d : Dev) (s : Nat) (w : List Word) (f : PslHeld) (start anchorPos i : Nat) (dw : Word) : Dev :=
  if rtReal w then
    [dw.fld 15 0, dw.fld 31 16].foldl (fun d v => d.enterReal s w (signedOf 16 v) f.ovr f.bad false anchorPos 0) d
  else
    let n := start + 163 * f.bpos + i
    d.intoSplitter s { smp := { i := signedOf 16 (dw.fld 15 0), q := signedOf 16 (dw.fld 31 16), poison := f.bad, ovr := f.ovr,
                                instant := (d.stream s).instantAt w n }, pos := n, anchor := decide (n = anchorPos), enter := d.cyc, dest := rtDest w }

/-- The frames of one group in the order of BPOS: each lost one is replaced in its place (R191). -/
def Dev.releaseFrames (d : Dev) (s : Nat) (w : List Word) (frames : List PslHeld) (start anchorPos : Nat) : Dev :=
  (List.range (rtBond w)).foldl (fun d b =>
    match frames.find? (fun f => decide (f.bpos = b)) with
    | some f => (f.data.zipIdx).foldl (fun d p => d.releaseWord s w f start anchorPos p.2 p.1) d
    | none =>
      let d := d.bump (streamReg s 0x04)
      if rtReal w then (List.range 326).foldl (fun d _ => d.enterReal s w 0 false false true anchorPos 0) d
      else (List.range 163).foldl (fun d i =>
        let n := start + 163 * b + i
        d.substitute s w n ((d.stream s).instantAt w n)) d) d

/-- The positions lost before the group that begins at `start`, under the sequence they continue (R191). The filter of a real stream gives what
it still holds before them. -/
def Dev.loseGroups (d : Dev) (s : Nat) (w : List Word) (start : Nat) : Dev :=
  let flush := rtReal w && decide (2 * start ≠ (d.stream s).realCount)
  let d := if flush then (List.range 24).foldl (fun d _ => d.enterReal s w 0 false false true (start + 2 ^ 70) 0) d else d
  let upTo := if rtReal w then start - 11 else start
  let x := d.stream s
  let d := (List.range (upTo - x.nextPos)).foldl (fun d i => d.substitute s w (x.nextPos + i) (x.instantAt w (x.nextPos + i))) d
  if flush then
    let y := d.stream s
    d.setStream s { y with
      real := (List.range 47).map (fun i => { i := 0, q := 0, ovr := false, poison := true, lost := true, instant := y.instantAt w ((2 * start - 1 - i) / 2) })
      realCount := 2 * start }
  else d

/-- The drift check of a whole good group, as it is released (R166). -/
def Dev.driftCheck (d : Dev) (s : Nat) (w : List Word) (dr : Int) : Dev :=
  let x := d.stream s
  let lim := rtDrift w
  let beyond := decide (lim ≠ 0 ∧ dr.natAbs > lim)
  let d := d.setReg (streamReg s 0x18) (BitVec.ofInt 32 dr)
  let d := if beyond && !x.drifting then d.raise evPslStream s 2 (codeOf 64 dr) else d
  d.setStream s { x with drifting := if beyond then true else if dr.natAbs ≤ lim / 2 then false else x.drifting }

/-- The group `frames` of a stream is released (R161–R166, R191, R192): it anchors the stream, or follows the groups before it. `whole` says
that no frame of it is lost, `arrive` is the cycle of its first bit at BPOS 0. -/
def Dev.releaseFor (d : Dev) (s : Nat) (w : List Word) (f0 : PslHeld) (frames : List PslHeld) (whole : Bool) (arrive : Nat) : Dev :=
  let x := d.stream s
  let len := 163 * rtBond w
  let arrival : Int := (d.now : Int) - ((d.cyc - arrive : Nat) : Int)
  let gap := (f0.seq + 65536 - x.seq) % 65536
  let reanchor := !x.anchored
  let start := if reanchor then x.nextPos else x.groupPos + gap * len
  let d := d.setStream s { x with
    seq := (f0.seq + 1) % 65536
    groupPos := start + len
    lastGroup := some (f0.seq, arrive)
    anchored := true
    subSeq := if reanchor && decide (x.state ≠ 2) && x.subSeq.isNone then some (x.base, x.posBase, x.nextPos) else x.subSeq
    real := if reanchor then [] else x.real
    realCount := if reanchor then 2 * start else x.realCount }
  let d := if reanchor then d else (d.bump (streamReg s 0x04) (gap * rtBond w)).loseGroups s w start
  let x := d.stream s
  let x := if rtSender w then { x with base := f0.time.toNat, posBase := start }
           else if reanchor then { x with base := arrival - rtLatency w, posBase := start } else x
  let d := d.setStream s x
  let d := if whole then d.driftCheck s w (arrival - rtLatency w - (x.instantAt w start).floor) else d
  d.releaseFrames s w frames start (if reanchor then start else start + 2 ^ 70)

/-- The oldest held group of a stream is released after the hold of its bond, counted from the first bit at BPOS 0, or of the first frame held
where that one is lost (R162, assumption 115). A SEQ gap beyond 32,767 is DOWN followed by a return (R192). Only a whole good group anchors a
stream (R165): the frames of another are discarded while the stream has no anchor. -/
def Dev.releaseGroup (d : Dev) (s : Nat) : Dev :=
  let x := d.stream s
  match x.rt, x.held with
  | some w, f0 :: _ =>
    let frames := x.held.filter (fun f => decide (f.seq = f0.seq))
    let arrive := match frames.find? (fun f => decide (f.bpos = 0)) with | some f => f.arrive | none => f0.arrive
    if d.cyc < arrive + 204 + 144 * rtDeskew w + (if rtReal w then 36 else 0) then d
    else
      let whole := (List.range (rtBond w)).all (fun b => frames.any (fun f => decide (f.bpos = b)))
      let far := x.anchored && decide (32767 < (f0.seq + 65536 - x.seq) % 65536)
      let d := d.setStream s { x with
        held := x.held.filter (fun f => !(decide (f.seq = f0.seq)))
        anchored := x.anchored && !far
        state := if far && decide (x.state = 2) then 3 else x.state }
      let d := if far && decide (x.state = 2) then d.streamEvent s 1 0 else d
      if !(d.stream s).anchored && !whole then d else d.releaseFor s w f0 frames whole arrive
  | _, _ => d

def execPslGroupRelease (dt s : Nat) (st : State) : Host.Outcome State Fault Refusal := onDev dt (fun d => d.releaseGroup s) st

/-! ### Substitution (R189–R191, R647) -/

/-- The stream goes DOWN (R189). `data` is the pad of a failing lane (R201). -/
def Dev.streamDown (d : Dev) (s : Nat) (data : Nat := 0) : Dev :=
  (d.setStream s { d.stream s with state := 3, anchored := false, held := [] }).streamEvent s 1 data

/-- STREAM_DOWN_TIMEOUT (R189): an UP PSL stream with no good frame for 3,000,000 ticks. -/
def execStreamDownTimeout (dt s : Nat) (st : State) : Host.Outcome State Fault Refusal :=
  onDev dt (fun d =>
    let x := d.stream s
    if x.state = 2 ∧ x.lastGood + 3000000 ≤ d.cyc ∧ s < 240 then d.streamDown s else d) st

/-- LEMC period in ticks (R171). -/
def lemcPeriod (w : List Word) : Nat := rtE w * 2112 * 3000 / rtMbps w

/-- The tick at which a position stamped `t` is due at the ports (R190, R647). -/
def Stream.dueAfter (x : Stream) (w : List Word) (lemc : Option Nat) (t : Frac) : Int :=
  if x.state = 1 then t.floor
  else if rtKind w = 1 then
    match lemc with
    | some l =>
      let idx := (t.floor + (rtLatency w : Int) - (l : Int)) / (lemcPeriod w : Int)
      (l : Int) + idx * (lemcPeriod w : Int) + (rtRelease w : Int)
    | none => t.floor + (rtLatency w : Int) + (rtRelease w : Int)
  else t.floor + x.g + 144

/-! ### The buffers of the ports (R193) -/

/-- The ports of a mask. -/
def portsOf (mask : Nat) : List Nat := (List.range 64).filter (fun p => decide (mask / 2 ^ p % 2 = 1))

/-- Samples of one converter in one extended multiblock: period × Fs (R169, R171). -/
def jesdCount (w : List Word) : Nat := rtE w * 2112 * rtL w * 64 / (66 * 16 * rtM w)

/-- The samples that a stream at its declared rate brings to its ports on one tick: a group, a multiblock, or one. -/
def rtBurst (w : List Word) : Nat := if rtKind w = 0 then 163 * rtBond w else if rtKind w = 1 then jesdCount w else 1

/-- What a stream's samples have brought to a port beyond what the port drains at RATE_KCS, in samples × 3,000,000. -/
def Stream.backlog (x : Stream) (w : List Word) (cycle port : Nat) : Nat := Tbl.look 0 x.levels port - (cycle - x.levelAt) * rtRate w

/-- The stream with one more sample at the ports of a mask. -/
def Stream.queued (x : Stream) (w : List Word) (cycle mask : Nat) : Stream :=
  { x with
    levels := (portsOf (rtDest w)).foldl (fun l p => Tbl.put p (x.backlog w cycle p + (if mask / 2 ^ p % 2 = 1 then 3000000 else 0)) l) []
    levelAt := cycle }

/-- What a port's buffer holds: what its streams have brought above their declared rates. -/
def Dev.portHeld (d : Dev) (p : Nat) : Nat :=
  (d.streams.map (fun (y : Nat × Stream) => match y.2.rt with
    | some w => y.2.backlog w d.cyc p - 3000000 * rtBurst w
    | none => 0)).sum

/-- One more complex sample has been delivered, in the present window of 1 ms (R200). -/
def Stream.counted (x : Stream) (cycle : Nat) : Stream :=
  let n := cycle / 3000000
  if x.rateWin = n then { x with rateNow := x.rateNow + 1 }
  else { x with rateLast := if x.rateWin + 1 = n then x.rateNow else 0, rateNow := 1, rateWin := n }

/-- A sample of a routed stream reaches the buffers of its ports. Those that are full discard it; the next sample delivered carries poison (R193). -/
def Dev.toPorts (d : Dev) (s : Nat) (w : List Word) (dest : Nat) (smp : Sample) : Dev :=
  let x := d.stream s
  let full := (portsOf dest).filter (fun p => decide (8192 * 3000000 < (d.setStream s (x.queued w d.cyc dest)).portHeld p))
  let rest := full.foldl (fun m p => m - 2 ^ p) dest
  let y := x.queued w d.cyc rest
  let d :=
    if full.isEmpty then d.setStream s { y with poisonNext := false, dropped := 0, lastOut := some smp.instant }
    else ((d.setStream s { y with poisonNext := true, dropped := x.dropped + 1, lastOut := some smp.instant }).bump (streamReg s 0x14)).streamEvent s 6 (x.dropped + 1)
  if rest = 0 then d else d.portSample s rest { smp with poison := smp.poison || x.poisonNext }

/-- A substitute stamped `t` reaches the ports (R190, R191, R647). -/
def Dev.portSubstitute (d : Dev) (s : Nat) (w : List Word) (dest : Nat) (t : Frac) : Dev :=
  let d := (d.setStream s { d.stream s with lastSub := some t }).bump64 (streamReg s 0x08)
  d.toPorts s w dest { i := 0, q := 0, poison := true, ovr := false, instant := t }

/-- The substitute of a stream's next position reaches the ports. -/
def Dev.deliverSubstitute (d : Dev) (s : Nat) (w : List Word) (t : Frac) : Dev :=
  let x := d.stream s
  (d.setStream s { x with nextPos := x.nextPos + 1, outPos := x.nextPos + 1 }).portSubstitute s w (rtDest w) t

/-- The first real sample on its way to the ports that no substitute has taken the place of. -/
def Stream.inTransit (x : Stream) : Option InSplitter := x.fifo.find? (fun e => !e.sub && !e.old && decide (x.outPos ≤ e.pos))

/-- The next substitute of a withdrawn stream reaches the channels that took it (R206). -/
def Dev.withdrawnSample (d : Dev) (s : Nat) : Dev :=
  d.chans.foldl (fun d (p : Nat × Chan) =>
    let x := d.chan p.1
    let takes (ch : Chain) : Bool := !(chLoupe ch.block.words) && decide (chSource ch.block.words = s)
    match x.withdrawn with
    | some (rate, from_, k) =>
      let t := Frac.add (Frac.ofInt from_) (ticksAt (Frac.ofInt k) (Frac.ofInt rate))
      if x.anyTakes takes && decide (t.floor ≤ (d.now : Int)) then
        d.setChan p.1 (({ x with withdrawn := some (rate, from_, k + 1) } : Chan).input takes true 0 0 true false t d.clk.cycle)
      else d
    | none => d) d

/-- SUBSTITUTE_DUE (R189, R190, R647): a position's due tick has passed with nothing at the ports. A stream that is WAITING or DOWN continues the
sequence it has until its anchor group reaches the ports. One that is UP replaces a sample still on its way, or its next position; a position of
a JESD204C stream once the release tick of its multiblock has passed with neither samples nor substitutes (R647). -/
def Dev.substituteDue (d : Dev) (s : Nat) (w : List Word) : Dev :=
  let x := d.stream s
  let due (t : Frac) : Bool := decide (x.dueAfter w (d.jlink (rtLink w)).lemc t ≤ (d.now : Int))
  if x.state = 2 then
    let t := x.instantAt w x.nextPos
    let next := if x.fifo.all (fun e => e.old) then d.deliverSubstitute s w t else d
    if rtKind w = 1 then (if x.dueAfter w (d.jlink (rtLink w)).lemc t < (d.now : Int) then next else d)
    else match x.inTransit with
      | some e =>
        if due e.smp.instant ∧ d.cyc < e.enter + 12 then (d.setStream s { x with outPos := e.pos + 1 }).portSubstitute s w (rtDest w) e.smp.instant else d
      | none => if due t then next else d
  else match x.subSeq with
    | some (b, p, n) =>
      let t := instantFrom b ((n : Int) - (p : Int)) (Frac.ofInt (rtRate w))
      if due t then (d.setStream s { x with subSeq := some (b, p, n + 1) }).portSubstitute s w (rtDest w) t else d
    | none =>
      let t := x.instantOf (rtRate w) x.nextPos
      if due t then d.deliverSubstitute s w t else d

/-- SUBSTITUTE_DUE, and that of R206 to the channels from which the stream was withdrawn. -/
def execSubstituteDue (dt s : Nat) (st : State) : Host.Outcome State Fault Refusal :=
  onDev dt (fun d =>
    let d := d.withdrawnSample s
    match (d.stream s).rt with
    | some w => if (d.stream s).state ≠ 0 ∧ rtKind w ≠ 2 then d.substituteDue s w else d
    | none => d) st

/-! ### JESD204C (R167–R174) -/

/-- The streams whose route in force names a link. -/
def Dev.streamsOfLink (d : Dev) (l : Nat) : List Nat :=
  (d.streams.filter (fun p => match p.2.rt with | some w => decide (rtKind w = 1 ∧ rtLink w = l) | none => false)).map (·.1)

/-- The words of one route that names a link. -/
def Dev.linkRoute (d : Dev) (l : Nat) : Option (List Word) :=
  match d.streamsOfLink l with
  | s :: _ => (d.stream s).rt
  | [] => none

/-- The sample and over-range flag of an N′-bit word (R170). -/
def jesdSample (w : List Word) (dw : Word) : Int × Bool :=
  let n := rtBits w
  (signedOf 16 (dw.fld 15 (16 - n) * 2 ^ (16 - n)),
   rtCsOvr w && decide (1 ≤ rtCs w) && decide (dw.fld (15 - n) (15 - n) = 1))

/-- A multiblock that began at count `b` takes its place in a stream's sequence; the first of all, and the first after DOWN, starts the filter
afresh (R173, R179). -/
def Dev.jesdPlace (d : Dev) (s : Nat) (w : List Word) (b : Nat) (good : Bool) : Dev :=
  let x := d.stream s
  let anew := good && !x.anchored
  let x := if anew then { x with anchored := true, real := [], realCount := 2 * x.nextPos,
                                 subSeq := if x.state ≠ 2 ∧ x.subSeq.isNone then some (x.base, x.posBase, x.nextPos) else x.subSeq } else x
  let start := if rtReal w then x.realCount / 2 else x.nextPos
  d.setStream s { x with base := (b : Int) - rtLatency w, posBase := start, lastGood := if good then d.cyc else x.lastGood }

/-- One stream's samples of a multiblock that began at count `b` (R173, R179). -/
def Dev.jesdStream (d : Dev) (s : Nat) (w : List Word) (b : Nat) (convs : List (List Word)) : Dev :=
  let first := decide ((d.stream s).state ≠ 2) && !(d.stream s).anchored
  let d := d.jesdPlace s w b true
  let start := (d.stream s).posBase
  let mark := if first then start else start + 2 ^ 70
  (List.range (jesdCount w)).foldl (fun d j =>
    let a := jesdSample w ((convs.getD (rtConv w) []).getD j 0)
    if rtReal w then d.enterReal s w a.1 a.2 false false mark 36
    else
      let q := jesdSample w ((convs.getD (rtConv w + 1) []).getD j 0)
      d.intoSplitter s { smp := { i := a.1, q := q.1, poison := false, ovr := a.2 || q.2, instant := (d.stream s).instantAt w (start + j) },
                         pos := start + j, anchor := decide (start + j = mark), enter := d.cyc, dest := rtDest w }) d

/-- The substitutes of a lost multiblock of an UP stream (R191). -/
def Dev.jesdLost (d : Dev) (s : Nat) (w : List Word) (b : Nat) : Dev :=
  let d := d.bump (streamReg s 0x04)
  if (d.stream s).state = 2 then
    let d := d.jesdPlace s w b false
    let start := (d.stream s).posBase
    (List.range (jesdCount w)).foldl (fun d j =>
      if rtReal w then d.enterReal s w 0 false false true (start + 2 ^ 70) 36
      else d.substitute s w (start + j) ((d.stream s).instantAt w (start + j))) d
  else d

/-- JESD_MULTIBLOCK_RELEASE (R173, R174). -/
def Dev.jesdRelease (d : Dev) (l : Nat) (arr : MbArrival) (convs : List (List Word)) : Dev :=
  let k := d.jlink l
  match d.linkRoute l, k.lemc with
  | some w, some base =>
    let b := base + k.blocks * lemcPeriod w
    if !k.up || decide (d.now < b + rtRelease w) then d
    else
      let d := d.setJlink l { k with blocks := k.blocks + 1 }
      match arr with
      | .good => (d.streamsOfLink l).foldl (fun d s => match (d.stream s).rt with
          | some w => d.jesdStream s w b convs | none => d) d
      | .crcFails =>
        let d := (List.range (rtL w)).foldl (fun d i => d.bump (padReg (rtLaneBase w + i) 0x04)) d
        (d.streamsOfLink l).foldl (fun d s => match (d.stream s).rt with | some w => d.jesdLost s w b | none => d) d
      | .late lane =>
        let d := d.raise (evJesdLink + l) l 4 (rtLaneBase w + lane % rtL w)
        (d.streamsOfLink l).foldl (fun d s => match (d.stream s).rt with | some w => d.jesdLost s w b | none => d) d
  | _, _ => d

def execJesdMultiblockRelease (dt link : Nat) (arr : MbArrival) (convs : List (List Word)) (s : State) : Host.Outcome State Fault Refusal :=
  onDev dt (fun d => d.jesdRelease link arr convs) s

/-- The synthesiser of a link is locked (R607). -/
def Dev.jesdLocked (d : Dev) (l : Nat) : Bool := d.pwr.synths.contains (16 + l)

/-- A link is up once its synthesiser is locked, every lane is aligned and the LEMC is aligned (R174, R607); the first multiblock it releases is the next to begin. -/
def Dev.jesdCheckUp (d : Dev) (l : Nat) : Dev :=
  match d.linkRoute l, (d.jlink l).lemc with
  | some w, some base =>
    if d.jesdLocked l && !(d.jlink l).up && (List.range (rtL w)).all (fun i => (d.pad (rtLaneBase w + i)).aligned) then
      d.setJlink l { d.jlink l with up := true, blocks := ceilDiv (d.now - base) (lemcPeriod w) }
    else d
  | _, _ => d

/-- A launch at tick `t`, checked at tick `check`, has set the synthesiser of link `l` to another rate: it is locked by the launch tick where the
lead leaves it 300 µs, else the link waits for SYNTHESISER_LOCK (R607). -/
def Dev.retuneLink (d : Dev) (check t l rate : Nat) : Dev :=
  if (d.jlink l).rate = rate then d
  else
    let rest := d.pwr.synths.filter (fun k => decide (k ≠ 16 + l))
    let d := { d with pwr := { d.pwr with synths := if check + 900000 ≤ t then sortBy id ((16 + l) :: rest) else rest } }
    d.setJlink l { d.jlink l with rate := rate }

/-- A SYSREF edge on a source (0 the pins, 1 + k marker k): aligns the LEMC of a link that waits for it, or is checked
against it (R171, R172). -/
def Dev.sysref (d : Dev) (src : Nat) : Dev :=
  (List.range 24).foldl (fun d l =>
    match d.linkRoute l with
    | some w =>
      if rtSysref w ≠ src then d
      else match (d.jlink l).lemc with
        | none => (d.setJlink l { d.jlink l with lemc := some d.now, blocks := 0 }).jesdCheckUp l
        | some b =>
          let p := lemcPeriod w
          let off := (d.now + p - b % p) % p
          if rtOneshot w ∨ off ≤ 1 ∨ off + 1 ≥ p then d else d.raise (evJesdLink + l) l 3 off
    | none => d) d

/-- SYSREF_EDGE (R171): an edge of the SYSREF pins; those of a marker come with MARKER_EDGE (R508). -/
def execSysrefEdge (dt : Nat) (s : State) : Host.Outcome State Fault Refusal := onDev dt (fun d => d.sysref 0) s

/-- The links whose lanes include a pad. -/
def Dev.linksOfPad (d : Dev) (pad : Nat) : List Nat :=
  (List.range 24).filter (fun l => match d.linkRoute l with
    | some w => decide (rtLaneBase w ≤ pad ∧ pad < rtLaneBase w + rtL w) | none => false)

/-- A lane of a JESD pad gains block and multiblock alignment (R174). -/
def execJesdLaneAligned (dt pad : Nat) (s : State) : Host.Outcome State Fault Refusal :=
  onDev dt (fun d =>
    if (d.pad pad).mode = 2 && !(d.rxDead (d.pad pad).rx) then
      (d.linksOfPad pad).foldl (fun d l => d.jesdCheckUp l) (d.setPad pad { d.pad pad with aligned := true, everAligned := true })
    else d) s

/-- A lane loses multiblock alignment: its link goes down, and the link's UP streams go DOWN (R174, R189). -/
def Dev.laneLost (d : Dev) (pad : Nat) : Dev :=
  if (d.pad pad).mode = 2 ∧ (d.pad pad).aligned then
      let d := (d.setPad pad { d.pad pad with aligned := false }).bumpFld (padReg pad 0x0C) 15 0
      let d := d.raise (evLaneFault + (d.pad pad).rx) (d.pad pad).rx 1 pad
      (d.linksOfPad pad).foldl (fun d l =>
        if (d.jlink l).up then
          let d := (d.setJlink l { d.jlink l with up := false }).raise (evJesdLink + l) l 2 pad
          (d.streamsOfLink l).foldl (fun d s => if (d.stream s).state = 2 then d.streamDown s pad else d) d
        else d) d
  else d

def execJesdLaneAlignmentLoss (dt pad : Nat) (s : State) : Host.Outcome State Fault Refusal := onDev dt (fun d => d.laneLost pad) s

/-! ### Delivery at the ports (R185, R189, R192, R193) -/

/-- A stream enters UP as the first sample of its anchor group reaches its ports (R189). -/
def Dev.streamUp (d : Dev) (s : Nat) (e : InSplitter) : Dev :=
  (d.setStream s { d.stream s with state := 2, subSeq := none, returning := true, outPos := e.pos }).streamEvent s 0 0

/-- The first returning sample later than the last substitute: the span before it is filled with substitutes, one sample period apart (R192). -/
def Dev.fillSpan (d : Dev) (s : Nat) (w : List Word) (e : InSplitter) : Dev :=
  let x := d.stream s
  let step (n : Nat) : Frac := Frac.div (Frac.ofInt (3000000 * (n : Int))) (Frac.ofInt (rtRate w))
  let n := match x.lastOut with
    | some t =>
      if Frac.lt t e.smp.instant then
        ((Frac.div (Frac.mul (Frac.sub e.smp.instant t) (Frac.ofInt (rtRate w))) (Frac.ofInt 3000000)).ceil - 1).toNat else 0
    | none => 0
  (List.range n).foldl (fun d i => d.portSubstitute s w e.dest (Frac.sub e.smp.instant (step (n - i)))) (d.setStream s { x with returning := false })

/-- The sample's position has been substituted: while the stream returns, its stamp is not later than the last substitute's (R192, R647). -/
def Stream.substituted (x : Stream) (e : InSplitter) : Bool :=
  if x.returning then (match x.lastSub with | some t => decide (e.smp.instant.floor ≤ t.floor) | none => false) else decide (e.pos < x.outPos)

/-- A sample of stream `s` leaves the Splitter for its ports: one whose position has been substituted is discarded (R192, R647). -/
def Dev.deliverSample (d : Dev) (s : Nat) (w : List Word) (e : InSplitter) : Dev :=
  let d := if e.anchor && decide ((d.stream s).state ≠ 2) then d.streamUp s e else d
  let x := d.stream s
  let d := if e.anchor then d.setStream s { x with g := (d.now : Int) - ((d.cyc - (e.enter + 12) : Nat) : Int) - e.smp.instant.floor } else d
  if x.substituted e then (if e.sub then d else d.bump (streamReg s 0x10))
  else
    let d := if x.returning then d.fillSpan s w e else d
    let x := d.stream s
    let d := d.setStream s { (if e.sub then { x with lastSub := some e.smp.instant } else x.counted d.cyc) with outPos := e.pos + 1 }
    d.toPorts s w e.dest e.smp

/-- The oldest sample in the Splitter reaches its ports 12 ticks after it entered, a substitute also at its due tick (R185, R191). -/
def Dev.splitterHead (d : Dev) (s : Nat) : Dev :=
  let x := d.stream s
  match x.fifo with
  | [] => d
  | e :: rest =>
    let d' := d.setStream s { x with fifo := rest }
    match x.rt with
    | some w =>
      let due := e.sub && !e.old && decide (x.dueAfter w (d.jlink (rtLink w)).lemc e.smp.instant ≤ (d.now : Int))
      if d.cyc < e.enter + 12 && !due then d
      else if e.old then d'.portSample s e.dest e.smp
      else d'.deliverSample s w e
    | none => if d.cyc < e.enter + 12 then d else d'.portSample s e.dest e.smp

/-- Converter `n` is being swept (R613). -/
def Dev.sweeping (d : Dev) (n : Nat) : Bool := match d.mc.sweep with | some s => decide (s.conv / 2 ^ n % 2 = 1) | none => false

/-- Every sample of converter `n` carries poison: it is being swept, was until 600 ticks ago by a launch, or its comparator health has failed
(R419, R613, R614). -/
def Dev.poisoned (d : Dev) (n : Nat) : Bool :=
  d.sweeping n || (match d.mc.tail with | some (conv, t) => decide (conv / 2 ^ n % 2 = 1 ∧ d.cyc < t) | none => false) || (d.ainOf n).failed

/-- Two real codes of a converter enter its filter, which runs whether or not a route takes its samples (R176, R177, R179). -/
def Dev.pushAin (d : Dev) (s : Nat) (r0 r1 : AinCode) (f : Dev → RealOut → Dev) : Dev :=
  let step (d : Dev) (r : AinCode) : Dev :=
    let u := (d.stream s).pushReal (16 * clampInt (-2048) 2047 r.code) (r.ovr && !(d.sweeping (s - 240))) (d.poisoned (s - 240)) false ⟨0, 1⟩
    let d := d.setStream s u.1
    match u.2 with | some o => f d o | none => d
  step (step d r0) r1

/-- The instant that the next complex sample of a converter stands for under a route (R164, R194). -/
def Stream.ainNext (x : Stream) (base : Int) (posBase : Nat) : Frac :=
  instantFrom base ((((x.realCount - 22) / 2 : Nat) : Int) - (posBase : Int)) (Frac.ofInt 12000000)

/-- The next complex sample of a converter (R186, R194): until 12 ticks after a launch it goes where the route before the launch sends it; then
the route in force delivers. Each is delivered 144 ticks after the instant it stands for, and no earlier. -/
def Dev.ainSample (d : Dev) (s : Nat) (r0 r1 : AinCode) : Dev :=
  let x := d.stream s
  let smp (o : RealOut) (t : Frac) : Sample := { i := o.i, q := o.q, poison := o.poison, ovr := o.ovr, instant := t }
  match x.leaving with
  | some (_, b, p, blk) =>
    if (d.now : Int) < (x.ainNext b p).floor + 144 then d
    else d.pushAin s r0 r1 (fun d o => d.portSample s (rtDest blk.words) (smp o (instantFrom b ((o.pos : Int) - (p : Int)) (Frac.ofInt 12000000))))
  | none =>
    match x.rt with
    | none => d.pushAin s r0 r1 (fun d _ => d)
    | some w =>
      if x.state = 2 ∧ (d.now : Int) < (x.ainNext x.base x.posBase).floor + 144 then d
      else d.pushAin s r0 r1 (fun d o =>
        if (d.now : Int) < x.base + 144 then d
        else d.deliverSample s w
          { smp := smp o ((d.stream s).instantOf (rtRate w) o.pos), pos := o.pos, anchor := decide ((d.stream s).state ≠ 2), enter := d.cyc - 12, dest := rtDest w })

/-- A converter's stream as its next sample finds it: the route that left has delivered its last, and a new route that has delivered none counts
its positions from this sample. -/
def Stream.ainReady (x : Stream) (now : Nat) : Stream :=
  let x := if x.leaving.any (fun l => decide (l.1 ≤ now)) then { x with leaving := none } else x
  if x.state = 1 then { x with posBase := (x.realCount - 22) / 2 } else x

/-- SPLITTER_DELIVERY (R185): the next sample of a stream; for a converter, the next two real samples (R177, R179). -/
def Dev.splitter (d : Dev) (s : Nat) (r0 r1 : AinCode) : Dev :=
  if 240 ≤ s ∧ s ≤ 243 then (d.setStream s ((d.stream s).ainReady d.now)).ainSample s r0 r1
  else d.splitterHead s

def execSplitterDelivery (dt s : Nat) (r0 r1 : AinCode) (st : State) : Host.Outcome State Fault Refusal :=
  onDev dt (fun d => d.splitter s r0 r1) st

/-! ### Converters (R177, R178, R181–R183) -/

/-- PHASE_TRIM of a converter: that of the route of its stream, 0 when no route is live (R187, R608). -/
def Dev.phaseTrim (d : Dev) (n : Nat) : Int := match (d.stream (240 + n)).rt with | some w => sfldAt w 0x28 31 16 | none => 0

/-- The phase of a converter's sampling instants in 50 fs steps, without its slices' residual trims: it moves one step per sample period, of which
a tick holds 8 (R608, R609). -/
def Ain.phaseNow (x : Ain) (cycle : Nat) : Int := x.phase + clampInt (-(8 * (cycle - x.phaseAt : Nat))) (8 * (cycle - x.phaseAt : Nat)) (x.phaseGoal - x.phase)

/-- The phase at a position of the interleave: with the residual trim of the slice there (R608). -/
def Ain.slicePhase (x : Ain) (cycle p : Nat) : Int := x.phaseNow cycle + Tbl.look 0 x.residuals (Tbl.look p x.slices p)

/-- What the interpolator holds of a phase: its remainder by 125 ps, in 2,500 steps (R608). -/
def interpolator (phase : Int) : Nat := (phase % 2500).toNat

/-- The samples by which the converter's output is delayed for a phase: 3 for each whole 125 ps (R608). -/
def outputDelay (phase : Int) : Int := 3 * (phase / 2500)

/-- The phase of a converter begins to move to the sum of its trims (R608, R609). -/
def Dev.retrim (d : Dev) (n : Nat) : Dev :=
  let x := d.ainOf n
  let goal := d.phaseTrim n + x.delayTrim
  if x.phaseGoal = goal then d else d.setAin n { x with phase := x.phaseNow d.cyc, phaseAt := d.cyc, phaseGoal := goal }

def Dev.retrimAll (d : Dev) : Dev := (List.range 4).foldl (fun d n => d.retrim n) d

/-- A new correction set is in force for a converter: its delay trim is the part's own (R573, R608). -/
def Dev.newDelayTrim (d : Dev) (n : Nat) : Dev :=
  let f := d.fresh
  (f.2.setAin n { f.2.ainOf n with delayTrim := signedOf 16 (f.1.toNat % 65536) }).retrim n

/-- OVER_RANGE_SAMPLE (R177, R178): the count, and the event at the first after 1 ms without one. -/
def Dev.overRange (d : Dev) (n : Nat) : Dev :=
  let x := d.ainOf n
  if d.sweeping n || decide (d.fw.stage ≠ 0x3F) then d
  else
    let quiet := match x.ovrAt with | some t => decide (t + 3000000 ≤ d.cyc) | none => true
    let on := match (d.stream (240 + n)).rt with | some w => rtOvrEv w | none => false
    let d := d.bump (ainReg n 0x08)
    let since := min (x.ovrSince + 1) (2 ^ 32 - 1)
    if on && quiet then
      -- UNIT: the converter, as R104 numbers the event (assumption 114)
      (d.setAin n { x with ovrAt := some d.cyc, ovrSince := 0 }).raise (evAinOverrange + n) n since d.now
    else d.setAin n { x with ovrAt := some d.cyc, ovrSince := since }

def execOverRangeSample (dt n : Nat) (code : Int) (s : State) : Host.Outcome State Fault Refusal :=
  onDev dt (fun d => if code < -2048 ∨ 2047 < code then d.overRange n else d) s

end Sys2Proof.Machine
end

