-- ==== Sys2Proof/Machine/Marker.lean ====
section
/-!
DEFINITION. Marker inputs (R491–R509): edges, stamps and intervals, and the stamp queues.
-/

namespace Sys2Proof.Machine

/-! ### The marker block (R495) -/

def mbMode (w : List Word) : Nat := fldAt w 0x08 1 0
def mbSlope (w : List Word) : Nat := fldAt w 0x08 5 4
def mbStopSlope (w : List Word) : Nat := fldAt w 0x08 7 6
def mbStopInput (w : List Word) : Nat := fldAt w 0x08 11 8
def mbEv (w : List Word) : Bool := bitAt w 0x08 12
def mbToEv (w : List Word) : Bool := bitAt w 0x08 13
def mbSkew (w : List Word) : Int := sfldAt w 0x10 15 0
def mbHoldoff (w : List Word) : Nat := (dwAt w 0x14).toNat
def mbTimeout (w : List Word) : Nat := fldAt w 0x18 23 0

/-- A slope setting takes an edge: 0 rising, 1 falling, 2 both. -/
def slopeTakes (s : Nat) (falling : Bool) : Bool := decide (s = 2 ∨ s = falling.toNat)

/-- The live block of a marker that takes edges. -/
def Marker.live (x : Marker) : Option (List Word) := if x.running then x.block.map (fun b => b.2.words) else none

/-! ### Entries (R498–R500) -/

/-- The four words of an entry; SEQ and LOSS are filled in when it is pushed (R498). -/
def mkWords (st : MkStamp) (kind : Nat) (below timeout : Bool) (interval : Nat) : List Word :=
  let tick := BitVec.ofInt 64 (st.at_ / 256)
  [ Word.place 7 0 (st.at_ % 256).toNat ||| Word.place 8 8 st.falling.toNat ||| Word.place 10 9 st.tq ||| Word.place 12 11 kind |||
      Word.place 13 13 below.toNat ||| Word.place 14 14 timeout.toNat,
    QWord.lo tick, QWord.hi tick, BitVec.ofNat 32 interval ]

def MkStamp.tick (st : MkStamp) : Nat := (st.at_ / 256).toNat

/-- Put an entry among those that wait, in order of pushing tick (R499). -/
def Marker.wait_ (x : Marker) (e : MkEntry) : Marker :=
  let before := x.entries.filter (fun (f : MkEntry) => decide (f.due ≤ e.due))
  let after := x.entries.filter (fun (f : MkEntry) => decide (e.due < f.due))
  { x with entries := before ++ [e] ++ after }

/-! ### Interval pairing (R502–R506) -/

/-- An entry of a measurement that began at `p`. -/
def mkInterval (w : List Word) (p : MkStamp) (due : Nat) (below timeout : Bool) (interval : Nat) : MkEntry :=
  { due := due, words := mkWords p 1 below timeout interval, tick := p.tick, timeout := timeout, ev := mbEv w, toEv := mbToEv w }

/-- The measurement pending at marker `n` closes with TIMEOUT; its entry is pushed 4 ticks after the count has reached the start tick + TIMEOUT +
36 (R505). -/
def Dev.closeTimeout (d : Dev) (n : Nat) : Dev :=
  let x := d.marker n
  match x.pending, x.block with
  | some p, some (_, b) =>
    let due := ((d.cyc : Int) + 4 + (p.tick + mbTimeout b.words + 36 : Nat) - d.now).toNat
    d.setMarker n (({ x with pending := none } : Marker).wait_ (mkInterval b.words p (if due ≤ d.cyc then d.cyc + 4 else due) false true 0))
  | _, _ => d

/-- A stamp lies after the limit of the pending measurement: the measurement closes with TIMEOUT before an edge so stamped is taken (R505). -/
def Dev.pastLimit (d : Dev) (n : Nat) (st : MkStamp) : Bool :=
  match (d.marker n).pending, (d.marker n).block with
  | some p, some (_, b) => decide (p.at_ + (mbTimeout b.words : Int) * 256 < st.at_)
  | _, _ => false

/-- Take a stop: close the pending measurement, or ignore a stray stop (R502–R505). -/
def Dev.takeStop (d : Dev) (n : Nat) (st : MkStamp) : Dev :=
  let x := d.marker n
  match x.pending, x.block with
  | some p, some (_, b) =>
    let delta := st.at_ - p.at_
    if delta < -1 then d.bump (mkReg n 0x10)
    else
      d.setMarker n (({ x with pending := none } : Marker).wait_
        (mkInterval b.words p (st.cycle + 40) (decide (delta < 1)) false (if delta < 1 then 0 else delta.toNat)))
  | _, _ => d.bump (mkReg n 0x10)

/-- A start at marker `n`, in INTERVAL mode (R502). -/
def Dev.takeStart (d : Dev) (n : Nat) (st : MkStamp) : Dev :=
  let x := d.marker n
  let d := if x.pending.isSome then d.bumpSat (mkReg n 0x14) 31 16 else d
  d.setMarker n { d.marker n with pending := some st }

/-- Edge `a` is taken before `b` (R502): in stamp order, but of a start and a stop on different edges within one sub-tick of each other the start first. -/
def MkEdge.before (a b : MkEdge) : Bool :=
  let near := decide (a.st.at_ - b.st.at_ ≤ 1 ∧ b.st.at_ - a.st.at_ ≤ 1)
  if near && a.start && !a.stop && b.stop && !b.start then true
  else if near && a.stop && !a.start && b.start && !b.stop then false
  else decide (a.st.at_ ≤ b.st.at_)

/-- An edge joins those that wait to be taken. -/
def keepEdge (e : MkEdge) : List MkEdge → List MkEdge
  | [] => [e]
  | f :: t => if f.before e then f :: keepEdge e t else e :: f :: t

/-- An edge is taken: first as a stop, then as a start (R502). -/
def Dev.takeEdge (d : Dev) (n : Nat) (e : MkEdge) : Dev :=
  let d := if d.pastLimit n e.st then d.closeTimeout n else d
  let d := if e.stop then d.takeStop n e.st else d
  if e.start then d.takeStart n e.st else d

/-- The edges whose stamps are known by cycle `c` are taken, and those stamped before them: a stamp is known 36 ticks after its edge (R502, R505). -/
def Dev.settleBy (d : Dev) (n c : Nat) : Dev :=
  let x := d.marker n
  let late := (x.edges.reverse.takeWhile (fun (e : MkEdge) => decide (c < e.st.cycle + 36))).length
  let k := x.edges.length - late
  if k = 0 then d else (x.edges.take k).foldl (fun d e => d.takeEdge n e) (d.setMarker n { x with edges := x.edges.drop k })

def Dev.settleMarker (d : Dev) (n : Nat) : Dev := d.settleBy n d.cyc

/-- An edge of marker `n`'s measurement, which is taken when its stamp is known. -/
def Dev.keepMarker (d : Dev) (n : Nat) (e : MkEdge) : Dev :=
  let d := d.settleMarker n
  d.setMarker n { d.marker n with edges := keepEdge e (d.marker n).edges }

/-- The stamp of an edge at raw instant `t`, in sub-ticks (R494). -/
def edgeStamp (d : Dev) (w : List Word) (t : Int) (falling : Bool) : MkStamp :=
  { at_ := t - mbSkew w, falling := falling, tq := d.tqAt ((t - mbSkew w) / 256).toNat, cycle := d.cyc }

/-- An edge of marker `k` of a slope, accepted by the dead time and taken under the block `w`: to the intervals it stops, then to its own block. -/
def Dev.acceptedEdge (d : Dev) (k : Nat) (w : List Word) (t : Int) (falling : Bool) : Dev :=
  let x := d.marker k
  let st := edgeStamp d w t falling
  let taken := slopeTakes (mbSlope w) falling
  let off := taken && (match x.lastTaken with | some l => decide (t < l + mbHoldoff w * 256) | none => false)
  -- stops that other inputs take from this one, and its own stops (R493, R502)
  let stops := (List.range 16).filter (fun n => match (d.marker n).live with
    | some v => decide (mbMode v = 2 ∧ mbStopInput v = k) && slopeTakes (mbStopSlope v) falling && decide ((d.marker n).from_ * 256 ≤ st.at_) && (decide (n ≠ k) || !off)
    | none => false)
  let d := (stops.filter (fun n => decide (n ≠ k))).foldl (fun d n => d.keepMarker n { st := st, stop := true }) d
  let own := !off && decide (mbMode w = 2)
  let cut := decide (st.at_ < x.from_ * 256)
  let starts := own && taken && !cut
  -- a start stamped before the launch was pending at it (R497)
  let d := if own && taken && cut then d.bumpSat (mkReg k 0x08) 31 16 else d
  let d := if own && (starts || stops.contains k) then d.keepMarker k { st := st, start := starts, stop := stops.contains k } else d
  if off then d
  else
    let d := d.bump (mkReg k 0x04)
    if !taken then d
    else
      let d := d.setMarker k { d.marker k with lastTaken := some t }
      let d := if mbMode w = 1 then d.setMarker k ((d.marker k).wait_ { due := d.cyc + 40, words := mkWords st 0 false false 0, tick := st.tick, ev := mbEv w }) else d
      let d := if falling then d else d.sysref (1 + k)
      d.leave (selMarker k) 36 (.cand { src := selMarker k, fire := st.tick, tick := st.tick, prov := false })

/-- The block under which an edge at raw instant `t` is taken: the live one where its stamp is at or after the launch tick, else the one before
(R497). -/
def Marker.blockAt (x : Marker) (t : Int) : Option (List Word) :=
  x.live.bind (fun w => if (x.from_ : Int) * 256 ≤ t - mbSkew w then some w else x.old)

/-- MARKER_EDGE (R491–R494, R507, R508): an edge at the ball at sub-tick `sub` of the present tick. -/
def Dev.markerEdge (d : Dev) (k : Nat) (falling : Bool) (sub : Nat) : Dev :=
  let d := d.setMarker k { d.marker k with level := !falling }
  let x := d.marker k
  let t : Int := (d.now * 256 + sub % 256 : Nat)
  match x.blockAt t with
  | none => d
  | some w =>
    let last := if falling then x.lastFall else x.lastRise
    match last with
    | some l =>
      if t < l + 768 then d.bumpSat (mkReg k 0x08) 15 0
      else (d.setMarker k (if falling then { x with lastFall := some t } else { x with lastRise := some t })).acceptedEdge k w t falling
    | none => (d.setMarker k (if falling then { x with lastFall := some t } else { x with lastRise := some t })).acceptedEdge k w t falling

def execMarkerEdge (dt n : Nat) (falling : Bool) (sub : Nat) (s : State) : Host.Outcome State Fault Refusal :=
  onDev dt (fun d => d.markerEdge n falling sub) s

/-! ### The queue (R499–R501, R509) -/

/-- Push the four words of an entry (R500): the end mark is on the fourth. -/
def Dev.pushEntry (d : Dev) (n : Nat) (e : MkEntry) : Dev :=
  let x := d.marker n
  let w0 := (e.words.getD 0 0) ||| Word.place 15 15 x.loss.toNat ||| Word.place 31 16 x.seq
  let ws := [w0, e.words.getD 1 0, e.words.getD 2 0, e.words.getD 3 0]
  let r := ((ws.zipIdx).foldl (fun (a : Queue × Bool) (p : Word × Nat) =>
    let b := a.1.push 1024 d.cyc p.1.toNat (decide (p.2 = 3))
    (b.1, a.2 || b.2)) (x.q, false))
  let d := d.setMarker n { x with q := r.1, seq := (x.seq + 1) % 2 ^ 16, loss := false }
  let d := if r.2 then d.markerLoss n r.1 else d
  -- EV_MARKER
  let x := d.marker n
  let quiet := match x.evAt with | some t => decide (t + 3000000 ≤ d.cyc) | none => true
  let k := x.evSince + 1
  let d := if e.ev && quiet then
      (d.setMarker n { x with evAt := some d.cyc, evSince := 0 }).raiseAt (evMarker + n) (freeSev (evMarker + n)) n k
        (BitVec.ofNat 64 ((x.seq + 2 ^ 16 - 1) % 2 ^ 16)) (BitVec.ofNat 64 e.tick)
    else d.setMarker n { x with evSince := k }
  if !e.timeout then d
  else
    let d := d.bumpSat (mkReg n 0x14) 15 0
    let x := d.marker n
    let quiet := match x.toAt with | some t => decide (t + 3000000 ≤ d.cyc) | none => true
    let k := x.toSince + 1
    if e.toEv && quiet then
      (d.setMarker n { x with toAt := some d.cyc, toSince := 0 }).raiseAt (evMarkerTimeout + n) (freeSev (evMarkerTimeout + n)) n k
        (BitVec.ofNat 64 (d.reg (mkReg n 0x10)).toNat) (BitVec.ofNat 64 e.tick)
    else d.setMarker n { x with toSince := k }

/-- MARKER_ENTRY_PUSH (R499): the next waiting entry is pushed when its tick has come. -/
def Dev.markerPush (d : Dev) (n : Nat) : Dev :=
  let d := d.settleMarker n
  let x := d.marker n
  match x.entries with
  | e :: rest => if d.cyc < e.due then d else (d.setMarker n { x with entries := rest }).pushEntry n e
  | [] => d

def execMarkerEntryPush (dt n : Nat) (s : State) : Host.Outcome State Fault Refusal := onDev dt (fun d => d.markerPush n) s

/-- INTERVAL_TIMEOUT (R505). -/
def Dev.intervalTimeout (d : Dev) (n : Nat) : Dev :=
  let d := d.settleMarker n
  let x := d.marker n
  match x.pending, x.block with
  | some p, some (_, b) =>
    if p.tick + mbTimeout b.words + 36 ≤ d.now then d.closeTimeout n else d
  | _, _ => d

def execIntervalTimeout (dt n : Nat) (s : State) : Host.Outcome State Fault Refusal := onDev dt (fun d => d.intervalTimeout n) s

/-- An export stream names the queue of marker `n` (R501). -/
def Dev.markerExported (d : Dev) (n : Nat) : Bool :=
  d.dma.any (fun (p : Nat × DmaChan) => match p.2.live with
    | some (_, b) => decide (fldAt b.words 0x08 1 0 = 2 ∧ fldAt b.words 0x08 12 8 = n)
    | none => false)

/-- The queue of marker `n` is read: items that hold a mark are discarded and counted (R401). -/
def Dev.markerRead (d : Dev) (n : Nat) : Dev :=
  let m := d.meets 3
  m.1.foldl (fun (d : Dev) _ => if (d.marker n).q.items.isEmpty then d else d.markerLoss n (d.marker n).q.discard) m.2

/-- Pop one word of a marker queue: the value read (R501, R521). -/
def Dev.popMarker (d : Dev) (n : Nat) : Nat × Dev :=
  if d.markerExported n then (0, d)
  else
    let d := d.markerRead n
    let x := d.marker n
    let r := x.q.pop d.cyc
    let d := d.setMarker n { x with q := r.1, endMark := if r.2.2.2 then x.endMark else r.2.2.1 }
    (r.2.1, if r.2.2.2 then d.setFld (mkReg n 0x18) 10 10 1 else d)

/-- The edges of marker `n` so far are taken, and a start then pending is discarded (R497, R506). -/
def Dev.cutStart (d : Dev) (n : Nat) : Dev :=
  let d := d.settleBy n (d.cyc + 36)
  let x := d.marker n
  if x.pending.isSome then (d.setMarker n { x with pending := none }).bumpSat (mkReg n 0x08) 31 16 else d

/-- A timebase load discards a pending start (R506). -/
def Dev.cutMarkers (d : Dev) : Dev := d.markers.foldl (fun d (p : Nat × Marker) => d.cutStart p.1) d

end Sys2Proof.Machine
end

