-- ==== Sys2Proof/Machine/Flags.lean ====
section
/-!
DEFINITION. The flag computations of the trace processors (R457, R461–R463), which are the only flags the spec gives the block.
-/

namespace Sys2Proof.Machine

/-- Z and N from a result, with C and V (R463). -/
def Tp.flags (t : Tp) (r : QWord) (c v : Bool) : Tp := { t with z := decide (r = 0), n := r.msb, c := c, v := v }

/-- Flags of `a + b`: C is the carry out, V signed overflow. -/
def Tp.addFlags (t : Tp) (a b : QWord) : Tp :=
  t.flags (a + b) (decide (2 ^ 64 ≤ a.toNat + b.toNat)) (decide ((a + b).toInt ≠ a.toInt + b.toInt))

/-- Flags of `a − b`: C is the borrow. -/
def Tp.subFlags (t : Tp) (a b : QWord) : Tp := t.flags (a - b) (decide (a.toNat < b.toNat)) (decide ((a - b).toInt ≠ a.toInt - b.toInt))

/-- A value saturated to a signed range of `bits`, and whether it saturated (R461, R462). -/
def satTo (bits : Nat) (v : Int) : Int × Bool :=
  (if v < -(2 ^ (bits - 1) : Int) then -(2 ^ (bits - 1) : Int) else if (2 ^ (bits - 1) - 1 : Int) < v then 2 ^ (bits - 1) - 1 else v,
   decide (v < -(2 ^ (bits - 1) : Int) ∨ (2 ^ (bits - 1) - 1 : Int) < v))

end Sys2Proof.Machine
end

