-- ==== Sys2Proof/Machine/TraceProc.lean ====
section
/-!
DEFINITION. The trace processors (R453–R474): fetching and issuing an instruction, its latencies, interrupts and traps, and
the effect of every instruction. A command of an instruction's row is the issue of the next instruction of logical processor
`n`; it acts when the word at PC is that instruction (assumption 40).
-/

namespace Sys2Proof.Machine

/-- What an instruction leaves: the device, its memories, the processor, and a trap code with FAULT_ADDR. -/
structure TpRes where
  dev : Dev
  mem : Mems
  tp : Tp
  trap : Option (Nat × Nat) := none

def tpMask : Nat := 2 ^ 19

/-! ### The fields of an instruction (R473) -/

def iOp (w : Word) : Nat := w.fld 31 26
def iRd (w : Word) : Nat := w.fld 25 22
def iRa (w : Word) : Nat := w.fld 21 18
def iRb (w : Word) : Nat := w.fld 17 14
def iFn (w : Word) : Nat := w.fld 13 8
def iImm6 (w : Word) : Nat := w.fld 5 0
def iImm (w : Word) : Int := signedOf 22 (w.fld 21 0)
def mPtr (w : Word) : Nat := w.fld 21 19
def mW (w : Word) : Nat := w.fld 18 17
def mInc (w : Word) : Int := signedOf 17 (w.fld 16 0)
def aAk (w : Word) : Nat := w.fld 25 24
def aPtr (w : Word) : Nat := w.fld 23 21
def aSh (w : Word) : Nat := w.fld 20 15
def aInc (w : Word) : Int := signedOf 15 (w.fld 14 0)
def xMode (w : Word) : Nat := w.fld 25 24
def xClr (w : Word) : Bool := decide (w.fld 23 23 = 1)
def xPx (w : Word) : Nat := w.fld 22 20
def xPy (w : Word) : Nat := w.fld 19 17
def lUseRc (w : Word) : Bool := decide (w.fld 21 21 = 1)
def lCount (w : Word) : Nat := w.fld 20 9
def lLen (w : Word) : Nat := w.fld 7 0 + 1

/-- The word is an instruction of R474: every field value is a listed one. -/
def iListed (w : Word) : Bool :=
  let f := iFn w
  match iOp w with
  | 0x00 => decide (f ≤ 1)
  | 0x01 | 0x02 | 0x05 | 0x06 | 0x0D | 0x19 => true
  | 0x04 => decide (f ≤ 7 ∨ (9 ≤ f ∧ f ≤ 11) ∨ (13 ≤ f ∧ f ≤ 15))
  | 0x08 | 0x09 => decide (mW w ≤ 2)
  | 0x0A => decide (aSh w ≤ 47)
  | 0x0C => decide (f ≤ 5)
  | 0x10 => decide (xMode w ≤ 2) && (decide (xMode w ≠ 2) || decide (xPy w = 0))
  | 0x11 => decide (f ≤ 7 ∧ f % 4 ≤ 2)
  | 0x12 => decide (f ≤ 3)
  | 0x18 => decide (iRd w ≤ 8)
  | 0x1A | 0x1B => decide (f = 0)
  | 0x1C => lUseRc w || decide (1 ≤ lCount w)
  | 0x1E => decide (f ≤ 4) && (decide (f ≠ 0 ∧ f ≠ 3) || decide (iRa w ≤ 7))
  | 0x1F => decide (f = 2) || decide (f ≤ 1 ∧ iImm6 w ≤ 8)
  | _ => false

/-- br, jal, jr, rti, rep, wait and halt stand in no delay slot and no repeat body (R465, R466). -/
def iPlaced (w : Word) : Bool :=
  [0x18, 0x19, 0x1A, 0x1B, 0x1C, 0x01].contains (iOp w) || decide (iOp w = 0 ∧ iFn w = 1)

/-! ### Registers and their latencies (R464) -/

def Tp.dr (t : Tp) (k : Nat) : QWord := t.d.getD k 0

/-- Write every result that is due by cycle `c`, in order of due cycle and then of issue (R464). -/
def Tp.settle (t : Tp) (c : Nat) : Tp :=
  let ds := sortBy (fun (p : Nat × Nat × QWord) => p.1) (t.pendD.filter (fun (p : Nat × Nat × QWord) => decide (p.1 ≤ c)))
  let as_ := sortBy (fun (p : Nat × Nat × Int × Int) => p.1) (t.pendAcc.filter (fun (p : Nat × Nat × Int × Int) => decide (p.1 ≤ c)))
  { t with
    d := ds.foldl (fun (r : List QWord) (p : Nat × Nat × QWord) => r.set p.2.1 p.2.2) t.d
    pendD := t.pendD.filter (fun (p : Nat × Nat × QWord) => decide (c < p.1))
    accSlow := as_.foldl (fun (r : List (Int × Int)) (p : Nat × Nat × Int × Int) => r.set p.2.1 p.2.2) t.accSlow
    pendAcc := t.pendAcc.filter (fun (p : Nat × Nat × Int × Int) => decide (c < p.1)) }

/-- The stores that are due by cycle `c` reach local memory, healing what they write (R403, R464). -/
def tpStores (n c : Nat) (t : Tp) (d : Dev) (m : Mems) : Tp × Dev × Mems :=
  let due := sortBy (fun (p : Nat × Nat × List Byte) => p.1) (t.pendMem.filter (fun (p : Nat × Nat × List Byte) => decide (p.1 ≤ c)))
  let base := n * tpMask
  ({ t with pendMem := t.pendMem.filter (fun (p : Nat × Nat × List Byte) => decide (c < p.1)) },
   due.foldl (fun d (p : Nat × Nat × List Byte) => d.facetHeal 2 (base + p.2.1) p.2.2.length) d,
   { m with tp := due.foldl (fun m (p : Nat × Nat × List Byte) => Memory.writeBytes m (base + p.2.1) p.2.2) m.tp })

/-- A result for a d register, `lat` processor cycles after cycle `c`. -/
def Tp.setD (t : Tp) (c lat k : Nat) (v : QWord) : Tp := { t with pendD := t.pendD ++ [(c + 2 * lat, k, v)] }

/-- A result for an accumulator: at once for the next MAC, four cycles later for mva and stacc. -/
def Tp.setAcc (t : Tp) (c k : Nat) (v : Int × Int) : Tp :=
  { t with acc := t.acc.set k v, pendAcc := t.pendAcc ++ [(c + 8, k, v)] }

/-- Post-update of pointer `k` by `inc` (R458). -/
def Tp.step (t : Tp) (k : Nat) (inc : Int) : Tp :=
  let b : Int := t.b.getD k 0
  let l : Int := t.l.getD k 0
  let q : Int := (t.p.getD k 0 : Nat) + inc
  let q := if l ≠ 0 then (if b + l ≤ q then q - l else if q < b then q + l else q) else q
  { t with p := t.p.set k (q % (2 ^ 19 : Int)).toNat }

/-! ### Local memory -/

/-- The first marked byte among `k` at `a`, as a byte address (R472). -/
def tpMarked (d : Dev) (n a k : Nat) : Option Nat := ((List.range k).map (fun i => (a + i) % tpMask)).find? (fun b => d.facetMarked 2 (n * tpMask + b))

/-- `k` bytes of local memory at `a`, little-endian. -/
def tpLoad (m : Mems) (n a k : Nat) : Nat :=
  ((List.range k).map (fun i => (Memory.read m.tp (n * tpMask + (a + i) % tpMask)).toNat * 256 ^ i)).foldl (· + ·) 0

/-- A store of the low `k` bytes of `v`, visible to loads two cycles later. -/
def Tp.store (t : Tp) (c a k v : Nat) : Tp :=
  { t with pendMem := t.pendMem ++ [(c + 4, a, (List.range k).map (fun i => BitVec.ofNat 8 (v / 256 ^ i)))] }

/-! ### Interrupts (R467–R470) -/

/-- Depth of the result queue; 0 without a binding. -/
def Tp.rqDepth (t : Tp) : Nat := match t.binding with | some w => 2 ^ tbRqLog w | none => 0

/-- The timer's level, taken at each look (R467). -/
def Tp.timer (t : Tp) (count : Nat) : Tp :=
  { t with timerPend := match t.armed with | some v => decide (v.toNat ≤ count) | none => false }

/-- IPEND with the binding event, sources 0 to 10 (R467). -/
def Tp.pending (t : Tp) (i : Nat) : Bool :=
  if i < 8 then decide (0 < (t.feed i).q.packets)
  else if i = 8 then t.timerPend
  else if i = 9 then decide (0 < t.rqDepth) && decide (2 * t.rq.words ≤ t.rqDepth)
  else t.bindPend

def Tp.ipend (t : Tp) : Nat := ((List.range 11).map (fun i => if t.pending i then 2 ^ i else 0)).foldl (· + ·) 0

/-- The lowest pending source that a mask names. -/
def Tp.source (t : Tp) (mask : Nat) : Option Nat := (List.range 11).find? (fun i => decide (mask / 2 ^ i % 2 = 1) && t.pending i)

/-- The boundary is held off (R468). -/
def Tp.heldOff (t : Tp) : Bool := t.delay.isSome || t.rep.isSome

/-- An interrupt would be taken at this boundary (R468). -/
def Tp.interrupts (t : Tp) : Bool := t.ie && !t.heldOff && (t.source t.imask).isSome

/-! ### Status, events, stops -/

def Dev.tpPhys (d : Dev) (n : Nat) : Nat := (d.tp n).phys.getD n

/-- EV_TP (R490). -/
def Dev.tpEvent (d : Dev) (n cause sub data : Nat) : Dev := d.raise (evTp + d.tpPhys n) (d.tpPhys n) (cause + 2 ^ 8 * sub + 2 ^ 16 * n) data

/-- Time busy: issue of one instruction (BUSY_PM of R489). -/
def Tp.busy (t : Tp) (c : Nat) : Tp :=
  let ms := c / 3000000
  if t.busyMs = ms then { t with busyNow := t.busyNow + 2 }
  else { t with busyMs := ms, busyPrev := if t.busyMs + 1 = ms then t.busyNow else 0, busyNow := 2 }

/-- A processor comes to a stop: a TP_STOP that waits completes with its PC (R486). -/
def Dev.tpStopped (d : Dev) (n : Nat) : Dev :=
  let d := d.setTp n { d.tp n with stopReq := false }
  d.finish (.tpStop n) { result0 := BitVec.ofNat 64 (d.tp n).pc }

/-- A trap (R472). -/
def Dev.tpTrap (d : Dev) (n code addr : Nat) : Dev :=
  let t := d.tp n
  let d := d.setTp n { t with state := 3, trap := code, faultAddr := addr }
  ((d.bump (tpReg n 0x1C)).tpEvent n 3 code (t.pc + 2 ^ 32 * addr)).tpStopped n

/-- Where issue goes after an instruction that is no branch (R465, R466): delay slots and repeat bodies. -/
def Tp.advance (t : Tp) : Tp :=
  let seqPc := (t.pc + 4) % tpMask
  match t.delay with
  | some (k, tgt, r) =>
    if k ≤ 1 then { t with pc := tgt, delay := none, ieNext := t.ieNext || r } else { t with pc := seqPc, delay := some (k - 1, tgt, r) }
  | none =>
    match t.rep with
    | some (start, len, left) =>
      if t.pc = (start + 4 * (len - 1)) % tpMask then
        if left ≤ 1 then { t with pc := seqPc, rep := none } else { t with pc := start, rep := some (start, len, left - 1) }
      else { t with pc := seqPc }
    | none => { t with pc := seqPc }

/-- Issue of the instruction at PC of logical processor `n`, when it is one that `sel` selects: `eff` gives its effect on the
processor, after which `Tp.advance` moves PC (R464–R472). A trap wins over an interrupt of the same boundary (R472). -/
def tpIssue (n : Nat) (sel : Word → Bool) (eff : Nat → Word → TpRes → TpRes) (x : Dev × Mems) : Dev × Mems :=
  let d := x.1
  let c := d.cyc
  let t := (d.tp n).timer d.now
  let interrupted := t.interrupts
  if 31 < n ∨ t.state ≠ 2 ∨ t.wait.isSome ∨ c < t.nextAt then x
  else
    let t := t.settle c
    let s := tpStores n c t d x.2
    let t := s.1
    let d := s.2.1.setTp n t
    let m := s.2.2
    match tpMarked d n t.pc 4 with
    | some _ => ((d.countMark 2 9 (n * tpMask + t.pc) true).tpTrap n 1 t.pc, m)
    | none =>
      let w : Word := BitVec.ofNat 32 (tpLoad m n t.pc 4)
      if !iListed w || (t.heldOff && iPlaced w) then (d.tpTrap n 3 t.pc, m)
      else if !sel w then x
      else
        let t0 := { t with ie := t.ie || t.ieNext, ieNext := false }
        let r := eff c w { dev := d.setTp n t0, mem := m, tp := t0 }
        match r.trap with
        | some (code, addr) => ((d.countMark 2 9 (n * tpMask + addr) true).tpTrap n code addr, m)
        | none =>
          if interrupted then x
          else
            let t1 := (r.tp.advance).busy c
            let t1 := { t1 with nextAt := c + 2 }
            let d := (r.dev.setTp n t1).bump64 (tpReg n 0x10)
            (if t1.stopReq && !t1.heldOff && decide (t1.state = 2) then (d.setTp n { t1 with state := 1 }).tpStopped n else d, r.mem)

/-- Instructions that only touch registers. -/
def tpReg_ (f : Nat → Word → Tp → Tp) : Nat → Word → TpRes → TpRes := fun c w r => { r with tp := f c w r.tp }

def isOp (op : Nat) (w : Word) : Bool := decide (iOp w = op)
def isFn (op fn : Nat) (w : Word) : Bool := decide (iOp w = op ∧ iFn w = fn)

/-! ### ALU (R463) -/

/-- A result for dD with its flags. -/
def Tp.alu (t : Tp) (c : Nat) (w : Word) (v : QWord) : Tp := (t.setD c 1 (iRd w) v).flags v false false

def aluA (t : Tp) (w : Word) : QWord := t.dr (iRa w)
def aluB (t : Tp) (w : Word) : QWord := t.dr (iRb w)

def tpAdd (c : Nat) (w : Word) (t : Tp) : Tp := (t.setD c 1 (iRd w) (aluA t w + aluB t w)).addFlags (aluA t w) (aluB t w)

def tpSub (c : Nat) (w : Word) (t : Tp) : Tp := (t.setD c 1 (iRd w) (aluA t w - aluB t w)).subFlags (aluA t w) (aluB t w)
def tpCmp (_ : Nat) (w : Word) (t : Tp) : Tp := t.subFlags (aluA t w) (aluB t w)
def tpAnd (c : Nat) (w : Word) (t : Tp) : Tp := t.alu c w (aluA t w &&& aluB t w)
def tpOr (c : Nat) (w : Word) (t : Tp) : Tp := t.alu c w (aluA t w ||| aluB t w)
def tpXor (c : Nat) (w : Word) (t : Tp) : Tp := t.alu c w (aluA t w ^^^ aluB t w)
def tpMov (c : Nat) (w : Word) (t : Tp) : Tp := t.alu c w (aluA t w)

/-- The shift amount: IMM6 with FN 13–15, else dB[5:0]. -/
def shAmount (t : Tp) (w : Word) : Nat := if 13 ≤ iFn w then iImm6 w else (aluB t w).toNat % 64

def tpShl (c : Nat) (w : Word) (t : Tp) : Tp := t.alu c w (aluA t w <<< shAmount t w)
def tpShr (c : Nat) (w : Word) (t : Tp) : Tp := t.alu c w (aluA t w >>> shAmount t w)
def tpSar (c : Nat) (w : Word) (t : Tp) : Tp := t.alu c w ((aluA t w).sshiftRight (shAmount t w))

/-- mul: the product of the low 32 bits as signed values, two cycles later (R463, R464). -/
def tpMul (c : Nat) (w : Word) (t : Tp) : Tp :=
  let v : QWord := BitVec.ofInt 64 (signedOf 32 (aluA t w).toNat * signedOf 32 (aluB t w).toNat)
  (t.setD c 2 (iRd w) v).flags v false false

def tpLi (c : Nat) (w : Word) (t : Tp) : Tp := t.setD c 1 (iRd w) (BitVec.ofInt 64 (iImm w))
def tpLih (c : Nat) (w : Word) (t : Tp) : Tp := t.setD c 1 (iRd w) ((t.dr (iRd w) <<< 16) ||| BitVec.ofNat 64 (w.fld 15 0))

def execTpAdd (dt n : Nat) (s : State) : Host.Outcome State Fault Refusal := onAll dt (fun d m => tpIssue n (isFn 4 0) (tpReg_ tpAdd) (d, m)) s
def execTpSub (dt n : Nat) (s : State) : Host.Outcome State Fault Refusal := onAll dt (fun d m => tpIssue n (isFn 4 1) (tpReg_ tpSub) (d, m)) s
def execTpAnd (dt n : Nat) (s : State) : Host.Outcome State Fault Refusal := onAll dt (fun d m => tpIssue n (isFn 4 2) (tpReg_ tpAnd) (d, m)) s
def execTpOr (dt n : Nat) (s : State) : Host.Outcome State Fault Refusal := onAll dt (fun d m => tpIssue n (isFn 4 3) (tpReg_ tpOr) (d, m)) s
def execTpXor (dt n : Nat) (s : State) : Host.Outcome State Fault Refusal := onAll dt (fun d m => tpIssue n (isFn 4 4) (tpReg_ tpXor) (d, m)) s
def execTpShl (dt n : Nat) (s : State) : Host.Outcome State Fault Refusal :=
  onAll dt (fun d m => tpIssue n (fun w => isFn 4 5 w || isFn 4 13 w) (tpReg_ tpShl) (d, m)) s
def execTpShr (dt n : Nat) (s : State) : Host.Outcome State Fault Refusal :=
  onAll dt (fun d m => tpIssue n (fun w => isFn 4 6 w || isFn 4 14 w) (tpReg_ tpShr) (d, m)) s
def execTpSar (dt n : Nat) (s : State) : Host.Outcome State Fault Refusal :=
  onAll dt (fun d m => tpIssue n (fun w => isFn 4 7 w || isFn 4 15 w) (tpReg_ tpSar) (d, m)) s
def execTpMul (dt n : Nat) (s : State) : Host.Outcome State Fault Refusal := onAll dt (fun d m => tpIssue n (isFn 4 9) (tpReg_ tpMul) (d, m)) s
def execTpCmp (dt n : Nat) (s : State) : Host.Outcome State Fault Refusal := onAll dt (fun d m => tpIssue n (isFn 4 10) (tpReg_ tpCmp) (d, m)) s
def execTpMov (dt n : Nat) (s : State) : Host.Outcome State Fault Refusal := onAll dt (fun d m => tpIssue n (isFn 4 11) (tpReg_ tpMov) (d, m)) s
def execTpLi (dt n : Nat) (s : State) : Host.Outcome State Fault Refusal := onAll dt (fun d m => tpIssue n (isOp 5) (tpReg_ tpLi) (d, m)) s
def execTpLih (dt n : Nat) (s : State) : Host.Outcome State Fault Refusal := onAll dt (fun d m => tpIssue n (isOp 6) (tpReg_ tpLih) (d, m)) s

/-! ### Loads, stores and pointers (R458, R459, R462) -/

/-- ld: sign-extended memory, three cycles later; the pointer is updated. -/
def tpLd (n c : Nat) (w : Word) (r : TpRes) : TpRes :=
  let k := 2 ^ (mW w + 1)
  let a := (r.tp.p.getD (mPtr w) 0) / k * k
  match tpMarked r.dev n a k with
  | some b => { r with trap := some (2, b) }
  | none => { r with tp := (r.tp.setD c 3 (iRd w) (BitVec.ofInt 64 (signedOf (8 * k) (tpLoad r.mem n a k)))).step (mPtr w) (mInc w) }

def tpSt (c : Nat) (w : Word) (t : Tp) : Tp :=
  let k := 2 ^ (mW w + 1)
  let a := (t.p.getD (mPtr w) 0) / k * k
  let v := if mW w = 2 then ((t.dr (iRd w)).toInt, false) else satTo (8 * k) (t.dr (iRd w)).toInt
  ({ t with sv := t.sv || v.2 }.store c a k (codeOf (8 * k) v.1)).step (mPtr w) (mInc w)

/-- stacc: a complex word of the rounded accumulator (R462). A mark in the word at its address traps with code 2 (R472). -/
def tpStacc (n c : Nat) (w : Word) (r : TpRes) : TpRes :=
  let t := r.tp
  let a := (t.p.getD (aPtr w) 0) / 8 * 8
  let v := t.accSlow.getD (aAk w) (0, 0)
  let i := satTo 24 (roundDiv v.1 (2 ^ aSh w))
  let q := satTo 24 (roundDiv v.2 (2 ^ aSh w))
  match tpMarked r.dev n a 8 with
  | some b => { r with trap := some (2, b) }
  | none => { r with tp := ({ t with sv := t.sv || i.2 || q.2 }.store c a 8 (codeOf 24 i.1 + 2 ^ 24 * codeOf 24 q.1)).step (aPtr w) (aInc w) }

def tpMovp (_ : Nat) (w : Word) (t : Tp) : Tp := { t with p := t.p.set (iRd w % 8) ((aluA t w).toNat % tpMask) }
def tpMovb (_ : Nat) (w : Word) (t : Tp) : Tp := { t with b := t.b.set (iRd w % 8) ((aluA t w).toNat % tpMask) }
def tpMovl (_ : Nat) (w : Word) (t : Tp) : Tp := { t with l := t.l.set (iRd w % 8) ((aluA t w).toNat % tpMask) }
def tpMvp (c : Nat) (w : Word) (t : Tp) : Tp := t.setD c 1 (iRd w) (BitVec.ofNat 64 (t.p.getD (iRa w % 8) 0))
def tpMvb (c : Nat) (w : Word) (t : Tp) : Tp := t.setD c 1 (iRd w) (BitVec.ofNat 64 (t.b.getD (iRa w % 8) 0))
def tpMvl (c : Nat) (w : Word) (t : Tp) : Tp := t.setD c 1 (iRd w) (BitVec.ofNat 64 (t.l.getD (iRa w % 8) 0))
def tpAddp (_ : Nat) (w : Word) (t : Tp) : Tp := t.step (iRd w % 8) (iImm w)

def execTpLd (dt n : Nat) (s : State) : Host.Outcome State Fault Refusal := onAll dt (fun d m => tpIssue n (isOp 8) (tpLd n) (d, m)) s
def execTpSt (dt n : Nat) (s : State) : Host.Outcome State Fault Refusal := onAll dt (fun d m => tpIssue n (isOp 9) (tpReg_ tpSt) (d, m)) s
def execTpStacc (dt n : Nat) (s : State) : Host.Outcome State Fault Refusal := onAll dt (fun d m => tpIssue n (isOp 0x0A) (tpStacc n) (d, m)) s
def execTpMovp (dt n : Nat) (s : State) : Host.Outcome State Fault Refusal := onAll dt (fun d m => tpIssue n (isFn 0x0C 0) (tpReg_ tpMovp) (d, m)) s
def execTpMovb (dt n : Nat) (s : State) : Host.Outcome State Fault Refusal := onAll dt (fun d m => tpIssue n (isFn 0x0C 1) (tpReg_ tpMovb) (d, m)) s
def execTpMovl (dt n : Nat) (s : State) : Host.Outcome State Fault Refusal := onAll dt (fun d m => tpIssue n (isFn 0x0C 2) (tpReg_ tpMovl) (d, m)) s
def execTpMvp (dt n : Nat) (s : State) : Host.Outcome State Fault Refusal := onAll dt (fun d m => tpIssue n (isFn 0x0C 3) (tpReg_ tpMvp) (d, m)) s
def execTpMvb (dt n : Nat) (s : State) : Host.Outcome State Fault Refusal := onAll dt (fun d m => tpIssue n (isFn 0x0C 4) (tpReg_ tpMvb) (d, m)) s
def execTpMvl (dt n : Nat) (s : State) : Host.Outcome State Fault Refusal := onAll dt (fun d m => tpIssue n (isFn 0x0C 5) (tpReg_ tpMvl) (d, m)) s
def execTpAddp (dt n : Nat) (s : State) : Host.Outcome State Fault Refusal := onAll dt (fun d m => tpIssue n (isOp 0x0D) (tpReg_ tpAddp) (d, m)) s

/-! ### Complex multiply-accumulate (R460, R461) -/

/-- The complex view of a 64-bit word (R456). -/
def complexOf (v : Nat) : Int × Int := (signedOf 24 (v % 2 ^ 24), signedOf 24 (v / 2 ^ 24 % 2 ^ 24))

/-- The terms of a mode (R460). -/
def macTerm (mode : Nat) (x y : Int × Int) : Int × Int :=
  if mode = 0 then (x.1 * y.1 - x.2 * y.2, x.1 * y.2 + x.2 * y.1)
  else if mode = 1 then (x.1 * y.1 + x.2 * y.2, x.2 * y.1 - x.1 * y.2)
  else (x.1 * x.1 + x.2 * x.2, 0)

/-- Add to an accumulator, each part clamped to 72 bits; a clamp sets AV (R461). -/
def Tp.accAdd (t : Tp) (c k : Nat) (v : Int × Int) (clr : Bool) : Tp :=
  let old := if clr then (0, 0) else t.acc.getD k (0, 0)
  let a := satTo 72 (old.1 + v.1)
  let b := satTo 72 (old.2 + v.2)
  let av := if clr then t.av &&& (15 - 2 ^ k) else t.av
  { t with av := if a.2 || b.2 then av ||| 2 ^ k else av }.setAcc c k (a.1, b.1)

def tpCmac4 (n c : Nat) (w : Word) (r : TpRes) : TpRes :=
  let t := r.tp
  let mode := xMode w
  let ax := (t.p.getD (xPx w) 0) / 32 * 32
  let ay := (t.p.getD (xPy w) 0) / 32 * 32
  let bad := match tpMarked r.dev n ax 32 with
    | some b => some b
    | none => if mode = 2 then none else tpMarked r.dev n ay 32
  match bad with
  | some b => { r with trap := some (2, b) }
  | none =>
    let lane (t : Tp) (k : Nat) : Tp :=
      t.accAdd c k (macTerm mode (complexOf (tpLoad r.mem n (ax + 8 * k) 8)) (complexOf (tpLoad r.mem n (ay + 8 * k) 8))) (xClr w)
    let t := lane (lane (lane (lane t 0) 1) 2) 3
    let t := t.step (xPx w) (mInc w)
    { r with tp := if mode ≠ 2 ∧ xPy w ≠ xPx w then t.step (xPy w) (mInc w) else t }

def tpCmac1 (c : Nat) (w : Word) (t : Tp) : Tp :=
  t.accAdd c (iRd w % 4) (macTerm (iFn w % 4) (complexOf (aluA t w).toNat) (complexOf (aluB t w).toNat)) (decide (4 ≤ iFn w))

def tpClra (c : Nat) (w : Word) (t : Tp) : Tp := { t with av := t.av &&& (15 - 2 ^ (iRd w % 4)) }.setAcc c (iRd w % 4) (0, 0)

def tpAdda (c : Nat) (w : Word) (t : Tp) : Tp :=
  let k := iRd w % 4
  let t' := t.accAdd c k (t.acc.getD (iRa w % 4) (0, 0)) false
  { t' with av := if t.av / 2 ^ (iRa w % 4) % 2 = 1 then t'.av ||| 2 ^ k else t'.av }

/-- mva: a part rounded and saturated to 64 bits (R462). -/
def tpMva (c : Nat) (w : Word) (t : Tp) : Tp :=
  let a := t.accSlow.getD (iRa w % 4) (0, 0)
  let v := satTo 64 (roundDiv (if iFn w = 2 then a.1 else a.2) (2 ^ iImm6 w))
  { t with sv := t.sv || v.2 }.setD c 1 (iRd w) (BitVec.ofInt 64 v.1)

def execTpCmac4 (dt n : Nat) (s : State) : Host.Outcome State Fault Refusal := onAll dt (fun d m => tpIssue n (isOp 0x10) (tpCmac4 n) (d, m)) s
def execTpCmac1 (dt n : Nat) (s : State) : Host.Outcome State Fault Refusal := onAll dt (fun d m => tpIssue n (isOp 0x11) (tpReg_ tpCmac1) (d, m)) s
def execTpClra (dt n : Nat) (s : State) : Host.Outcome State Fault Refusal := onAll dt (fun d m => tpIssue n (isFn 0x12 0) (tpReg_ tpClra) (d, m)) s
def execTpAdda (dt n : Nat) (s : State) : Host.Outcome State Fault Refusal := onAll dt (fun d m => tpIssue n (isFn 0x12 1) (tpReg_ tpAdda) (d, m)) s
def execTpMva (dt n : Nat) (s : State) : Host.Outcome State Fault Refusal :=
  onAll dt (fun d m => tpIssue n (fun w => isFn 0x12 2 w || isFn 0x12 3 w) (tpReg_ tpMva) (d, m)) s

/-! ### Control flow (R465, R466, R469) -/

/-- COND of R474. -/
def Tp.cond (t : Tp) (k : Nat) : Bool :=
  match k with
  | 0 => true
  | 1 => t.z
  | 2 => !t.z
  | 3 => t.n != t.v
  | 4 => t.n == t.v
  | 5 => t.c
  | 6 => !t.c
  | 7 => t.u
  | _ => !t.u

/-- Two delay slots, then a transfer: three boundaries from the branch (R465). -/
def Tp.branch (t : Tp) (target : Int) (rti : Bool) : Tp := { t with delay := some (3, (target % (2 ^ 19 : Int)).toNat / 4 * 4, rti) }

def tpBr (_ : Nat) (w : Word) (t : Tp) : Tp :=
  t.branch (if t.cond (iRd w) then (t.pc : Int) + 4 * iImm w else (t.pc : Int) + 12) false
def tpJal (c : Nat) (w : Word) (t : Tp) : Tp :=
  (t.setD c 1 (iRd w) (BitVec.ofNat 64 ((t.pc + 12) % tpMask))).branch ((t.pc : Int) + 4 * iImm w) false
def tpJr (_ : Nat) (w : Word) (t : Tp) : Tp := t.branch ((aluA t w).toNat % tpMask : Nat) false
def tpRti (_ : Nat) (_ : Word) (t : Tp) : Tp := t.branch (t.epc : Int) true

/-- rep: a COUNT of 0 skips the body (R466). The body begins at the next address. -/
def tpRep (_ : Nat) (w : Word) (t : Tp) : Tp :=
  let count := if lUseRc w then (t.dr (iRd w)).toNat % 2 ^ 32 else lCount w
  if count = 0 then { t with pc := (t.pc + 4 * lLen w) % tpMask }
  else { t with rep := some ((t.pc + 4) % tpMask, lLen w, count) }

def execTpBr (dt n : Nat) (s : State) : Host.Outcome State Fault Refusal := onAll dt (fun d m => tpIssue n (isOp 0x18) (tpReg_ tpBr) (d, m)) s
def execTpJal (dt n : Nat) (s : State) : Host.Outcome State Fault Refusal := onAll dt (fun d m => tpIssue n (isOp 0x19) (tpReg_ tpJal) (d, m)) s
def execTpJr (dt n : Nat) (s : State) : Host.Outcome State Fault Refusal := onAll dt (fun d m => tpIssue n (isOp 0x1A) (tpReg_ tpJr) (d, m)) s
def execTpRti (dt n : Nat) (s : State) : Host.Outcome State Fault Refusal := onAll dt (fun d m => tpIssue n (isOp 0x1B) (tpReg_ tpRti) (d, m)) s
def execTpRep (dt n : Nat) (s : State) : Host.Outcome State Fault Refusal := onAll dt (fun d m => tpIssue n (isOp 0x1C) (tpReg_ tpRep) (d, m)) s

/-! ### nop, halt, wait, sig -/

def execTpNop (dt n : Nat) (s : State) : Host.Outcome State Fault Refusal :=
  onAll dt (fun d m => tpIssue n (isFn 0 0) (fun _ _ r => r) (d, m)) s

/-- halt: STOPPED, PC after it (assumption 41). -/
def tpHalt (n : Nat) (_ : Nat) (_ : Word) (r : TpRes) : TpRes :=
  { r with dev := r.dev.tpEvent n 2 0 r.tp.pc, tp := { r.tp with state := 1 } }

def execTpHalt (dt n : Nat) (s : State) : Host.Outcome State Fault Refusal :=
  onAll dt (fun d m =>
    let y := tpIssue n (isFn 0 1) (tpHalt n) (d, m)
    (if (y.1.tp n).stopReq && decide ((y.1.tp n).state = 1) then y.1.tpStopped n else y.1, y.2)) s

/-- wait: issue stops until IPEND and MASK share a bit; when they do already the next instruction follows at once (R471). -/
def tpWait (_ : Nat) (w : Word) (t : Tp) : Tp :=
  let mask := w.fld 10 0
  if (t.source mask).isSome then t else { t with wait := some mask }

def execTpWait (dt n mask : Nat) (s : State) : Host.Outcome State Fault Refusal :=
  onAll dt (fun d m =>
    let y := tpIssue n (fun w => isOp 1 w && decide (w.fld 10 0 = mask)) (tpReg_ tpWait) (d, m)
    (if (y.1.tp n).stopReq && (y.1.tp n).wait.isSome then (y.1.setTp n { y.1.tp n with state := 1, wait := none }).tpStopped n else y.1, y.2)) s

/-- WAIT_WAKE (R471): a waited source is pending and no interrupt can be taken: issue resumes 3 cycles later. -/
def execWaitWake (dt n : Nat) (s : State) : Host.Outcome State Fault Refusal :=
  onDev dt (fun d =>
    let t := (d.tp n).timer d.now
    match t.wait with
    | some mask =>
      if t.state = 2 ∧ (t.source mask).isSome ∧ ¬ t.interrupts then d.setTp n { t with wait := none, nextAt := max t.nextAt (d.cyc + 6) }
      else d
    | none => d) s

def tpSig (n : Nat) (_ : Nat) (w : Word) (r : TpRes) : TpRes := { r with dev := r.dev.tpEvent n 1 (w.fld 7 0) r.tp.pc }

def execTpSig (dt n code : Nat) (s : State) : Host.Outcome State Fault Refusal :=
  onAll dt (fun d m => tpIssue n (fun w => isOp 2 w && decide (w.fld 7 0 = code)) (tpSig n) (d, m)) s

/-- The instruction at PC traps when it issues (R472); a processor that waits issues none. -/
def tpTraps (n : Nat) (t : Tp) (d : Dev) (m : Mems) : Bool :=
  if t.wait.isSome then false
  else
    let s := tpStores n d.cyc t d m
    let w : Word := BitVec.ofNat 32 (tpLoad s.2.2 n t.pc 4)
    let r : TpRes := { dev := s.2.1, mem := s.2.2, tp := s.1 }
    (tpMarked s.2.1 n t.pc 4).isSome || !iListed w || (t.heldOff && iPlaced w) ||
      (isOp 8 w && (tpLd n d.cyc w r).trap.isSome) || (isOp 0x0A w && (tpStacc n d.cyc w r).trap.isSome) || (isOp 0x10 w && (tpCmac4 n d.cyc w r).trap.isSome)

/-- The interrupt of the lowest source that is pending and enabled (R469, R471). -/
def Dev.tpInterrupt (d : Dev) (n : Nat) (t : Tp) : Dev :=
  match t.source t.imask with
  | some i => d.setTp n { t with
      ecause := i
      epc := t.pc
      ie := false
      pc := t.ivec / 4 * 4
      wait := none
      nextAt := d.cyc + 6 }
  | none => d

/-- INTERRUPT_ENTRY (R469–R471): at a boundary where the next instruction traps, the trap wins (R472). -/
def execInterruptEntry (dt n : Nat) (s : State) : Host.Outcome State Fault Refusal :=
  onAll dt (fun d m =>
    let t := (d.tp n).timer d.now
    (if t.state ≠ 2 ∨ d.cyc < t.nextAt ∨ ¬ t.interrupts ∨ tpTraps n t d m then d else d.tpInterrupt n t, m)) s

/-- TIMER_COMPARE (R467): source 8 becomes pending when the count has reached TCMP. -/
def execTimerCompare (dt n : Nat) (s : State) : Host.Outcome State Fault Refusal :=
  onDev dt (fun d => d.setTp n ((d.tp n).timer d.now)) s

/-! ### Queues (R481, R520) -/

/-- pop: the descriptor, three cycles later; U on underrun; the slot of the previous one becomes free (R481). -/
def tpPop (c : Nat) (w : Word) (t : Tp) : Tp :=
  let f := iRa w
  let x := t.feed f
  let r := x.q.pop c
  let base := match t.binding with | some b => tbSlotBase b f | none => 0
  let bytes := (r.2.1 / 2 ^ 32 % 2 ^ 16) * 32
  let x := if r.2.2.2 then { x with q := r.1 } else { x with q := r.1, held := some ((r.2.1 % 2 ^ 19 - base) / max bytes 1) }
  { t.setFeed f x with u := r.2.2.2 }.setD c 3 (iRd w) (BitVec.ofNat 64 r.2.1)

/-- push: a word into the result queue, with end mark for FN 2 (R520). Without a binding there is no queue and the word is
discarded (assumption 42). -/
def tpPush (n c : Nat) (w : Word) (r : TpRes) : TpRes :=
  let t := r.tp
  if t.rqDepth = 0 then r
  else
    let p := t.rq.push t.rqDepth c (aluA t w).toNat (decide (iFn w = 2))
    if p.2 then
      let l := r.dev.resultLoss n p.1
      { r with dev := l.2, tp := { t with rq := l.1 } }
    else { r with tp := { t with rq := p.1 } }

def tpQcntFeed (c : Nat) (w : Word) (t : Tp) : Tp := t.setD c 1 (iRd w) (BitVec.ofNat 64 (t.feed (iRa w)).q.packets)
def tpQcntResult (c : Nat) (w : Word) (t : Tp) : Tp := t.setD c 1 (iRd w) (BitVec.ofNat 64 (t.rqDepth - t.rq.words))

/-- The queue of feed `f` is read: items that hold a mark are discarded and counted (R401). -/
def TpRes.feedRead (r : TpRes) (n f : Nat) : TpRes :=
  let m := r.dev.meets 3
  m.1.foldl (fun (r : TpRes) _ =>
    let x := r.tp.feed f
    if x.q.items.isEmpty then r
    else
      let d := r.dev.bump (tpReg n 0x20 + 4 * f)
      let l := d.queueLoss (64 + 8 * n + f) (d.reg (tpReg n 0x20 + 4 * f)).toNat x.q.discard
      { r with dev := l.2, tp := r.tp.setFeed f { x with q := l.1, lost := min (x.lost + 1) (2 ^ 32 - 1) } }) { r with dev := m.2 }

def tpPopRead (n c : Nat) (w : Word) (r : TpRes) : TpRes := tpReg_ tpPop c w (r.feedRead n (iRa w))

def execTpPop (dt n : Nat) (s : State) : Host.Outcome State Fault Refusal := onAll dt (fun d m => tpIssue n (isFn 0x1E 0) (tpPopRead n) (d, m)) s
def execTpPush (dt n : Nat) (s : State) : Host.Outcome State Fault Refusal :=
  onAll dt (fun d m => tpIssue n (fun w => isFn 0x1E 1 w || isFn 0x1E 2 w) (tpPush n) (d, m)) s
def execTpQcntFeed (dt n : Nat) (s : State) : Host.Outcome State Fault Refusal := onAll dt (fun d m => tpIssue n (isFn 0x1E 3) (tpReg_ tpQcntFeed) (d, m)) s
def execTpQcntResult (dt n : Nat) (s : State) : Host.Outcome State Fault Refusal := onAll dt (fun d m => tpIssue n (isFn 0x1E 4) (tpReg_ tpQcntResult) (d, m)) s

/-! ### Control registers (R457) -/

/-- STATUS as a word. -/
def Tp.status (t : Tp) : Nat :=
  t.z.toNat + 2 * t.n.toNat + 4 * t.c.toNat + 8 * t.v.toNat + 16 * t.u.toNat + 32 * t.ie.toNat + 64 * (t.av % 16) + 1024 * t.sv.toNat

/-- The control register of an index. -/
def Tp.ctrl (t : Tp) (i : Nat) : Nat :=
  match i with
  | 0 => t.status
  | 1 => t.epc
  | 2 => t.ecause
  | 3 => t.imask
  | 4 => t.ipend
  | 5 => t.ivec
  | 6 => t.tcmpLo.toNat
  | 7 => t.tcmpHi.toNat
  | _ => match t.rep with | some (_, _, left) => left | none => 0

def tpMfc (c : Nat) (w : Word) (t : Tp) : Tp := t.setD c 1 (iRd w) (BitVec.ofNat 64 (t.ctrl (iImm6 w)))

/-- mtc: writes to RO fields have no effect. -/
def tpMtc (_ : Nat) (w : Word) (t : Tp) : Tp :=
  let v := (aluA t w).toNat
  let bit (i : Nat) : Bool := decide (v / 2 ^ i % 2 = 1)
  match iImm6 w with
  | 0 => { t with z := bit 0, n := bit 1, c := bit 2, v := bit 3, u := bit 4, ie := bit 5, av := v / 64 % 16, sv := bit 10 }
  | 1 => { t with epc := v % tpMask }
  | 3 => { t with imask := v % 2 ^ 11 }
  | 4 => if bit 11 then { t with bindPend := false } else t
  | 5 => { t with ivec := v % tpMask }
  | 6 => { t with tcmpLo := BitVec.ofNat 32 v }
  | 7 => { t with tcmpHi := BitVec.ofNat 32 v, armed := some (QWord.ofHalves t.tcmpLo (BitVec.ofNat 32 v)) }
  | _ => t

/-- The write is BIND_CLR's, or TCMP_HI's: those have rows of their own. -/
def isBindClr (t : Tp) (w : Word) : Bool := isFn 0x1F 1 w && decide (iImm6 w = 4) && decide ((aluA t w).toNat / 2 ^ 11 % 2 = 1)
def isTcmpHi (w : Word) : Bool := isFn 0x1F 1 w && decide (iImm6 w = 7)

def tpRdt (c : Nat) (w : Word) (r : TpRes) : TpRes := { r with tp := r.tp.setD c 1 (iRd w) r.dev.clk.count }

def execTpMfc (dt n : Nat) (s : State) : Host.Outcome State Fault Refusal := onAll dt (fun d m => tpIssue n (isFn 0x1F 0) (tpReg_ tpMfc) (d, m)) s
def execTpMtc (dt n : Nat) (s : State) : Host.Outcome State Fault Refusal :=
  onAll dt (fun d m => tpIssue n (fun w => isFn 0x1F 1 w && !isBindClr ((d.tp n).settle d.cyc) w && !isTcmpHi w) (tpReg_ tpMtc) (d, m)) s
def execTpBindClr (dt n : Nat) (s : State) : Host.Outcome State Fault Refusal :=
  onAll dt (fun d m => tpIssue n (isBindClr ((d.tp n).settle d.cyc)) (tpReg_ tpMtc) (d, m)) s
def execTpTcmpHiWrite (dt n : Nat) (s : State) : Host.Outcome State Fault Refusal := onAll dt (fun d m => tpIssue n isTcmpHi (tpReg_ tpMtc) (d, m)) s
def execTpRdt (dt n : Nat) (s : State) : Host.Outcome State Fault Refusal := onAll dt (fun d m => tpIssue n (isFn 0x1F 2) tpRdt (d, m)) s

end Sys2Proof.Machine
end

