-- ==== Sys2Proof/Machine/TpCmds.lean ====
section
/-!
DEFINITION. Feeding, loading, starting and stopping trace processors (R481, R483–R487).
-/

namespace Sys2Proof.Machine

/-! ### Descriptors (R480, R481) -/

/-- The descriptor of an item at slot address `addr` (R480). -/
def descriptor (addr : Nat) (i : FeedItem) (lost seq : Nat) : Nat :=
  addr % 2 ^ 19 + 2 ^ 19 * i.poison.toNat + 2 ^ 20 * i.ovr.toNat + 2 ^ 21 * i.restart.toNat +
    2 ^ 22 * (decide (lost ≠ 0)).toNat + 2 ^ 32 * (i.bytes.length / 32 % 2 ^ 16) + 2 ^ 48 * (seq % 2 ^ 16)

/-- An item's bytes with LOST at 0x18 (R478). -/
def withLost (bs : List Byte) (lost : Nat) : List Byte := bs.take 0x18 ++ bytesOfWord (BitVec.ofNat 32 lost) ++ bs.drop 0x1C

/-- FEED_DESCRIPTOR_PUSH: the oldest finished item whose tick has come is in its slot, and its descriptor is pushed. A store
to a byte of the slot on the same cycle is discarded: the item's bytes land after it. -/
def feedPush (n f : Nat) (x : Dev × Mems) : Dev × Mems :=
  let d := x.1
  let t := d.tp n
  let q := t.feed f
  match t.binding, q.items.find? (fun (i : FeedItem) => match i.due with | some c => decide (c ≤ d.cyc) | none => false) with
  | some w, some i =>
    let s := tpStores n d.cyc t d x.2
    let bytes := withLost i.bytes q.lost
    let addr := tbSlotBase w f + i.slot * i.bytes.length
    let r := q.q.push (2 ^ tbQLog w f) d.cyc (descriptor addr i q.lost q.seq) true
    let q' := { q with
      q := r.1
      items := q.items.filter (fun (j : FeedItem) => !(decide (j.slot = i.slot)))
      seq := q.seq + 1
      lost := 0 }
    let d := s.2.1.setTp n (s.1.setFeed f q')
    let d := d.facetHeal 2 (n * tpMask + addr) bytes.length
    let m := { s.2.2 with tp := s.2.2.tp.writeBytes (n * tpMask + addr) bytes }
    (if r.2 then d.feedLoss n f r.1 else d, m)
  | _, _ => x

def execFeedDescriptorPush (dt n f : Nat) (s : State) : Host.Outcome State Fault Refusal := onAll dt (fun d m => feedPush n f (d, m)) s

/-! ### Starts and stops (R485, R486) -/

/-- A start at the present tick: a fresh one clears the registers of R456 and sets PC and IVEC; a resume keeps them. -/
def Dev.tpRun (d : Dev) (n : Nat) (st : TpStart) : Dev :=
  let t := (d.tp n).settle d.cyc
  let t := if st.resume then t else { t with
    d := List.replicate 16 0, acc := List.replicate 4 (0, 0), accSlow := List.replicate 4 (0, 0), p := List.replicate 8 0,
    b := List.replicate 8 0, l := List.replicate 8 0, pc := st.entry, ivec := st.ivec, pendD := [], pendAcc := [],
    delay := none, rep := none, wait := none, ieNext := false }
  ((d.setTp n { t with state := 2, nextAt := d.cyc, start := none, stopReq := false }).setReg64 (tpReg n 0x10) 0)

/-- TP_START_TICK (R485). -/
def Dev.tpStartTick (d : Dev) (n : Nat) : Dev :=
  match (d.tp n).start with
  | some st =>
    if d.now < st.tick then d
    else
      let d := if (d.tp n).state = 1 ∨ (d.tp n).state = 3 then d.tpRun n st else d.setTp n { d.tp n with start := none }
      d.finish (.tpStart n) { result0 := BitVec.ofNat 64 st.tick }
  | none => d

def execTpStartTick (dt n : Nat) (s : State) : Host.Outcome State Fault Refusal := onDev dt (fun d => d.tpStartTick n) s

def formTpStart : CmdForm := { opcode := 0x41, blockLen := 16, targetHi := 31 }

def tpStartChecks (_ : Dev) (b : List Word) : List (Nat × Bool) :=
  let resume := bitAt b 0x00 31
  let entry := fldAt b 0x00 18 0
  [ (0x00, decide (fldAt b 0x00 30 19 = 0 ∧ entry % 4 = 0) && (!resume || decide (entry = 0))),
    (0x04, decide (fldAt b 0x04 31 19 = 0) && (!resume || decide (fldAt b 0x04 18 0 = 0))) ]

/-- TP_START after its checks: the state of R483, the lead of R134, then the start is scheduled (R485). -/
def Dev.tpStart (d : Dev) (q : Nat) (e : Entry) : Dev :=
  let n := e.target
  let t := d.tp n
  let b := e.block
  if t.state ≠ 1 ∧ t.state ≠ 3 then formTpStart.reply d q e { status := efsState, result0 := BitVec.ofNat 64 t.state }
  else
    let tick := qAt b 0x08
    let least := d.now + scopeLead 0
    if decide (tick ≠ 0) && decide (tick.toNat < least) then
      formTpStart.reply d q e { status := efsLead, result0 := tick, result1 := BitVec.ofNat 64 least }
    else
      let d := d.setTp n { t with start := some {
        tick := if tick = 0 then least else tick.toNat, entry := fldAt b 0x00 18 0, ivec := fldAt b 0x04 18 0, resume := bitAt b 0x00 31 } }
      d.hold q 0x41 e (.tpStart n)

/-- TP_START: a fresh start (the entry's RESUME bit decides: assumption 43). -/
def execTpStart (dt q : Nat) (e : Entry) (s : State) : Host.Outcome State Fault Refusal :=
  onDev dt (runCmd formTpStart q e tpStartChecks (fun d => d.tpStart q e)) s

/-- TP_START with RESUME 1. -/
def execTpResume (dt q : Nat) (e : Entry) (s : State) : Host.Outcome State Fault Refusal :=
  onDev dt (runCmd formTpStart q e tpStartChecks (fun d => d.tpStart q e)) s

def formTpStop : CmdForm := { opcode := 0x42, targetHi := 31 }

/-- A running processor stops: at once where the boundary is not held off or it waits, else at the first that is not (R486). -/
def Dev.tpHaltNow (d : Dev) (n : Nat) : Dev :=
  let t := d.tp n
  if t.wait.isSome || !t.heldOff then (d.setTp n { t with state := 1, wait := none }).tpStopped n else d.setTp n { t with stopReq := true }

def execTpStop (dt q : Nat) (e : Entry) (s : State) : Host.Outcome State Fault Refusal :=
  onDev dt (runCmd formTpStop q e noChecks (fun d =>
    let t := d.tp e.target
    if t.state ≠ 2 then formTpStop.reply d q e { status := efsState, result0 := BitVec.ofNat 64 t.state }
    else (d.hold q 0x42 e (.tpStop e.target)).tpHaltNow e.target)) s

/-! ### Loading (R484) -/

/-- ITEM_BYTES of a feed of a binding within a plane (R476). -/
def feedItemBytes (plane : List Block) (w : List Word) (f : Nat) : Nat :=
  if tbKind w f = 1 then
    match planeBlock plane 0x03 (tbSource w f) with
    | some b => 32 + ceilDiv (tfBinCount b.words * binBytes (tfFormat b.words)) 32 * 32
    | none => 32
  else sampleItemBytes w f

/-- The slot areas of a plane's binding of processor `n`: first byte and size (R476). -/
def slotAreas (plane : List Block) (n : Nat) : List (Nat × Nat) :=
  match planeBlock plane 0x0C n with
  | some b => (List.range 8).filterMap (fun f =>
      if tbKind b.words f = 0 then none else some (tbSlotBase b.words f, tbSlots b.words f * feedItemBytes plane b.words f))
  | none => []

/-- The slot areas of processor `n` in the ADMITTED, LIVE and HALTED apertures. -/
def Dev.heldAreas (d : Dev) (n : Nat) : List (Nat × Nat) :=
  d.aps.flatMap (fun (p : Nat × Aperture) =>
    if 2 ≤ p.2.state then slotAreas p.2.live n ++ (if p.2.state = 2 ∨ p.2.changeAdmitted then slotAreas p.2.admitted n else []) else [])

def formTpLoad : CmdForm := { opcode := 0x40, byPtr := true, blockLen := 16, targetHi := 31 }

def tpLoadChecks (n inLen : Nat) (d : Dev) (b : List Word) : List (Nat × Bool) :=
  let a := fldAt b 0x00 18 0
  let len := fldAt b 0x04 19 0
  [ (0x00, decide (a % 8 = 0 ∧ fldAt b 0x00 31 19 = 0) &&
      (d.heldAreas n).all (fun (s : Nat × Nat) => decide (a + len ≤ s.1 ∨ s.1 + s.2 ≤ a))),
    (0x04, decide (32 ≤ len ∧ len ≤ 524288 ∧ len % 8 = 0 ∧ a + len ≤ 0x80000 ∧ fldAt b 0x04 31 20 = 0 ∧ inLen = 16 + len)),
    (0x08, decide (fldAt b 0x08 31 1 = 0)), (0x0C, decide (dwAt b 0x0C = 0)) ]

/-- Local memory of processor `n` zeroed outside slot areas (R484). -/
def clearLocal (m : Memory) (n : Nat) (areas : List (Nat × Nat)) : Memory :=
  m.filter (fun c => decide (c.1 < n * tpMask ∨ (n + 1) * tpMask ≤ c.1) ||
    areas.any (fun (s : Nat × Nat) => decide (n * tpMask + s.1 ≤ c.1 ∧ c.1 < n * tpMask + s.1 + s.2)))

/-- The image written (R484); memory marks of written bytes are healed (R403). -/
def tpLoadImage (n : Nat) (b : List Word) (x : Dev × Mems) : Dev × Mems :=
  let s := tpStores n x.1.cyc (x.1.tp n) x.1 x.2
  let x := (s.2.1.setTp n s.1, s.2.2)
  let d := x.1
  let areas := d.heldAreas n
  let a := fldAt b 0x00 18 0
  let bytes := (bytesOfWords (b.drop 4)).take (fldAt b 0x04 19 0)
  let clear := bitAt b 0x08 0
  let m := if clear then clearLocal x.2.tp n areas else x.2.tp
  let marks := if clear then d.cmc.facet.filter (fun (p : Nat × Nat) => decide (p.1 ≠ 2 ∨ p.2 < n * tpMask ∨ (n + 1) * tpMask ≤ p.2) ||
      areas.any (fun (s : Nat × Nat) => decide (n * tpMask + s.1 ≤ p.2 ∧ p.2 < n * tpMask + s.1 + s.2))) else d.cmc.facet
  let d := d.updCmc (fun c => { c with facet := marks })
  let t := d.tp n
  ((d.facetHeal 2 (n * tpMask + a) bytes.length).setTp n { t with state := 1 }, { x.2 with tp := m.writeBytes (n * tpMask + a) bytes })

def execTpLoad (dt q : Nat) (e : Entry) (s : State) : Host.Outcome State Fault Refusal :=
  onAll dt (fun d m => runCmdM formTpLoad q e (tpLoadChecks e.target e.inLen) (fun x =>
    let t := x.1.tp e.target
    if t.state = 2 then (formTpLoad.reply x.1 q e { status := efsState, result0 := BitVec.ofNat 64 t.state }, x.2)
    else
      let y := tpLoadImage e.target e.block x
      (formTpLoad.reply y.1 q e {}, y.2)) (d, m)) s

/-! ### A binding and its aperture (R487) -/

/-- Feeds with every queue emptied and every slot freed; items in progress are discarded. -/
def Tp.dropFeeds (t : Tp) : Tp := { t with feeds := [] }

/-- A launch installs or changes a binding (R487). -/
def Dev.bindLaunch (d : Dev) (a n : Nat) (b : Block) : Dev :=
  let t := d.tp n
  let rqSame := decide (t.binding.map tbRqLog = some (tbRqLog b.words))
  let t := { t with bind := some (a, b), feeds := [], feedsOn := true, from_ := d.now, bindPend := true, rq := if rqSame then t.rq else {} }
  let d := d.setTp n t
  if tbAutostart b.words then
    if t.state = 0 then d.tpEvent n 4 0 0
    else if t.state = 2 then d
    else d.tpRun n { tick := d.now, entry := fldAt b.words 0x0C 18 0, ivec := fldAt b.words 0x10 18 0, resume := false }
  else d

/-- APERTURE_HALT stops the feeds; queued items stay (R487). -/
def Dev.bindHalt (d : Dev) (n : Nat) : Dev :=
  let t := d.tp n
  d.setTp n { t with feedsOn := false, feeds := t.feeds.map (fun (p : Nat × TFeed) => (p.1, { p.2 with items := [], cands := [] })) }

/-- APERTURE_RELEASE removes the binding; the processor stops as by TP_STOP (R487). -/
def Dev.bindRelease (d : Dev) (n : Nat) : Dev :=
  let t := d.tp n
  let d := d.setTp n { t with bind := none, feedsOn := false, feeds := [], rq := {}, start := t.start }
  if t.state = 2 then d.tpHaltNow n else d

end Sys2Proof.Machine
end

