-- ==== Sys2Proof/Machine/Blocks.lean ====
section
/-!
DEFINITION. Configuration blocks as firmware checks them at APERTURE_STAGE: the header (R82) and every field of the fourteen
bodies (R187, R223, R265, R274, R280, R289, R298, R321, R322, R423, R475, R495, R515, R544). A check is a byte offset and whether
the field there is good; the least offset of those that are not is the first bad field (R88).
-/

namespace Sys2Proof.Machine

/-- The field is within a range. -/
def rng (b : List Word) (off hi lo least most : Nat) : Nat × Bool := (off, decide (least ≤ fldAt b off hi lo ∧ fldAt b off hi lo ≤ most))

/-- The field is 0. -/
def zer (b : List Word) (off hi lo : Nat) : Nat × Bool := rng b off hi lo 0 0

/-- The field is 0 unless it applies. -/
def zerUnless (applies : Bool) (b : List Word) (off hi lo : Nat) : Nat × Bool := (off, applies || decide (fldAt b off hi lo = 0))

/-- A trigger selector names a source (R272). -/
def selOk (v : Nat) : Bool :=
  let i := v % 4096
  match v / 4096 with
  | 0 => decide (i = 0)
  | 1 => decide (i < 512)
  | 2 => decide (i < 256)
  | 3 => decide (i < 64)
  | 4 => decide (i < 16)
  | 5 => true
  | 6 => decide (i < 1024)
  | _ => false

/-! ### Headers (R82, R83) -/

def blkType (h : Word) : Nat := h.fld 7 0
def blkLen (h : Word) : Nat := h.fld 31 16

/-- The greatest UNIT of a type (R82, R184, R513). -/
def maxUnit : Nat → Nat
  | 1 => 243
  | 2 => 511
  | 3 => 511
  | 4 => 511
  | 5 => 255
  | 6 => 63
  | 7 => 7
  | 8 => 15
  | 9 => 0
  | 10 => 3
  | 11 => 7
  | 12 => 31
  | 13 => 59
  | _ => 15

/-- M of a user window table: min(N/2, 1,024) (R250). -/
def windowM (b : List Word) : Nat := min (tfN b / 2) 1024

/-- The LEN a body has (R187, R223, R265 and the others). -/
def bodyLen (type : Nat) (b : List Word) : Nat :=
  match type with
  | 1 => 48
  | 2 => if chCfirUser b then 184 else 56
  | 3 => if tfWindow b = 17 then 56 else if tfWindow b = 16 then 24 + 8 * ceilDiv (windowM b + 1) 2 else 24
  | 4 => 32
  | 5 => 56 + 8 * ceilDiv (fldAt b 0x08 22 16) 2
  | 6 => 96
  | 7 => 16
  | 8 => 32
  | 9 => 32
  | 10 => 80
  | 11 => if dfHost b then 48 else 1136
  | 12 => 152
  | 13 => 48
  | _ => 32

/-- The header's checks; `left` is how many bytes the stage list still holds from the block's start. -/
def headerChecks (b : List Word) (left : Nat) : List (Nat × Bool) :=
  let h := dwAt b 0
  let n := blkLen h
  [(0x00, decide (1 ≤ blkType h ∧ blkType h ≤ 14)), zer b 0x00 15 8,
   (0x00, decide (8 ≤ n ∧ n % 8 = 0 ∧ n ≤ left)),
   (0x04, decide (fldAt b 0x04 15 0 ≤ maxUnit (blkType h))), zer b 0x04 31 16]

/-! ### Bodies -/

/-- Fs of R169, as samples per second over 10⁶: `L × RATE_MBPS × 64 / (66 × 16 × M)`; the rate it gives is within 1 kCS/s. -/
def jesdRateOk (b : List Word) : Bool :=
  let num := rtL b * rtMbps b * 64 * 1000
  let den := 66 * 16 * rtM b * (if rtReal b then 2 else 1)
  decide (num ≤ (rtRate b + 1) * den ∧ rtRate b * den ≤ num + den)

def routeChecks (u : Nat) (b : List Word) : List (Nat × Bool) :=
  let k := rtKind b
  let psl := decide (k = 0)
  let jesd := decide (k = 1)
  let ain := decide (k = 2)
  [ (0x08, decide (k ≤ 2) && decide (ain = decide (240 ≤ u))),
    (0x08, !ain || rtReal b), zer b 0x08 3 3, zerUnless psl b 0x08 4 4, zer b 0x08 7 5,
    zerUnless psl b 0x08 14 8, rng b 0x08 14 8 0 95, zer b 0x08 15 15, zerUnless psl b 0x08 18 16, rng b 0x08 18 16 0 4,
    (0x08, decide (rtLane b % rtBond b = 0)), zer b 0x08 19 19,
    zerUnless jesd b 0x08 24 20, rng b 0x08 24 20 0 23, zer b 0x08 25 25,
    zerUnless jesd b 0x08 29 26,
    (0x08, !jesd || (if rtReal b then decide (rtConv b < rtM b) else decide (rtConv b + 2 ≤ rtM b ∧ rtConv b % 2 = 0))),
    zer b 0x08 31 30,
    rng b 0x0C 31 0 1000 24000000,
    (0x0C, !ain || decide (rtRate b = 12000000)), (0x0C, !psl || decide (rtRate b ≤ 3395833 * rtBond b)),
    (0x0C, !jesd || jesdRateOk b),
    (0x10, decide (rtDest b ≠ 0)),
    zerUnless (psl || jesd) b 0x18 15 0, zerUnless psl b 0x18 31 16 ] ++
  [ zerUnless jesd b 0x1C 29 0, zer b 0x1C 31 30,
    (0x1C, !jesd || (decide (12 ≤ rtBits b ∧ rtCs b ≤ 2 ∧ rtBits b + rtCs b ≤ 16) && decide (fldAt b 0x1C 13 12 ≤ 2 ∧ fldAt b 0x1C 15 14 ≤ 1))),
    (0x1C, !jesd || decide (2 * rtM b * 2 ^ fldAt b 0x1C 13 12 % rtL b = 0)),
    zer b 0x1C 22 22, (0x1C, !jesd || decide (rtLaneBase b + rtL b ≤ 96)),
    (0x1C, !jesd || decide (rtMbps b ≠ 0 ∧ rtE b * 2112 * 3000 % rtMbps b = 0)),
    zerUnless jesd b 0x20 21 0, zer b 0x20 31 22, (0x20, !jesd || decide (96 ≤ rtRelease b ∧ rtRelease b ≤ 4096)),
    zerUnless jesd b 0x24 15 0, (0x24, !jesd || decide (6375 ≤ rtMbps b ∧ rtMbps b ≤ 32500)),
    zerUnless psl b 0x24 18 16, (0x24, !psl || decide (rtDeskew b ≤ 4 ∧ (rtDeskew b = 0 ↔ rtBond b = 1))), zer b 0x24 31 19,
    zerUnless ain b 0x28 31 0, zer b 0x28 15 2, zer b 0x2C 31 0 ]

/-- The widths of R213: stages I1 to I5, then the combs. -/
def stageWidth (k s : Nat) : Nat := if s < k then 84 - 4 * s else 64

def channelChecks (u : Nat) (b : List Word) : List (Nat × Bool) :=
  let cic := chCicEn b
  let k := chOrder b
  let cfir := chCfirEn b
  let t := chTaps b
  [ rng b 0x08 7 0 0 243, zerUnless (!(chLoupe b)) b 0x08 7 0, zerUnless (chLoupe b) b 0x08 11 9,
    (0x08, !(chLoupe b) || decide (chParent b ≠ u % 8)), zer b 0x08 31 15,
    zerUnless cic b 0x14 2 1, rng b 0x14 2 1 0 2, zer b 0x14 3 3, zerUnless cic b 0x14 15 4, (0x14, !cic || decide (fldAt b 0x14 15 4 ≠ 0)),
    zer b 0x14 31 16,
    zerUnless cic b 0x18 24 0, zer b 0x18 31 25, zerUnless cic b 0x1C 24 0, zer b 0x1C 31 25,
    (0x18, !cic || ((List.range (2 * k)).all (fun s => decide (chBmax b ≤ chCum b s + stageWidth k s)) && decide (chCum b (2 * k) ≤ chBmax b) &&
      decide (fldAt b 0x18 24 (5 * k) = 0 ∨ k = 5) && decide (fldAt b 0x1C 24 (5 * k) = 0 ∨ k = 5))),
    zerUnless cfir b 0x20 2 1, zer b 0x20 3 3, zerUnless cfir b 0x20 9 4, zer b 0x20 31 14,
    (0x20, !cfir || (decide (t % 2 = 1 ∧ 3 ≤ t) && (chCfirUser b || (decide (t = 63) && cic)))),
    rng b 0x24 17 0 1 262143, zer b 0x24 31 18,
    zerUnless (chRsEn b) b 0x28 31 0, (0x28, !(chRsEn b) || decide (2 ^ 31 ≤ chStep b)),
    zerUnless (chPdEn b) b 0x2C 19 0, zer b 0x2C 31 20, zer b 0x30 31 0, zer b 0x34 31 0 ] ++
  (if chCfirUser b then (List.range 32).flatMap (fun i => [zer b (0x38 + 4 * i) 31 20, zerUnless (decide (2 * i ≤ t - 1)) b (0x38 + 4 * i) 19 0]) else [])

def transformChecks (b : List Word) : List (Nat × Bool) :=
  let w := tfWindow b
  let half : Int := (tfN b / 2 : Nat)
  [ rng b 0x08 4 0 6 16, rng b 0x08 7 5 0 4, (0x08, decide (w ≤ 11 ∨ w = 16 ∨ w = 17)), zer b 0x08 15 13, rng b 0x08 17 16 0 2, zer b 0x08 31 18,
    (0x0C, decide (-half ≤ tfBinLo b ∧ tfBinLo b < half)), zer b 0x0C 31 16,
    rng b 0x10 16 0 1 65536, (0x10, decide (tfBinLo b + (tfBinCount b : Int) ≤ half)), zer b 0x10 31 17,
    (0x14, if w = 17 then decide (1 ≤ fldAt b 0x14 3 0 ∧ fldAt b 0x14 3 0 ≤ 8) else decide (fldAt b 0x14 3 0 = 0)), zer b 0x14 31 4,
    (0x14, !(decide (w = 16 ∨ w = 17)) || userWindowOk b) ] ++
  (if w = 17 then (List.range 8).map (fun i => zerUnless (decide (i < fldAt b 0x14 3 0)) b (0x18 + 4 * i) 31 0)
   else if w = 16 then (List.range (b.length - 6)).map (fun i =>
     if i ≤ windowM b then zer b (0x18 + 4 * i) 31 19 else zer b (0x18 + 4 * i) 31 0)
   else [])

def leChecks (b : List Word) : List (Nat × Bool) :=
  let mode := fldAt b 0x08 3 2
  let edge := decide (mode = 0)
  [ rng b 0x08 1 0 0 2, rng b 0x08 5 4 0 2, zerUnless edge b 0x08 5 4, zerUnless (!edge) b 0x08 6 6, zer b 0x08 31 7,
    zer b 0x0C 31 24, zerUnless edge b 0x10 23 0, zer b 0x10 31 24,
    (0x14, decide ((if mode = 1 then 1 else if mode = 2 then 2 else 0) ≤ fldAt b 0x14 23 0)),
    zerUnless (decide (mode = 1 ∨ mode = 2)) b 0x14 23 0, zer b 0x14 31 24, zer b 0x1C 31 0 ]

def maskChecks (b : List Word) : List (Nat × Bool) :=
  let np := fldAt b 0x08 22 16
  let nx := fldAt b 0x08 25 23
  let bin (p : Nat) : Int := sfldAt b (0x38 + 4 * p) 15 0
  [ rng b 0x08 13 12 0 2, rng b 0x08 15 14 0 2, rng b 0x08 22 16 1 64, rng b 0x08 25 23 0 4, zer b 0x08 31 27,
    rng b 0x0C 16 0 1 65536, zer b 0x0C 31 17, rng b 0x10 6 0 1 64, zer b 0x10 7 7, rng b 0x10 14 8 1 (mkM b), zer b 0x10 31 15,
    zer b 0x14 31 0 ] ++
  (List.range 4).flatMap (fun x =>
    [ zerUnless (decide (x < nx)) b (0x18 + 8 * x) 31 0,
      (0x18 + 8 * x, !(decide (x < nx)) || decide (sfldAt b (0x18 + 8 * x) 15 0 ≤ sfldAt b (0x18 + 8 * x) 31 16)),
      zerUnless (decide (x < nx)) b (0x1C + 8 * x) 16 0, zer b (0x1C + 8 * x) 31 17 ]) ++
  (List.range (np - 1)).map (fun p => (0x3C + 4 * p, decide (bin p < bin (p + 1)))) ++
  (if np % 2 = 1 then [zer b (0x38 + 4 * np) 31 0] else [])

/-- Input `i` of a combiner. -/
def cbInput (b : List Word) (i : Nat) : Nat := fldAt b (0x10 + 4 * (i / 2)) (16 * (i % 2) + 15) (16 * (i % 2))

def combinerChecks (u : Nat) (b : List Word) : List (Nat × Bool) :=
  let n := cbStages b
  let sels := (List.range 4).map (fun s => fldAt b (0x20 + 16 * s) 7 0)
  [ zerUnless (cbExport b) b 0x08 6 5, (0x08, !(cbExport b) || decide (cbScope b = 1 ∨ cbScope b = 2)), zer b 0x08 7 7,
    zerUnless (cbExport b) b 0x08 27 16, zer b 0x08 31 28,
    (0x08, (List.range 8).all (fun i => !(cbReset b i) || sels.all (fun v => decide (v / 2 ^ i % 2 = 0)))) ] ++
  (List.range 8).map (fun i => (0x10 + 2 * i, selOk (cbInput b i) && !(decide (cbInput b i / 4096 = 3 ∧ u ≤ cbInput b i % 4096)))) ++
  (List.range 4).flatMap (fun s =>
    if s < n then
      [ rng b (0x20 + 16 * s) 7 0 1 255, zer b (0x20 + 16 * s) 15 9, rng b (0x20 + 16 * s) 31 16 1 65535,
        zerUnless (decide (s ≠ 0)) b (0x28 + 16 * s) 31 0, zerUnless (decide (s ≠ 0)) b (0x2C + 16 * s) 31 0 ]
    else [zer b (0x20 + 16 * s) 31 0, zer b (0x24 + 16 * s) 31 0, zer b (0x28 + 16 * s) 31 0, zer b (0x2C + 16 * s) 31 0])

def trigOutChecks (b : List Word) : List (Nat × Bool) :=
  [ (0x08, selOk (toSource b) && decide (toSource b / 4096 ≠ 6)), rng b 0x08 17 16 0 2, zer b 0x08 31 19,
    (0x0C, decide (toMode b ≠ 1) || decide (3 ≤ toPulseW b)), zer b 0x0C 31 16 ]

def markerChecks (b : List Word) : List (Nat × Bool) :=
  let iv := decide (mbMode b = 2)
  let single := bitAt b 0x08 2
  let th := sfldAt b 0x0C 12 0
  [ rng b 0x08 1 0 0 2, zerUnless (!single) b 0x08 3 3, rng b 0x08 5 4 0 2, rng b 0x08 7 6 0 2, zerUnless iv b 0x08 7 6, zerUnless iv b 0x08 11 8,
    zerUnless iv b 0x08 13 13, zer b 0x08 31 14,
    zerUnless single b 0x0C 12 0, (0x0C, decide (-1000 ≤ th ∧ th ≤ 2500)), zer b 0x0C 15 13, zer b 0x0C 31 20,
    zer b 0x10 31 16, zerUnless iv b 0x18 23 0, (0x18, !iv || decide (mbTimeout b ≠ 0)), zer b 0x18 31 24, zer b 0x1C 31 0 ]

def captureChecks (b : List Word) : List (Nat × Bool) :=
  [ (0x08, selOk (cpSource b)), (0x08, !(cpLight b) || cpStreaming b), zer b 0x08 31 22,
    (0x0C, !(cpStreaming b) || decide (cpSegments b = 1)), zer b 0x0C 31 12,
    (0x14, cpStreaming b || decide (cpPost b ≠ 0)), zer b 0x1C 31 0 ]

def reductionChecks (b : List Word) : List (Nat × Bool) :=
  [ rng b 0x08 6 3 0 8, rng b 0x08 11 7 0 16, (0x08, decide (rdKind b ≠ 1 ∨ rdLog b ≠ 0)), rng b 0x08 13 12 0 2, zer b 0x08 15 14,
    rng b 0x08 21 16 0 59, zer b 0x08 31 22, zer b 0x0C 31 0,
    (0x10, (List.range 16).any (fun w => decide (dwAt b (0x10 + 4 * w) ≠ 0))) ]

def densityChecks (b : List Word) : List (Nat × Bool) :=
  let host := dfHost b
  let dm := dfDecay b
  [ rng b 0x08 2 1 0 2, rng b 0x08 4 3 1 3, zerUnless (!host) b 0x08 6 5, zer b 0x08 7 7, zerUnless (!host) b 0x08 9 8, rng b 0x08 9 8 0 2,
    zerUnless (!host && decide (dm = 1)) b 0x08 14 10,
    (0x08, decide (dm ≠ 1) || decide (1 ≤ dfShift b ∧ dfShift b ≤ 16)), zer b 0x08 15 15,
    (0x08, if host then decide (dfInc b = 0) else decide (dfInc b ≠ 0)),
    rng b 0x0C 11 0 16 (if host then 3840 else 1024), zer b 0x0C 15 12, rng b 0x0C 27 16 16 (if host then 2160 else 1024), zer b 0x0C 31 28,
    zerUnless (!host) b 0x10 15 0, zer b 0x10 31 16,
    (0x14, if host then decide (dfXBins b = 0) else decide (1 ≤ dfXBins b ∧ dfXBins b ≤ 65536)), zer b 0x14 31 17,
    zerUnless (!host) b 0x18 15 0, (0x18, if host then decide (dfYStep b = 0) else decide (dfYStep b ≠ 0)),
    (0x1C, if host then decide (dfFull b = 0) else decide (dfFull b ≠ 0)),
    (0x20, if decide (dm = 1 ∨ dm = 2) && !host then decide (300000 ≤ dfDecayTicks b) else decide (dfDecayTicks b = 0)),
    (0x24, if host then decide (dfRenderTicks b = 0) else decide (dfRenderTicks b = 0 ∨ 3000000 ≤ dfRenderTicks b)),
    zer b 0x28 31 0, zer b 0x2C 31 0,
    (0x30, host || (List.range 16).any (fun w => decide (dwAt b (0x30 + 4 * w) ≠ 0))) ]

def bindingChecks (b : List Word) : List (Nat × Bool) :=
  [ rng b 0x08 3 0 4 12, zer b 0x08 31 5, (0x0C, decide (fldAt b 0x0C 18 0 % 4 = 0)), zerUnless (tbAutostart b) b 0x0C 18 0, zer b 0x0C 31 19,
    zerUnless (tbAutostart b) b 0x10 18 0, zer b 0x10 31 19, zer b 0x14 31 0 ] ++
  (List.range 8).flatMap (fun f =>
    let o := 0x18 + 16 * f
    let k := tbKind b f
    if k = 0 then [zer b o 31 0, zer b (o + 4) 31 0, zer b (o + 8) 31 0, zer b (o + 12) 31 0]
    else
      [ rng b o 5 2 2 10, zer b o 15 6,
        (o, if k = 3 then selOk (tbSource b f) && decide (tbSource b f / 4096 ≠ 0) else decide (tbSource b f < 512)),
        (o + 4, decide (tbSlotBase b f % 32 = 0)), zer b (o + 4) 31 19,
        (o + 8, if k = 1 then decide (tbCount b f ≠ 0)
          else if k = 2 then decide (4 ≤ tbCount b f ∧ tbCount b f ≤ 16384 ∧ tbCount b f % 4 = 0) else decide (tbCount b f = 0)),
        zer b (o + 8) 31 16, zer b (o + 12) 31 0 ])

/-! The export stream block (R515). -/

def exKind (b : List Word) : Nat := fldAt b 0x08 1 0
def exRelay (b : List Word) : Bool := bitAt b 0x08 2
def exRetry (b : List Word) : Nat := fldAt b 0x08 5 3
def exBurst (b : List Word) : Nat := 512 * 2 ^ fldAt b 0x08 7 6
def exUnit (b : List Word) : Nat := fldAt b 0x08 12 8
def exHostLog (b : List Word) : Nat := fldAt b 0x08 21 16
def exRate (b : List Word) : Nat := (dwAt b 0x0C).toNat
def exBase (b : List Word) : QWord := qAt b 0x10
def exTail (b : List Word) : QWord := qAt b 0x18
def exHigh (b : List Word) : Nat := fldAt b 0x20 15 0 * 1024
def exLow (b : List Word) : Nat := fldAt b 0x20 31 16 * 1024
def exFlush (b : List Word) : Nat := fldAt b 0x24 15 0
def exNotify (b : List Word) : Nat := fldAt b 0x24 21 16
def exStage (b : List Word) : Nat := (dwAt b 0x28).toNat * 1024

def exportChecks (b : List Word) : List (Nat × Bool) :=
  let k := exKind b
  let st := (dwAt b 0x28).toNat
  [ rng b 0x08 1 0 0 2, zerUnless (decide (k ≠ 0)) b 0x08 12 8, (0x08, decide (k ≠ 2 ∨ exUnit b ≤ 15)), zer b 0x08 15 13,
    rng b 0x08 21 16 16 34, zer b 0x08 31 22, rng b 0x0C 31 0 1 100000, zer b 0x10 11 0, zer b 0x18 2 0,
    rng b 0x20 15 0 1 65535, (0x20, decide (fldAt b 0x20 31 16 < fldAt b 0x20 15 0)),
    rng b 0x24 15 0 1 65535, (0x24, decide (exNotify b = 0 ∨ (16 ≤ exNotify b ∧ exNotify b ≤ 40))), zer b 0x24 31 22,
    (0x28, if k = 0 then decide (st = 0) else decide (64 ≤ st ∧ st ≤ 1048576 ∧ st % 64 = 0)), zer b 0x2C 31 0 ]

/-! The Relay stream block (R544). -/

def rlChan (b : List Word) : Nat := fldAt b 0x08 5 0
def rlFua (b : List Word) : Bool := bitAt b 0x08 6
def rlWrap (b : List Word) : Bool := bitAt b 0x08 7
def rlDrives (b : List Word) : List Nat := (List.range 16).filter (fun s => bitAt b 0x08 (16 + s))
def rlChunkLog (b : List Word) : Nat := fldAt b 0x0C 4 0
def rlFlushChunks (b : List Word) : Nat := fldAt b 0x0C 15 8
def rlSlba (b : List Word) : Nat := (qAt b 0x10).toNat
def rlNlba (b : List Word) : Nat := (qAt b 0x18).toNat

def relayChecks (b : List Word) : List (Nat × Bool) :=
  [ rng b 0x08 5 0 0 59, zer b 0x08 15 8, rng b 0x08 31 16 1 65535, rng b 0x0C 4 0 12 20, zer b 0x0C 7 5, zer b 0x0C 31 16 ]

/-- Every check of a body. -/
def bodyChecks (type u : Nat) (b : List Word) : List (Nat × Bool) :=
  match type with
  | 1 => routeChecks u b
  | 2 => channelChecks u b
  | 3 => transformChecks b
  | 4 => leChecks b
  | 5 => maskChecks b
  | 6 => combinerChecks u b
  | 7 => trigOutChecks b
  | 8 => markerChecks b
  | 9 => captureChecks b
  | 10 => reductionChecks b
  | 11 => densityChecks b
  | 12 => bindingChecks b
  | 13 => exportChecks b
  | _ => relayChecks b

/-- Every check of a block whose header is good: LEN is 8 for a removal, else the LEN of the body. -/
def blockChecks (b : List Word) : List (Nat × Bool) :=
  let n := blkLen (dwAt b 0)
  if n = 8 then [] else (0x00, decide (n = bodyLen (blkType (dwAt b 0)) b)) :: bodyChecks (blkType (dwAt b 0)) (fldAt b 0x04 15 0) b

/-! ### Stage lists -/

/-- The block locus of R644. -/
def locus (index type u : Nat) : QWord := BitVec.ofNat 64 (index + 2 ^ 32 * type + 2 ^ 48 * u)

/-- EFS_PARAM for a block: of the stage list (DETAIL 2) or of the staged plane (DETAIL 3). -/
def blockError (detail off index type u : Nat) : Answer :=
  { status := efsParam, detail := detail, result0 := BitVec.ofNat 64 off, result1 := locus index type u }

/-- The block that begins a list of dwords. -/
def blockAt (ws : List Word) : Block :=
  let n := blkLen (dwAt ws 0) / 4
  { type := blkType (dwAt ws 0), unit := fldAt ws 0x04 15 0, words := ws.take n }

/-- The blocks of a stage list in order, or the answer to the first bad one (R82, R88). `fuel` bounds the number of blocks. -/
def parseStage : Nat → Nat → List Word → Except Answer (List Block)
  | 0, _, _ => .ok []
  | fuel + 1, index, ws =>
    if ws.isEmpty then .ok []
    else
      let b := blockAt ws
      match firstBad (headerChecks ws (4 * ws.length)) with
      | some off => .error (blockError 2 off index b.type b.unit)
      | none =>
        match firstBad (blockChecks b.words) with
        | some off => .error (blockError 2 off index b.type b.unit)
        | none =>
          match parseStage fuel (index + 1) (ws.drop b.words.length) with
          | .ok t => .ok (b :: t)
          | .error w => .error w

/-- A removal (R83). -/
def Block.removes (b : Block) : Bool := decide (b.words.length = 2)

/-- The order of a plane: ascending TYPE, then UNIT (R93). -/
def Block.key (b : Block) : Nat := b.type * 65536 + b.unit

/-- A block applied to a plane: it replaces the block of the same TYPE and UNIT, or removes it (R83). -/
def planePut (p : List Block) (b : Block) : List Block :=
  let q := p.filter (fun x => decide (x.key ≠ b.key))
  if b.removes then q else sortBy Block.key (b :: q)

end Sys2Proof.Machine
end

