-- ==== Sys2Proof/Machine/Admit.lean ====
section
/-!
DEFINITION. Admission: the configuration that would stand (R24, R25), the checks across blocks (R168, R188, R205, R207, R222, R265,
R274, R281, R303, R323, R424, R477, R496, R508, R516, R545), ownership (R84), and the nine sums in code order (R24–R36, R349, R435,
R482, R496, R517).
-/

namespace Sys2Proof.Machine

/-- A configuration: apertures with the planes that count for them. -/
abbrev Planes := List (Nat × List Block)

/-- The plane that counts for an aperture (R24, R25): the admitted one while a change is admitted, else the live one. -/
def Aperture.standing (p : Aperture) : List Block :=
  if p.state = 2 ∨ p.changeAdmitted then p.admitted else if 3 ≤ p.state then p.live else []

/-- Every aperture in ADMITTED, LIVE or HALTED state but `a`, with `plane` for `a`, by aperture number. -/
def Dev.planesWith (d : Dev) (a : Nat) (plane : List Block) : Planes :=
  Tbl.put a plane ((d.aps.filter (fun (p : Nat × Aperture) => decide (2 ≤ p.2.state))).map (fun (p : Nat × Aperture) => (p.1, p.2.standing)))

/-- The configuration that stands. -/
def Dev.standingPlanes (d : Dev) : Planes :=
  (d.aps.filter (fun (p : Nat × Aperture) => decide (2 ≤ p.2.state))).map (fun (p : Nat × Aperture) => (p.1, p.2.standing))

/-- Every block of a type in a configuration, with its aperture. -/
def Planes.all (ps : Planes) (type : Nat) : List (Nat × Block) :=
  ps.flatMap (fun (p : Nat × List Block) => (planeOf p.2 type).map (fun b => (p.1, b)))

/-- The block of a unit, in whichever plane. -/
def Planes.unit (ps : Planes) (type u : Nat) : Option (Nat × Block) := (ps.all type).find? (fun x => decide (x.2.unit = u))

/-- The plane of an aperture. -/
def Planes.plane (ps : Planes) (a : Nat) : List Block := Tbl.look [] ps a

/-! ### Rates (R205, R207, R222) -/

/-- The rate in kCS/s of a stream at the port of channel `c`, when a route delivers it there. -/
def Planes.portRate (ps : Planes) (s c : Nat) : Option Nat :=
  match ps.unit 0x01 s with
  | some r => if rtDest r.2.words / 2 ^ (c / 8) % 2 = 1 then some (rtRate r.2.words) else none
  | none => none

/-- f_in of a channel block that takes a port stream. -/
def Planes.finPort (ps : Planes) (c : Nat) (w : List Word) : Option Frac := (ps.portRate (chSource w) c).map (fun r => Frac.ofInt r)

/-- The parent's block of a Loupe child, in its own plane. -/
def parentBlock (plane : List Block) (c : Nat) (w : List Word) : Option Block := planeBlock plane 0x02 (8 * (c / 8) + chParent w)

/-- f_in of a channel block in a plane. -/
def Planes.fin (ps : Planes) (plane : List Block) (c : Nat) (w : List Word) : Option Frac :=
  if chLoupe w then
    match parentBlock plane c w with
    | some pb => if chLoupe pb.words then none else (ps.finPort pb.unit pb.words).map (fun f => chRate pb.words f)
    | none => none
  else ps.finPort c w

/-- f_ch of a channel, exact, in kCS/s. -/
def Planes.fch (ps : Planes) (plane : List Block) (c : Nat) : Option Frac :=
  match planeBlock plane 0x02 c with
  | some b => (ps.fin plane c b.words).map (fun f => chRate b.words f)
  | none => none

/-! ### LAG (R331) -/

/-- Ticks from acquisition to the port (R194). -/
def portOffset (w : List Word) : Nat :=
  if rtKind w = 2 then 144
  else if rtKind w = 1 then rtLatency w + rtRelease w + (if rtReal w then 48 else 12)
  else rtLatency w + 216 + 144 * rtDeskew w + (if rtReal w then 36 else 0)

/-- Ticks from acquisition to the write of an output centred there (R194, R226), less the DELAY by which its stamp moves (R221). -/
def Planes.chanDelay (ps : Planes) (plane : List Block) (c : Nat) : Option Frac :=
  let own (w : List Word) (f : Frac) : Frac := Frac.add (Frac.sub (chGroupDelay w f) (chDelayTicks w f)) (Frac.ofInt (chPipeline w))
  let port (c : Nat) (w : List Word) : Option Frac :=
    match ps.unit 0x01 (chSource w), ps.finPort c w with
    | some r, some f => some (Frac.add (Frac.ofInt (portOffset r.2.words)) (own w f))
    | _, _ => none
  match planeBlock plane 0x02 c with
  | none => none
  | some b =>
    if chLoupe b.words then
      match parentBlock plane c b.words, ps.fin plane c b.words with
      | some pb, some f => (port pb.unit pb.words).map (fun x => Frac.add (Frac.add x (Frac.ofInt 1)) (own b.words f))
      | _, _ => none
    else port c b.words

/-- The largest delay from a trigger tick to the verdict's arrival at an aperture, for a source selector (R331): its parts rounded
up as in the chapter's example. Combiners take lower-numbered combiners only, so 64 levels of `fuel` reach every path. -/
def Planes.trigDelay (ps : Planes) : Nat → Nat → Nat
  | 0, _ => 0
  | fuel + 1, sel =>
    let i := sel % 4096
    match sel / 4096 with
    | 1 =>
      match ps.unit 0x02 i with
      | some b => match ps.chanDelay (ps.plane b.1) i with
        | some x => x.ceil.toNat + 1 + 8 + 6 + 4
        | none => 0
      | none => 0
    | 2 =>
      match ps.unit 0x05 i with
      | some m =>
        let c := mkChannel m.2.words
        let plane := ps.plane m.1
        match planeBlock plane 0x03 c, ps.fch plane c, ps.chanDelay plane c with
        | some tf, some fch, some x =>
          let n := tfN tf.words
          let per (k : Nat) : Frac := ticksAt (Frac.ofInt (k : Nat)) fch
          let tp := fldAt m.2.words 0x08 15 14
          let ds := (per (n - 1)).ceil.toNat + x.ceil.toNat + readAllowance tf.words fch + engineLatency tf.words
          ds + n / 8 + 48 + 4 - (per (if tp = 0 then 0 else if tp = 1 then n / 2 else n - 1)).floor.toNat
        | _, _, _ => 0
      | none => 0
    | 3 =>
      match ps.unit 0x06 i with
      | some b => ((List.range 8).map (fun k => Planes.trigDelay ps fuel (cbInput b.2.words k))).foldl max 0 + 6
      | none => 0
    | 4 => 40
    | _ => 0

/-- LAG of the capture block of a plane (R331). -/
def Planes.lag (ps : Planes) (plane : List Block) : Nat :=
  match planeBlock plane 0x09 0 with
  | some b => cpLagAdd b.words + ps.trigDelay 65 (cpSource b.words)
  | none => 0

/-! ### The capture layout (R329, R348) -/

/-- The transform block that a reduction of SPECTRA reads; no dwords when there is none. -/
def tfWords (plane : List Block) (c : Nat) : List Word := match planeBlock plane 0x03 c with | some b => b.words | none => []

/-- The slot and channel pairs of a plane with their entry rate and entry size at a level. -/
def Planes.pairs (ps : Planes) (plane : List Block) (level : Nat) : List (Nat × Nat × Frac × Nat) :=
  (planeOf plane 0x0A).flatMap (fun r => (rdChans r.words).map (fun c =>
    let tf := tfWords plane c
    (r.unit, c, entryRate r.words tf ((ps.fch plane c).getD ⟨0, 1⟩) level, entryBytes r.words tf)))

/-- Bytes per second written for a slot, or for all slots (sum 5 of R349). -/
def writeRate (pairs : List (Nat × Nat × Frac × Nat)) : Frac :=
  (pairs.map (fun p => Frac.mul p.2.2.1 (Frac.ofInt (1000 * p.2.2.2 : Nat)))).foldl Frac.add ⟨0, 1⟩

/-- The export stream of a streaming slot covers its write rate (R36, R349). -/
def Planes.covered (ps : Planes) (plane : List Block) (slot : Nat) : Bool :=
  match planeBlock plane 0x0A slot with
  | some r => match planeBlock plane 0x0D (rdExport r.words) with
    | some x => Frac.le (writeRate ((ps.pairs plane 0).filter (fun p => decide (p.1 = slot)))) (Frac.ofInt (exRate x.words * 1000000 : Nat))
    | none => false
  | none => false

/-- Some slot's Q is unbounded: POST_TICKS 0 on a slot that its export stream does not cover (R349). -/
def Planes.unbounded (ps : Planes) (plane : List Block) : Bool :=
  match planeBlock plane 0x09 0 with
  | some b => cpStreaming b.words && decide (cpPost b.words = 0) && (planeOf plane 0x0A).any (fun r => !(ps.covered plane r.unit))
  | none => false

/-- The sub-rings of a plane at a rate level, not yet placed: PRE_n and POST_n at the level, Q at level 0 (R329, R348, R352). -/
def Planes.layout (ps : Planes) (plane : List Block) (level : Nat) : List SubRing :=
  match planeBlock plane 0x09 0 with
  | none => []
  | some b =>
    let w := b.words
    let lag := ps.lag plane
    (ps.pairs plane 0).map (fun p =>
      let r := p.2.2.1
      let rk := Frac.div r (Frac.ofInt (2 ^ level))
      let n (x : Nat) : Nat := entriesIn x r
      let q := if cpStreaming w && ps.covered plane p.1 then n (cpPre w) + n lag + n 3000000 else n (cpPre w) + n (cpPost w) + n lag
      { slot := p.1, ch := p.2.1, entryBytes := p.2.2.2, rate := rk, pre := entriesIn (cpPre w) rk, post := entriesIn (cpPost w) rk,
        q := q, base := 0 })

/-- Bytes of a Mirror ring and of a sub-ring. -/
def mirrorBytes (w : List Word) (n : Nat) : Nat := cpSegments w * headerBytes n
def ringBytes (w : List Word) (r : SubRing) : Nat := cpSegments w * r.sliceBytes

/-- The capture block and reduction blocks of a plane (R346). -/
def captureKey (plane : List Block) : List Block := plane.filter (fun b => decide (b.type = 0x09 ∨ b.type = 0x0A))

/-- The entry sizes of a plane's sub-rings. -/
def entrySizes (plane : List Block) : List Nat :=
  (planeOf plane 0x0A).flatMap (fun r => (rdChans r.words).map (fun c => entryBytes r.words (tfWords plane c)))

/-- A launch from one plane to the other lays the rings out anew (R346); a change of the size of an entry does so too (assumption 54). -/
def layoutChanges (old new : List Block) : Bool := decide (captureKey old ≠ captureKey new) || decide (entrySizes old ≠ entrySizes new)

/-! ### Terms of one aperture -/

/-- The ring bytes of the capture area. -/
def Planes.captureBytes (ps : Planes) (plane : List Block) : Nat :=
  match planeBlock plane 0x09 0 with
  | some b =>
    let rs := ps.layout plane 0
    mirrorBytes b.words rs.length + (rs.map (ringBytes b.words)).foldl (· + ·) 0
  | none => 0

/-- The pixel buffers of a feed block (R435). -/
def feedBytes (w : List Word) : Nat := if !(dfHost w) && decide (dfRenderTicks w = 0) then 0 else dfNbuf w * dfBufBytes w

/-- A change of a feed block places its buffers anew (R436). -/
def feedMoves (old new : List Word) : Bool :=
  decide (dfWidth old ≠ dfWidth new ∨ dfHeight old ≠ dfHeight new ∨ dfFormat old ≠ dfFormat new ∨ dfNbuf old ≠ dfNbuf new ∨ dfHost old ≠ dfHost new) ||
    decide (feedBytes old ≠ feedBytes new)

/-- The pixel buffers of a plane. -/
def planeFeedBytes (plane : List Block) : Nat := ((planeOf plane 0x0B).map (fun b => feedBytes b.words)).foldl (· + ·) 0

/-- The staging rings of queue exports (R517). -/
def planeStageBytes (plane : List Block) : Nat := ((planeOf plane 0x0D).map (fun b => exStage b.words)).foldl (· + ·) 0

/-- Buffers held twice from the admission of a change to its launch (R346, R436). -/
def Planes.heldTwice (ps : Planes) (live plane : List Block) : Nat :=
  (if layoutChanges live plane then ps.captureBytes live else 0) +
    ((planeOf live 0x0B).map (fun b => match planeBlock plane 0x0B b.unit with
      | some n => if feedMoves b.words n.words then feedBytes b.words else 0
      | none => feedBytes b.words)).foldl (· + ·) 0

/-- The term of sum 4. -/
def Planes.sum4 (ps : Planes) (live plane : List Block) : Nat :=
  ps.captureBytes plane + planeFeedBytes plane + planeStageBytes plane + ps.heldTwice live plane

/-- The capture part of sum 5 at a rate level, bytes per second (R349). -/
def Planes.captureRate (ps : Planes) (plane : List Block) (level : Nat) : Frac :=
  match planeBlock plane 0x09 0 with
  | some b =>
    let prs := ps.pairs plane level
    let data := writeRate prs
    let post := if cpPost b.words = 0 then 3000 else cpPost b.words
    let head : Frac := Frac.norm ⟨2 * headerBytes prs.length * 3000000000, post⟩
    Frac.add (if cpStreaming b.words then Frac.mul data (Frac.ofInt 2) else data) head
  | none => ⟨0, 1⟩

/-- The aperture captures in compatibility mode. -/
def planeCompat (plane : List Block) : Bool := match planeBlock plane 0x09 0 with | some b => cpCompat b.words | none => false

/-- The rest of sum 5: renders and queue exports (R435, R517). -/
def planeOtherRate (plane : List Block) : Frac :=
  let renders := (planeOf plane 0x0B).map (fun b =>
    if dfHost b.words || decide (dfRenderTicks b.words = 0) then (⟨0, 1⟩ : Frac)
    else Frac.norm ⟨dfBufBytes b.words * 3000000000, dfRenderTicks b.words⟩)
  let queues := (planeOf plane 0x0D).map (fun b => if exKind b.words = 0 then (⟨0, 1⟩ : Frac) else Frac.ofInt (2 * exRate b.words * 1000000 : Nat))
  (renders ++ queues).foldl Frac.add ⟨0, 1⟩

/-- The term of sum 5: a COMPAT capture is not counted (R35). -/
def Planes.sum5 (ps : Planes) (plane : List Block) : Frac :=
  Frac.add (if planeCompat plane then ⟨0, 1⟩ else ps.captureRate plane 0) (planeOtherRate plane)

/-- Staging of a transform block (R31). -/
def stagingBytes (w : List Word) : Nat := 2 * (tfN w + tfHop w) * 8

/-- The term of sum 2: its channels' staging, and the old staging of every channel whose N or hop the launch changes (R34). -/
def planeSum2 (isLive : Bool) (live plane : List Block) : Nat :=
  ((planeOf plane 0x03).map (fun b => stagingBytes b.words)).foldl (· + ·) 0 +
    (if isLive then ((planeOf live 0x03).map (fun b => match planeBlock plane 0x03 b.unit with
      | some n => if tfN n.words = tfN b.words ∧ tfHop n.words = tfHop b.words then 0 else stagingBytes b.words
      | none => stagingBytes b.words)).foldl (· + ·) 0 else 0)

/-- The staging that a channel still holds for frames of sequences that have ended: each of another N or hop than the sequence that stands, until
its last frame is read, by A ticks after the launch (R34, R262). -/
def Chan.oldStaging (x : Chan) (now : Nat) : Nat :=
  let seqs := (0, x.frames) :: x.framesNext
  let ended := (seqs.zip x.framesNext).filterMap (fun p => match p.1.2 with
    | some f => if now < p.2.1 + f.a then some f.ring else none
    | none => none)
  let unread := (x.done ++ x.reading.filter (fun f => decide (f.left ≠ 0))).map (fun f => f.ring)
  let stands := match seqs.getLast? with | some (_, some f) => some f.ring | _ => none
  let olds := x.rings.filter (fun r => (ended ++ unread).contains r.no && decide (some r.no ≠ stands))
  (olds.map (fun r => 2 * (r.n + r.hop) * 8)).sum

/-- The term of sum 6(b) (R349, R482, R496). -/
def planeReduction (plane : List Block) : Nat :=
  let capture := if (planeBlock plane 0x09 0).isSome then 512 else 0
  let slots := (planeOf plane 0x0A).flatMap (fun r => (rdChans r.words).map (fun c =>
    if rdKind r.words = 1 then 32
    else if rdKind r.words = 2 then 16
    else if rdKind r.words = 3 ∧ rdMode r.words ≠ 0 then ceilDiv (4 * tfBinCount (tfWords plane c)) 64 * 64
    else 0))
  let queues := (planeOf plane 0x0C).map (fun b =>
    8 * 2 ^ tbRqLog b.words + ((List.range 8).map (fun f => if tbKind b.words f = 0 then 0 else 8 * 2 ^ tbQLog b.words f)).foldl (· + ·) 0)
  let marks := (planeOf plane 0x08).map (fun b => if mbMode b.words = 0 then 0 else 4096)
  capture + (slots ++ queues ++ marks).foldl (· + ·) 0

/-- The term of sum 6(a). -/
def planeDensity (plane : List Block) : Nat :=
  ((planeOf plane 0x0B).map (fun b => if dfHost b.words then 0 else dfWidth b.words * dfHeight b.words * 4)).foldl (· + ·) 0

/-- The bins of a channel that a feed renders (R426). -/
def renderedBins (w tf : List Word) : Nat :=
  let lo := max (dfX0 w) (tfBinLo tf)
  let hi := min (dfX0 w + (dfXBins w : Nat)) (tfBinLo tf + (tfBinCount tf : Nat))
  (hi - lo).toNat

/-- The term of sum 7: bin-updates per second (R435). -/
def Planes.sum7 (ps : Planes) (plane : List Block) : Frac :=
  ((planeOf plane 0x0B).flatMap (fun b =>
    if dfHost b.words then []
    else (List.range 512).filterMap (fun c =>
      if dfNames b.words c then
        match planeBlock plane 0x03 c, ps.fch plane c with
        | some tf, some f => some (Frac.div (Frac.ofInt (f.ceil * 1000 * (renderedBins b.words tf.words : Nat))) (Frac.ofInt (tfHop tf.words)))
        | _, _ => none
      else none))).foldl Frac.add ⟨0, 1⟩

/-- The term of sum 8, bytes per second (R517). -/
def planeSum8 (plane : List Block) : Nat := ((planeOf plane 0x0D).map (fun b => exRate b.words * 1000000)).foldl (· + ·) 0

/-! ### The sums -/

/-- A sum evaluated: its code, index, total and limit. -/
structure SumCheck where
  code : Nat
  index : Nat := 0
  total : Frac
  limit : Nat
  deriving DecidableEq, Repr

/-- The limit of sum 8 (R33). -/
def Dev.exportLimit (d : Dev) : Nat := 100000000000 * (d.pcie.rate10 * d.pcie.width) / 10240

/-- The bytes a Facet region has lost to banks without a spare (R419). -/
def Dev.facetLost (d : Dev) (g : Nat) : Nat := 262144 * (d.spares.shrunk.filter (fun x => decide (x = g))).length

/-- The sums in the order of their codes, over a configuration (R27, R31). -/
def Dev.sumChecks (d : Dev) (ps : Planes) : List SumCheck :=
  let nat (n : Nat) : Frac := Frac.ofInt n
  let live (a : Nat) : List Block := (d.ap a).live
  let isLive (a : Nat) : Bool := decide ((d.ap a).state = 3)
  let routes := ps.all 0x01
  let ports := (List.range 64).map (fun k =>
    let t := ((routes.filter (fun r => decide (rtDest r.2.words / 2 ^ k % 2 = 1))).map (fun r => rtRate r.2.words)).sum
    ({ code := 1, index := k, limit := 24000000, total := nat t } : SumCheck))
  let staging : SumCheck := { code := 2, limit := 134217728 - d.facetLost 0, total := nat ((ps.map (fun p => planeSum2 (isLive p.1) (live p.1) p.2)).sum +
    (d.chans.map (fun (p : Nat × Chan) => p.2.oldStaging d.now)).sum) }
  let loads := (ps.all 0x03).map (fun b => (b.2.unit / 64,
    match ps.fch (ps.plane b.1) b.2.unit with | some f => f.ceil.toNat * (tfN b.2.words / tfHop b.2.words) | none => 0))
  let sectors := (List.range 8).map (fun s =>
    let t := ((loads.filter (fun x => decide (x.1 = s))).map (fun x => x.2)).sum
    ({ code := 3, index := s, limit := (d.reg (sectorReg s 4)).toNat, total := nat t } : SumCheck))
  let capture : SumCheck := { code := 4, limit := d.capacity, total := nat (ps.map (fun p => ps.sum4 (if 3 ≤ (d.ap p.1).state then live p.1 else p.2) p.2)).sum }
  let sched : SumCheck := { code := 5, limit := d.sum5Limit, total := (ps.map (fun p => ps.sum5 p.2)).foldl Frac.add ⟨0, 1⟩ }
  let density : SumCheck := { code := 6, index := 1, limit := 33554432 - d.facetLost 1, total := nat (ps.map (fun p => planeDensity p.2)).sum }
  let reduction : SumCheck := { code := 6, index := 2, limit := 8388608 - d.facetLost 3, total := nat (ps.map (fun p => planeReduction p.2)).sum }
  let rate : SumCheck := { code := 7, limit := 768000000000, total := (ps.map (fun p => ps.sum7 p.2)).foldl Frac.add ⟨0, 1⟩ }
  let exports : SumCheck := { code := 8, limit := d.exportLimit, total := nat (ps.map (fun p => planeSum8 p.2)).sum }
  let count (i limit n : Nat) : SumCheck := { code := 9, index := i, limit := limit, total := nat n }
  ports ++ [staging] ++ sectors ++ [capture, sched, density, reduction, rate, exports,
    count 1 1024 ps.length, count 2 256 (ps.all 0x05).length, count 3 64 (ps.all 0x06).length, count 4 (32 - d.spares.lostTps.length) (ps.all 0x0C).length,
    count 5 60 (ps.all 0x0D).length, count 6 16 ((ps.all 0x0E).flatMap (fun b => rlDrives b.2.words)).length]

/-- The first sum that fails: its code, its excess rounded up, and its index (R27, R28, R89). A streaming slot with unbounded Q
fails sum 4 (R349); its excess is that of the rest of the sum, 0 where the rest fits: the spec names no other (DESIGN CHOICE, assumption 107). -/
def Dev.firstFail (d : Dev) (ps : Planes) : Option (Nat × Nat × Nat) :=
  let unb := ps.any (fun p => ps.unbounded p.2)
  match (d.sumChecks ps).find? (fun c => Frac.lt (Frac.ofInt c.limit) c.total || (decide (c.code = 4) && unb)) with
  | some c => some (c.code, (Frac.sub c.total (Frac.ofInt c.limit)).ceil.toNat, c.index)
  | none => none

/-- EFS_ADMIT (R88). -/
def admitError (x : Nat × Nat × Nat) : Answer :=
  { status := efsAdmit, detail := x.1, result0 := BitVec.ofNat 64 x.2.1, result1 := BitVec.ofNat 64 x.2.2 }

/-! ### Rate levels of COMPAT apertures (R350) -/

/-- A level fits when no LOG2_LEN would exceed 16 and the term is within what is left. -/
def Planes.levelFits (ps : Planes) (plane : List Block) (left : Frac) (k : Nat) : Bool :=
  (planeOf plane 0x0A).all (fun r => decide (rdLog r.words + k ≤ 16)) && Frac.le (ps.captureRate plane k) left

/-- The levels of the COMPAT apertures in ascending number, out of the bandwidth left over; none where no level fits. -/
def Planes.compatLevels (ps : Planes) : List (Nat × List Block) → Frac → List (Nat × Option Nat)
  | [], _ => []
  | (a, plane) :: t, left =>
    match (List.range 11).find? (fun k => ps.levelFits plane left k) with
    | some k => (a, some k) :: Planes.compatLevels ps t (Frac.sub left (ps.captureRate plane k))
    | none => (a, none) :: Planes.compatLevels ps t left

/-- The levels of a configuration's COMPAT apertures. -/
def Dev.levels (d : Dev) (ps : Planes) : List (Nat × Option Nat) :=
  let native := (ps.map (fun p => ps.sum5 p.2)).foldl Frac.add ⟨0, 1⟩
  ps.compatLevels (ps.filter (fun p => planeCompat p.2)) (Frac.sub (Frac.ofInt d.sum5Limit) native)

/-! ### Checks across blocks -/

/-- The pads of a route. -/
def routePads (w : List Word) : List Nat :=
  if rtKind w = 0 then (List.range (rtBond w)).map (rtLane w + ·) else if rtKind w = 1 then (List.range (rtL w)).map (rtLaneBase w + ·) else []

/-- The routes that stand beside each other in a configuration: its own, and those that are live in an aperture other than `a` which has a change
admitted (R168, R188). -/
def Dev.routesBeside (d : Dev) (ps : Planes) (a : Nat) : List Block :=
  (ps.all 0x01).map (·.2) ++ d.aps.flatMap (fun (p : Nat × Aperture) => if p.1 ≠ a ∧ 3 ≤ p.2.state ∧ p.2.changeAdmitted then planeOf p.2.live 0x01 else [])

/-- R188 for one route: every pad it shares is shared by PSL routes without bonding, at most 8 of them, or by the streams of its
own JESD204C link. -/
def padsOk (routes : List Block) (b : Block) : Bool :=
  let single (x : Block) : Bool := decide (rtKind x.words = 0 ∧ rtBond x.words = 1)
  (routePads b.words).all (fun p =>
    let rs := routes.filter (fun b => (routePads b.words).contains p)
    let streams := (rs.map (fun x => x.unit)).eraseDups
    decide (streams.length ≤ 1) || (rs.all single && decide (streams.length ≤ 8)) ||
      rs.all (fun x => decide (rtKind x.words = 1 ∧ rtLink x.words = rtLink b.words)))

/-- R168 for one route: the link fields of every route that names its link are its own. -/
def linkChecks (routes : List Block) (b : Block) : List (Nat × Bool) :=
  if rtKind b.words = 1 then
    let rs := routes.filter (fun x => decide (rtKind x.words = 1 ∧ rtLink x.words = rtLink b.words))
    [0x1C, 0x20, 0x24].map (fun o => (o, rs.all (fun x => decide (dwAt x.words o = dwAt b.words o))))
  else []

/-- A route of aperture `a` against the configuration (R168, R188). -/
def Dev.routeBad (d : Dev) (ps : Planes) (a : Nat) (b : Block) : List (Nat × Bool) :=
  let rs := d.routesBeside ps a
  (0x08, padsOk rs b) :: linkChecks rs b

/-- R205, R207, R222, and a channel retired without a spare (R419). -/
def Dev.channelBad (d : Dev) (ps : Planes) (plane : List Block) (b : Block) : List (Nat × Bool) :=
  let w := b.words
  let fin := ps.fin plane b.unit w
  [ (0x04, !(d.spares.lostChans.contains b.unit)), (0x08, fin.isSome),
    (0x08, match fin with
      | some f => Frac.le f (Frac.ofInt (if chSettle w then 12000000 else 24000000)) && Frac.le ⟨1, 1⟩ (chRate w f)
      | none => true) ]

/-- R281, over the evaluated bins of R282. -/
def maskBad (plane : List Block) (b : Block) : List (Nat × Bool) :=
  let w := b.words
  let c := mkChannel w
  match planeBlock plane 0x02 c, planeBlock plane 0x03 c with
  | some _, some tf =>
    let half : Int := (tfN tf.words / 2 : Nat)
    let inside (v : Int) : Bool := decide (-half ≤ v ∧ v < half)
    let pts := mkPoints w
    let lo := max (tfBinLo tf.words) ((pts.map (·.1)).headD 0)
    let hi := min (tfBinLo tf.words + (tfBinCount tf.words : Nat) - 1) ((pts.map (·.1)).getLastD 0)
    (0x0C, decide ((mkBinsMin w : Int) ≤ max 0 (hi - lo + 1))) ::
      (pts.zipIdx.map (fun p => (0x38 + 4 * p.2, inside p.1.1)) ++ (mkExcl w).zipIdx.map (fun p => (0x18 + 8 * p.2, inside p.1.1 && inside p.1.2.1)))
  | _, _ => [(0x08, false)]

/-- This device's role has a scope (R135). -/
def Dev.hasScope (d : Dev) : Bool := decide (d.clk.role ≠ 0)

/-- R303. -/
def Dev.combinerBad (d : Dev) (ps : Planes) (b : Block) : List (Nat × Bool) :=
  [(0x08, !(cbExport b.words) || (d.hasScope && decide (((ps.all 0x06).filter (fun x => cbExport x.2.words)).length ≤ 8)))]

/-- R323 for a reduction block. -/
def reductionBad (plane : List Block) (b : Block) : List (Nat × Bool) :=
  let w := b.words
  let spec := decide (rdKind w = 3)
  let streaming := match planeBlock plane 0x09 0 with | some x => cpStreaming x.words | none => false
  let others := (planeOf plane 0x0A).filter (fun x => decide (x.unit ≠ b.unit ∧ rdExport x.words = rdExport w))
  [ (0x08, (planeBlock plane 0x09 0).isSome),
    (0x08, !(spec && decide (rdMode w ≠ 0)) || (rdChans w).all (fun c => decide (tfWords plane c = [] ∨ tfFormat (tfWords plane c) ≠ 0))),
    (0x08, !streaming || ((planeBlock plane 0x0D (rdExport w)).isSome && others.isEmpty)) ] ++
  (rdChans w).map (fun c => (0x10 + 4 * (c / 32), (planeBlock plane 0x02 c).isSome && (!spec || (planeBlock plane 0x03 c).isSome)))

/-- R323 for the capture block. -/
def captureBad (b : Block) : List (Nat × Bool) := [(0x08, !(cpCompat b.words && cpStreaming b.words))]

/-- R424. -/
def densityBad (plane : List Block) (b : Block) : List (Nat × Bool) :=
  let w := b.words
  (0x08, !(dfAutoFlip w) || decide (dfRenderTicks w ≠ 0)) ::
    (if dfHost w then [] else (List.range 512).filterMap (fun c =>
      if dfNames w c then some (0x30 + 4 * (c / 32), (planeBlock plane 0x02 c).isSome && (planeBlock plane 0x03 c).isSome) else none))

/-- The byte rate of a feed, in thousands of bytes per second (R476). -/
def Planes.feedRate (ps : Planes) (plane : List Block) (w : List Word) (f : Nat) : Frac :=
  let bytes := feedItemBytes plane w f
  match tbKind w f, ps.fch plane (tbSource w f), planeBlock plane 0x03 (tbSource w f) with
  | 1, some r, some tf => Frac.div (Frac.mul (Frac.ofInt bytes) r) (Frac.ofInt (tfHop tf.words * tbCount w f : Nat))
  | 2, some r, _ => Frac.div (Frac.mul (Frac.ofInt bytes) r) (Frac.ofInt (tbCount w f))
  | 3, _, _ => Frac.ofInt 1500000
  | _, _, _ => ⟨0, 1⟩

/-- R477. -/
def Planes.bindingBad (ps : Planes) (plane : List Block) (b : Block) : List (Nat × Bool) :=
  let w := b.words
  let areas := (List.range 8).filterMap (fun f => if tbKind w f = 0 then none else some (f, tbSlotBase w f, tbSlots w f * feedItemBytes plane w f))
  (0x08, Frac.le (((List.range 8).map (ps.feedRate plane w)).foldl Frac.add ⟨0, 1⟩) (Frac.ofInt 12000000)) ::
    ((List.range 8).map (fun f => (0x18 + 16 * f,
        (decide (tbKind w f ≠ 1 ∧ tbKind w f ≠ 2) || (planeBlock plane 0x02 (tbSource w f)).isSome) &&
        (decide (tbKind w f ≠ 1) || (planeBlock plane 0x03 (tbSource w f)).isSome))) ++
     areas.map (fun x => (0x1C + 16 * x.1, decide (x.2.1 + x.2.2 ≤ 2 ^ 19) &&
        areas.all (fun y => decide (y.1 = x.1 ∨ x.2.1 + x.2.2 ≤ y.2.1 ∨ y.2.1 + y.2.2 ≤ x.2.1)))))

/-- R496. -/
def markerBad (plane : List Block) (b : Block) : List (Nat × Bool) :=
  [(0x08, decide (mbMode b.words ≠ 2 ∨ mbStopInput b.words = b.unit) || (planeBlock plane 0x08 (mbStopInput b.words)).isSome)]

/-- The staging of an export stream that its high mark is held against (R516). -/
def Planes.staging (ps : Planes) (plane : List Block) (b : Block) : Nat :=
  if exKind b.words ≠ 0 then exStage b.words
  else
    match (planeOf plane 0x0A).find? (fun r => decide (rdExport r.words = b.unit)), planeBlock plane 0x09 0 with
    | some r, some c => (((ps.layout plane 0).filter (fun x => decide (x.slot = r.unit))).map (ringBytes c.words)).foldl min (2 ^ 62)
    | _, _ => 0

/-- R516. -/
def Planes.exportBad (ps : Planes) (plane : List Block) (b : Block) : List (Nat × Bool) :=
  let w := b.words
  let k := exKind w
  let streaming := match planeBlock plane 0x09 0 with | some x => cpStreaming x.words | none => false
  let same := ((ps.all 0x0D).filter (fun x => decide (x.2.unit ≠ b.unit ∧ exKind x.2.words = k ∧ exUnit x.2.words = exUnit w)))
  let relays := (planeOf plane 0x0E).any (fun x => decide (rlChan x.words = b.unit))
  [ (0x08, decide (k ≠ 0) || (streaming && (planeOf plane 0x0A).any (fun r => decide (rdExport r.words = b.unit)))),
    (0x08, decide (k ≠ 1) || ((planeBlock plane 0x0C (exUnit w)).isSome && same.isEmpty)),
    (0x08, decide (k ≠ 2) || ((match planeBlock plane 0x08 (exUnit w) with | some m => decide (mbMode m.words ≠ 0) | none => false) && same.isEmpty)),
    (0x08, exRelay w == relays), (0x18, !(exRelay w) || decide (exTail w = 0)),
    (0x20, decide (2 * exHigh w ≤ ps.staging plane b)) ]

/-- R545. -/
def Dev.relayBad (d : Dev) (ps : Planes) (plane : List Block) (b : Block) : List (Nat × Bool) :=
  let w := b.words
  let chunk := 2 ^ rlChunkLog w
  let named := ((ps.all 0x0E).filter (fun x => decide (x.2.unit ≠ b.unit))).flatMap (fun x => rlDrives x.2.words)
  let slot (s : Nat) : DriveSlot := Tbl.look ({} : DriveSlot) d.drives s
  [ (0x08, (rlDrives w).all (fun s => decide ((slot s).state ≠ 0) && !(named.contains s))),
    (0x0C, (rlDrives w).all (fun s => decide (2 ^ fldAt (slot s).block 0x20 23 20 ≤ chunk ∧ chunk ≤ 4096 * 2 ^ fldAt (slot s).block 0x20 27 24))),
    (0x0C, match planeBlock plane 0x0D (rlChan w) with | some x => decide (4 * chunk ≤ 2 ^ exHostLog x.words) | none => true),
    (0x18, match rlDrives w with
      | s :: _ => decide (rlNlba w % (chunk / 2 ^ fldAt (slot s).block 0x20 23 20) = 0)
      | [] => true) ]

/-- The checks of one block of a staged plane. -/
def Dev.crossBad (d : Dev) (ps : Planes) (a : Nat) (plane : List Block) (b : Block) : List (Nat × Bool) :=
  match b.type with
  | 1 => d.routeBad ps a b ++ [(0x20, !(decide (rtKind b.words = 1) && bitAt b.words 0x20 20) ||
      (match ps.unit 0x08 (fldAt b.words 0x20 19 16) with | some m => decide (mbSlope m.2.words ≠ 1) | none => false))]
  | 2 => d.channelBad ps plane b
  | 3 => [(0x08, (planeBlock plane 0x02 b.unit).isSome)]
  | 4 => [(0x08, (planeBlock plane 0x02 b.unit).isSome)]
  | 5 => maskBad plane b
  | 6 => d.combinerBad ps b
  | 8 => markerBad plane b
  | 9 => captureBad b
  | 10 => reductionBad plane b
  | 11 => densityBad plane b
  | 12 => ps.bindingBad plane b
  | 13 => ps.exportBad plane b
  | 14 => d.relayBad ps plane b
  | _ => []

/-- The first bad block of a staged plane and its first bad field (R88). -/
def Dev.planeBad (d : Dev) (ps : Planes) (a : Nat) (plane : List Block) : Option Answer :=
  (plane.zipIdx.findSome? (fun x => (firstBad (d.crossBad ps a plane x.1)).map (fun off => blockError 3 off x.2 x.1.type x.1.unit)))

/-! ### Ownership (R84, R320) -/

/-- Another aperture in ADMITTED, LIVE or HALTED state that has a block of the unit. -/
def Dev.ownerOf (d : Dev) (a : Nat) (b : Block) : Option Nat :=
  if b.type = 0x09 ∨ b.type = 0x0A then none
  else
    (d.aps.find? (fun (p : Nat × Aperture) => decide (p.1 ≠ a ∧ 2 ≤ p.2.state) &&
      ((decide (3 ≤ p.2.state) && (planeBlock p.2.live b.type b.unit).isSome) || (planeBlock p.2.standing b.type b.unit).isSome))).map (fun p => p.1)

/-- The first block of a list that another aperture owns. -/
def Dev.ownedBad (d : Dev) (a : Nat) (bs : List Block) : Option Answer :=
  bs.zipIdx.findSome? (fun x => (d.ownerOf a x.1).map (fun o =>
    { status := efsOwned, result0 := BitVec.ofNat 64 o, result1 := locus x.2 x.1.type x.1.unit }))

end Sys2Proof.Machine
end

