-- ==== Sys2Proof/Machine/ApertureCmds.lean ====
section
/-!
DEFINITION. The commands on apertures (R82–R94, R343): staging, admission with the placement of what it needs, halt, release, query
and wait.
-/

namespace Sys2Proof.Machine

/-- EFS_STATE for an aperture (R86). -/
def Dev.stateError (d : Dev) (a : Nat) : Answer := { status := efsState, detail := (d.ap a).flags, ap := some a }

/-- EFS_STATE for the device mode (R79). -/
def modeError : Answer := { status := efsState, mode := true }

/-! ### APERTURE_STAGE -/

def formStage : CmdForm := { opcode := 0x20, byPtr := true, targetHi := 1023, isAp := true }

/-- A channel block in Loupe mode beside its parent's: the parent is not itself in Loupe mode (R207). -/
def loupeOk (plane : List Block) (b : Block) : Bool :=
  !(chLoupe b.words) ||
    ((match parentBlock plane b.unit b.words with | some p => !(chLoupe p.words) | none => true) &&
      !(plane.any (fun x => decide (x.type = 0x02 ∧ x.unit ≠ b.unit) && chLoupe x.words && decide (8 * (x.unit / 8) + chParent x.words = b.unit))))

/-- The checks of a block of the stage list against the plane it gives and the configuration that stands (R168, R188, R207). -/
def Dev.stageCross (d : Dev) (a : Nat) (plane : List Block) (b : Block) : List (Nat × Bool) :=
  if b.removes then []
  else if b.type = 1 then d.routeBad (d.planesWith a plane) a b
  else if b.type = 2 then [(0x08, loupeOk plane b)]
  else []

/-- The first block of a stage list that fails a check against the others. -/
def Dev.stageBad (d : Dev) (a : Nat) (plane : List Block) (bs : List Block) : Option Answer :=
  bs.zipIdx.findSome? (fun x => (firstBad (d.stageCross a plane x.1)).map (fun off => blockError 2 off x.2 x.1.type x.1.unit))

/-- APERTURE_STAGE is legal in EMPTY, STAGED, LIVE and HALTED with no launch pending (R90). -/
def Aperture.stageable (p : Aperture) : Bool := decide (p.state ≠ 2) && p.launch.isNone

/-- A command that would change apertures is held while one of them is provisional, else it runs at once (R81). -/
def Dev.orHeld (d : Dev) (q opcode : Nat) (e : Entry) (as_ : List Nat) (c : HeldCmd) (run : Dev → Dev) : Dev :=
  if as_.any (fun a => (d.ap a).acq.prov.isSome) then d.hold q opcode e (.held as_ c) else run d

/-- APERTURE_STAGE past the command entry: the stage list, the state, the ownership, then the staged plane (R82–R85, R94). -/
def Dev.stage (d : Dev) (q : Nat) (e : Entry) : Dev :=
  let a := e.target
  let p := d.ap a
  match parseStage (e.block.length + 1) 0 e.block with
  | .error w => formStage.reply d q e w
  | .ok bs =>
    let plane := bs.foldl planePut p.staged
    match d.stageBad a plane bs with
    | some w => formStage.reply d q e w
    | none =>
      if !p.stageable then formStage.reply d q e (d.stateError a)
      else match d.ownedBad a bs with
        | some w => formStage.reply d q e w
        | none =>
          let d := d.setAp a { p with staged := plane, changeStaged := p.changeStaged || decide (3 ≤ p.state) }
          let d := if p.state = 0 then d.enterState a 1 else d
          formStage.reply d q e {}

def execApertureStage (dt q : Nat) (e : Entry) (s : State) : Host.Outcome State Fault Refusal :=
  onDev dt (runCmd formStage q e noChecks (fun d => d.orHeld q 0x20 e [e.target] (.stage e) (fun d => d.stage q e))) s

/-! ### APERTURE_ADMIT: placement -/

/-- Place sub-rings one after another for an owner. -/
def Dev.placeRings (d : Dev) (region owner : Nat) (w : List Word) : List SubRing → List SubRing × Dev
  | [] => ([], d)
  | r :: t =>
    let x := d.place region owner (ringBytes w r) (captureLight w)
    let y := Dev.placeRings x.2 region owner w t
    ({ r with base := x.1 } :: y.1, y.2)

/-- Place the capture area of a plane for an owner: its sub-rings at a rate level and the base of its Mirror ring (R329). -/
def Dev.placeLayout (d : Dev) (ps : Planes) (a owner : Nat) (plane : List Block) (level : Nat) : (List SubRing × Nat) × Dev :=
  match planeBlock plane 0x09 0 with
  | none => (([], 0), d)
  | some b =>
    let rs := ps.layout plane level
    let m := d.place (16 + a) owner (mirrorBytes b.words rs.length) (captureLight b.words)
    let y := m.2.placeRings (16 + a) owner b.words rs
    ((y.1, m.1), y.2)

/-- The bases of the pixel buffers of a feed block, from the base of their area (R431). -/
def feedBases (w : List Word) (base : Nat) : List Nat :=
  if feedBytes w = 0 then [] else (List.range (dfNbuf w)).map (fun i => base + i * dfBufBytes w)

/-- A launch of the plane places the buffers of feed block `b` anew (R436). -/
def placesFeed (fresh : Bool) (live : List Block) (b : Block) : Bool :=
  fresh || (match planeBlock live 0x0B b.unit with | some o => feedMoves o.words b.words | none => true)

/-- Place the pixel buffers that a launch of the plane will use. -/
def Dev.placeFeeds (d : Dev) (fresh : Bool) (live plane : List Block) : Dev :=
  (planeOf plane 0x0B).foldl (fun d b =>
    let d := d.unplace 5 (8 + b.unit)
    if placesFeed fresh live b then
      let x := d.place 5 (8 + b.unit) (feedBytes b.words)
      x.2.setFeed b.unit { x.2.feed b.unit with nextBufs := some (feedBases b.words x.1) }
    else d.setFeed b.unit { d.feed b.unit with nextBufs := none }) d

/-- Place the staging rings of queue exports; a ring whose size is unchanged stays where it is. A ring placed here takes over at the
launch: owner 100 + c while in use, 200 + c before. -/
def Dev.placeStages (d : Dev) (a : Nat) (plane : List Block) : Dev :=
  (planeOf plane 0x0D).foldl (fun d b =>
    let size := exStage b.words
    let x := d.dmaCh b.unit
    let d := d.unplace (16 + a) (200 + b.unit)
    if size = 0 ∨ (x.live.isSome ∧ x.stageSize = size) then d.setDma b.unit { x with nextStage := none }
    else
      let y := d.place (16 + a) (200 + b.unit) size (planeLight plane)
      y.2.setDma b.unit { x with nextStage := some (y.1, size) }) d

/-- Everything that the launch of an aperture's plane will use is placed (R346, R435, R517). -/
def Dev.placeNext (d : Dev) (ps : Planes) (a : Nat) (plane : List Block) : Dev :=
  let p := d.ap a
  let fresh := decide (p.state < 3) || p.unplaced
  let d := d.unplace (16 + a) 1
  let d :=
    if fresh || layoutChanges p.live plane then
      let x := d.placeLayout ps a 1 plane 0
      x.2.updAcq a (fun q => { q with nextLayout := some x.1 })
    else d.updAcq a (fun q => { q with nextLayout := none })
  (d.placeFeeds fresh (if fresh then [] else p.live) plane).placeStages a plane

/-! ### APERTURE_ADMIT: shadow chains and export sets -/

/-- The input of a channel block is delivered now: a route in force brings the stream to its port, or the parent is live (R229). -/
def Dev.inputNow (d : Dev) (c : Nat) (w : List Word) : Bool :=
  if chLoupe w then (d.chan (8 * (c / 8) + chParent w)).live.isSome
  else match (d.stream (chSource w)).rt with
    | some r => decide (rtDest r / 2 ^ (c / 8) % 2 = 1)
    | none => false

/-- Start or stop the shadow chain of each channel of an admitted plane (R228). -/
def Dev.startShadows (d : Dev) (ps : Planes) (live plane : List Block) : Dev :=
  (planeOf plane 0x02).foldl (fun d b =>
    let x := d.chan b.unit
    match x.live, planeBlock live 0x02 b.unit, ps.fin plane b.unit b.words with
    | some ch, some o, some fin =>
      if chSettle ch.block.words && chSettle b.words && decide (o.words ≠ b.words) then
        d.setChan b.unit { x with shadow := some (Chain.fresh b fin d.now, d.now, d.inputNow b.unit b.words), shadowIn := [] }
      else d.setChan b.unit { x with shadow := none, shadowIn := [] }
    | _, _, _ => d) d

/-- Stop the shadow chains of an aperture's channels (R229). -/
def Dev.stopShadows (d : Dev) (a : Nat) : Dev :=
  (planeOf (d.ap a).admitted 0x02).foldl (fun d b =>
    let x := d.chan b.unit
    if x.cross.isSome then d else d.setChan b.unit { x with shadow := none, shadowIn := [] }) d

/-- Write the export blocks of an admitted plane into the shadow sets of their channels (R514). -/
def Dev.shadowExports (d : Dev) (a : Nat) (plane : List Block) : Dev :=
  (planeOf plane 0x0D).foldl (fun d b => d.setDma b.unit { d.dmaCh b.unit with shadow := some (a, b), swapAt := none }) d

/-! ### APERTURE_ADMIT -/

def formAdmit : CmdForm := { opcode := 0x21, targetHi := 1023, isAp := true }

/-- The bandwidth granted to a capture: its term of sum 5, or for a COMPAT aperture what its rate level takes (R93, R350). -/
def Dev.granted (d : Dev) (ps : Planes) (a : Nat) (plane : List Block) : Nat :=
  if planeCompat plane then
    match (d.levels ps).find? (fun x => decide (x.1 = a)) with
    | some (_, some k) => (Frac.add (ps.captureRate plane k) (planeOtherRate plane)).ceil.toNat
    | _ => 0
  else (ps.sum5 plane).ceil.toNat

/-- The terms of R93 for a plane that passed. -/
def Dev.setTerms (d : Dev) (ps : Planes) (a : Nat) (plane : List Block) : Dev :=
  let p := d.ap a
  (d.setAp a { p with
    captureBytes := ps.sum4 (if 3 ≤ p.state then p.live else plane) plane
    schedBps := d.granted ps a plane
    exportBps := planeSum8 plane
    stagingBytes := planeSum2 (decide (p.state = 3)) p.live plane
    lag := ps.lag plane }).setReg (acqReg a 0x14) (BitVec.ofNat 32 (ps.lag plane))

/-- The admission passes (R24–R27, R94). -/
def Dev.admitted (d : Dev) (ps : Planes) (a : Nat) : Dev :=
  let p := d.ap a
  let plane := p.staged
  let d := d.setAp a { d.ap a with admitted := plane, changeStaged := false, changeAdmitted := decide (3 ≤ p.state), unplaced := false }
  let d := d.setTerms ps a plane
  let d := d.shadowExports a plane
  let d := if p.state = 3 then d.startShadows ps p.live plane else d
  if p.state = 1 then d.enterState a 2 else d

/-- APERTURE_ADMIT past the command entry (R24–R28, R31, R85). -/
def Dev.admitCmd (d : Dev) (q : Nat) (e : Entry) : Dev :=
  let a := e.target
  let p := d.ap a
  let ps := d.planesWith a p.staged
  match d.planeBad ps a p.staged with
  | some w => formAdmit.reply d q e w
  | none =>
    if d.mc.crit.on then formAdmit.reply d q e modeError
    else if !(decide (p.state = 1) || (decide (3 ≤ p.state) && p.changeStaged)) then formAdmit.reply d q e (d.stateError a)
    else match d.ownedBad a p.staged with
      | some w => formAdmit.reply d q e w
      | none => match d.firstFail ps with
        | some x => formAdmit.reply d q e (admitError x)
        | none => formAdmit.reply ((d.placeNext ps a p.staged).admitted ps a) q e {}

def execApertureAdmit (dt q : Nat) (e : Entry) (s : State) : Host.Outcome State Fault Refusal :=
  onDev dt (runCmd formAdmit q e noChecks (fun d => d.orHeld q 0x21 e [e.target] (.admission e) (fun d => d.admitCmd q e))) s

/-! ### APERTURE_HALT (R343) -/

def formHalt : CmdForm := { opcode := 0x22, blockLen := 12, targetHi := 1023, isAp := true }

def haltChecks (_ : Dev) (b : List Word) : List (Nat × Bool) := [zer b 0x08 31 0]

def execApertureHalt (dt q : Nat) (e : Entry) (s : State) : Host.Outcome State Fault Refusal :=
  onDev dt (runCmd formHalt q e haltChecks (fun d =>
    d.orHeld q 0x22 e [e.target] (.halt (qAt e.block 0x00)) (fun d => (d.hold q 0x22 e (.halt e.target)).haltNow q e.target (qAt e.block 0x00)))) s

/-! ### APERTURE_RELEASE (R94) -/

def formRelease : CmdForm := { opcode := 0x23, targetHi := 1023, isAp := true }

/-- A channel of a cluster in `mask` that takes a port stream loses it from a tick on: substitutes at the last rate follow the samples that entered
the Splitter before that tick (R185, R186, R206). -/
def Dev.withdrawFrom (d : Dev) (s rate mask tick : Nat) : Dev :=
  d.chans.foldl (fun d (p : Nat × Chan) =>
    let x := d.chan p.1
    match x.current with
    | some ch =>
      if ch.takes p.1 s mask && x.withdrawn.isNone then
        (d.setChan p.1 { x with withdrawn := some (rate, tick + 12, 0) }).raiseAt (evChannel + p.1) (freeSev (evChannel + p.1)) p.1 3
          (BitVec.ofNat 64 s) (BitVec.ofNat 64 tick)
      else d
    | none => d) d

/-- What a stream keeps as its route leaves force at tick `t`: the samples in the Splitter are delivered where they were bound, a converter's for
12 ticks, and a converter's filter runs on (R176, R186). -/
def Stream.left (x : Stream) (t : Nat) : Stream :=
  { ({} : Stream) with
    fifo := x.fifo.map (fun (e : InSplitter) => { e with anchor := false, old := true })
    real := x.real
    realCount := x.realCount
    leaving := match x.route with
      | some (_, b) => if rtKind b.words = 2 ∧ x.state = 2 then some (t + 12, x.base, x.posBase, b) else none
      | none => x.leaving }

/-- A route leaves force at tick `t`. -/
def Dev.clearRoute (d : Dev) (s t : Nat) : Dev := d.setStream s ((d.stream s).left t)

/-- A route leaves force now (R186, R206). -/
def Dev.dropRoute (d : Dev) (s : Nat) : Dev :=
  match (d.stream s).rt with
  | some w => ((d.clearRoute s d.now).withdrawFrom s (rtRate w) (rtDest w) d.now).retrimAll
  | none => d

/-- The mode of a pad: 0 idle, 1 PSL, 2 JESD. A route in force that names the pad sets it, else a route of an ADMITTED, LIVE or HALTED aperture
(R156). -/
def Dev.padMode (d : Dev) (p : Nat) : Nat :=
  let inForce := d.streams.filterMap (fun (x : Nat × Stream) => x.2.rt)
  let stand := ((d.standingPlanes.all 0x01).map (fun x => x.2.words))
  match (inForce ++ stand).find? (fun w => (routePads w).contains p) with
  | some w => rtKind w + 1
  | none => 0

/-- Give every pad the mode of the routes in force; a pad whose mode changes starts afresh (R156, R200). -/
def Dev.setPads (d : Dev) : Dev :=
  (List.range 96).foldl (fun d p =>
    let x := d.pad p
    let m := d.padMode p
    if x.mode = m then d else d.setPad p { ({} : Pad) with mode := m, rx := x.rx, scr := x.scr }) d

/-- Every layer that scans feed `p` has its buffers at NONE and stops its fetch (R437). -/
def Dev.layersNone (d : Dev) (p : Nat) : Dev :=
  (List.range 3).foldl (fun d n =>
    let x := d.layer n
    if x.scans p then d.setLayer n { x with current := 3, pending := 3, stopped := true } else d) d

/-- The areas of an aperture are freed, with the pixel buffers of its feeds. -/
def Dev.freeAreas (d : Dev) (a : Nat) (planes : List Block) : Dev :=
  let units := (planeOf planes 0x0B).map (fun b => b.unit)
  d.updCmc (fun c => { c with allocs := c.allocs.filter (fun (x : Alloc) =>
    !(decide (x.region = 16 + a) || (decide (x.region = 5) && (units.contains x.owner || units.contains (x.owner - 8))))) })

/-- The DMA channels of an aperture that is released: idle, with no block (R514). -/
def Dev.dropExports (d : Dev) (planes : List Block) : Dev :=
  (planeOf planes 0x0D).foldl (fun d b => { d with dma := Tbl.drop b.unit d.dma }) d

/-- Relay's stop of a stream: nothing more is submitted, but for the published bytes on a halt or release (R549). -/
def Dev.stopRelay (d : Dev) (st : Nat) (pad : Bool := false) : Dev :=
  let x := Tbl.look ({} : RelayStream) d.relays st
  if x.running then { d with relays := Tbl.put st { x with running := false, stopping := true, pad := pad } d.relays } else d

/-- The waits on a released aperture end, all but those for EMPTY (R91). -/
def Dev.releaseWaits (d : Dev) (a : Nat) : Dev :=
  d.rings.foldl (fun d p => match p.2.busy with
    | some b => match b.wait with
      | .aperture a' st _ => if a' = a ∧ st ≠ 0 then d.finishRing p.1 { status := efsAborted, detail := 1, ap := some a } else d
      | _ => d
    | none => d) d

/-- Free everything that aperture `a` holds (R94, R186, R340, R437, R487, R497). -/
def Dev.releaseAp (d : Dev) (a : Nat) : Dev :=
  let p := d.ap a
  let own := (if 3 ≤ p.state then p.live else []) ++ (if p.state = 2 ∨ p.changeAdmitted then p.admitted else [])
  let d := d.freeAreas a own
  let d := if 3 ≤ p.state then (planeOf p.live 0x01).foldl (fun d b => d.dropRoute b.unit) d else d
  let d := (planeOf own 0x0B).foldl (fun d b => (d.layersNone b.unit).setFeed b.unit {}) d
  let d := (planeOf own 0x0C).foldl (fun d b => if (d.tp b.unit).bind.isSome then d.bindRelease b.unit else d) d
  let d := (planeOf own 0x08).foldl (fun d b => d.setMarker b.unit { level := (d.marker b.unit).level }) d
  let d := (planeOf own 0x0E).foldl (fun d b => d.stopRelay b.unit true) d
  let d := d.dropExports own
  let d := d.setAp a { ({} : Aperture) with
    lastLaunch := p.lastLaunch, haltCause := p.haltCause, captureBytes := p.captureBytes, schedBps := p.schedBps, exportBps := p.exportBps,
    stagingBytes := p.stagingBytes, lag := p.lag, since := d.now, acq := { ({} : Acq) with inbox := p.acq.forget.inbox } }
  ((d.releaseWaits a).wakeWaits a).endChannels

def execApertureRelease (dt q : Nat) (e : Entry) (s : State) : Host.Outcome State Fault Refusal :=
  onDev dt (runCmd formRelease q e noChecks (fun d =>
    let a := e.target
    let p := d.ap a
    if (p.state = 1 ∨ p.state = 2 ∨ p.state = 4) ∧ p.launch.isNone then formRelease.reply (d.releaseAp a) q e {}
    else formRelease.reply d q e (d.stateError a))) s

/-! ### APERTURE_QUERY (R93) -/

def formQuery : CmdForm := { opcode := 0x24, targetHi := 1023, isAp := true }

/-- The two dwords of a 64-bit number. -/
def qwords (n : Nat) : List Word := [QWord.lo (BitVec.ofNat 64 n), QWord.hi (BitVec.ofNat 64 n)]

/-- The tick of the pending launch of an aperture; 0 when none, or when a BIND awaits its FIRE. -/
def Dev.launchTickOf (d : Dev) (a : Nat) : Nat :=
  match (d.ap a).launch with
  | some id => match d.glob.launches.find? (fun (l : Launch) => decide (l.id = id) && l.apertures.contains a) with
    | some l => l.tick.getD 0
    | none => 0
  | none => 0

/-- The block of R93. -/
def Dev.queryWords (d : Dev) (a : Nat) : List Word :=
  let p := d.ap a
  let live := if 3 ≤ p.state then p.live else []
  let heads := live ++ p.staged
  [ Word.place 3 0 p.state ||| Word.place 7 4 p.acqState ||| Word.place 10 8 p.flags ||| Word.place 11 11 p.unplaced.toNat |||
      Word.place 15 12 p.rateLevel ||| Word.place 31 16 (p.launch.getD 0),
    Word.place 15 0 live.length ||| Word.place 31 16 p.staged.length ] ++ qwords (d.launchTickOf a) ++ qwords p.lastLaunch ++
  [ d.reg (acqReg a 0x04), d.reg (acqReg a 0x08), d.reg (acqReg a 0x0C), d.reg (acqReg a 0x10), d.reg (acqReg a 0x14),
    Word.place 7 0 p.haltCause ] ++ qwords p.captureBytes ++ qwords p.schedBps ++ qwords p.exportBps ++
  [BitVec.ofNat 32 p.stagingBytes, 0] ++ heads.flatMap (fun b => [dwAt b.words 0, dwAt b.words 4])

def execApertureQuery (dt q : Nat) (e : Entry) (s : State) : Host.Outcome State Fault Refusal :=
  onDev dt (runCmd formQuery q e noChecks (fun d =>
    let ws := d.queryWords e.target
    formQuery.reply (d.writeOutE e ws) q e
      { result0 := BitVec.ofNat 64 (4 * ws.length), result1 := BitVec.ofNat 64 ((ws.length - 20) / 2) })) s

/-! ### APERTURE_WAIT (R91, R92) -/

def formWait : CmdForm := { opcode := 0x25, blockLen := 8, targetHi := 1023, isAp := true }

def waitChecks (_ : Dev) (b : List Word) : List (Nat × Bool) :=
  let st := fldAt b 0x00 3 0
  let sub := fldAt b 0x00 7 4
  [ (0x00, decide (st ≤ 4) && (if st = 3 then decide (sub ≤ 6 ∧ sub ≠ 3) else decide (sub = 0)) && decide (fldAt b 0x00 31 8 = 0)), zer b 0x04 31 0 ]

def execApertureWait (dt q : Nat) (e : Entry) (s : State) : Host.Outcome State Fault Refusal :=
  onDev dt (runCmd formWait q e waitChecks (fun d =>
    let a := e.target
    let st := fldAt e.block 0x00 3 0
    let sub := fldAt e.block 0x00 7 4
    if (d.ap a).matchesWait st sub then formWait.reply d q e { result0 := d.clk.count }
    else d.hold q 0x25 e (.aperture a st sub))) s

end Sys2Proof.Machine
end

