-- ==== Sys2Proof/Machine/Export.lean ====
section
/-!
DEFINITION. Export on the streaming DMA channels (R513–R538): the swap of a shadow set, the request, packets, publications, retry,
halt and pause, and the draining of queues into staging.
-/

namespace Sys2Proof.Machine

/-! ### What a channel has to send -/

/-- The live export block of a channel, as dwords. -/
def DmaChan.words (x : DmaChan) : Option (List Word) := x.live.map (fun p => p.2.words)

/-- The reduction slot that a channel of SRC_KIND 0 drains: the aperture and the slot. -/
def Dev.exportSlot (d : Dev) (c : Nat) : Option (Nat × Nat) :=
  match (d.dmaCh c).live with
  | some (a, _) => ((planeOf (d.ap a).live 0x0A).find? (fun r => decide (rdExport r.words = c))).map (fun r => (a, r.unit))
  | none => none

/-- The positions among an aperture's sub-rings of those of a slot, in ascending channel. -/
def Dev.slotRings (d : Dev) (a slot : Nat) : List Nat :=
  ((d.ap a).acq.subs.zipIdx.filter (fun (p : SubRing × Nat) => decide (p.1.slot = slot))).map (fun p => p.2)

/-- Sub-ring `i` of an aperture. -/
def Dev.subRing (d : Dev) (a i : Nat) : Option SubRing := (d.ap a).acq.subs[i]?

def Dev.setStage (d : Dev) (a i : Nat) (q : StageQ) : Dev :=
  d.updAcq a (fun x => { x with subs := modAt (fun (r : SubRing) => { r with stage := q }) i x.subs })

/-- The unsent items of the sub-rings that a channel drains. -/
def Dev.unsent (d : Dev) (c : Nat) : List StageItem :=
  match d.exportSlot c with
  | some (a, slot) => ((d.ap a).acq.subs.filter (fun (r : SubRing) => decide (r.slot = slot))).flatMap (fun r => r.stage.items)
  | none => []

/-- F: the staging bytes written and not yet sent (R529). -/
def Dev.exportFill (d : Dev) (c : Nat) : Nat :=
  let x := d.dmaCh c
  match x.words with
  | some w =>
    if exKind w = 0 then ((d.unsent c).filter (fun i => !i.lost)).foldl (fun n i => n + i.len) 0 else x.staged - x.stgSent
  | none => 0

/-- An END packet is due, or a record's header is (R525, R529). -/
def Dev.endDue (d : Dev) (c : Nat) : Bool :=
  (d.unsent c).any (fun i => i.last) || (d.dmaCh c).tails.any (fun t => decide (t.sent < t.len))

/-- Nothing is left to send: no bytes, no span that was lost, no END, no record header. -/
def Dev.exportIdle (d : Dev) (c : Nat) : Bool := decide (d.exportFill c = 0) && (d.unsent c).isEmpty && !(d.endDue c)

/-- The request of R529 brought up to date; a flush that has sent everything calls for a publication (R528). -/
def Dev.exportReq (d : Dev) (c : Nat) : Dev :=
  let x := d.dmaCh c
  match x.words with
  | some w =>
    let f := d.exportFill c
    let idle := d.exportIdle c
    let flush := !idle && (x.flush || d.endDue c)
    let req := if flush || decide (exHigh w ≤ f) then true else if f < exLow w then false else x.req
    d.setDma c { x with flush := flush, pubDue := x.pubDue || (x.flush && idle), req := req }
  | none => d

/-! ### The swap (R514) -/

/-- The staging bytes `from_` to `to` of a channel's stream, as addresses in its staging ring. -/
def DmaChan.stageAddr (x : DmaChan) (off : Nat) : Nat := x.stageBase + (x.pos0 + off) % x.stageSize

/-- A staging ring of another size takes over: what is not yet published moves to it. -/
def moveStage (c : Nat) (y : Dev × Mems) : Dev × Mems :=
  let x := y.1.dmaCh c
  match x.nextStage with
  | none => y
  | some (base, size) =>
    let n := if x.stageSize = 0 then 0 else min size (x.staged - x.stg)
    let bs := (List.range n).map (fun i => y.2.cap.read (x.stageAddr (x.stg + i)))
    let a := match x.shadow with | some (a, _) => a | none => 0
    let d := y.1.setDma c { x with stageBase := base, stageSize := size, pos0 := (size - x.stg % size) % size, nextStage := none }
    let d := d.unplace (16 + a) (100 + c)
    let d := d.updCmc (fun q => { q with allocs := q.allocs.map (fun (z : Alloc) =>
      if z.region = 16 + a ∧ z.owner = 200 + c then { z with owner := 100 + c } else z) })
    capWrite base bs (d, y.2)

/-- The shadow set swaps in at a packet boundary: everything written under the live set is published (R514). SEQ, the staging counts and
OFFSET count from the swap; HEAD and TAIL start at 0 when the host ring changes. -/
def exportSwap (c : Nat) (y : Dev × Mems) : Dev × Mems :=
  let x := y.1.dmaCh c
  match x.shadow, x.swapAt with
  | some (a, b), some t =>
    if t ≤ y.1.now ∧ x.written = x.tail ∧ x.pub.isNone ∧ x.state ≠ 4 then
      let y := moveStage c y
      let x := y.1.dmaCh c
      let anew := match x.words with
        | some w => decide (exBase w ≠ exBase b.words ∨ exHostLog w ≠ exHostLog b.words) || (exRelay w != exRelay b.words)
        | none => true
      let pause := decide (y.1.fld (dmaReg c 0x04) 0 0 = 1)
      let d := y.1.setDma c { x with
        live := some (a, b)
        shadow := none
        swapAt := none
        state := if x.state = 0 then (if pause then 3 else 1) else x.state
        seq := 0
        pubSeq := 0
        staged := x.staged - x.stg
        stgSent := 0
        stg := 0
        pos0 := if x.stageSize = 0 then 0 else (x.pos0 + x.stg) % x.stageSize
        drains := x.drains.map (fun p => (p.1 - x.stg, p.2))
        head := if anew then 0 else x.head
        tail := if anew then 0 else x.tail
        written := if anew then 0 else x.written
        pubWritten := if anew then 0 else x.pubWritten }
      (d.exportReq c, y.2)
    else y
  | _, _ => y

/-! ### Packets (R524–R526) -/

/-- A packet: its header's fields and its payload. -/
structure Packet where
  ptype : Nat
  end_ : Bool := false
  slot : Nat := 0
  channel : Nat := 0
  recno : Nat := 0
  source : Nat := 0
  offset : Nat := 0
  /-- LOSS: the bytes lost. -/
  lost : Nat := 0
  payload : List Byte := []
  /-- MARKS, a bit for each 64 bytes of the payload. -/
  marks : Nat := 0

/-- The header dwords. -/
def Packet.header (p : Packet) (seq : Nat) : List Word :=
  let marks := if p.ptype = 4 then p.lost else p.marks
  [ Word.place 3 0 p.ptype ||| Word.place 4 4 (decide (marks ≠ 0)).toNat ||| Word.place 5 5 p.end_.toNat ||| Word.place 7 6 p.slot ||| Word.place 31 16 seq,
    Word.place 12 0 p.payload.length ||| Word.place 24 16 p.channel, BitVec.ofNat 32 p.recno, Word.place 15 0 p.source ] ++ qwords p.offset ++ qwords marks

/-- The payload padded to a whole number of 32 bytes, as dwords. -/
def Packet.body (p : Packet) : List Word := wordsOfBytes (padBytes (ceilDiv p.payload.length 32 * 32) p.payload)

/-- Bytes of a packet in the host ring. -/
def Packet.size (p : Packet) : Nat := 32 + 4 * p.body.length

/-- Read staging bytes at given addresses for a packet: a byte of a marked line is 0, and each marked line read is counted (R401, R526). -/
def readStaging (errs : List Upset) (addrs : List Nat) (y : Dev × Mems) : List Byte × Nat × Dev :=
  let r := y.1.readLines y.2.cap errs 7 ((addrs.map (· / 64)).eraseDups)
  let bad := addrs.map (fun a => r.marked.contains (a / 64))
  let marks := (List.range (ceilDiv addrs.length 64)).foldl (fun m i =>
    if ((bad.drop (64 * i)).take 64).any id then m + 2 ^ i else m) 0
  (addrs.map r.byte, marks, r.dev)

/-- Take unsent items of one record for a DATA packet of at most `burst` bytes: those sent, and the rest; the item that ends the record
goes with its last bytes. -/
def takeItems (recno : Nat) : Nat → List StageItem → List StageItem × List StageItem
  | _, [] => ([], [])
  | burst, i :: t =>
    if i.recno ≠ recno ∨ i.lost then ([], i :: t)
    else if i.last then ([i], t)
    else if burst = 0 then ([], i :: t)
    else if i.len ≤ burst then
      let r := takeItems recno (burst - i.len) t
      (i :: r.1, r.2)
    else ([{ i with len := burst }], { i with off := i.off + burst, addr := i.addr + burst, len := i.len - burst } :: t)

/-- The run of lost items that one LOSS packet replaces. -/
def takeLost (recno : Nat) : List StageItem → List StageItem × List StageItem
  | [] => ([], [])
  | i :: t => if i.recno = recno ∧ i.lost then let r := takeLost recno t; (i :: r.1, r.2) else ([], i :: t)

/-- The next packet of the sub-rings of a slot, from the one whose turn it is (R525). -/
def dataPacket (errs : List Upset) (c a slot : Nat) (w : List Word) (y : Dev × Mems) : Option (Packet × Dev) :=
  let d := y.1
  let x := d.dmaCh c
  let rings := d.slotRings a slot
  let k := x.turn % max 1 rings.length
  match (rings.drop k ++ rings.take k).find? (fun i => match d.subRing a i with | some r => !r.stage.items.isEmpty | none => false) with
  | none => none
  | some i =>
    match d.subRing a i with
    | none => none
    | some r =>
      match r.stage.items with
      | [] => none
      | h :: _ =>
        let turn := (rings.idxOf i + 1) % max 1 rings.length
        if h.lost then
          let t := takeLost h.recno r.stage.items
          let n := (t.1.map (fun i => i.len)).sum
          let d := d.setStage a i { r.stage with items := t.2, sent := r.stage.sent ++ t.1 }
          some ({ ptype := 4, slot := slot, channel := r.ch, recno := h.recno, source := a, offset := h.off, lost := n },
            d.setDma c { d.dmaCh c with turn := turn, stgSent := x.stgSent + n })
        else
          let t := takeItems h.recno (exBurst w) r.stage.items
          let addrs := t.1.flatMap (fun i => (List.range i.len).map (i.addr + ·))
          let rd := readStaging errs addrs y
          let d := rd.2.2.setStage a i { r.stage with items := t.2, sent := r.stage.sent ++ t.1 }
          some ({ ptype := 1, end_ := t.1.any (fun i => i.last), slot := slot, channel := r.ch, recno := h.recno, source := a, offset := h.off,
                  payload := rd.1, marks := rd.2.1 }, d.setDma c { d.dmaCh c with turn := turn, stgSent := x.stgSent + addrs.length })

/-- The next RECORD packet, once the END packets of its record have been sent (R525), its bytes read from capture memory (R32); a LOSS packet
stands for a header that was overwritten. -/
def recordPacket (errs : List Upset) (c a slot : Nat) (w : List Word) (y : Dev × Mems) : Option (Packet × Dev) :=
  let x := y.1.dmaCh c
  let sent (d : Dev) (t : RecordTail) (n : Nat) : Dev :=
    let x := d.dmaCh c
    d.setDma c { x with tails := x.tails.map (fun (z : RecordTail) => if z.recno = t.recno then { z with sent := z.sent + n } else z) }
  match x.tails.find? (fun t => decide (t.sent < t.len) && !((y.1.unsent c).any (fun i => decide (i.recno = t.recno)))) with
  | some t =>
    if t.lost then
      some ({ ptype := 4, slot := slot, recno := t.recno, source := a, offset := t.sent, lost := t.len - t.sent }, sent y.1 t (t.len - t.sent))
    else
      let n := min (exBurst w) (t.len - t.sent)
      let rd := readStaging errs ((List.range n).map (t.addr + t.sent + ·)) y
      some ({ ptype := 2, end_ := decide (t.sent + n = t.len), slot := slot, recno := t.recno, source := a, offset := t.sent, payload := rd.1,
              marks := rd.2.1 }, sent rd.2.2 t n)
  | none => none

/-- The number of the queue that a channel drains (R523). -/
def exQueue (w : List Word) : Nat := if exKind w = 2 then 32 + exUnit w else exUnit w

/-- The next QUEUE packet (R525). -/
def queuePacket (errs : List Upset) (c : Nat) (w : List Word) (y : Dev × Mems) : Option (Packet × Dev) :=
  let x := y.1.dmaCh c
  let n := min (exBurst w) (x.staged - x.stgSent)
  if n = 0 then none
  else
    let rd := readStaging errs ((List.range n).map (fun i => x.stageAddr (x.stgSent + i))) y
    some ({ ptype := 3, source := exQueue w, offset := x.stgSent, payload := rd.1, marks := rd.2.1 },
      rd.2.2.setDma c { x with stgSent := x.stgSent + n })

/-- The next packet of a channel, with the device in which it has been sent. -/
def nextPacket (errs : List Upset) (c : Nat) (w : List Word) (y : Dev × Mems) : Option (Packet × Dev) :=
  if exKind w ≠ 0 then queuePacket errs c w y
  else match y.1.exportSlot c with
    | some (a, slot) =>
      match recordPacket errs c a slot w y with
      | some p => some p
      | none => dataPacket errs c a slot w y
    | none => none

/-- Write a packet at the present end of the host ring (R38, R524). -/
def Dev.putPacket (d : Dev) (c : Nat) (w : List Word) (p : Packet) : Dev :=
  let x := d.dmaCh c
  let at_ := exBase w + BitVec.ofNat 64 (x.written % 2 ^ exHostLog w)
  (d.emit (.write at_ (p.header x.seq ++ p.body) { relaxed := true })).setDma c { x with written := x.written + p.size, seq := (x.seq + 1) % 2 ^ 16 }

/-- PACKET_START (R529): while the request is asserted and the host ring has room, the next packet is written, or a PAD packet
where it would not fit contiguously. Packets start in the states running and retrying. -/
def packetStart (c : Nat) (errs : List Upset) (y : Dev × Mems) : Dev × Mems :=
  let y := exportSwap c y
  let d := y.1.exportReq c
  let x := d.dmaCh c
  match x.words with
  | none => (d, y.2)
  | some w =>
    if (x.state ≠ 1 ∧ x.state ≠ 4) ∨ x.swapAt.isSome ∨ !x.req ∨ !d.pcie.busMaster then (d, y.2)
    else match nextPacket errs c w (d, y.2) with
      | none => (d, y.2)
      | some (p, e) =>
        let size := 2 ^ exHostLog w
        let left := size - x.written % size
        if left < p.size then
          if x.written + left ≤ x.head + size then
            ((d.putPacket c w { ptype := 0, source := p.source, payload := List.replicate (left - 32) 0 }).exportReq c, y.2)
          else (d, y.2)
        else if x.written + p.size ≤ x.head + size then ((e.putPacket c w p).exportReq c, y.2)
        else (d, y.2)

def execPacketStart (dt : Nat) (r : ChanRead) (s : State) : Host.Outcome State Fault Refusal :=
  onAll dt (fun d m => packetStart r.chan r.errs (d, m)) s

/-! ### Queue drains (R518) -/

/-- The staging bytes of a packet: the prefix and its words, padded to 8 bytes (R518). -/
def drainBytes (wide lossy : Bool) (p : List (Nat × Bool)) : List Byte :=
  let body := p.flatMap (fun w => if wide then bytes64 w.1 else bytesOfWord (BitVec.ofNat 32 w.1))
  bytes64 (p.length % 2 ^ 16 + 2 ^ 16 * lossy.toNat + 2 ^ 17 * wide.toNat) ++ padBytes (ceilDiv body.length 8 * 8) body

/-- The queue of export stream `c` is read: items that hold a mark are discarded and counted (R401). -/
def Dev.drainRead (d : Dev) (c : Nat) : Dev :=
  match (d.dmaCh c).words with
  | none => d
  | some w =>
    let u := exUnit w
    if exKind w = 0 then d
    else if exKind w = 1 then
      let m := d.meets 3
      m.1.foldl (fun (d : Dev) _ =>
        if (d.tp u).rq.items.isEmpty then d
        else let l := d.resultLoss u (d.tp u).rq.discard; l.2.setTp u { l.2.tp u with rq := l.1 }) m.2
    else d.markerRead u

/-- QUEUE_DRAIN: the oldest whole packet of the channel's queue moves into staging when it fits. -/
def queueDrain (c : Nat) (y : Dev × Mems) : Dev × Mems :=
  let d := y.1.drainRead c
  let x := d.dmaCh c
  match x.words with
  | none => y
  | some w =>
    let u := exUnit w
    let wide := decide (exKind w = 1)
    let q := if wide then (d.tp u).rq else (d.marker u).q
    if exKind w = 0 ∨ packetsIn (q.ready d.cyc) = 0 then (d, y.2)
    else
      let p := takePacket q.items
      let bs := drainBytes wide q.lossy p
      if x.stageSize < x.staged - x.stg + bs.length then (d, y.2)
      else
        let d := if wide then d.setTp u { d.tp u with rq := q.drained p } else d.setMarker u { d.marker u with q := q.drained p }
        let d := d.setDma c { x with staged := x.staged + bs.length, drains := x.drains ++ [(x.staged + bs.length, d.cyc)] }
        let z := (bs.zipIdx).foldl (fun (z : Dev × Mems) (b : Byte × Nat) => capWrite (x.stageAddr (x.staged + b.2)) [b.1] z) (d, y.2)
        (z.1.exportReq c, z.2)

def execQueueDrain (dt c : Nat) (s : State) : Host.Outcome State Fault Refusal := onAll dt (fun d m => queueDrain c (d, m)) s

/-! ### Flush and publication (R528, R529) -/

/-- The cycle at which the oldest unsent staging byte was written. -/
def Dev.oldestUnsent (d : Dev) (c : Nat) : Option Nat :=
  let x := d.dmaCh c
  match x.words with
  | some w =>
    if exKind w = 0 then (leastBy (fun (i : StageItem) => i.cycle) ((d.unsent c).filter (fun i => decide (0 < i.len) && !i.lost))).map (fun i => i.cycle)
    else (x.drains.find? (fun p => decide (x.stgSent < p.1))).map (fun p => p.2)
  | none => none

/-- FLUSH_TIMER: the oldest unsent byte has waited FLUSH_US. -/
def Dev.flushTimer (d : Dev) (c : Nat) : Dev :=
  let x := d.dmaCh c
  match x.words, d.oldestUnsent c with
  | some w, some k => if k + 3000 * exFlush w ≤ d.cyc then (d.setDma c { x with flush := true }).exportReq c else d
  | _, _ => d

def execFlushTimer (dt c : Nat) (s : State) : Host.Outcome State Fault Refusal := onDev dt (fun d => d.flushTimer c) s

/-- Change every sub-ring's staging and every record tail of a channel. -/
def Dev.onStages (d : Dev) (c : Nat) (f : StageQ → StageQ) (g : RecordTail → RecordTail) : Dev :=
  let d := match d.exportSlot c with
    | some (a, slot) => d.updAcq a (fun x => { x with subs := x.subs.map (fun (r : SubRing) => if r.slot = slot then { r with stage := f r.stage } else r) })
    | none => d
  d.setDma c { d.dmaCh c with tails := (d.dmaCh c).tails.map g }

/-- PUBLICATION_START: 64 KiB written since the last one began, or the request withdrawn, or a flush sent, or a pause or a swap that
waits (R514, R528, R536). One publication at a time. -/
def Dev.publicationStart (d : Dev) (c : Nat) : Dev :=
  let d := d.exportReq c
  let x := d.dmaCh c
  match x.words with
  | none => d
  | some w =>
    let due := decide (65536 ≤ x.written - x.pubWritten) || !x.req || x.pubDue || decide (x.state = 2) || x.swapAt.isSome
    if (x.state = 1 ∨ x.state = 2 ∨ x.state = 4) ∧ x.pub.isNone ∧ x.tail < x.written ∧ due ∧ d.pcie.busMaster then
      let addr := exBase w + BitVec.ofNat 64 ((x.written - 1) % 2 ^ exHostLog w)
      let p : Publication := { written := x.written, stg := x.stgSent, seq := x.seq, turn := x.turn, addr := addr, since := d.clk.time }
      let d := d.setDma c { x with pub := some p, pubWritten := x.written, pubDue := false }
      (d.onStages c (fun q => { q with pub := q.pub ++ q.sent, sent := [] }) (fun t => { t with inPub := t.sent })).emit (.read (1000 + c) addr 1 {})
    else d

def execPublicationStart (dt c : Nat) (s : State) : Host.Outcome State Fault Refusal := onDev dt (fun d => d.publicationStart c) s

/-- A pausing channel with everything published is paused (R536). -/
def Dev.pauseCheck (d : Dev) (c : Nat) : Dev :=
  let x := d.dmaCh c
  if x.state = 2 ∧ x.pub.isNone ∧ x.written = x.tail then (d.setDma c { x with state := 3 }).dmaEvent c 2 0 x.tail else d

/-- FLUSH_READ_COMPLETE: what the publication covers is published (R528). -/
def flushReadComplete (c : Nat) (y : Dev × Mems) : Dev × Mems :=
  let d := y.1
  let x := d.dmaCh c
  match x.pub, x.words with
  | some p, some w =>
    let d := d.onStages c (fun q => { q with pub := [] }) (fun t => { t with pubd := t.inPub })
    let x := d.dmaCh c
    let d := d.setDma c { x with
      pub := none
      tail := p.written
      stg := p.stg
      pubSeq := p.seq
      pubTurn := p.turn
      tries := 0
      drains := x.drains.filter (fun q => decide (p.stg < q.1))
      tails := x.tails.filter (fun t => decide (t.pubd < t.len))
      state := if x.state = 4 then (if x.pausePending then 2 else 1) else x.state
      pausePending := if x.state = 4 then false else x.pausePending }
    let d := if exRelay w then d else d.emit (.write (exTail w) (qwords p.written) {})
    let n := exNotify w
    let d := if n ≠ 0 ∧ x.tail / 2 ^ n < p.written / 2 ^ n then d.dmaEvent c 3 0 p.written else d
    exportSwap c ((d.pauseCheck c).exportReq c, y.2)
  | _, _ => y

def execFlushReadComplete (dt c : Nat) (s : State) : Host.Outcome State Fault Refusal := onAll dt (fun d m => flushReadComplete c (d, m)) s

/-! ### Errors, retry and halt (R532–R535) -/

/-- The channel returns to its last publication: what was sent since is unsent again (R533). -/
def Dev.exportRewind (d : Dev) (c : Nat) : Dev :=
  let d := d.onStages c (fun q => { items := q.pub ++ q.sent ++ q.items, sent := [], pub := [] }) (fun t => { t with sent := t.pubd, inPub := t.pubd })
  let x := d.dmaCh c
  d.setDma c { x with written := x.tail, pubWritten := x.tail, stgSent := x.stg, seq := x.pubSeq, turn := x.pubTurn, pub := none, pubDue := false }

/-- Schedule the halt of the capture aperture that a halted channel drains, at the first tick of the device lead (R40, R534). -/
def Dev.haltDrained (d : Dev) (c : Nat) : Dev :=
  match (d.dmaCh c).live with
  | some (a, b) =>
    if exKind b.words = 0 ∧ (d.ap a).state = 3 ∧ ¬ d.glob.halts.any (fun (h : Sched) => decide (h.unit = a ∧ h.cause = 2)) then
      d.updGlob (fun g => { g with halts := g.halts ++ [{ unit := a, tick := d.now + scopeLead 0, cause := 2 }] })
    else d
  | none => d

/-- Relay's stop of the streams on a channel that halts (R548). -/
def Dev.stopRelaysOf (d : Dev) (c : Nat) : Dev :=
  d.relays.foldl (fun d (p : Nat × RelayStream) => match p.2.block with
    | some (_, b) => if rlChan b.words = c then d.stopRelay p.1 else d
    | none => d) d

/-- A channel halts (R533, R534): kind, cause of EV_DMA with its ARG[15:8] and DATA. -/
def Dev.exportHalt (d : Dev) (c kind cause arg data : Nat) : Dev :=
  let x := d.dmaCh c
  if x.live.isNone ∨ x.state = 5 then d
  else
    let d := d.exportRewind c
    let d := d.setDma c { d.dmaCh c with state := 5, haltKind := kind, tries := 0, pausePending := false }
    ((d.dmaEvent c cause arg data).haltDrained c).stopRelaysOf c

/-- A flush read failed (R533): retry up to RETRY times, then halt. -/
def Dev.flushFailed (d : Dev) (c kind : Nat) (addr : QWord) : Dev :=
  let x := d.dmaCh c
  match x.pub, x.words with
  | some _, some w =>
    let d := d.bump (dmaReg c 0x24)
    if x.tries < exRetry w then
      let d := d.exportRewind c
      let y := d.dmaCh c
      d.setDma c { y with tries := x.tries + 1, state := 4, pausePending := y.pausePending || decide (x.state = 2), flush := true, req := true }
    else d.exportHalt c kind 1 kind addr.toNat
  | _, _ => d

/-- CLEAR_HALT (R535). -/
def Dev.clearHalt (d : Dev) (c : Nat) : Dev :=
  let x := d.dmaCh c
  if x.state = 5 ∧ c < 60 then (d.setDma c { x with state := 1, haltKind := 0, tries := 0 }).exportReq c else d

/-! ### Pause and HEAD (R527, R536) -/

/-- PAUSE = 1. -/
def Dev.exportPause (d : Dev) (c : Nat) : Dev :=
  if 60 ≤ c then d
  else
    let d := d.setFld (dmaReg c 0x04) 0 0 1
    let x := d.dmaCh c
    if x.state = 1 then (d.setDma c { x with state := 2 }).pauseCheck c
    else if x.state = 4 then d.setDma c { x with pausePending := true }
    else d

/-- PAUSE = 0. -/
def Dev.exportResume (d : Dev) (c : Nat) : Dev :=
  if 60 ≤ c then d
  else
    let d := d.setFld (dmaReg c 0x04) 0 0 0
    let x := d.dmaCh c
    let d := d.setDma c { x with state := if x.state = 2 ∨ x.state = 3 then 1 else x.state, pausePending := false }
    d.exportReq c

/-- EXP_HEAD_HI applies HEAD (R527). -/
def Dev.headWrite (d : Dev) (c : Nat) (hi : Word) : Dev :=
  if 60 ≤ c then d
  else
    let d := d.setReg (dmaReg c 0x0C) hi
    let x := d.dmaCh c
    let v := (QWord.ofHalves (d.reg (dmaReg c 0x08)) hi).toNat
    match x.words with
    | some w =>
      if exRelay w then d
      else if v < x.head ∨ x.tail < v then (d.bump (dmaReg c 0x28)).dmaEvent c 4 0 v
      else d.setDma c { x with head := v }
    | none => if v = 0 then d else (d.bump (dmaReg c 0x28)).dmaEvent c 4 0 v

end Sys2Proof.Machine
end

