-- ==== Sys2Proof/Machine/Relaunch.lean ====
section
/-!
DEFINITION. What a launch does to the data path at its tick (R139, R143, R186, R206, R208, R227–R229, R260–R262, R279, R288, R293): the
planes, the routes, the channels with their frame sequences, the triggers.
-/

namespace Sys2Proof.Machine

/-- An aperture as it is launched: whether it was LIVE, the live plane it leaves and the one it enters. -/
structure Relaunch where
  a : Nat
  wasLive : Bool
  old : List Block
  new : List Block
  deriving DecidableEq, Repr

/-- The plane that a launch of the aperture makes live: the admitted change, else the present plane of a HALTED aperture (R94). -/
def Dev.relaunch (d : Dev) (a : Nat) : Relaunch :=
  let p := d.ap a
  { a := a
    wasLive := decide (p.state = 3)
    old := if 3 ≤ p.state then p.live else []
    new := if p.state = 2 ∨ p.changeAdmitted then p.admitted else p.live }

/-- The block of the old plane, when it was live. -/
def Relaunch.before (r : Relaunch) (type u : Nat) : Option Block := if r.wasLive then planeBlock r.old type u else none

/-- The launch installs the block or changes it, or its aperture goes LIVE. -/
def Relaunch.changes (r : Relaunch) (b : Block) : Bool := decide (r.before b.type b.unit ≠ some b)

/-- The blocks of a type that the launch removes. -/
def Relaunch.removed (r : Relaunch) (type : Nat) : List Block :=
  (planeOf r.old type).filter (fun b => (planeBlock r.new type b.unit).isNone)

/-- The planes by which rates stand at a launch: live planes, and admitted ones of apertures that have none. -/
def Dev.livePlanes (d : Dev) : Planes :=
  (d.aps.filter (fun (p : Nat × Aperture) => decide (2 ≤ p.2.state))).map (fun (p : Nat × Aperture) =>
    (p.1, if p.2.state = 2 then p.2.admitted else p.2.live))

/-- The new plane is live from the tick (R94, R139). A change staged since stays staged. -/
def Dev.installPlane (d : Dev) (t : Nat) (r : Relaunch) : Dev :=
  d.updAp r.a (fun p => { p with
    live := r.new
    admitted := r.new
    staged := if p.changeStaged then p.staged else r.new
    changeAdmitted := false
    launch := none
    lastLaunch := t
    state := 3
    since := t })

/-! ### Calibration sweeps (R614) -/

/-- The converters, as a mask, whose streams a channel of the plane takes, directly or through its parent. -/
def planeConverters (plane : List Block) : Nat :=
  ((List.range 4).map (fun k =>
    if (planeOf plane 0x02).any (fun b => !(chLoupe b.words) && decide (chSource b.words = 240 + k)) then 2 ^ k else 0)).sum

/-- A launch that makes a channel of a swept converter LIVE ends the sweep: its samples carry poison until 600 ticks later (R614). -/
def Dev.abortSweep (d : Dev) (conv : Nat) : Dev :=
  match d.mc.sweep with
  | some s =>
    if s.conv &&& conv = 0 then d
    else
      let d := { d with
        mc := { d.mc with sweep := none, tail := some (s.conv, d.cyc + 600) }
        pwr := { d.pwr with synths := d.pwr.synths.filter (fun x => decide (x ≠ 7)) } }
      d.finish .calSweep { status := efsAborted, detail := 4 }
  | none => d

/-! ### Routes (R156, R186, R227) -/

/-- A change of only the DEST mask or DRIFT is no change of the stream (R227). -/
def routeKeeps (old new : List Word) : Bool :=
  decide (old.length = new.length) && ((old.zip new).zipIdx.all (fun (p : (Word × Word) × Nat) =>
    decide (p.2 = 4 ∨ p.2 = 5) || (if p.2 = 6 then decide (p.1.1.fld 15 0 = p.1.2.fld 15 0) else decide (p.1.1 = p.1.2))))

/-- A new route's link starts unaligned, unless another stream in force uses it with the same fields (R168). -/
def Dev.linkFor (d : Dev) (s : Nat) (w : List Word) : Dev :=
  if rtKind w ≠ 1 then d
  else
    let same := (d.streamsOfLink (rtLink w)).any (fun s' => decide (s' ≠ s) && (match (d.stream s').rt with
      | some v => decide (dwAt v 0x1C = dwAt w 0x1C ∧ dwAt v 0x20 = dwAt w 0x20 ∧ dwAt v 0x24 = dwAt w 0x24)
      | none => false))
    if same then d else d.setJlink (rtLink w) { rate := (d.jlink (rtLink w)).rate }

/-- The links of the routes that apertures have in force take their rates (R607). -/
def Dev.retuneLinks (d : Dev) (check t : Nat) (as_ : List Nat) : Dev :=
  as_.foldl (fun (d : Dev) a => (planeOf (d.ap a).live 0x01).foldl (fun (d : Dev) b =>
    if rtKind b.words = 1 then d.retuneLink check t (rtLink b.words) (rtMbps b.words) else d) d) d

/-- A route comes into force (R186): the stream waits for its first sample. Samples already in the Splitter are delivered. -/
def Dev.freshRoute (d : Dev) (a t : Nat) (b : Block) : Dev :=
  let ain := decide (rtKind b.words = 2)
  let d := d.linkFor b.unit b.words
  d.setStream b.unit { (d.stream b.unit).left t with
    state := 1
    route := some (a, b)
    base := if ain then (t : Int) - 132 else t
    lastGood := d.cyc }

/-- The routes of a launch: the device, the streams that start afresh, and those withdrawn: stream, last rate, clusters that lose it. -/
structure RouteWork where
  dev : Dev
  fresh : List Nat := []
  lost : List (Nat × Nat × Nat) := []

/-- One route of a launched plane. -/
def RouteWork.install (y : RouteWork) (a t : Nat) (b : Block) : RouteWork :=
  let x := y.dev.stream b.unit
  match x.rt with
  | some w =>
    if routeKeeps w b.words then
      { y with dev := y.dev.setStream b.unit { x with route := some (a, b), leaving := if rtDest w = rtDest b.words then x.leaving else (x.left t).leaving }
               lost := y.lost ++ [(b.unit, rtRate w, rtDest w &&& (rtDest b.words ^^^ (2 ^ 64 - 1)))] }
    else { y with dev := y.dev.freshRoute a t b, fresh := b.unit :: y.fresh, lost := y.lost ++ [(b.unit, rtRate w, rtDest w &&& (rtDest b.words ^^^ (2 ^ 64 - 1)))] }
  | none => { y with dev := y.dev.freshRoute a t b, fresh := b.unit :: y.fresh }

/-- One route that a launch removes (R186). -/
def RouteWork.remove (y : RouteWork) (t : Nat) (b : Block) : RouteWork :=
  match (y.dev.stream b.unit).rt with
  | some w => { y with dev := y.dev.clearRoute b.unit t, lost := y.lost ++ [(b.unit, rtRate w, rtDest w)] }
  | none => y

/-- The routes of every launched plane; then every pad takes its mode (R156). -/
def Dev.launchRoutes (d : Dev) (t : Nat) (rs : List Relaunch) : RouteWork :=
  let y := rs.foldl (fun (y : RouteWork) r => (r.removed 0x01).foldl (fun y b => y.remove t b) y) { dev := d }
  let y := rs.foldl (fun (y : RouteWork) r => (planeOf r.new 0x01).foldl (fun y b => y.install r.a t b) y) y
  { y with dev := y.dev.setPads.retrimAll }

/-! ### Frame sequences (R260–R262) -/

/-- A of the sequence that the channel will have had before a break, 0 when it has none. -/
def Chan.lastAllowance (x : Chan) : Nat :=
  match x.framesNext.getLast? with
  | some (_, some f) => f.a
  | some (_, none) => 0
  | none => match x.frames with | some f => f.a | none => 0

/-- Where firmware places staging: the code in force for the launch, and the lines of region 0 in use, by rising first line (R239, R392). -/
structure StagePlace where
  light : Bool
  used : List (Nat × Nat)
  deriving DecidableEq, Repr

/-- The lowest `n` free lines at or after a line, beside those in use (assumption 120). -/
def takeLines : Nat → Nat → List (Nat × Nat) → List (Nat × Nat)
  | n, at_, [] => if n = 0 then [] else [(at_, n)]
  | n, at_, (b, l) :: t =>
    if n = 0 then []
    else if at_ < b then (at_, min n (b - at_)) :: takeLines (n - min n (b - at_)) (b + l) t
    else takeLines n (max at_ (b + l)) t

/-- The ring in which the next sequence lies: the newest one where it has the size, else one newly placed (R34, R239). -/
def Chan.ringFor (x : Chan) (p : StagePlace) (n hop : Nat) : Chan × Nat :=
  match x.rings.getLast? with
  | some r => if r.n = n ∧ r.hop = hop then (x, r.no) else
    ({ x with rings := x.rings ++ [{ no := x.ringNo, n := n, hop := hop, light := p.light, lines := takeLines ((n + hop) / 4) 0 p.used }], ringNo := x.ringNo + 1 }, x.ringNo)
  | none =>
    ({ x with rings := [{ no := x.ringNo, n := n, hop := hop, light := p.light, lines := takeLines ((n + hop) / 4) 0 p.used }], ringNo := x.ringNo + 1 }, x.ringNo)

/-- The new sequence of a break at tick `t` (R262). -/
def Chan.breakFrames (x : Chan) (p : StagePlace) (t : Nat) (b : Block) (fch : Frac) : Chan :=
  let span := (ticksAt (Frac.ofInt (tfN b.words : Nat)) fch).ceil.toNat
  let y := x.ringFor p (tfN b.words) (tfHop b.words)
  let f : FrameSeq := { block := b, a := readAllowance b.words fch, from_ := t + (x.lastAllowance - span), fch := fch, ring := y.2 }
  { y.1 with framesNext := y.1.framesNext ++ [(t, some f)] }

/-- The sequence ends at tick `t`. -/
def Chan.endFrames (x : Chan) (t : Nat) : Chan :=
  if x.frames.isSome || !x.framesNext.isEmpty then { x with framesNext := x.framesNext ++ [(t, none)] } else x

/-- New settings for the sequence that stands at tick `t` (R260). -/
def Chan.retuneFrames (x : Chan) (t : Nat) (b : Block) : Chan :=
  match x.framesNext.reverse with
  | (u, some f) :: rest => { x with framesNext := rest.reverse ++ [(u, some { f with next := f.next ++ [(t, b)] })] }
  | _ => { x with frames := x.frames.map (fun f => { f with next := f.next ++ [(t, b)] }) }

/-- The frame sequence of a channel at a launch: `switched` is a channel switch. -/
def Chan.launchFrames (x : Chan) (p : StagePlace) (t : Nat) (switched : Bool) (old new : Option Block) (fch : Frac) : Chan :=
  match new with
  | none => if old.isSome then x.endFrames t else x
  | some b =>
    match old with
    | none => x.breakFrames p t b fch
    | some o =>
      if switched || decide (tfN o.words ≠ tfN b.words ∨ tfHop o.words ≠ tfHop b.words) then x.breakFrames p t b fch
      else if o.words ≠ b.words then x.retuneFrames t b
      else x

/-- STAGE_CODE as it stood before the present tick, and the lines in use. -/
def Dev.stagePlace (d : Dev) : StagePlace :=
  { light := match d.cmc.stageWas with
      | some (t, was) => if t = d.cyc then was else decide (d.fld 0x510000 0 0 = 1)
      | none => decide (d.fld 0x510000 0 0 = 1)
    used := sortBy (fun p => p.1) (d.chans.flatMap (fun p => p.2.rings.flatMap (fun r => r.lines))) }

/-- A channel after its launch; a ring newly placed gives region 0 its code (R421). -/
def Dev.putLaunched (d : Dev) (c : Nat) (x : Chan) : Dev :=
  let d' := if x.ringNo = (d.chan c).ringNo then d else d.setRegion 0 { d.region 0 with light := d.stagePlace.light }
  d'.setChan c x

/-! ### Channels (R206, R208, R227–R229) -/

/-- FCH_KCS (R222). -/
def Dev.setFch (d : Dev) (c : Nat) (f : Frac) : Dev := d.setReg (chanReg c 0x18) (BitVec.ofNat 32 f.ceil.toNat)

/-- A channel goes live for the first time, or after a halt (R227). -/
def Chan.first (x : Chan) (t : Nat) (b : Block) (fin : Frac) : Chan :=
  { x with
    next := x.next ++ [(t, some (Chain.fresh b fin t))]
    state := 1
    switchAt := t
    shadow := none
    shadowIn := []
    cross := none
    withdrawn := none
    gap := none }

/-- A switch to nothing: APERTURE_HALT, or a launch that removes the channel (R227). -/
def Chan.toNothing (x : Chan) (t : Nat) : Chan :=
  { x.endFrames t with
    next := x.next ++ [(t, none)]
    state := 0
    gap := none
    shadow := if x.cross.isSome then x.shadow else none
    shadowIn := if x.cross.isSome then x.shadowIn else [] }

/-- The shadow chain takes over at tick `t` without a gap (R228, R229). -/
def Chan.settled (x : Chan) (t : Nat) (b : Block) (fin : Frac) (old : Block) : Bool :=
  match x.shadow with
  | some (ch, start, ok) =>
    let sameInput := decide (chSource old.words = chSource b.words ∧ chParent old.words = chParent b.words) && (chLoupe old.words == chLoupe b.words)
    x.cross.isNone && x.next.isEmpty && decide (ch.block = b ∧ ch.fin = fin) && (ok || sameInput) &&
      Frac.le (Frac.mul (Frac.ofInt 2) (chGroupDelay b.words fin)) (Frac.ofInt (t - start : Nat))
  | none => false

/-- Ticks by which the shadow chain falls short of its settling (R229). -/
def Chan.shortOf (x : Chan) (t : Nat) (b : Block) (fin : Frac) : Nat :=
  let start := match x.shadow with | some (_, s, _) => s | none => t
  (Frac.mul (Frac.ofInt 2) (chGroupDelay b.words fin)).ceil.toNat - (t - start)

/-- A live channel switches at tick `t`: settled, or in the normal way. -/
def Chan.switch (x : Chan) (t : Nat) (b : Block) (fin : Frac) (settled gap : Bool) : Chan :=
  if settled then
    { x with cross := some t, shadow := x.shadow.map (fun (s : Chain × Nat × Bool) => (s.1, s.2.1, true)) }
  else
    { x with
      next := x.next ++ [(t, some (Chain.fresh b fin t))]
      state := 1
      switchAt := t
      shadow := if x.cross.isSome then x.shadow else none
      shadowIn := if x.cross.isSome then x.shadowIn else []
      withdrawn := none
      gap := if gap then some t else x.gap }

/-- A channel of a LIVE plane at a launch: the device, and the channels switched so far. `r` is the launch of its aperture, if it is in
it; `fresh` names the streams whose routes start afresh. -/
def Dev.launchChannel (d : Dev) (ps : Planes) (t : Nat) (plane : List Block) (r : Option Relaunch) (fresh switched : List Nat) (b : Block) : Dev × List Nat :=
  let c := b.unit
  let w := b.words
  let x := d.chan c
  let old := match r with | some r => r.before 0x02 c | none => some b
  let oldTf := match r with | some r => r.before 0x03 c | none => planeBlock plane 0x03 c
  let fin := (ps.fin plane c w).getD (match x.live with | some ch => ch.fin | none => ⟨0, 1⟩)
  let fch := chRate w fin
  let tf := planeBlock plane 0x03 c
  match old with
  | none =>
    ((d.putLaunched c ((x.first t b fin).launchFrames d.stagePlace t true oldTf tf fch)).setFch c fch, switched)
  | some o =>
    let changed := decide (o.words ≠ w)
    let retimed := !(chLoupe w) && fresh.contains (chSource w)
    let again := x.withdrawn.isSome && d.inputNow c w
    let parent := chLoupe w && switched.contains (8 * (c / 8) + chParent w)
    if changed || retimed || again || parent then
      let settled := changed && !retimed && !again && !parent && chSettle o.words && chSettle w && x.settled t b fin o
      let d := (d.putLaunched c ((x.switch t b fin settled parent).launchFrames d.stagePlace t true oldTf tf fch)).setFch c fch
      let d := if changed && chSettle o.words && chSettle w && !settled then d.raiseAt (evChannel + c) (freeSev (evChannel + c)) c 2 (BitVec.ofNat 64 (x.shortOf t b fin)) (BitVec.ofNat 64 t) else d
      let d := if parent then d.raiseAt (evChannel + c) (freeSev (evChannel + c)) c 4 (BitVec.ofNat 64 (8 * (c / 8) + chParent w)) (BitVec.ofNat 64 t) else d
      (d, c :: switched)
    else (d.putLaunched c (x.launchFrames d.stagePlace t false oldTf tf fch), switched)

/-- The channels of every LIVE aperture at a launch, parents before their children; answers the live channels that switched. -/
def Dev.launchChannels (d : Dev) (t : Nat) (rs : List Relaunch) (fresh : List Nat) : Dev × List Nat :=
  let ps := d.livePlanes
  let live := d.aps.filter (fun (p : Nat × Aperture) => decide (p.2.state = 3))
  let pass (loupe : Bool) (y : Dev × List Nat) : Dev × List Nat :=
    live.foldl (fun y (p : Nat × Aperture) =>
      ((planeOf p.2.live 0x02).filter (fun b => chLoupe b.words == loupe)).foldl (fun (y : Dev × List Nat) b =>
        y.1.launchChannel ps t p.2.live (rs.find? (fun r => decide (r.a = p.1))) fresh y.2 b) y) y
  let d := rs.foldl (fun d r => (r.removed 0x02).foldl (fun (d : Dev) b =>
    (d.setChan b.unit ((d.chan b.unit).toNothing t)).setFch b.unit ⟨0, 1⟩) d) d
  let y := pass true (pass false (d, []))
  (rs.foldl (fun d r => (planeOf r.new 0x02).foldl (fun (d : Dev) b => (d.setReg64 (chanReg b.unit 0x10) 0).setReg64 (xformReg b.unit 0x00) 0) d) y.1, y.2)

/-! ### Triggers (R279, R288, R293, R300, R302) -/

/-- The combiner takes nothing more: its aperture is halted, or its block removed. -/
def Combiner.off (x : Combiner) : Combiner :=
  { x with from_ := 2 ^ 64, held := [], seq := {}, prov := x.prov.map (fun p => { p with restore := false }) }

/-- A combiner starts under a block at tick `t` (R293). -/
def Combiner.on (x : Combiner) (t : Nat) (b : Block) : Combiner :=
  { x with block := some b, from_ := t, held := [], seq := {}, prov := x.prov.map (fun p => { p with restore := false }) }

/-- A trigger output under a block (R300, R302). -/
def TrigOut.on (x : TrigOut) (b : Block) : TrigOut :=
  { x with block := some b, num := if toMode b.words = 2 then 0 else x.num }

/-- The trigger units of a launched plane; `switched` names the channels that switched. -/
def Dev.launchTriggers (d : Dev) (t : Nat) (switched : List Nat) (r : Relaunch) : Dev :=
  let d := (r.removed 0x04).foldl (fun (d : Dev) b => d.setLe b.unit { d.leUnit b.unit with next := (d.leUnit b.unit).next ++ [(t, none)] }) d
  let d := (r.removed 0x05).foldl (fun (d : Dev) b => d.setMask b.unit { d.mask b.unit with next := (d.mask b.unit).next ++ [(t, none)] }) d
  let d := (r.removed 0x06).foldl (fun (d : Dev) b => (d.setComb b.unit (d.comb b.unit).off).combStat b.unit) d
  let d := (r.removed 0x07).foldl (fun (d : Dev) b => d.setTo b.unit { d.to b.unit with block := none }) d
  let d := (planeOf r.new 0x04).foldl (fun (d : Dev) b =>
    if r.changes b || switched.contains b.unit then d.setLe b.unit { d.leUnit b.unit with next := (d.leUnit b.unit).next ++ [(t, some b)] } else d) d
  let d := (planeOf r.new 0x05).foldl (fun (d : Dev) b =>
    if r.changes b then d.setMask b.unit { d.mask b.unit with next := (d.mask b.unit).next ++ [(t, some b)] } else d) d
  let d := (planeOf r.new 0x06).foldl (fun (d : Dev) b =>
    if r.changes b then (d.setComb b.unit ((d.comb b.unit).on t b)).combStat b.unit else d) d
  (planeOf r.new 0x07).foldl (fun (d : Dev) b => if r.changes b then d.setTo b.unit ((d.to b.unit).on b) else d) d

/-- The LE units of other apertures whose channels a launch switched start afresh too (R279). -/
def Dev.relaunchLe (d : Dev) (t : Nat) (rs : List Relaunch) (switched : List Nat) : Dev :=
  (d.aps.filter (fun (p : Nat × Aperture) => decide (p.2.state = 3) && rs.all (fun r => decide (r.a ≠ p.1)))).foldl (fun d (p : Nat × Aperture) =>
    ((planeOf p.2.live 0x04).filter (fun b => switched.contains b.unit)).foldl (fun (d : Dev) b =>
      d.setLe b.unit { d.leUnit b.unit with next := (d.leUnit b.unit).next ++ [(t, some b)] }) d) d

end Sys2Proof.Machine
end

