-- ==== Sys2Proof/Machine/Takeover.lean ====
section
/-!
DEFINITION. The units that spares stand in for (R411), and the ticks of the launches that firmware makes for itself (R140).
-/

namespace Sys2Proof.Machine

/-- The unit that replaced a retired one. -/
def Dev.replacedBy (d : Dev) (kind unit : Nat) : Option Nat :=
  match d.spares.retired.find? (fun (r : Retired) => decide (r.kind = kind ∧ r.unit = unit)) with
  | some r => r.spare
  | none => none

/-- The physical unit that serves a unit's place now. A spare can be replaced once more, so two steps suffice. -/
def Dev.servedBy (d : Dev) (kind unit : Nat) : Nat :=
  match d.replacedBy kind unit with
  | some s => match d.replacedBy kind s with | some t => t | none => s
  | none => unit

/-- The place that a physical unit serves, of `n` places. -/
def Dev.placeOf (d : Dev) (kind unit n : Nat) : Option Nat := (List.range n).find? (fun p => decide (d.servedBy kind p = unit))

/-! ### Frame boundaries (R140) -/

/-- The frame boundaries of a unit, as one of them and the ticks between two: the frames or multiblocks of a receiver's lane, and the frames of a
channel unit. None where the unit has no frames of its own, or none has come (assumption 55). -/
def Dev.boundaries (d : Dev) (kind unit : Nat) : Option (Frac × Frac) :=
  match kind with
  | 0 =>
    (List.range 96).findSome? (fun p =>
      if (d.pad p).rx ≠ unit then none
      else d.streams.findSome? (fun (s : Nat × Stream) => match s.2.rt with
        | some w =>
          if !((routePads w).contains p) then none
          else if rtKind w = 0 then s.2.lastGroup.map (fun g => (Frac.ofInt ((d.now : Int) - (d.cyc - g.2 : Nat)), Frac.ofInt 144))
          else (d.jlink (rtLink w)).lemc.map (fun l => (Frac.ofInt l, Frac.norm ⟨rtE w * 2112 * 3000, rtMbps w⟩))
        | none => none))
  | 4 =>
    match d.placeOf 4 unit 512 with
    | none => none
    | some c => match (d.chan c).frames with
      | none => none
      | some f => match f.last with
        | none => none
        | some t =>
          let hop := tfHop f.block.words
          let left := (hop - (f.count - 1) % hop) % hop
          some (Frac.add t (ticksAt (Frac.ofInt (left : Nat)) f.fch), ticksAt (Frac.ofInt (hop : Nat)) f.fch)
  | _ => none

/-- The first frame boundary at or after tick `t`. -/
def boundaryFrom (b : Option (Frac × Frac)) (t : Nat) : Nat :=
  match b with
  | none => t
  | some (o, per) =>
    if per.num ≤ 0 then t
    else (Frac.add o (Frac.mul per (Frac.ofInt (Frac.div (Frac.sub (Frac.ofInt t) o) per).ceil))).ceil.toNat

/-! ### Launch ticks of firmware's own (R140) -/

/-- A block of a plane is served by a unit. -/
def Dev.blockOn (d : Dev) (kind unit : Nat) (b : Block) : Bool :=
  match kind with
  | 0 => decide (b.type = 1) && (routePads b.words).any (fun p => decide ((d.pad p).rx = unit))
  | 1 => decide (b.type = 1 ∧ b.unit = 240 + unit / 65)
  | 2 => decide (b.type = 3 ∧ b.unit / 64 = (d.engine (unit / 9)).sector)
  | 3 => decide (b.type = 3 ∧ b.unit / 64 = (d.engine unit).sector)
  | 4 => decide (b.type = 2) && decide (d.servedBy 4 b.unit = unit)
  | 5 => decide (b.type = 0x0C) && decide (d.tpPhys b.unit = unit)
  | _ => false

/-- The ticks of the pending launches that name an aperture which owns a unit. -/
def Dev.ownerTicks (d : Dev) (kind unit : Nat) : List Nat :=
  d.glob.launches.filterMap (fun (l : Launch) =>
    if l.apertures.any (fun a => (d.ap a).live.any (d.blockOn kind unit) || (d.ap a).admitted.any (d.blockOn kind unit)) then l.tick else none)

/-- The first boundary from tick `t` on that is none of the taken ticks. -/
def freeBoundary (b : Option (Frac × Frac)) (taken : List Nat) : Nat → Nat → Nat
  | 0, t => boundaryFrom b t
  | n + 1, t => if taken.contains (boundaryFrom b t) then freeBoundary b taken n (boundaryFrom b t + 1) else boundaryFrom b t

/-- The launch tick of a take-over: a frame boundary of the unit replaced at or after the device lead, at which no launch of an aperture that owns
the unit is pending (R140). -/
def Dev.takeoverTick (d : Dev) (kind unit : Nat) : Nat :=
  let taken := d.ownerTicks kind unit
  freeBoundary (d.boundaries kind unit) taken taken.length (d.now + scopeLead 0)

/-! ### Lockstep spans (R411) -/

/-- The ticks of one frame of a channel, 0 when it makes none. -/
def Dev.frameSpan (d : Dev) (c : Nat) : Nat :=
  match (d.chan c).frames with
  | some f => (ticksAt (Frac.ofInt (tfN f.block.words : Nat)) f.fch).ceil.toNat
  | none => 0

def maxOf (xs : List Nat) : Nat := xs.foldl max 0

/-- The channels that the KIND 1 and KIND 2 feeds of a trace processor's binding name (R473, R488). -/
def Dev.boundChannels (d : Dev) (n : Nat) : List Nat :=
  match (d.tp n).bind with
  | some b => (List.range 8).filterMap (fun f => if tbKind b.2.words f = 1 ∨ tbKind b.2.words f = 2 then some (tbSource b.2.words f) else none)
  | none => []

/-- The ticks for which a spare runs beside its unit before their outputs are compared (R411, R488): for the rest of the kinds, no time is given. -/
def Dev.lockSpan (d : Dev) (t : Takeover) : Nat :=
  match t.kind with
  | 0 =>
    match (List.range 96).find? (fun p => decide ((d.pad p).rx = t.unit ∧ (d.pad p).mode = 2)) with
    | some p => maxOf ((d.linksOfPad p).map (fun l => match d.linkRoute l with | some w => lemcPeriod w | none => 0))
    | none => 144
  | 1 => 32768
  | 2 => maxOf ((List.range 64).map (fun i => d.frameSpan (64 * (d.engine (t.unit / 9)).sector + i)))
  | 3 => maxOf ((List.range 64).map (fun i => d.frameSpan (64 * (d.engine t.unit).sector + i)))
  | 4 => match d.placeOf 4 t.unit 512 with | some c => d.frameSpan c | none => 0
  | 5 =>
    match (List.range 32).find? (fun n => decide (d.tpPhys n = t.unit)) with
    | some n => if (d.boundChannels n).isEmpty then 3000000 else maxOf ((d.boundChannels n).map d.frameSpan)
    | none => 3000000
  | 7 => 9000
  | 9 => 3000000
  | _ => 0

/-- The take-overs whose tick a pending launch has come to share move to their next boundary (R140). -/
def Dev.avoidLaunches (d : Dev) : Dev :=
  { d with spares := { d.spares with running := d.spares.running.map (fun (t : Takeover) => match t.launch with
      | some u => if (d.ownerTicks t.kind t.unit).contains u then { t with launch := some (d.takeoverTick t.kind t.unit) } else t
      | none => t) } }

/-- The launch tick of new coefficients: the first of the device lead at which no launch is pending (assumption 55). -/
def Dev.ownTick (d : Dev) : Nat :=
  let taken := d.glob.launches.filterMap (fun (l : Launch) => l.tick)
  freeBoundary none taken taken.length (d.now + scopeLead 0)

end Sys2Proof.Machine
end

