-- ==== Sys2Proof/Machine/Launch.lean ====
section
/-!
DEFINITION. Launches: what a launch tick does to the units beyond the data path and to the acquisition (R139, R143, R144, R293, R302,
R345, R346, R350, R351, R365, R436, R487, R497, R514, R546), and the halt of an aperture (R186, R227, R343, R354, R437, R487, R497).
-/

namespace Sys2Proof.Machine

/-! ### Markers (R497) -/

/-- A marker block is installed or changed at tick `t`. -/
def Dev.launchMarker (d : Dev) (a t : Nat) (b : Block) : Dev :=
  let d := d.cutStart b.unit
  let x := d.marker b.unit
  d.setMarker b.unit { x with block := some (a, b), running := true, from_ := t, seq := 0, old := x.live }

/-- A marker block leaves the live plane: entries queued, and those on their way, stay. -/
def Dev.stopMarker (d : Dev) (n : Nat) : Dev :=
  let d := d.cutStart n
  d.setMarker n { d.marker n with block := none, running := false, old := none }

/-! ### Density feeds (R436) -/

/-- The change clears the plane. -/
def feedClears (old new : List Word) : Bool :=
  feedMoves old new || decide (dfX0 old ≠ dfX0 new ∨ dfXBins old ≠ dfXBins new ∨ dfYTop old ≠ dfYTop new ∨ dfYStep old ≠ dfYStep new) ||
    decide ((List.range 16).any (fun w => decide (dwAt old (0x30 + 4 * w) ≠ dwAt new (0x30 + 4 * w))))

/-- The areas of one owner of a region become another owner's. -/
def Dev.reown (d : Dev) (region old new : Nat) : Dev :=
  d.updCmc (fun c => { c with allocs := c.allocs.map (fun (x : Alloc) => if x.region = region ∧ x.owner = old then { x with owner := new } else x) })

/-- The buffers placed at the admission take over. -/
def Dev.moveFeed (d : Dev) (p : Nat) : Dev :=
  let x := d.feed p
  match x.nextBufs with
  | some bs => (((d.unplace 5 p).reown 5 (8 + p) p).setFeed p { x with bufs := bs, nextBufs := none }).layersNone p
  | none => d

/-- A feed block at a launch at tick `t`. -/
def Dev.launchFeed (d : Dev) (a t : Nat) (b : Block) : Dev :=
  let p := b.unit
  let clears := match (d.feed p).block with | some (_, o) => feedClears o.words b.words | none => true
  let d := d.moveFeed p
  let d := if clears then (d.facetHeal 1 (p * 2 ^ 22) (2 ^ 22)).setFeed p { d.feed p with cells := [], cleared := t, old := none }
    else d.setFeed p { d.feed p with old := (d.feed p).block.map (fun o => o.2.words) }
  (d.setFeed p { d.feed p with block := some (a, b), running := true, start := t, nextRender := 0, rendering := none, nextSweep := 1 }).setReg (feedReg p 0x00) 0

/-- A feed that its aperture no longer has (R437). -/
def Dev.dropFeed (d : Dev) (p : Nat) : Dev := (((d.layersNone p).unplace 5 p).unplace 5 (8 + p)).setFeed p {}

/-! ### Exports and Relay (R514, R546) -/

/-- An export block at a launch: the shadow set written at its admission swaps in at the next packet boundary. -/
def launchExport (t c : Nat) (x : Dev × Mems) : Dev × Mems :=
  let e := x.1.dmaCh c
  match e.shadow with
  | some _ => exportSwap c (x.1.setDma c { e with swapAt := some t }, x.2)
  | none => x

/-- A Relay block at a launch: the stream runs from chunk 0, and its drives are streaming. -/
def Dev.launchRelay (d : Dev) (a : Nat) (plane : List Block) (b : Block) : Dev :=
  let ring := match planeBlock plane 0x0D (rlChan b.words) with | some x => ((exBase x.words).toNat, 2 ^ exHostLog x.words) | none => (0, 0)
  let d := { d with relays := Tbl.put b.unit { ({} : RelayStream) with block := some (a, b), running := true, base := ring.1, size := ring.2 } d.relays }
  (rlDrives b.words).foldl (fun (d : Dev) s =>
    { d with drives := Tbl.put s { Tbl.look ({} : DriveSlot) d.drives s with state := 2 } d.drives }) d

/-! ### The units of a plane -/

/-- Markers, feeds, bindings, exports and Relay streams of a launched plane. -/
def launchUnits (t : Nat) (r : Relaunch) (x : Dev × Mems) : Dev × Mems :=
  let d := x.1
  let d := (r.removed 0x08).foldl (fun (d : Dev) b => d.stopMarker b.unit) d
  let d := (r.removed 0x0B).foldl (fun (d : Dev) b => d.dropFeed b.unit) d
  let d := (r.removed 0x0C).foldl (fun (d : Dev) b => d.bindRelease b.unit) d
  let d := (r.removed 0x0D).foldl (fun (d : Dev) b => ((d.unplace (16 + r.a) (100 + b.unit)).unplace (16 + r.a) (200 + b.unit)).setDma b.unit {}) d
  let d := (r.removed 0x0E).foldl (fun (d : Dev) b => d.stopRelay b.unit true) d
  let d := (planeOf r.new 0x08).foldl (fun (d : Dev) b => if r.changes b then d.launchMarker r.a t b else d) d
  let d := (planeOf r.new 0x0B).foldl (fun (d : Dev) b => if r.changes b then d.launchFeed r.a t b else d) d
  let d := (planeOf r.new 0x0C).foldl (fun (d : Dev) b =>
    if decide ((d.tp b.unit).bind ≠ some (r.a, b)) then d.bindLaunch r.a b.unit b
    else if r.changes b then d.setTp b.unit { d.tp b.unit with feedsOn := true, from_ := t } else d) d
  let x := (planeOf r.new 0x0D).foldl (fun x b => launchExport t b.unit x) (d, x.2)
  ((planeOf r.new 0x0E).foldl (fun (d : Dev) b => if r.changes b then d.launchRelay r.a r.new b else d) x.1, x.2)

/-! ### Acquisition (R345, R346, R350, R351) -/

/-- Where a sub-ring stands in its interval: outputs of its channel since the break, modulo LEN (R324). -/
def Dev.phaseOf (d : Dev) (r : SubRing) (w : List Word) (level : Nat) : Acc := { n := (d.chan r.ch).since % rdLen w level }

/-- The sub-rings as the launch leaves them: those placed at admission, or the present ones, at the present rates and level. -/
def Dev.ringsAt (d : Dev) (p : Aperture) (ps : Planes) : List SubRing :=
  (ps.layout p.live p.rateLevel).map (fun (r : SubRing) =>
    let acc := match p.reduction r.slot with | some w => d.phaseOf r w p.rateLevel | none => {}
    let same (o : SubRing) : Bool := decide (o.slot = r.slot ∧ o.ch = r.ch)
    let was := p.acq.subs.find? same
    let stage := match was with | some o => o.stage | none => {}
    match p.acq.nextLayout with
    | some l => { r with acc := acc, stage := stage, base := (match l.1.find? same with | some o => o.base | none => 0), q := (match l.1.find? same with | some o => o.q | none => r.q) }
    | none =>
      match was with
      | some o => { r with acc := acc, stage := stage, base := o.base, q := o.q, slice := o.slice }
      | none => { r with acc := acc })

/-- A new sequence of aperture `a` by a launch at tick `t`. -/
def Dev.launchAcq (d : Dev) (t a : Nat) : Dev :=
  let p := d.ap a
  let rings := d.ringsAt p d.livePlanes
  let d := match p.acq.nextLayout with
    | some l =>
      let d := (d.unplace (16 + a) 0).reown (16 + a) 1 0
      d.updAcq a (fun (q : Acq) => { q with listed := [], slice := 0, wrote := false, mirrorBase := l.2, nextLayout := none })
    | none => d
  let d := d.updAcq a (fun (q : Acq) => { q with subs := rings })
  (d.discardCandidates a).startSequenceAt a t

/-- The rate levels that the launch gives (R350, R351): answers the apertures whose level changed, and those that no level fits. -/
def Dev.launchLevels (d : Dev) : Dev × List Nat × List Nat :=
  let ps := d.standingPlanes
  (d.levels ps).foldl (fun (y : Dev × List Nat × List Nat) (x : Nat × Option Nat) =>
    let p := y.1.ap x.1
    if p.state ≠ 3 then y
    else match x.2 with
      | some k =>
        if k = p.rateLevel then y
        else
          let bw := (Frac.add (ps.captureRate p.live k) (planeOtherRate p.live)).ceil.toNat
          let d := y.1.updAp x.1 (fun p => { p with rateLevel := k, schedBps := bw })
          (d.raise evRateReduced x.1 (k + 16 * p.rateLevel) bw, y.2.1 ++ [x.1], y.2.2)
      | none => (y.1, y.2.1, y.2.2 ++ [x.1])) (d, [], [])

/-- The static schedule of the LIVE apertures comes into force at the next period boundary (R365). Its most slots in a period are
⌈T × 180 / (30.72 GB/s × P)⌉, T the total of sum 5 (R551). -/
def Dev.compileSchedule (d : Dev) (t : Nat) : Dev :=
  let ps := d.livePlanes
  let live := d.aps.filter (fun (p : Nat × Aperture) => decide (p.2.state = 3))
  let bytes := (live.map (fun (p : Nat × Aperture) =>
    Frac.add (ps.sum5 p.2.live) (if planeCompat p.2.live then ps.captureRate p.2.live p.2.rateLevel else ⟨0, 1⟩))).foldl Frac.add ⟨0, 1⟩
  d.updCmc (fun c => { c with schedNext := some (t, ceilDiv (bytes.ceil.toNat * 3) (512000000 * c.p)) })

/-! ### Halts -/

/-- The units of a plane stop at tick `t`; its routes stay in force (R186, R437, R487, R497). -/
def Dev.haltUnits (d : Dev) (t : Nat) (plane : List Block) : Dev :=
  let d := (planeOf plane 0x02).foldl (fun (d : Dev) b => (d.setChan b.unit ((d.chan b.unit).toNothing t)).setFch b.unit ⟨0, 1⟩) d
  let d := (planeOf plane 0x04).foldl (fun (d : Dev) b => d.setLe b.unit { d.leUnit b.unit with next := (d.leUnit b.unit).next ++ [(t, none)] }) d
  let d := (planeOf plane 0x05).foldl (fun (d : Dev) b => d.setMask b.unit { d.mask b.unit with next := (d.mask b.unit).next ++ [(t, none)] }) d
  let d := (planeOf plane 0x06).foldl (fun (d : Dev) b => (d.setComb b.unit (d.comb b.unit).off).combStat b.unit) d
  let d := (planeOf plane 0x07).foldl (fun (d : Dev) b => d.setTo b.unit { d.to b.unit with block := none }) d
  let d := (planeOf plane 0x08).foldl (fun (d : Dev) b => d.setMarker b.unit { d.marker b.unit with running := false }) d
  let d := (planeOf plane 0x0B).foldl (fun (d : Dev) b => d.setFeed b.unit { d.feed b.unit with running := false, rendering := none }) d
  let d := (planeOf plane 0x0C).foldl (fun (d : Dev) b => d.bindHalt b.unit) d
  (planeOf plane 0x0E).foldl (fun (d : Dev) b => d.stopRelay b.unit true) d

/-- A LIVE aperture is halted at tick `t` with a cause of R354: its record in post-fill is cut, candidates it holds are discarded. -/
def haltAperture (a cause t : Nat) (x : Dev × Mems) : Dev × Mems :=
  if (x.1.ap a).state ≠ 3 then x
  else
    let x := cutRecords a 2 x
    let d := x.1.haltUnits t (x.1.ap a).live
    let d := d.updAcq a Acq.forget
    let d := d.updAp a (fun p => { p with state := 4, haltCause := cause, since := t })
    let d := d.raiseAt evApertureHalted (freeSev evApertureHalted) a cause 0 (BitVec.ofNat 64 t)
    (d.wakeWaits a, x.2)

/-- The pending APERTURE_HALT of an aperture ends at its tick (R343). -/
def apertureHaltTick (a : Nat) (x : Dev × Mems) : Dev × Mems :=
  match dueSched x.1 x.1.glob.halts a with
  | some h =>
    let x := haltAperture a h.cause h.tick x
    let d := x.1.updGlob (fun g => { g with halts := g.halts.filter (fun (s : Sched) => decide (s ≠ h)) })
    (if h.cause = 1 then d.finish (.halt a) { result0 := BitVec.ofNat 64 h.tick, ap := some a } else d, x.2)
  | none => x

/-! ### The launch -/

/-- The apertures of a launch go LIVE under their new planes at tick `t` (R139). -/
def launchApertures (t : Nat) (as_ : List Nat) (x : Dev × Mems) : Dev × Mems :=
  let rs := as_.map x.1.relaunch
  let x := rs.foldl (fun x r => if r.wasLive then cutRecords r.a 3 x else x) x
  let d := rs.foldl (fun (d : Dev) r => d.abortSweep (planeConverters r.new)) x.1
  let d := rs.foldl (fun (d : Dev) r => if r.wasLive then d else d.setReg (acqReg r.a 0x04) 0) d
  let d := rs.foldl (fun (d : Dev) r => d.installPlane t r) d
  let y := d.launchRoutes t rs
  let z := y.dev.launchChannels t rs y.fresh
  let d := y.lost.foldl (fun (d : Dev) (w : Nat × Nat × Nat) => d.withdrawFrom w.1 w.2.1 w.2.2 t) z.1
  let d := rs.foldl (fun (d : Dev) r => d.launchTriggers t z.2 r) d
  let d := d.relaunchLe t rs z.2
  let x := rs.foldl (fun x r => launchUnits t r x) (d, x.2)
  let l := x.1.launchLevels
  let d := rs.foldl (fun (d : Dev) r => d.launchAcq t r.a) l.1
  let d := rs.foldl (fun (d : Dev) r => d.wakeWaits r.a) d
  -- a changed level starts a new sequence of an aperture that the launch does not name
  let others := l.2.1.filter (fun a => !(as_.contains a))
  let x := others.foldl (fun x a => let x := cutRecords a 3 x; (x.1.launchAcq t a, x.2)) (d, x.2)
  let x := l.2.2.foldl (fun x a => haltAperture a 4 t x) x
  (x.1.compileSchedule t, x.2)

/-- The launch of an identifier whose tick has come, and which has had its FIRE sent down (R133, R136, R139, R144): the first of several. -/
def Dev.dueLaunch (d : Dev) (id : Nat) : Option Launch :=
  d.glob.launches.find? (fun (l : Launch) => decide (l.id = id) && (l.mode == 0 || l.fired) && (match l.tick with | some t => decide (t ≤ d.now) | none => false))

/-- Its apertures: those that it is still pending on. -/
def Dev.dueApertures (d : Dev) (l : Launch) : List Nat := l.apertures.filter (fun a => decide ((d.ap a).launch = some l.id))

/-- A launch that is due acts. -/
def launchDue (id : Nat) (x : Dev × Mems) : Dev × Mems :=
  match x.1.dueLaunch id with
  | none => x
  | some l =>
    let t := l.tick.getD 0
    let apps := x.1.dueApertures l
    let x := if apps.isEmpty then x else (let y := launchApertures t apps x; (y.1.retuneLinks l.check t apps, y.2))
    let d := x.1.updGlob (fun g => { g with launches := g.launches.filter (fun (m : Launch) => decide (m ≠ l)) })
    (d.raiseAt evLaunchDone (freeSev evLaunchDone) id apps.length 0 (BitVec.ofNat 64 t), x.2)

end Sys2Proof.Machine
end

