-- ==== Sys2Proof/Machine/Timebase.lean ====
section
/-!
DEFINITION. The timebase: loads (R106, R143), references, lock and holdover (R112–R119), TIME_REF_SET (R120) and TIME_READ (R151).
-/

namespace Sys2Proof.Machine

/-! ### Timebase loads -/

/-- A tick of the old count as it stands in a count moved by `delta`. -/
def moveTick (delta : Int) (t : Nat) : Nat := ((t : Int) + delta).toNat

/-- The anchors of a stream's stamps move with the count (assumption 46). -/
def Stream.move (delta : Int) (x : Stream) : Stream :=
  { x with base := x.base + delta, lastSub := x.lastSub.map (fun t => Frac.add t (Frac.ofInt delta))
           lastOut := x.lastOut.map (fun t => Frac.add t (Frac.ofInt delta))
           subSeq := x.subSeq.map (fun q => (q.1 + delta, q.2)), leaving := x.leaving.map (fun l => (moveTick delta l.1, l.2.1 + delta, l.2.2)) }

/-- A chain's launch tick and the instants of the inputs it keeps move with the count. -/
def Chain.move (delta : Int) (x : Chain) : Chain :=
  { x with start := moveTick delta x.start, hist := x.hist.map (fun h => { h with instant := Frac.add h.instant (Frac.ofInt delta) }) }

/-- The ticks that a channel's later stamps are held against move with the count. -/
def Chan.move (delta : Int) (x : Chan) : Chan :=
  { x with
    live := x.live.map (fun c => c.move delta)
    old := x.old.map (fun p => (moveTick delta p.1, p.2.move delta))
    switchAt := moveTick delta x.switchAt
    outq := x.outq.map (fun (o : ChanOut) => { o with start := moveTick delta o.start })
    next := x.next.map (fun p => (moveTick delta p.1, p.2.map (fun c => c.move delta)))
    cross := x.cross.map (moveTick delta)
    gap := x.gap.map (moveTick delta)
    withdrawn := x.withdrawn.map (fun w => (w.1, moveTick delta w.2.1, w.2.2))
    shadow := x.shadow.map (fun s => (s.1.move delta, moveTick delta s.2.1, s.2.2))
    frames := x.frames.map (fun (f : FrameSeq) => { f with from_ := moveTick delta f.from_, next := f.next.map (fun p => (moveTick delta p.1, p.2)), last := f.last.map (fun t => Frac.add t (Frac.ofInt delta)) })
    framesNext := x.framesNext.map (fun p => (moveTick delta p.1, p.2.map (fun (f : FrameSeq) => { f with from_ := moveTick delta f.from_ }))) }

/-- Everything that is held against the stamps of data still to come moves with the count. -/
def Dev.moveAnchors (d : Dev) (delta : Int) : Dev :=
  { d with
    streams := d.streams.map (fun p => (p.1, p.2.move delta))
    jesd := d.jesd.map (fun (p : Nat × JesdLink) => (p.1, { p.2 with lemc := p.2.lemc.map (moveTick delta) }))
    chans := d.chans.map (fun p => (p.1, p.2.move delta))
    le := d.le.map (fun (p : Nat × LeUnit) => (p.1, { p.2 with next := p.2.next.map (fun n => (moveTick delta n.1, n.2)) }))
    masks := d.masks.map (fun (p : Nat × MaskUnit) => (p.1, { p.2 with next := p.2.next.map (fun n => (moveTick delta n.1, n.2)) }))
    combs := d.combs.map (fun (p : Nat × Combiner) => (p.1, { p.2 with from_ := if p.2.from_ = 2 ^ 64 then 2 ^ 64 else moveTick delta p.2.from_ }))
    aps := d.aps.map (fun (p : Nat × Aperture) => (p.1, { p.2 with acq := { p.2.acq with t0 := moveTick delta p.2.acq.t0 } }))
    feeds := d.feeds.map (fun (p : Nat × Feed) => (p.1, { p.2 with start := moveTick delta p.2.start, cleared := moveTick delta p.2.cleared }))
    tps := d.tps.map (fun (p : Nat × Tp) => (p.1, { p.2 with
      from_ := moveTick delta p.2.from_
      feeds := p.2.feeds.map (fun (f : Nat × TFeed) => (f.1, { f.2 with lastTick := f.2.lastTick.map (moveTick delta) })) }))
    markers := d.markers.map (fun (p : Nat × Marker) => (p.1, { p.2 with
      from_ := moveTick delta p.2.from_
      lastRise := p.2.lastRise.map (fun t => t + 256 * delta)
      lastFall := p.2.lastFall.map (fun t => t + 256 * delta)
      lastTaken := p.2.lastTaken.map (fun t => t + 256 * delta) })) }

/-- A pending action is cancelled by a timebase load (R143): the event, and the end of the command that waits for it. -/
def Dev.cancelAction (d : Dev) (id tick : Nat) (ws : List Wait) : Dev :=
  let d := d.raise evLaunchCancelled id 2 tick
  ws.foldl (fun (d : Dev) w => d.finish w { status := efsAborted, detail := 3, result0 := BitVec.ofNat 64 tick }) d

/-- The launches that firmware has made for itself are cancelled by a load too: take-overs and retirements are scheduled anew, new coefficients
are not (assumption 48). -/
def Dev.cancelOwn (d : Dev) : Dev :=
  let d := (d.spares.running.filterMap (fun (t : Takeover) => t.launch)).foldl (fun (d : Dev) u => d.cancelAction 0 u []) d
  let d := (d.cmc.retiring.filterMap (fun (r : Retire) => r.launch)).foldl (fun (d : Dev) u => d.cancelAction 0 u []) d
  let cals := d.mc.cals
  let d := { d with mc := { d.mc with cals := [] } }
  cals.foldl (fun (d : Dev) (c : CalLaunch) => d.cancelAction 0 c.tick (if c.source.isSome then [.calApply c.tick] else [])) d

/-- Firmware's take-overs and retirements have their launches again, by the new count. -/
def Dev.rescheduleOwn (d : Dev) : Dev :=
  { d with
    spares := { d.spares with running := d.spares.running.map (fun (t : Takeover) => { t with launch := t.launch.map (fun _ => d.takeoverTick t.kind t.unit) }) }
    cmc := { d.cmc with retiring := d.cmc.retiring.map (fun (r : Retire) => { r with launch := r.launch.map (fun _ => d.now + scopeLead 0) }) } }

/-- A timebase load (R106, R143, R506): every launch, snapshot and RESET_AT still pending is cancelled, and EPOCH advances. -/
def Dev.loadTime (d : Dev) (v : QWord) : Dev :=
  let g := d.glob
  let d := d.updGlob (fun g => { g with launches := [], snaps := g.snaps.filter (fun (s : Snap) => s.latched.isSome), resets := [] })
  let d := g.launches.foldl (fun (d : Dev) (l : Launch) =>
    (l.apertures.foldl (fun (d : Dev) a => d.updAp a (fun p => if p.launch = some l.id then { p with launch := none } else p)) d).cancelAction
      l.id (l.tick.getD 0) [.fire l.id (l.tick.getD 0)]) d
  let d := (g.snaps.filter (fun (s : Snap) => s.latched.isNone)).foldl (fun (d : Dev) (s : Snap) =>
    d.cancelAction s.id (s.tick.getD 0) [.snapshot s.id s.no, .snapFire s.id (s.tick.getD 0)]) d
  let d := g.resets.foldl (fun (d : Dev) (r : ResetAct) => d.cancelAction r.id r.tick [.reset r.id r.tick]) d
  let d := d.cancelOwn.cutMarkers
  let d := d.moveAnchors ((v.toNat : Int) - d.now)
  let log := d.clk.tqLog.map (fun (p : Nat × Tq) => (moveTick ((v.toNat : Int) - d.now) p.1, p.2))
  ({ d with clk := { d.clk with count := v, epoch := d.clk.epoch + 1, tqLog := log } } : Dev).rescheduleOwn

/-! ### References (R112–R118) -/

/-- The references that the device's role and TIME_REF_SET configure are all present (R112, R115). -/
def Dev.refsPresent (d : Dev) : Bool :=
  if d.clk.role ≤ 1 then (decide (d.clk.refMode = 0) || d.clk.refPresent) && (!d.clk.ppsEn || d.clk.ppsPresent)
  else match d.upLink with
    | some k => (d.link k).up
    | none => false

/-- Some reference is configured. -/
def Dev.refsSet (d : Dev) : Bool := decide (2 ≤ d.clk.role) || decide (d.clk.refMode ≠ 0) || d.clk.ppsEn

/-- A new correction, with what SLEWING adds to it; the corrections of the last second are kept. -/
def Clock.setTrim (c : Clock) (trim added : Int) : Clock :=
  let old (p : Nat × Int) : Bool := decide (p.1 + 3000000000 ≤ c.time)
  { c with trim := trim, added := added, trims := (c.time, trim + added) :: (c.trims.takeWhile (fun p => !old p) ++ (c.trims.dropWhile (fun p => !old p)).take 1) }

/-- The average correction of the last second (R116), rounded; 0 before the first. -/
def Clock.trimMean (c : Clock) : Int :=
  let from_ := c.time - 3000000000
  let y := c.trims.foldl (fun (y : Nat × Int) p => let s := max p.1 from_; (min y.1 s, y.2 + p.2 * (y.1 - s : Nat))) (c.time, 0)
  if c.time = from_ then c.trim + c.added else roundDiv y.2 (c.time - from_)

/-- The count is slewed: the loop adds a correction of at most ±5 ppm, which no rule states further, and takes no step (R117). -/
def Dev.slew (d : Dev) : Dev :=
  let f := d.fresh
  { f.2 with clk := { (f.2.clk.setTq .slewing).setTrim f.2.clk.trim ((f.1.toNat % 10000001 : Nat) - 5000000) with holdoverAt := none } }

/-- A reference has come back: SLEWING once all of them have (R117). -/
def Dev.refBack (d : Dev) : Dev := if d.clk.tq = .holdover ∧ d.refsPresent then d.slew else d

/-- A configured reference is lost (R116): 1 REF_IN, 2 PPS_IN, 3 the upstream link. The correction stays at its average. -/
def Dev.enterHoldover (d : Dev) (lost : Nat) : Dev :=
  let at_ := match d.clk.holdoverAt with | some t => t | none => d.clk.time
  let trim := if d.clk.tq = .holdover then d.clk.trim else d.clk.trimMean
  ({ d with clk := { (d.clk.setTq .holdover).setTrim trim 0 with holdoverAt := some at_ } } : Dev).raise evHoldover 0 lost (codeOf 64 d.clk.trim)

/-- REF_IN becomes present (R113). -/
def Dev.refPresent (d : Dev) : Dev :=
  if d.clk.refMode = 0 ∨ 2 ≤ d.clk.role then d else ({ d with clk := { d.clk with refPresent := true } } : Dev).refBack

/-- REF_IN is lost (R113, R116). -/
def Dev.refLost (d : Dev) : Dev :=
  if d.clk.refMode = 0 ∨ 2 ≤ d.clk.role ∨ !d.clk.refPresent then d
  else
    let d := { d with clk := { d.clk with refPresent := false } }
    (d.raise evRefLost 0 d.clk.refMode (codeOf 64 d.clk.phaseErr)).enterHoldover 1

/-- The phase of an edge `frac` sub-ticks into the present tick against PPS_OFFSET, in units of 0.1 ps (R118, R151): the edge's count
less the value it should have. -/
def Dev.ppsPhase (d : Dev) (frac : Nat) : Int :=
  let m : Int := ((d.now : Int) - d.clk.ppsOffset) % 3000000000
  let m := if 1500000000 < m then m - 3000000000 else m
  roundDiv ((m * 256 + (frac % 256 : Nat)) * 10000) 768

/-- An edge of PPS_IN at which an armed load acts (R119). -/
def Dev.ppsLoads (d : Dev) (falling : Bool) : Bool :=
  d.clk.ppsEn && d.clk.ppsFall == falling && (match d.clk.ppsLoad with | some (_, c) => decide (c ≤ d.cyc) | none => false)

/-- A phase error in units of 0.1 ps is within ±2 ticks (R115). -/
def phaseNear (phase : Int) : Bool := decide (3 * phase.natAbs ≤ 20000)

/-- An edge of PPS_IN (R114, R115, R118, R119): noted, and a load that waits for it acts last. A LOCKED device whose count is off at the edge is
slewed to it (assumption 111). -/
def Dev.ppsEdge (d : Dev) (falling : Bool) (frac : Nat) : Dev :=
  if !d.clk.ppsEn || d.clk.ppsFall != falling then d
  else
    let good := match d.clk.ppsCycle with
      | some c => decide (2999997000 ≤ d.cyc - c ∧ d.cyc - c ≤ 3000003000)
      | none => false
    let n := if good then min (d.clk.ppsGood + 1) 3 else 1
    let d := { d with clk := { d.clk with
      lastPps := d.clk.count
      ppsCycle := some d.cyc
      ppsGood := n
      ppsPresent := d.clk.ppsPresent || decide (3 ≤ n)
      phaseErr := d.ppsPhase frac } }
    let d := if d.clk.tq = .locked ∧ !(phaseNear d.clk.phaseErr) then d.slew else d.refBack
    match d.clk.ppsLoad with
    | some (v, c) => if c ≤ d.cyc then ({ d with clk := { d.clk with ppsLoad := none } } : Dev).loadTime v else d
    | none => d

/-- No edge of PPS_IN for 1.1 s (R114, R116). -/
def Dev.ppsLost (d : Dev) : Dev :=
  let late := match d.clk.ppsCycle with | some c => decide (c + 3300000000 ≤ d.cyc) | none => false
  if d.clk.ppsEn && d.clk.ppsPresent && late then
    let d := { d with clk := { d.clk with ppsPresent := false, ppsGood := 0 } }
    (d.raise evPpsLost 0 0 d.clk.lastPps.toNat).enterHoldover 2
  else d

/-- The device is locked (R115): every reference present, the frequency error `freq`, in units of 10⁻¹², below 1 ppb, and the phase error within
±2 ticks, at the last PPS edge where PPS disciplines the count, and where the count is slewed (R117). `trim`, `freq` and `phase` are the loop's
values. Every configured reference has its event at each lock, and a device that is LOCKED takes the new correction alone (assumption 111). -/
def Dev.lock (d : Dev) (trim freq phase : Int) : Dev :=
  let phase := if d.clk.ppsEn then d.clk.phaseErr else phase
  if !d.refsSet || !d.refsPresent || decide (1000 ≤ freq.natAbs) || ((d.clk.ppsEn || d.clk.tq == .slewing) && !(phaseNear phase)) then d
  else if d.clk.tq = .locked then { d with clk := { d.clk.setTrim trim 0 with phaseErr := phase } }
  else
    let d := { d with clk := { (d.clk.setTq .locked).setTrim trim 0 with phaseErr := phase, holdoverAt := none } }
    let d := if d.clk.refMode ≠ 0 then d.raise evRefLocked 0 d.clk.refMode (codeOf 64 phase) else d
    if d.clk.ppsEn then d.raise evPpsLocked 0 0 d.clk.lastPps.toNat else d

def execRefInPresent (dt : Nat) (s : State) : Host.Outcome State Fault Refusal := onDev dt (fun d => d.refPresent) s
def execRefInLost (dt : Nat) (s : State) : Host.Outcome State Fault Refusal := onDev dt (fun d => d.refLost) s
def execPpsLost (dt : Nat) (s : State) : Host.Outcome State Fault Refusal := onDev dt (fun d => d.ppsLost) s
def execTimebaseLock (dt : Nat) (loop : Loop) (phase : Int) (s : State) : Host.Outcome State Fault Refusal :=
  onDev dt (fun d => d.lock loop.trim loop.freq phase) s

/-! ### TIME_REF_SET (R120) -/

def formTimeRef : CmdForm := { opcode := 0x11, blockLen := 24 }

def timeRefChecks (_ : Dev) (b : List Word) : List (Nat × Bool) :=
  let role := fldAt b 0x00 5 4
  let group := fldAt b 0x00 10 8
  let pos := fldAt b 0x00 14 12
  let refs := decide (fldAt b 0x00 2 0 ≠ 0)
  [ rng b 0x00 1 0 0 2, zer b 0x00 7 6, zer b 0x00 11 11, zer b 0x00 15 15, zer b 0x00 31 17,
    (0x00, !(refs && decide (2 ≤ role))), (0x00, !(bitAt b 0x00 16) || bitAt b 0x00 2),
    (0x00, if role ≤ 1 then decide (group = 0 ∧ pos = 0) else if role = 2 then decide (group ≠ 0 ∧ pos = 0) else decide (pos ≠ 0)),
    rng b 0x04 31 0 0 2999999999,
    zer b 0x08 0 0, zer b 0x08 8 8, zer b 0x08 31 16, zerUnless (decide (role = 1 ∨ role = 2)) b 0x08 7 0, zerUnless (decide (role = 1)) b 0x08 15 8,
    zer b 0x0C 31 0 ]

/-- The command changes REF_MODE, PPS_EN, ROLE, GROUP, POS or a mask. -/
def Clock.refChanges (c : Clock) (b : List Word) : Bool :=
  decide (c.refMode ≠ fldAt b 0x00 1 0 ∨ c.role ≠ fldAt b 0x00 5 4 ∨ c.group ≠ fldAt b 0x00 10 8 ∨ c.pos ≠ fldAt b 0x00 14 12 ∨
    c.groupMask ≠ fldAt b 0x08 7 0 ∨ c.systemMask ≠ fldAt b 0x08 15 8) || (c.ppsEn != bitAt b 0x00 2)

/-- The scope-complete bits that this device makes itself (R129): a leader's group, and the root's system. -/
def Dev.scopeUpdate (d : Dev) : Dev :=
  let up (k : Nat) : Bool := (d.link k).up
  let g := d.groupLinks.all up
  if d.clk.role = 1 then
    { d with clk := { d.clk with scopeGroup := g, scopeSystem := g && d.systemLinks.all (fun k => up k && (d.link k).complete) } }
  else if d.clk.role = 2 then { d with clk := { d.clk with scopeGroup := g, scopeSystem := d.clk.scopeSystem && up 8 } }
  else if d.clk.role = 3 then { d with clk := { d.clk with scopeGroup := d.clk.scopeGroup && up 0, scopeSystem := d.clk.scopeSystem && up 0 } }
  else { d with clk := { d.clk with scopeGroup := false, scopeSystem := false } }

/-- A link is lost or its role is over: its words are gone, reports from it no longer come, its provisional TRIGs are resolved (R121, R126, R308). -/
def Dev.cutLink (d : Dev) (k : Nat) : Dev :=
  let l := d.link k
  let d := d.setLink k { ({} : SyncLink) with delayPs := l.delayPs, txSeq := l.txSeq }
  let d := (d.remote.pending.filter (fun p => decide (p.2.2.2.2 = k))).foldl (fun (d : Dev) p => d.unresolved p.1 p.2.1) d
  (d.updGlob (fun g => { g with applied := g.applied.map (fun (c : AppliedCount) => { c with waits := c.waits.filter (· != k) }) })).settleCancels

/-- The links that the role does not use stand down (R121). -/
def Dev.cutUnused (d : Dev) : Dev :=
  ((List.range 16).filter (fun k => (d.link k).up && !(d.linkUsed k))).foldl (fun (d : Dev) k => d.cutLink k) d

/-- TIME_REF_SET takes effect; a load that still waits for its edge gives way to the command's own (assumption 109). The quality of a count whose
references have just been configured, until it locks, is free; it is not LOCKED while one of them is absent. -/
def Dev.setTimeRef (d : Dev) (b : List Word) : Dev :=
  let anew := d.clk.refChanges b
  let edge := d.clk.ppsFall != bitAt b 0x00 3
  let refAnew := decide (d.clk.refMode ≠ fldAt b 0x00 1 0)
  let ppsAnew := edge || (d.clk.ppsEn != bitAt b 0x00 2)
  let d := { d with clk := { d.clk with
    refMode := fldAt b 0x00 1 0
    ppsEn := bitAt b 0x00 2
    ppsFall := bitAt b 0x00 3
    role := fldAt b 0x00 5 4
    group := fldAt b 0x00 10 8
    pos := fldAt b 0x00 14 12
    ppsOffset := (dwAt b 0x04).toNat
    groupMask := fldAt b 0x08 7 0
    systemMask := fldAt b 0x08 15 8
    ppsLoad := if bitAt b 0x00 16 then some (qAt b 0x10, d.cyc + 150) else none
    refPresent := d.clk.refPresent && !refAnew
    ppsPresent := d.clk.ppsPresent && !ppsAnew
    ppsGood := if ppsAnew then 0 else d.clk.ppsGood
    ppsCycle := if ppsAnew then none else d.clk.ppsCycle } }
  let d := d.cutUnused.scopeUpdate
  if !anew then d
  else if !d.refsSet then { d with clk := { d.clk.setTq .free with holdoverAt := none } }
  else
    let f := d.fresh
    let n := if f.1.toNat % 4 = 1 ∧ !d.refsPresent then 0 else f.1.toNat % 4
    { f.2 with clk := { f.2.clk.setTq (if n = 0 then .free else if n = 1 then .locked else if n = 2 then .holdover else .slewing) with
        holdoverAt := if n = 2 then some f.2.clk.time else none } }

/-- A launch is pending for TIME_REF_SET while one of LAUNCH_AT is; firmware's own and that of a CAL_APPLY do not count (assumption 109). -/
def execTimeRefSet (dt q : Nat) (e : Entry) (s : State) : Host.Outcome State Fault Refusal :=
  onDev dt (runCmd formTimeRef q e timeRefChecks (fun d =>
    if d.clk.refChanges e.block && (d.aps.any (fun (p : Nat × Aperture) => decide (p.2.state = 3)) || !d.glob.launches.isEmpty) then
      formTimeRef.reply d q e modeError
    else formTimeRef.reply (d.setTimeRef e.block) q e {})) s

/-! ### TIME_READ (R151) -/

def formTimeRead : CmdForm := { opcode := 0x10 }

/-- The block of R151. TRIM and PHASE_ERR are the low 32 bits of what is larger (assumption 111). -/
def Dev.timeWords (d : Dev) : List Word :=
  let c := d.clk
  let ups := ((List.range 16).map (fun k => if (d.link k).up then 2 ^ k else 0)).sum
  [ c.count.lo, c.count.hi,
    Word.place 1 0 c.tq.code ||| Word.place 3 2 c.role ||| Word.place 6 4 c.group ||| Word.place 10 8 c.pos |||
      Word.place 11 11 c.scopeGroup.toNat ||| Word.place 12 12 c.scopeSystem.toNat,
    BitVec.ofNat 32 ups, BitVec.ofNat 32 c.epoch, BitVec.ofInt 32 (c.trim + c.added), BitVec.ofInt 32 c.phaseErr,
    BitVec.ofNat 32 (match c.holdoverAt with | some t => (c.time - t) / 3000000 | none => 0), c.lastPps.lo, c.lastPps.hi,
    BitVec.ofNat 32 c.bcastSeq, c.linkErr ] ++ c.bcast ++
  (List.range 16).map (fun k => if (d.link k).up then BitVec.ofNat 32 (d.link k).delayPs else 0)

def execTimeRead (dt q : Nat) (e : Entry) (s : State) : Host.Outcome State Fault Refusal :=
  onDev dt (runCmd formTimeRead q e noChecks (fun d => formTimeRead.reply (d.writeOutE e d.timeWords) q e {})) s

end Sys2Proof.Machine
end

