-- ==== Sys2Proof/Machine/Scheduled.lean ====
section
/-!
DEFINITION. Scheduled and global operations (R131–R150): launches with their modes, cancels, snapshots, RESET_AT, barriers and broadcasts,
and what each does at its tick.
-/

namespace Sys2Proof.Machine

/-! ### Words over a scope (R136) -/

/-- Send a word of a scope from this device: the top sends it down at once and acts on it; the others send it up. -/
def Dev.sendScope (d : Dev) (scope : Nat) (w : SyncOut) (act : Dev → Dev) : Dev :=
  if d.isTop scope then act (d.queueWords (d.downLinks scope) w) else d.queueUp w

/-- A word of a scope received on link `k`: from above it is passed on down and acted on; from below the top sends it down and acts on it,
and a device between passes it up. -/
def Dev.passWord (d : Dev) (k scope : Nat) (w : SyncOut) (act : Dev → Dev) : Dev :=
  if d.fromAbove k then act (d.queueWords (d.downLinks scope) w) else d.sendScope scope w act

/-- The lead check of R134: the tick, or the answer of EFS_LEAD; tick 0 asks for the earliest. -/
def Dev.leadTick (d : Dev) (tick : QWord) (scope : Nat) : Except Answer Nat :=
  let least := d.now + scopeLead scope
  if tick = 0 then .ok least
  else if tick.toNat < least then .error { status := efsLead, result0 := tick, result1 := BitVec.ofNat 64 least }
  else .ok tick.toNat

/-! ### The APPLIED count (R133, R147) -/

/-- The ticks after the launch tick by which a count must leave, to arrive in time: one group hop at a device that gathers its own group, and the
up-sweep of the system at its top (R130). -/
def Dev.gatherBudget (d : Dev) (scope : Nat) : Nat := if scope = 2 && d.isTop 2 then 4425 else 1425

/-- Begin to gather reports at a top or at a leader: from the links that are up, and with `own` from this device. -/
def Dev.gather (d : Dev) (id tick scope : Nat) (snap own origin : Bool) : Dev :=
  let links := (d.downLinks scope).filter (fun k => (d.link k).up)
  if links.isEmpty && !(d.isTop scope) then d
  else
    let c : AppliedCount :=
      { id := id, tick := tick, scope := scope, snap := snap, waits := if own then 99 :: links else links, count := 0, origin := origin
        until_ := d.cyc + (tick + d.gatherBudget scope - d.now) }
    d.updGlob (fun g => { g with applied := g.applied ++ [c] })

/-- ARG of APPLIED: the devices in [15:0], and in [16] that they are a snapshot's (assumption 47). -/
def appliedArg (n : Nat) (snap : Bool) : Nat := n % 2 ^ 16 + 2 ^ 16 * snap.toNat

/-- The count has returned to its origin: a FIRE completes (R133), a snapshot's is kept for its completion (R147). -/
def Dev.appliedHere (d : Dev) (id tick n : Nat) (snap : Bool) : Dev :=
  if snap then
    d.updGlob (fun g => { g with snaps := g.snaps.map (fun (s : Snap) => if s.id = id ∧ s.tick = some tick ∧ s.origin then { s with applied := some n } else s) })
  else d.finish (.fire id tick) { result0 := BitVec.ofNat 64 tick, result1 := BitVec.ofNat 64 n }

/-- The count of a gathering goes on: from the top to the origin, from a leader up. -/
def Dev.closeGather (d : Dev) (c : AppliedCount) : Dev :=
  let d := d.updGlob (fun g => { g with applied := g.applied.filter (fun x => decide (x ≠ c)) })
  let w : SyncOut := { type := 0x12, id := c.id, arg := appliedArg c.count c.snap, tick := BitVec.ofNat 64 c.tick }
  if d.isTop c.scope then (if c.origin then d.appliedHere c.id c.tick c.count c.snap else d.queueWords (d.downLinks c.scope) w)
  else d.queueUp w

/-- Gatherings that have every report, or whose time is over, close. -/
def Dev.closeGathers (d : Dev) : Dev :=
  (d.glob.applied.filter (fun (c : AppliedCount) => c.waits.isEmpty || decide (c.until_ ≤ d.cyc))).foldl Dev.closeGather d

/-- A report of `n` devices from link `k`, or from this device (99), for a FIRE or for a snapshot. -/
def Dev.report (d : Dev) (id tick k n : Nat) (snap : Bool) : Dev :=
  match d.glob.applied.find? (fun (c : AppliedCount) => decide (c.id = id ∧ c.tick = tick ∧ c.snap = snap) && c.waits.contains k) with
  | some c =>
    (d.updGlob (fun g => { g with applied := g.applied.map (fun (x : AppliedCount) =>
      if x = c then { x with waits := x.waits.filter (· != k), count := x.count + n } else x) })).closeGathers
  | none => if k = 99 then d.queueUp { type := 0x12, id := id, arg := appliedArg n snap, tick := BitVec.ofNat 64 tick } else d

/-- The gathering of a launch that is cancelled over its scope ends without a count (R142). -/
def Dev.dropGather (d : Dev) (id tick : Nat) : Dev :=
  d.updGlob (fun g => { g with applied := g.applied.filter (fun (c : AppliedCount) => decide (c.id ≠ id ∨ c.tick ≠ tick) || c.snap) })

/-! ### Launches (R132–R138) -/

/-- The pending launch of an identifier. -/
def Dev.launchOf (d : Dev) (id : Nat) : Option Launch := d.glob.launches.find? (fun (l : Launch) => decide (l.id = id))

/-- The pending binding or FIRE of an identifier. -/
def Dev.firedOf (d : Dev) (id : Nat) : Option Launch := d.glob.launches.find? (fun (l : Launch) => decide (l.id = id ∧ l.mode ≠ 0))

/-- Put a launch in the place of the one it replaces. -/
def Dev.putLaunch (d : Dev) (old : Option Launch) (l : Launch) : Dev :=
  d.updGlob (fun g => { g with launches := (g.launches.filter (fun x => decide (some x ≠ old))) ++ [l] })

/-- The apertures named are launch pending under the identifier. -/
def Dev.markPending (d : Dev) (id : Nat) (as_ : List Nat) : Dev :=
  as_.foldl (fun (d : Dev) a => d.updAp a (fun p => { p with launch := some id })) d

/-- A FIRE sent down from the top (R136, R137, R138, R141). -/
def Dev.onFire (d : Dev) (id scope tick : Nat) : Dev :=
  let old := d.firedOf id
  let origin := match old with | some l => l.origin && decide (l.tick = some tick) | none => false
  if (match old with | some l => l.mode == 2 && l.fired | none => false) then d
  else if d.lateWord tick then
    let d := (d.noteLate id tick).gather id tick scope false false origin
    match old with
    | some l => (d.putLaunch old { l with mode := 1, tick := none, origin := false, fired := false }).closeGathers
    | none => d.closeGathers
  else
    let l : Launch := { id := id, mode := 2, tick := some tick, scope := scope, apertures := (match old with | some l => l.apertures | none => []), origin := origin, fired := true, check := d.now }
    (d.putLaunch old l).avoidLaunches.gather id tick scope false true origin

/-- The parameter block of LAUNCH_AT (R132): its length follows COUNT. -/
def formLaunch (e : Entry) : CmdForm :=
  { opcode := 0x12, targetLo := 1, blockLen := 16 + 4 * ceilDiv (fldAt e.block 0x08 18 8) 2 }

/-- The aperture list as given. One that names an aperture twice launches it once (DESIGN CHOICE, assumption 110). -/
def launchList (b : List Word) : List Nat :=
  (List.range (fldAt b 0x08 18 8)).map (fun i => fldAt b (0x10 + 4 * (i / 2)) (16 * (i % 2) + 15) (16 * (i % 2)))

def launchChecks (ptr : Bool) (_ : Dev) (b : List Word) : List (Nat × Bool) :=
  let mode := fldAt b 0x08 1 0
  let scope := fldAt b 0x08 3 2
  let n := fldAt b 0x08 18 8
  [ rng b 0x08 1 0 0 2, (0x08, if mode = 0 then decide (scope = 0) else decide (scope = 1 ∨ scope = 2)), zer b 0x08 7 4,
    (0x08, decide (n ≤ 1024 ∧ (n ≠ 0 ∨ mode = 2)) && (ptr || decide (n ≤ 8))), zer b 0x08 31 19, zer b 0x0C 31 0,
    (0x10 + 2 * n, ptr || decide (n % 2 = 0) || decide (fldAt b (0x10 + 4 * (n / 2)) 31 16 = 0)) ] ++
  (List.range n).map (fun i => (0x10 + 2 * i, decide (fldAt b (0x10 + 4 * (i / 2)) (16 * (i % 2) + 15) (16 * (i % 2)) ≤ 1023)))

/-- A pending identifier stands in the way (R138): `mode` is that of the command, `modes` those of the pending actions of the identifier,
of which a binding, mode 1, hinders none. -/
def idClash (mode : Nat) (modes : List Nat) : Bool :=
  if mode = 0 then !modes.isEmpty else if mode = 2 then modes.any (fun m => decide (m ≠ 1)) else modes.contains 0

/-- The aperture may be launched (R90). -/
def Aperture.launchable (p : Aperture) : Bool :=
  (decide (p.state = 2 ∨ p.state = 4) || (decide (p.state = 3) && p.changeAdmitted)) && p.launch.isNone

/-- The first aperture of a launch list that is in no legal state (R86). -/
def Dev.notLaunchable (d : Dev) (as_ : List Nat) : Option Answer :=
  (as_.zipIdx.find? (fun x => !((d.ap x.1).launchable))).map (fun x =>
    { d.stateError x.1 with result0 := BitVec.ofNat 64 x.2, result1 := BitVec.ofNat 64 x.1 })

/-- Unplaced apertures of a launch list are placed again, where the sums hold now; else the sum that fails (R385). -/
def Dev.placeAgain (d : Dev) (as_ : List Nat) : Except Answer Dev :=
  let un := as_.filter (fun a => (d.ap a).unplaced)
  if un.isEmpty then .ok d
  else match d.firstFail d.standingPlanes with
    | some x => .error (admitError x)
    | none =>
      .ok (un.foldl (fun (d : Dev) a =>
        let p := d.ap a
        (d.placeNext d.standingPlanes a p.standing).updAp a (fun p => { p with unplaced := false })) d)

/-- LAUNCH_AT past the command entry (R85, R132–R138). -/
def Dev.launchCmd (d : Dev) (q : Nat) (e : Entry) : Dev :=
  let b := e.block
  let id := e.target
  let mode := fldAt b 0x08 1 0
  let scope := fldAt b 0x08 3 2
  let as_ := (launchList b).eraseDups
  let form := formLaunch e
  let old := d.launchOf id
  if idClash mode ((d.glob.launches.filter (fun (l : Launch) => decide (l.id = id))).map (fun (l : Launch) => l.mode)) then form.reply d q e (paramError 1 0x04)
  else if old.isNone && decide (256 ≤ d.glob.launches.length) then form.reply d q e (paramError 0 0x08)
  else if decide (mode = 2) && !(d.scopeReady scope) then form.reply d q e modeError
  else match d.notLaunchable (launchList b) with
    | some w => form.reply d q e w
    | none => match d.placeAgain as_ with
      | .error w => form.reply d q e w
      | .ok placed =>
        if mode = 1 then
          match old with
          | some l =>
            if l.mode = 2 && l.fired && decide (l.tick.getD 0 < d.now + 150) then
              form.reply d q e { status := efsLead, result0 := BitVec.ofNat 64 (l.tick.getD 0), result1 := BitVec.ofNat 64 (d.now + 150) }
            else form.reply (((placed.putLaunch old { l with apertures := l.apertures ++ as_ }).markPending id as_).avoidLaunches) q e {}
          | none =>
            form.reply ((placed.putLaunch none { id := id, mode := 1, tick := none, scope := scope, apertures := as_ }).markPending id as_) q e {}
        else match d.leadTick (qAt b 0x00) scope with
          | .error w => form.reply d q e w
          | .ok t =>
            let all := (match old with | some l => l.apertures | none => []) ++ as_
            let l : Launch := { id := id, mode := mode, tick := some t, scope := scope, apertures := all, origin := decide (mode = 2), fired := false, check := d.now }
            let d := ((placed.putLaunch old l).markPending id as_).avoidLaunches
            if mode = 0 then form.reply d q e { result0 := BitVec.ofNat 64 t }
            else
              (d.hold q 0x12 e (.fire id t)).sendScope scope { type := 0x10, id := id, arg := scope, tick := BitVec.ofNat 64 t } (fun d => d.onFire id scope t)

/-- LAUNCH_AT with its three modes (R133): the entry's MODE decides (assumption 43). -/
def Dev.takeLaunch (q : Nat) (e : Entry) (d : Dev) : Dev :=
  runCmd (formLaunch e) q e (launchChecks e.ptr) (fun d => d.orHeld q 0x12 e (launchList e.block) (.launch e) (fun d => d.launchCmd q e)) d

def execLaunchAt (dt q : Nat) (e : Entry) (s : State) : Host.Outcome State Fault Refusal := onDev dt (Dev.takeLaunch q e) s
def execLaunchBind (dt q : Nat) (e : Entry) (s : State) : Host.Outcome State Fault Refusal := onDev dt (Dev.takeLaunch q e) s
def execLaunchFire (dt q : Nat) (e : Entry) (s : State) : Host.Outcome State Fault Refusal := onDev dt (Dev.takeLaunch q e) s

/-- A pending launch is removed here (R142): its apertures keep their state and their admitted change; shadow chains stop (R229). The launch tick
that EV_LAUNCH_CANCELLED names is 0 while a BIND awaits its FIRE (DESIGN CHOICE, assumption 110). -/
def Dev.removeLaunch (d : Dev) (l : Launch) : Dev :=
  let d := d.updGlob (fun g => { g with launches := g.launches.filter (fun x => decide (x ≠ l)) })
  let d := l.apertures.foldl (fun (d : Dev) a =>
    if (d.ap a).launch = some l.id then (d.updAp a (fun p => { p with launch := none })).stopShadows a else d) d
  d.raise evLaunchCancelled l.id 1 (l.tick.getD 0)

/-- A CANCEL sent down from the top (R141, R142). -/
def Dev.onCancel (d : Dev) (id tick : Nat) : Dev :=
  if d.lateWord tick then d.noteLate id tick
  else
    let d := d.dropGather id tick
    match d.firedOf id with
    | some l => if l.tick = some tick then d.removeLaunch l else d
    | none => d

def formCancel : CmdForm := { opcode := 0x13, targetLo := 1 }

/-- LAUNCH_CANCEL past the command entry (R142): on the origin of a FIRE it waits until its CANCEL is sent; elsewhere this device's own part goes,
and a count that is gathered here waits for it no more. -/
def Dev.cancelCmd (d : Dev) (q : Nat) (e : Entry) : Dev :=
  match d.launchOf e.target with
  | none => formCancel.reply d q e { status := efsState }
  | some l =>
    let least := d.now + scopeLead (if l.origin then l.scope else 0)
    match l.tick with
    | some t =>
      if t < least then formCancel.reply d q e { status := efsLead, result0 := BitVec.ofNat 64 t, result1 := BitVec.ofNat 64 least }
      else if l.origin then
        let d := ((d.removeLaunch l).dropGather l.id t).hold q 0x13 e (.cancel l.id t)
        (d.sendScope l.scope { type := 0x11, id := l.id, arg := l.scope, tick := BitVec.ofNat 64 t } (fun d => d)).settleCancels
      else
        let d := d.removeLaunch l
        let d := d.updGlob (fun g => { g with applied := g.applied.map (fun (c : AppliedCount) =>
          if c.id = l.id ∧ c.tick = t ∧ c.snap = false then { c with waits := c.waits.filter (· != 99) } else c) })
        formCancel.reply d.closeGathers q e {}
    | none => formCancel.reply (d.removeLaunch l) q e {}

/-- The apertures of the pending launch of an identifier. -/
def Dev.launchApsOf (d : Dev) (id : Nat) : List Nat := match d.launchOf id with | some l => l.apertures | none => []

def execLaunchCancel (dt q : Nat) (e : Entry) (s : State) : Host.Outcome State Fault Refusal :=
  onDev dt (runCmd formCancel q e noChecks (fun d => d.orHeld q 0x13 e (d.launchApsOf e.target) (.cancel e) (fun d => d.cancelCmd q e))) s

/-! ### Snapshots (R147, R148) -/

def formSnapshot : CmdForm := { opcode := 0x15, blockLen := 12, targetLo := 1 }

def snapshotChecks (_ : Dev) (b : List Word) : List (Nat × Bool) :=
  let mode := fldAt b 0x08 1 0
  let scope := fldAt b 0x08 3 2
  [ rng b 0x08 1 0 0 2, (0x08, if mode = 0 then decide (scope = 0) else decide (scope = 1 ∨ scope = 2)), zer b 0x08 31 4 ]

/-- The pending snapshot of an identifier. -/
def Dev.snapOf (d : Dev) (id : Nat) : Option Snap := d.glob.snaps.find? (fun (x : Snap) => decide (x.id = id) && x.latched.isNone)

def Dev.putSnap (d : Dev) (old : Option Snap) (x : Snap) : Dev :=
  d.updGlob (fun g => { g with snaps := (g.snaps.filter (fun y => decide (some y ≠ old))) ++ [x] })

/-- The number of the snapshot that takes another's place, or of a new one. -/
def Dev.numbered (d : Dev) (old : Option Snap) : Nat × Dev :=
  match old with
  | some x => (x.no, d)
  | none => (d.glob.snapNo, d.updGlob (fun g => { g with snapNo := g.snapNo + 1 }))

/-- A SNAP_FIRE sent down from the top (R136, R141). -/
def Dev.onSnapFire (d : Dev) (id scope tick : Nat) : Dev :=
  let old := d.snapOf id
  let origin := match old with | some x => x.origin && decide (x.tick = some tick) | none => false
  if (match old with | some x => x.mode == 2 && x.fired | none => false) then d
  else if d.lateWord tick then
    let d := (d.noteLate id tick).gather id tick scope true false origin
    match old with
    | some x => (d.putSnap old { x with mode := 1, tick := none, fired := false }).closeGathers
    | none => d.closeGathers
  else
    let x := d.numbered old
    (x.2.putSnap old { id := id, no := x.1, mode := 2, tick := some tick, scope := scope, origin := origin, fired := true }).gather id tick scope true true origin

/-- SNAPSHOT past the command entry (R138, R147). -/
def Dev.snapshotCmd (d : Dev) (q : Nat) (e : Entry) : Dev :=
  let b := e.block
  let id := e.target
  let mode := fldAt b 0x08 1 0
  let scope := fldAt b 0x08 3 2
  let open_ := d.glob.snaps.filter (fun (x : Snap) => x.latched.isNone)
  let old := d.snapOf id
  let n := d.numbered old
  if idClash mode ((open_.filter (fun (x : Snap) => decide (x.id = id))).map (fun (x : Snap) => x.mode)) then formSnapshot.reply d q e (paramError 1 0x04)
  else if old.isNone && decide (256 ≤ open_.length) then formSnapshot.reply d q e (paramError 0 0x08)
  else if decide (mode = 2) && !(d.scopeReady scope) then formSnapshot.reply d q e modeError
  else if mode = 1 then
    match old with
    | some x =>
      if x.mode = 2 && x.fired && decide (x.tick.getD 0 < d.now + 150) then
        formSnapshot.reply d q e { status := efsLead, result0 := BitVec.ofNat 64 (x.tick.getD 0), result1 := BitVec.ofNat 64 (d.now + 150) }
      else d.hold q 0x15 e (.snapshot id x.no)
    | none => (n.2.putSnap none { id := id, no := n.1, mode := 1, tick := none, scope := scope, fired := false }).hold q 0x15 e (.snapshot id n.1)
  else match d.leadTick (qAt b 0x00) scope with
    | .error w => formSnapshot.reply d q e w
    | .ok t =>
      if mode = 0 then (n.2.putSnap none { id := id, no := n.1, mode := 0, tick := some t }).hold q 0x15 e (.snapshot id n.1)
      else
        ((n.2.putSnap old { id := id, no := n.1, mode := 2, tick := some t, scope := scope, origin := true, fired := false }).hold q 0x15 e (.snapFire id t)).sendScope scope
          { type := 0x18, id := id, arg := scope, tick := BitVec.ofNat 64 t } (fun d => d.onSnapFire id scope t)

/-- SNAPSHOT with its three modes: the entry's MODE decides (assumption 43). -/
def Dev.takeSnapshot (q : Nat) (e : Entry) (d : Dev) : Dev := runCmd formSnapshot q e snapshotChecks (fun d => d.snapshotCmd q e) d

def execSnapshot (dt q : Nat) (e : Entry) (s : State) : Host.Outcome State Fault Refusal := onDev dt (Dev.takeSnapshot q e) s
def execSnapshotJoin (dt q : Nat) (e : Entry) (s : State) : Host.Outcome State Fault Refusal := onDev dt (Dev.takeSnapshot q e) s
def execSnapshotFire (dt q : Nat) (e : Entry) (s : State) : Host.Outcome State Fault Refusal := onDev dt (Dev.takeSnapshot q e) s

/-- WPTR: the address of the next entry of the aperture's first descriptor. -/
def Aperture.wptr (p : Aperture) : Nat :=
  match p.acq.subs with
  | r :: _ => r.base + p.acq.slice * r.sliceBytes + r.p * r.entryBytes
  | [] => 0

/-- An entry of R148, before the verdict of a provisional candidate. -/
def Dev.snapEntry (d : Dev) (a : Nat) : List Word :=
  let p := d.ap a
  [ Word.place 15 0 a ||| Word.place 19 16 p.state ||| Word.place 23 20 p.acqState, d.reg (acqReg a 0x04) ] ++ qwords p.wptr ++
  [d.reg (acqReg a 0x08), d.reg (acqReg a 0x0C), d.reg (acqReg a 0x10), 0]

/-- A tick has come by tick `t`. -/
def cameBy (tick : Option Nat) (t : Nat) : Bool := match tick with | some u => decide (u ≤ t) | none => false

/-- A launch of tick `t` or earlier has not acted yet: what R143 puts after it waits. -/
def Dev.launchesBy (d : Dev) (t : Nat) : Bool := d.glob.launches.any (fun (l : Launch) => (l.mode == 0 || l.fired) && cameBy l.tick t)

/-- A snapshot of tick `t` or earlier is not latched yet. -/
def Dev.snapsBy (d : Dev) (t : Nat) : Bool := d.glob.snaps.any (fun (x : Snap) => x.latched.isNone && x.fired && cameBy x.tick t)

/-- SNAPSHOT_TICK (R143, R147): after the launches of its tick, every non-EMPTY aperture is latched, where a command wants it; the device reports (R133). -/
def Dev.snapshotTick (d : Dev) (id : Nat) : Dev :=
  match d.glob.snaps.find? (fun (x : Snap) => decide (x.id = id) && x.latched.isNone && x.fired && cameBy x.tick d.now) with
  | none => d
  | some x =>
    let t := x.tick.getD 0
    if d.launchesBy t then d
    else
    let wanted := !(d.ringsOn (.snapshot id x.no)).isEmpty || !(d.ringsOn (.snapFire id t)).isEmpty
    let as_ := (d.aps.filter (fun (p : Nat × Aperture) => decide (p.2.state ≠ 0))).map (·.1)
    let y := { x with
      latched := some (as_.map d.snapEntry, d.clk.tq.code, d.clk.epoch)
      waits := as_.flatMap (fun a => (d.ap a).acq.unresolved a) }
    let d := d.updGlob (fun g => { g with snaps := (g.snaps.filter (fun z => decide (z ≠ x))) ++ (if wanted then [y] else []) })
    if x.mode = 0 then d else d.report id t 99 wanted.toNat true

def execSnapshotTick (dt id : Nat) (s : State) : Host.Outcome State Fault Refusal := onDev dt (fun d => d.snapshotTick id) s

/-- A snapshot is written to the OUT buffer of the command on ring `q`, which completes (R147, R148). -/
def Dev.writeSnapshot (d : Dev) (x : Snap) (q detail : Nat) : Dev :=
  match (d.ring q).busy, x.latched with
  | some b, some (es, tq, epoch) =>
    let t := x.tick.getD 0
    let n := if b.outLen < 16 then 0 else min es.length ((b.outLen - 16) / 32)
    let head := qwords t ++ [Word.place 15 0 es.length ||| Word.place 17 16 tq ||| Word.place 20 18 d.clk.group ||| Word.place 23 21 d.clk.pos, BitVec.ofNat 32 epoch]
    let d := d.writeOut b.outPtr b.outLen (head ++ (es.take n).flatten)
    d.finishRing q { detail := detail, result0 := BitVec.ofNat 64 t, result1 := BitVec.ofNat 64 n }
  | _, _ => d

/-- SNAPSHOT_OUT_WRITE (R147, R148): after the verdict of every candidate that was provisional at the tick; a FIRE also waits for its count. -/
def Dev.snapshotOut (d : Dev) (id : Nat) : Dev :=
  match d.glob.snaps.find? (fun (x : Snap) => decide (x.id = id) && x.latched.isSome && x.waits.isEmpty) with
  | none => d
  | some x =>
    let d := (d.ringsOn (.snapshot id x.no)).foldl (fun (d : Dev) q => d.writeSnapshot x q 0) d
    let w := Wait.snapFire id (x.tick.getD 0)
    let d := match x.applied with
      | some n => (d.ringsOn w).foldl (fun (d : Dev) q => d.writeSnapshot x q (min n 255)) d
      | none => d
    if (d.ringsOn w).isEmpty then d.updGlob (fun g => { g with snaps := g.snaps.filter (fun y => decide (y ≠ x)) }) else d

def execSnapshotOutWrite (dt id : Nat) (s : State) : Host.Outcome State Fault Refusal := onDev dt (fun d => d.snapshotOut id) s

/-! ### RESET_AT (R150) -/

def formReset : CmdForm := { opcode := 0x16, blockLen := 24 }

def resetChecks (_ : Dev) (b : List Word) : List (Nat × Bool) :=
  [ rng b 0x08 1 0 0 2, zer b 0x08 7 2, zer b 0x08 31 10, zer b 0x0C 31 0 ]

/-- A RESET_FIRE sent down from the top (R136, R141, R150). -/
def Dev.onResetFire (d : Dev) (id scope tick : Nat) (time acq : Bool) (load : QWord) : Dev :=
  if d.lateWord tick then d.noteLate id tick
  else
    let mine (r : ResetAct) : Bool := decide (r.id = id ∧ r.tick = tick) && r.origin && !r.fired
    let rest := d.glob.resets.filter (fun r => !(mine r))
    let r : ResetAct := { id := id, tick := tick, scope := scope, time := time, acq := acq, load := load, origin := d.glob.resets.any mine }
    d.updGlob (fun g => { g with resets := rest ++ [r] })

def execResetAt (dt q : Nat) (e : Entry) (s : State) : Host.Outcome State Fault Refusal :=
  onDev dt (runCmd formReset q e resetChecks (fun d =>
    let b := e.block
    let scope := fldAt b 0x08 1 0
    let time := bitAt b 0x08 8
    let acq := bitAt b 0x08 9
    let load := qAt b 0x10
    if decide (scope ≠ 0) && !(d.scopeReady scope) then formReset.reply d q e modeError
    else match d.leadTick (qAt b 0x00) scope with
      | .error w => formReset.reply d q e w
      | .ok t =>
        let r : ResetAct := { id := e.target, tick := t, scope := scope, time := time, acq := acq, load := load, origin := true, fired := decide (scope = 0) }
        let d := (d.updGlob (fun g => { g with resets := g.resets ++ [r] })).hold q 0x16 e (.reset e.target t)
        if scope = 0 then d
        else d.sendScope scope
          { type := 0x1A, id := e.target, arg := scope + 4 * time.toNat + 8 * acq.toNat, tick := BitVec.ofNat 64 t, payload := if time then [load.lo, load.hi] else [] }
          (fun d => d.onResetFire e.target scope t time acq load))) s

/-- The restarts of the RESET_ATs whose tick has come, which precede every load of the tick (R143). -/
def resetRestarts (x : Dev × Mems) : Dev × Mems :=
  let due (r : ResetAct) : Bool := r.fired && r.acq && decide (r.tick ≤ x.1.now)
  let y := (x.1.glob.resets.filter due).foldl (fun y _ =>
    ((y.1.aps.filter (fun (p : Nat × Aperture) => decide (p.2.state = 3))).map (·.1)).foldl (fun y a => restartAcq a y) y) x
  (y.1.updGlob (fun g => { g with resets := g.resets.map (fun r => if due r then { r with acq := false } else r) }), y.2)

/-- The command of a RESET_AT completes at its tick (R150). -/
def Dev.resetDone (d : Dev) (r : ResetAct) : Dev :=
  (d.updGlob (fun g => { g with resets := g.resets.filter (fun y => decide (y ≠ r)) })).finish (.reset r.id r.tick)
    { doneTb := some (BitVec.ofNat 64 r.tick) }

/-- RESET_TICK (R143, R150): after the launches and snapshots of its tick, the acquisitions restart, then the count is loaded; the command on the
origin completes. A load leaves what else is still pending cancelled, a second load of its tick too (assumption 48). -/
def resetTick (id : Nat) (x : Dev × Mems) : Dev × Mems :=
  if x.1.launchesBy x.1.now || x.1.snapsBy x.1.now then x
  else
    let x := resetRestarts x
    match x.1.glob.resets.find? (fun (r : ResetAct) => decide (r.id = id ∧ r.tick ≤ x.1.now)) with
    | none => x
    | some r =>
      if r.fired && r.time then
        let others := x.1.glob.resets.filter (fun (y : ResetAct) => decide (y.tick ≤ x.1.now) && !(y.fired && y.time))
        let d := others.foldl (fun (d : Dev) y => d.resetDone y) x.1
        ((d.resetDone r).loadTime (r.load + BitVec.ofNat 64 (x.1.now - r.tick)), x.2)
      else (x.1.resetDone r, x.2)

/-! ### The order of one tick before a load (R143) -/

/-- A due launch of an identifier acts; a launch of a wider scope is counted by its origin (R133). -/
def launchNow (id : Nat) (x : Dev × Mems) : Dev × Mems :=
  match x.1.dueLaunch id with
  | none => x
  | some l =>
    let named := !(x.1.dueApertures l).isEmpty
    let y := launchDue id x
    if l.mode = 0 then y else (y.1.report id (l.tick.getD 0) 99 named.toNat false, y.2)

/-- A launch, snapshot or RESET_AT is due and has not acted yet. -/
def Dev.actionsDue (d : Dev) : Bool := d.launchesBy d.now || d.snapsBy d.now || d.glob.resets.any (fun (r : ResetAct) => decide (r.tick ≤ d.now))

/-- What is due at the tick of a timebase load acts before it (R143): launches, then snapshots, then RESET_AT. -/
def settleDue (x : Dev × Mems) : Dev × Mems :=
  if x.1.actionsDue then
    let x := (x.1.glob.launches.map (fun (l : Launch) => l.id)).foldl (fun x id => launchNow id x) x
    let d := (x.1.glob.snaps.map (fun (y : Snap) => y.id)).foldl (fun (d : Dev) id => d.snapshotTick id) x.1
    (d.glob.resets.map (fun (r : ResetAct) => r.id)).foldl (fun x id => resetTick id x) (d, x.2)
  else x

/-! ### BARRIER (R145) -/

def formBarrier : CmdForm := { opcode := 0x14, blockLen := 4 }

def barrierChecks (_ : Dev) (b : List Word) : List (Nat × Bool) := [rng b 0x00 1 0 0 2, zer b 0x00 31 2]

def execBarrier (dt q : Nat) (e : Entry) (s : State) : Host.Outcome State Fault Refusal :=
  onDev dt (runCmd formBarrier q e barrierChecks (fun d =>
    let scope := fldAt e.block 0x00 1 0
    if scope = 0 then formBarrier.reply d q e {}
    else if !(d.scopeReady scope) then formBarrier.reply d q e modeError
    else (d.hold q 0x14 e (.barrier e.target scope false)).arriveBarrier e.target scope none 0)) s

/-! ### BROADCAST (R149) -/

def formBroadcast : CmdForm := { opcode := 0x17, blockLen := 36 }

def broadcastChecks (_ : Dev) (b : List Word) : List (Nat × Bool) := [rng b 0x20 1 0 1 2, zer b 0x20 31 2]

def execBroadcast (dt q : Nat) (e : Entry) (s : State) : Host.Outcome State Fault Refusal :=
  onDev dt (runCmd formBroadcast q e broadcastChecks (fun d =>
    let scope := fldAt e.block 0x20 1 0
    if !(d.isTop scope) || !(d.scopeReady scope) then formBroadcast.reply d q e modeError
    else
      let t := ((d.glob.bcasts.filter (fun (x : Bcast) => x.sender && !x.delivered)).map (fun (x : Bcast) => x.tick)).foldl max (d.now + releaseDelay scope)
      let payload := takePad 0 8 e.block
      let x : Bcast := { id := e.target, tick := t, payload := payload, scope := scope, waits := d.downLinks scope, count := 0, sender := true, ring := q }
      ((d.updGlob (fun g => { g with bcasts := g.bcasts ++ [x] })).queueWords (d.downLinks scope)
        { type := 0x28, id := e.target, arg := scope, tick := BitVec.ofNat 64 t, payload := payload }).hold q 0x17 e .broadcast)) s

/-- A broadcast stored here and acknowledged by every device below ends: at the sender the command completes, elsewhere the acknowledgement
goes up. -/
def Dev.closeBcast (d : Dev) (x : Bcast) : Dev :=
  if x.delivered && x.waits.isEmpty then
    let d := d.updGlob (fun g => { g with bcasts := g.bcasts.filter (fun y => decide (y ≠ x)) })
    if x.sender then
      if (d.ringsOn .broadcast).contains x.ring then
        d.finishRing x.ring { result0 := BitVec.ofNat 64 x.tick, result1 := BitVec.ofNat 64 (x.count + 1) }
      else d
    else d.queueUp { type := 0x29, id := x.id, arg := x.count + 1 }
  else d

/-- BROADCAST_DELIVERY (R149): payloads whose tick has come are stored, in the order sent. -/
def Dev.bcastDelivery (d : Dev) : Dev :=
  (d.glob.bcasts.filter (fun (x : Bcast) => !x.delivered && decide (x.tick ≤ d.now))).foldl (fun (d : Dev) x =>
    let y := { x with delivered := true }
    let d := d.updGlob (fun g => { g with bcasts := g.bcasts.map (fun z => if z = x then y else z) })
    ({ d with clk := { d.clk with bcast := x.payload, bcastSeq := d.clk.bcastSeq + 1 } } : Dev).closeBcast y) d

def execBroadcastDelivery (dt : Nat) (s : State) : Host.Outcome State Fault Refusal := onDev dt (fun d => d.bcastDelivery) s

end Sys2Proof.Machine
end

