-- ==== Sys2Proof/Machine/Held.lean ====
section
/-!
DEFINITION. The commands held while an acquisition is provisional (R81, R311), and what ends that state: verdicts, halts, restarts and loads.
-/

namespace Sys2Proof.Machine

/-! ### Held commands (R81) -/

/-- Run the command held on ring `q` for apertures: a completion that it gives at once is none of those that did not wait (R551). -/
def Dev.runHeld (d : Dev) (q : Nat) (as_ : List Nat) (c : HeldCmd) : Dev :=
  let a := as_.headD 0
  let now (run : Dev → Dev) : Dev := (run (d.setRing q { d.ring q with busy := none, bellAt := d.clk.time })).ringSettled q
  match c with
  | .halt t => d.haltNow q a t
  | .trigger => d.triggerNow q a
  | .freeze => d.freezeNow q a
  | .stage e => now (fun d => d.stage q e)
  | .admission e => now (fun d => d.admitCmd q e)
  | .launch e => now (fun d => d.launchCmd q e)
  | .cancel e => now (fun d => d.cancelCmd q e)

/-- The commands held, in the order they were taken; those taken on one tick in the order of their rings (assumption 112). -/
def Dev.heldCmds (d : Dev) : List (Nat × List Nat × HeldCmd) :=
  (sortBy (fun (p : Nat × Nat × List Nat × HeldCmd) => p.1) (d.rings.filterMap (fun (p : Nat × Ring) => match p.2.busy with
    | some b => (match b.wait with | .held as_ c => some (b.takenAt, p.1, as_, c) | _ => none)
    | none => none))).map (·.2)

/-- Execute the held commands whose apertures are provisional no more. A command that outlived its ring leaves nothing behind (R39). -/
def Dev.runHeldAll (d : Dev) : Dev :=
  d.heldCmds.foldl (fun (d : Dev) h =>
    if h.2.1.any (fun a => (d.ap a).acq.prov.isSome) then d
    else
      let d := d.runHeld h.1 h.2.1 h.2.2
      if 64 ≤ h.1 ∧ (d.ring h.1).busy.isNone then { d with rings := Tbl.drop h.1 d.rings } else d) d

/-- A command's answer when it may end a provisional state: the held commands follow. -/
def onHeld (dt : Nat) (f : Dev → Mems → Dev × Mems) (s : State) : Host.Outcome State Fault Refusal :=
  onAll dt (fun d m => ((f d m).1.runHeldAll, (f d m).2)) s

/-! ### Verdicts (R310, R311, R314) -/

/-- The verdict of the current candidate (R310, R311): apply it, run the held commands, take the held candidates. -/
def Dev.resolveAp (d : Dev) (a : Nat) (c : Candidate) (ok : Bool) : Dev :=
  let held := (d.ap a).acq.held
  let d := d.updAcq a (fun x => { x with prov := none, held := [] })
  let d := if ok then d.meetCandidate a { c with prov := false } else d
  held.foldl (fun d h => d.againCandidate a h) d.runHeldAll

/-- A verdict reaches aperture `a` (R310, R311, R314); a snapshot that rests on the candidate has it too (R148). A candidate of a halted
aperture is not counted. -/
def Dev.meetVerdict (d : Dev) (a src fire : Nat) (ok : Bool) : Dev :=
  let d := d.settleSnaps a src fire ok
  let x := (d.ap a).acq
  let isIt (c : Candidate) : Bool := decide (c.src = src ∧ c.fire = fire)
  match x.lost.find? (fun (l : Candidate × Nat) => isIt l.1) with
  | some l =>
    let d := d.updAcq a (fun x => { x with lost := x.lost.filter (fun (m : Candidate × Nat) => !isIt m.1) })
    if ok ∧ l.2 ≠ 0 then d.countLost a l.1.tick l.2 else d
  | none =>
    match x.prov with
    | some (c, _) =>
      if isIt c then d.resolveAp a c ok
      else d.updAcq a (fun x => { x with held := x.held.map (fun (h : Candidate × Option Bool) => if isIt h.1 then (h.1, some ok) else h) })
    | none => d

/-- APERTURE_VERDICT (R311): the oldest verdict that has arrived at the aperture. -/
def execApertureVerdict (dt a : Nat) (s : State) : Host.Outcome State Fault Refusal :=
  onAll dt (fun d m =>
    match (d.ap a).acq.inbox with
    | (t, .verdict src fire ok) :: rest =>
      if d.cyc < t then (d, m) else completeFull a ((d.updAcq a (fun x => { x with inbox := rest })).meetVerdict a src fire ok, m)
    | _ => (d, m)) s

/-! ### Halts, restarts and loads -/

def execApertureHaltTick (dt a : Nat) (s : State) : Host.Outcome State Fault Refusal := onHeld dt (fun d m => apertureHaltTick a (d, m)) s

def execResetTick (dt id : Nat) (s : State) : Host.Outcome State Fault Refusal := onHeld dt (fun d m => resetTick id (d, m)) s

def execPpsEdge (dt : Nat) (falling : Bool) (frac : Nat) (s : State) : Host.Outcome State Fault Refusal :=
  onHeld dt (fun d m =>
    let x := if d.ppsLoads falling then settleDue (d, m) else (d, m)
    (x.1.ppsEdge falling frac, x.2)) s

end Sys2Proof.Machine
end

