-- ==== Sys2Proof/Machine/CaptureCmds.lean ====
section
/-!
DEFINITION. The commands of acquisition (R81, R341, R342).
-/

namespace Sys2Proof.Machine

def formArm : CmdForm := { opcode := 0x30, targetHi := 1023, isAp := true }
def formTrigger : CmdForm := { opcode := 0x31, targetHi := 1023, isAp := true }
def formFreeze : CmdForm := { opcode := 0x32, targetHi := 1023, isAp := true }

/-- CAPTURE_ARM (R342): legal in LIVE and COMPLETE. -/
def execCaptureArm (dt q : Nat) (e : Entry) (s : State) : Host.Outcome State Fault Refusal :=
  onDev dt (runCmd formArm q e noChecks (fun d => (d.hold q 0x30 e (.arm e.target)).armNow q e.target)) s

/-- CAPTURE_TRIGGER (R342); held while the aperture is provisional (R81). -/
def execCaptureTrigger (dt q : Nat) (e : Entry) (s : State) : Host.Outcome State Fault Refusal :=
  onDev dt (runCmd formTrigger q e noChecks (fun d =>
    d.orHeld q 0x31 e [e.target] .trigger (fun d => (d.hold q 0x31 e (.held [e.target] .trigger)).triggerNow q e.target))) s

/-- CAPTURE_FREEZE (R342); held while the aperture is provisional (R81). -/
def execCaptureFreeze (dt q : Nat) (e : Entry) (s : State) : Host.Outcome State Fault Refusal :=
  onDev dt (runCmd formFreeze q e noChecks (fun d =>
    d.orHeld q 0x32 e [e.target] .freeze (fun d => (d.hold q 0x32 e (.freeze e.target)).freezeNow q e.target))) s

/-! ### RECORD_LIST (R341) -/

def formRecordList : CmdForm := { opcode := 0x33, blockLen := 8, targetHi := 1023, isAp := true }

def recordListChecks (_ : Dev) (b : List Word) : List (Nat × Bool) := [rng b 0x04 15 0 1 65535, zer b 0x04 31 17]

/-- The records that fit whole into `room` dwords, at most `n` of them. -/
def fitRecords (desc : Bool) : Nat → Nat → List Rec → List (Rec × List Word)
  | 0, _, _ => []
  | _ + 1, _, [] => []
  | n + 1, room, r :: t =>
    let ws := if desc then r.words else r.headerWords
    if ws.length ≤ room then (r, ws) :: fitRecords desc n (room - ws.length) t else []

/-- The records of an aperture that RECORD_LIST writes. -/
def Aperture.recordsFrom (p : Aperture) (b : List Word) (outLen : Nat) : List (Rec × List Word) :=
  let rs := (sortBy (fun (r : Rec) => r.recno) p.acq.listed).filter (fun r => decide ((dwAt b 0).toNat ≤ r.recno))
  fitRecords (bitAt b 0x04 16) (fldAt b 0x04 15 0) (outLen / 4 - 4) rs

/-- The list header: records listed, the oldest, the newest, 0. -/
def Aperture.listHeader (p : Aperture) : List Word :=
  let ns := (sortBy (fun (r : Rec) => r.recno) p.acq.listed).map (fun r => r.recno)
  [BitVec.ofNat 32 ns.length, BitVec.ofNat 32 (ns.headD 0), BitVec.ofNat 32 (ns.getLastD 0), 0]

def execRecordList (dt q : Nat) (e : Entry) (s : State) : Host.Outcome State Fault Refusal :=
  onDev dt (runCmd formRecordList q e recordListChecks (fun d =>
    let p := d.ap e.target
    if p.state = 0 then formRecordList.reply d q e (d.stateError e.target)
    else
      let rs := p.recordsFrom e.block e.outLen
      let last := match rs.getLast? with | some r => r.1.recno + 1 | none => (dwAt e.block 0).toNat
      formRecordList.reply (d.writeOutE e (p.listHeader ++ (rs.map (·.2)).flatten)) q e
        { result0 := BitVec.ofNat 64 rs.length, result1 := BitVec.ofNat 64 last })) s

end Sys2Proof.Machine
end

