-- ==== Sys2Proof/Machine/SyncRows.lean ====
section
/-!
DEFINITION. The sync lanes: what each received word does (R122, R123, R125, R129, R133, R136, R145–R150, R306–R308), what a lane sends in
its slots (R124, R129), and links coming up and going down (R125–R127).
-/

namespace Sys2Proof.Machine

/-! ### Received words -/

/-- A word on a link that is up, acted on once (R123). -/
def onWord (dt k : Nat) (w : SyncWord) (f : Dev → Dev) (s : State) : Host.Outcome State Fault Refusal :=
  onDev dt (fun d => if (d.link k).up then d.acceptWord k w f else d) s

/-- A word that a lane brings whether its link is up or still coming up (R126). -/
def onLane (dt k : Nat) (w : SyncWord) (f : Dev → Dev) (s : State) : Host.Outcome State Fault Refusal :=
  onDev dt (fun d => if (d.link k).up || d.linkUsed k then d.acceptWord k w f else d) s

/-- IDLE (R129): quality and the scope-complete bit. A bit from above is the system's; on a member it stands for its group too. -/
def Dev.onIdle (d : Dev) (k arg : Nat) : Dev :=
  let c := decide (arg / 4 % 2 = 1)
  let d := d.setLink k { d.link k with tq := arg % 4, complete := c }
  let d := if d.fromAbove k then
      { d with clk := { d.clk with scopeSystem := c, scopeGroup := if d.clk.role = 3 then c else d.clk.scopeGroup } }
    else d
  d.scopeUpdate

def execIdle (dt k : Nat) (w : SyncWord) (s : State) : Host.Outcome State Fault Refusal :=
  onDev dt (fun d => if (d.link k).up then (d.goodWord k).onIdle k w.arg else d) s

/-- RANGE_REQ (R125): it is echoed with its count; the turnaround is known when the echo is sent. -/
def execRangeReq (dt k : Nat) (w : SyncWord) (s : State) : Host.Outcome State Fault Refusal :=
  onLane dt k w (fun d => d.queueWord k { type := 0x02, id := w.id, tick := w.tick, payload := [d.clk.count.lo, d.clk.count.hi] }) s

/-- One measurement: half the round trip, less the turnaround, in ps. The filter over 8 measurements is their mean, rounded down (R125;
DESIGN CHOICE, assumption 108). -/
def SyncLink.measure (l : SyncLink) (trip : Nat) : SyncLink :=
  let ms := (trip * 1000 / 6 :: l.meas).take 8
  { l with meas := ms, delayPs := ms.sum / ms.length, reqAt := none }

/-- RANGE_ECHO (R125). -/
def execRangeEcho (dt k : Nat) (w : SyncWord) (s : State) : Host.Outcome State Fault Refusal :=
  onLane dt k w (fun d => if (d.link k).reqAt = some w.tick then d.setLink k ((d.link k).measure ((d.clk.count - w.tick).toNat - w.arg)) else d) s

/-- The word as it is passed on. -/
def wordOut (w : SyncWord) (type : Nat) : SyncOut :=
  { type := type, flags := if w.prov then 2 else 0, id := w.id, arg := w.arg, tick := w.tick, payload := w.payload }

def execFire (dt k : Nat) (w : SyncWord) (s : State) : Host.Outcome State Fault Refusal :=
  onWord dt k w (fun d => d.passWord k (w.arg % 4) (wordOut w 0x10) (fun d => d.onFire w.id (w.arg % 4) w.tick.toNat)) s

def execCancel (dt k : Nat) (w : SyncWord) (s : State) : Host.Outcome State Fault Refusal :=
  onWord dt k w (fun d => d.passWord k (w.arg % 4) (wordOut w 0x11) (fun d => d.onCancel w.id w.tick.toNat)) s

/-- APPLIED (R133): from below a report; from above the count, for the origin. -/
def Dev.onApplied (d : Dev) (k : Nat) (w : SyncWord) : Dev :=
  let n := w.arg % 2 ^ 16
  let snap := decide (w.arg / 2 ^ 16 % 2 = 1)
  if d.fromAbove k then (d.appliedHere w.id w.tick.toNat n snap).queueWords (d.downLinks 1) (wordOut w 0x12)
  else d.report w.id w.tick.toNat k n snap

def execApplied (dt k : Nat) (w : SyncWord) (s : State) : Host.Outcome State Fault Refusal := onWord dt k w (fun d => d.onApplied k w) s

def execSnapFire (dt k : Nat) (w : SyncWord) (s : State) : Host.Outcome State Fault Refusal :=
  onWord dt k w (fun d => d.passWord k (w.arg % 4) (wordOut w 0x18) (fun d => d.onSnapFire w.id (w.arg % 4) w.tick.toNat)) s

def execResetFire (dt k : Nat) (w : SyncWord) (s : State) : Host.Outcome State Fault Refusal :=
  onWord dt k w (fun d => d.passWord k (w.arg % 4) { wordOut w 0x1A with payload := if w.arg / 4 % 2 = 1 then takePad 0 2 w.payload else [] } (fun d =>
    d.onResetFire w.id (w.arg % 4) w.tick.toNat (decide (w.arg / 4 % 2 = 1)) (decide (w.arg / 8 % 2 = 1)) (QWord.ofHalves (w.payload.getD 0 0) (w.payload.getD 1 0)))) s

/-- BARRIER_ARRIVE (R145): arrivals in [15:0] of ARG, the scope in [17:16] (assumption 47). -/
def execBarrierArrive (dt k : Nat) (w : SyncWord) (s : State) : Host.Outcome State Fault Refusal :=
  onWord dt k w (fun d => d.arriveBarrier w.id (argScope w.arg) (some k) (w.arg % 2 ^ 16)) s

/-- BARRIER_WITHDRAW (R146): nothing once the release is sent, since that arrives instead. Else the top answers, and a leader answers for what it has
not sent up. -/
def Dev.onWithdraw (d : Dev) (k id scope : Nat) : Dev :=
  if d.glob.releases.any (fun (r : Release) => decide (r.id = id ∧ r.scope = scope)) then d
  else match d.barrierOf id scope with
  | none => d.queueWord k { type := 0x23, id := id, arg := barrierArg 0 scope }
  | some c =>
    let d := d.updGlob (fun g => { g with barriers := g.barriers.map (fun (x : BarrierCount) =>
      if x = c then { x with links := x.links.filter (fun l => decide (l.1 ≠ k)), sentUp := false } else x) })
    if !(d.isTop scope) && c.sentUp then d.queueUp { type := 0x21, id := id, arg := barrierArg (d.arrivals id scope) scope }
    else d.queueWord k { type := 0x23, id := id, arg := barrierArg (d.arrivals id scope) scope }

def execBarrierWithdraw (dt k : Nat) (w : SyncWord) (s : State) : Host.Outcome State Fault Refusal :=
  onWord dt k w (fun d => if d.fromAbove k then d else d.onWithdraw k w.id (argScope w.arg)) s

/-- BARRIER_RELEASE (R130, R141, R145): the command completes at the release tick; a late one releases nothing. -/
def execBarrierRelease (dt k : Nat) (w : SyncWord) (s : State) : Host.Outcome State Fault Refusal :=
  onWord dt k w (fun d =>
    if !(d.fromAbove k) then d
    else if d.lateWord w.tick.toNat then d.noteLate w.id w.tick.toNat
    else d.releaseBarrier w.id (argScope w.arg) w.tick.toNat (w.arg % 2 ^ 16)) s

/-- BARRIER_WITHDRAWN (R146). -/
def execBarrierWithdrawn (dt k : Nat) (w : SyncWord) (s : State) : Host.Outcome State Fault Refusal :=
  onWord dt k w (fun d =>
    if d.fromAbove k then (d.finish (.barrier w.id (argScope w.arg) true) { status := efsTimeout }).queueWords (d.downLinks 1) (wordOut w 0x23) else d) s

/-- A broadcast whose parts have all come: the value of its 32 bytes. -/
def SyncLink.bcastWhole (l : SyncLink) (id : Nat) : Option Nat :=
  let part (i : Nat) : Option Nat := (l.parts.find? (fun p => decide (p.1 = id ∧ p.2.1 = i))).map (fun p => p.2.2)
  match part 0, part 1, part 2 with
  | some a, some b, some c => some (a + 2 ^ 88 * b + 2 ^ 176 * c)
  | _, _, _ => none

/-- A part of a broadcast (R122, R149): passed on down; with the last one the payload is held until its delivery tick. -/
def Dev.onBcastPart (d : Dev) (k : Nat) (w : SyncWord) : Dev :=
  let l := d.link k
  let i := w.arg / 2 ^ 24 % 256
  let d := d.queueWords (d.downLinks 1) (wordOut w 0x28)
  if i < 3 then
    d.setLink k { d.link k with parts := l.parts.filter (fun p => decide (p.1 ≠ w.id ∨ p.2.1 ≠ i)) ++ [(w.id, i, w.tick.toNat + 2 ^ 64 * (w.arg % 2 ^ 24))] }
  else
    let d := d.setLink k { d.link k with parts := l.parts.filter (fun p => decide (p.1 ≠ w.id)) }
    match l.bcastWhole w.id with
    | none => d
    | some v =>
      let x : Bcast := { id := w.id, tick := w.tick.toNat, payload := (List.range 8).map (fun j => BitVec.ofNat 32 (v / 2 ^ (32 * j))),
                         scope := if k < 8 then 1 else 2, waits := d.downLinks 1, count := 0, sender := false }
      d.updGlob (fun g => { g with bcasts := g.bcasts ++ [x] })

/-- BCAST_DATA (R149). -/
def execBcastData (dt k : Nat) (w : SyncWord) (s : State) : Host.Outcome State Fault Refusal :=
  onWord dt k w (fun d => if d.fromAbove k then d.onBcastPart k w else d) s

/-- BCAST_ACK (R149): of the oldest broadcast of the identifier that still waits for the link. -/
def Dev.onAck (d : Dev) (k id n : Nat) : Dev :=
  match d.glob.bcasts.find? (fun (x : Bcast) => decide (x.id = id) && x.waits.contains k) with
  | none => d
  | some x =>
    let y := { x with waits := x.waits.filter (· != k), count := x.count + n }
    (d.updGlob (fun g => { g with bcasts := g.bcasts.map (fun z => if z = x then y else z) })).closeBcast y

def execBcastAck (dt k : Nat) (w : SyncWord) (s : State) : Host.Outcome State Fault Refusal :=
  onWord dt k w (fun d => if d.fromAbove k then d else d.onAck k w.id w.arg) s

/-- TRIG (R305–R307). -/
def execTrig (dt k : Nat) (w : SyncWord) (s : State) : Host.Outcome State Fault Refusal :=
  onWord dt k w (fun d => d.passWord k (w.arg / 2 ^ 8 % 4) (wordOut w 0x30) (fun d => d.receiveTrig k w.id (w.arg % 256) w.tick.toNat w.prov)) s

/-- VERDICT (R305, R307, R308). -/
def execVerdict (dt k : Nat) (w : SyncWord) (s : State) : Host.Outcome State Fault Refusal :=
  onWord dt k w (fun d => d.passWord k (w.arg / 2 ^ 8 % 4) (wordOut w 0x31) (fun d => d.receiveVerdict w.id (w.arg % 256) (decide (w.arg / 2 ^ 10 % 2 = 1)))) s

/-! ### Sending (R122–R125, R129) -/

/-- The scope-complete bit that a link's IDLE words carry (R129): a leader sends its group's up; the system's goes down. -/
def Dev.idleBit (d : Dev) (k : Nat) : Bool :=
  if d.fromAbove k then decide (d.clk.role = 2) && d.clk.scopeGroup else d.clk.scopeSystem

/-- The head of a queue is sent: the first copy takes the next SEQ, and its repeat, the next word of the queue, carries the same one. -/
def sendHead (seq : Nat) : List SyncOut → Option (SyncOut × List SyncOut)
  | [] => none
  | w :: t =>
    match w.seq with
    | some _ => some (w, t)
    | none =>
      let sent := { w with seq := some seq }
      match t with
      | c :: r => if c.flags % 2 = 1 && c.seq.isNone then some (sent, { c with seq := some seq } :: r) else some (sent, t)
      | [] => some (sent, [])

/-- The head of a queue of TRIG and VERDICT words is sent, once it has entered the queue (R316). -/
def sendReady (cycle seq : Nat) (q : List SyncOut) : Option (SyncOut × List SyncOut) :=
  match q with
  | w :: _ => if w.ready ≤ cycle then sendHead seq q else none
  | [] => none

/-- A word as it leaves: requests carry the count at which they are sent, echoes their turnaround. -/
def SyncOut.leave (w : SyncOut) (count : QWord) : SyncOut :=
  if w.type = 0x01 then { w with tick := count }
  else if w.type = 0x02 then { w with arg := (count - QWord.ofHalves (w.payload.getD 0 0) (w.payload.getD 1 0)).toNat, payload := [] }
  else w

/-- One word slot of a lane (R124): launch class first, then TRIG and VERDICT, then the rest, else IDLE. -/
def Dev.wordSlot (d : Dev) (k : Nat) : Dev :=
  let l := d.link k
  if !l.up && !(d.linkUsed k) then d
  else
    let seq := (l.txSeq + 1) % 256
    let pick : Option (SyncOut × SyncLink) :=
      match sendHead seq l.launchQ with
      | some (w, t) => some (w, ({ l with launchQ := t } : SyncLink).refill (l.spaced.length + 1))
      | none => match sendReady d.cyc seq l.trigQ with
        | some (w, t) => some (w, { l with trigQ := t })
        | none => (sendHead seq l.otherQ).map (fun r => (r.1, { l with otherQ := r.2 }))
    let d := match pick with
      | some (w, l) =>
        let l := if w.flags % 2 = 0 then { l with txSeq := seq } else l
        let v := w.leave d.clk.count
        let l := if w.type = 0x01 then { l with reqAt := some d.clk.count } else l
        (d.setLink k l).sendWord k (v.seq.getD 0) v
      | none => d.sendWord k l.txSeq { type := 0x00, arg := d.clk.tq.code + 4 * (d.idleBit k).toNat, tick := d.clk.count }
    d.closeGathers.settleCancels

def execSyncWordSlot (dt k : Nat) (s : State) : Host.Outcome State Fault Refusal := onDev dt (fun d => d.wordSlot k) s

/-- RANGING_TIMER (R125, R126): every 1 s while the link is up, and while it is coming up. -/
def Dev.rangeNow (d : Dev) (k : Nat) : Dev :=
  let l := d.link k
  let due := match l.rangedAt with | some t => decide (t + 3000000000 ≤ d.cyc) | none => true
  if (l.up && due) || (!l.up && d.linkUsed k) then (d.setLink k { l with rangedAt := some d.cyc }).queueWord k { type := 0x01 } else d

def execRangingTimer (dt k : Nat) (s : State) : Host.Outcome State Fault Refusal := onDev dt (fun d => d.rangeNow k) s

/-! ### Links (R121, R126, R127, R308) -/

/-- An aperture is LIVE. -/
def Dev.anyLive (d : Dev) : Bool := d.aps.any (fun (p : Nat × Aperture) => decide (p.2.state = 3))

/-- The delay that a link comes up with: what its ranging has measured, else what its row brings (R126). -/
def SyncLink.delayAtUp (l : SyncLink) (delayPs : Nat) : Nat := if l.meas.isEmpty then delayPs else l.delayPs

/-- SYNC_LINK_UP (R126, R127): a link within its cable allowance; `upstream` is the count at the other end. The delay is loaded in whole ticks,
rounded down (DESIGN CHOICE, assumption 108). -/
def Dev.linkUp (d : Dev) (k delayPs : Nat) (upstream : QWord) : Dev :=
  let l := d.link k
  let ps := l.delayAtUp delayPs
  if l.up || !(d.linkUsed k) then d
  else if cableAllowance k < ps then (d.setLink k { l with meas := [] }).raise (evSyncLinkDown + d.linkUnit k) (d.linkUnit k) (k % 8 + 2 * 256) ps
  else
    let d := d.setLink k { ({} : SyncLink) with
      up := true, delayPs := ps, meas := if l.meas.isEmpty then [ps] else l.meas, txSeq := l.txSeq, rangedAt := some d.cyc, goodAt := d.cyc }
    let d := (d.scopeUpdate).raise (evSyncLinkUp + d.linkUnit k) (d.linkUnit k) (k % 8) ps
    if d.fromAbove k then
      if d.anyLive then d.slew else (d.loadTime (upstream + BitVec.ofNat 64 (ps * 3 / 1000))).refBack
    else d

/-- The link's coming up loads the count (R127). -/
def Dev.linkLoads (d : Dev) (k delayPs : Nat) : Bool :=
  !(d.link k).up && d.linkUsed k && decide ((d.link k).delayAtUp delayPs ≤ cableAllowance k) && d.fromAbove k && !d.anyLive

def execSyncLinkUp (dt k delayPs : Nat) (upstream : QWord) (s : State) : Host.Outcome State Fault Refusal :=
  onHeld dt (fun d m =>
    let x := if d.linkLoads k delayPs then settleDue (d, m) else (d, m)
    (x.1.linkUp k delayPs upstream, x.2)) s

/-- A link goes down (R116, R126, R129, R308); for loss of words, once 16 word slots, 720 ticks, have brought none with good CRC. -/
def Dev.linkDown (d : Dev) (k cause : Nat) : Dev :=
  let l := d.link k
  if !(d.linkUsed k) then d
  else if !l.up then (if cause = 1 then d else d.raise (evSyncLinkDown + d.linkUnit k) (d.linkUnit k) (k % 8 + cause % 256 * 256) l.delayPs)
  else if cause = 1 ∧ d.cyc < l.goodAt + 720 ∧ l.bad < 16 then d
  else
    let d := ((d.cutLink k).scopeUpdate).raise (evSyncLinkDown + d.linkUnit k) (d.linkUnit k) (k % 8 + cause % 256 * 256) l.delayPs
    let d := d.closeGathers
    if d.fromAbove k then d.enterHoldover 3 else d

def execSyncLinkDown (dt k cause : Nat) (s : State) : Host.Outcome State Fault Refusal := onDev dt (fun d => d.linkDown k cause) s

/-- SYNC_WORD_CRC_ERROR (R123, R126): counted; the 16th in a row takes the link down. -/
def Dev.badWord (d : Dev) (k : Nat) : Dev :=
  if !(d.link k).up then d
  else
    let d := { d with clk := { d.clk with linkErr := d.clk.linkErr + 1 } }
    let d := d.setLink k { d.link k with bad := (d.link k).bad + 1 }
    if 16 ≤ (d.link k).bad then d.linkDown k 1 else d

def execSyncWordCrcError (dt k : Nat) (s : State) : Host.Outcome State Fault Refusal := onDev dt (fun d => d.badWord k) s

end Sys2Proof.Machine
end

