-- ==== Sys2Proof/Machine/Spares.lean ====
section
/-!
DEFINITION. Spares (R181–R183, R195–R199, R230, R266–R269, R376, R381–R385, R411–R420, R593, R594): the wear evaluation, take-overs, what
the want of a spare costs, and the two commands.
-/

namespace Sys2Proof.Machine

def Dev.updSpares (d : Dev) (f : Spares → Spares) : Dev := { d with spares := f d.spares }

/-! ### Units and spares (R411) -/

/-- The scope of a unit: the bank of a receiver, the converter of a slice, the engine of a lane, the sector of a channel unit, the spare
bank that serves a Facet bank; 0 where a spare serves any unit. -/
def spareScope (kind unit : Nat) : Nat :=
  match kind with
  | 0 => if unit < 96 then unit / 12 else unit - 96
  | 1 => unit / 65
  | 2 => unit / 9
  | 4 => if unit < 512 then unit / 64 else (unit - 512) / 2
  | 6 => if unit < 768 then unit / 32 else unit - 768
  | _ => 0

/-- The unit has been retired. -/
def Dev.isRetired (d : Dev) (kind unit : Nat) : Bool := d.spares.retired.any (fun (r : Retired) => decide (r.kind = kind ∧ r.unit = unit))

/-- A spare unit is neither in use, nor in a take-over, nor retired. -/
def Dev.spareFree (d : Dev) (kind s : Nat) : Bool :=
  !(d.isRetired kind s) && !(d.spares.used.any (fun u => decide (u.1 = kind ∧ u.2.2 = s))) &&
    !(d.spares.running.any (fun (t : Takeover) => decide (t.kind = kind ∧ t.spare = s)))

/-- The spares that may serve a unit. -/
def spareUnits (kind unit : Nat) : List Nat :=
  let c := spareScope kind unit
  match kind with
  | 0 => [96 + c]
  | 2 => [9 * c + 8]
  | 3 => [16, 17]
  | 4 => [512 + 2 * c, 513 + 2 * c]
  | 5 => [32, 33]
  | 6 => [768 + c]
  | 9 => [4]
  | _ => []

/-- The spare that a take-over of a unit would use. -/
def Dev.spareFor (d : Dev) (kind unit : Nat) : Option Nat :=
  match kind with
  | 1 =>
    -- a slice that fails outside the interleave leaves its place to the slice it was calibrated against
    let x := d.ainOf (unit / 65)
    x.out.map (fun o => 65 * (unit / 65) + (if o = unit % 65 then Tbl.look (x.swaps % 64) x.slices (x.swaps % 64) else o))
  | 3 => (spareUnits 3 unit).find? (fun s => decide ((d.engine s).role = 1))
  | 7 => d.chooseSpare unit
  | _ => (spareUnits kind unit).find? (fun s => d.spareFree kind s)

/-! ### Policy (R593, R594) -/

/-- The defaults of R593: whether a value below the threshold crosses it, and the threshold. -/
def wearDefault (kind ind : Nat) : Option (Bool × Nat) :=
  match kind, ind with
  | 0, 0 => some (true, 12)
  | 0, 1 => some (true, 120)
  | 0, 2 => some (false, 10)
  | 0, 3 => some (false, 3)
  | 1, 0 => some (false, 32)
  | 1, 1 => some (false, 2000)
  | 1, 2 => some (false, 150)
  | 2, 0 => some (false, 0)
  | 3, 0 => some (false, 2)
  | 3, 1 => some (true, 20)
  | 4, 0 => some (false, 0)
  | 5, 0 => some (false, 100)
  | 5, 1 => some (false, 1)
  | 6, 0 => some (false, 100)
  | 6, 1 => some (false, 1)
  | 7, 0 => some (false, 1000)
  | 7, 1 => some (false, 3)
  | 7, 2 => some (false, 3)
  | 8, 0 => some (false, 2)
  | 9, 0 => some (false, 0)
  | 9, 1 => some (false, 100)
  | _, _ => none

def policyKey (kind ind : Nat) : Nat := 16 * kind + ind

/-- The limit in force. -/
def Dev.wearLimit (d : Dev) (kind ind : Nat) : Nat :=
  Tbl.look (match wearDefault kind ind with | some x => x.2 | none => 0) d.mc.limits (policyKey kind ind)

/-- A limit of 0 set by a command disables the indicator; a default of 0 does not (assumption 58). -/
def Dev.wearEnabled (d : Dev) (kind ind : Nat) : Bool := d.mc.limits.all (fun p => !(decide (p.1 = policyKey kind ind ∧ p.2 = 0)))

/-- The kind's indicator is in REPORT mode. -/
def Dev.reports (d : Dev) (kind ind : Nat) : Bool := decide (Tbl.look 0 d.mc.modes (policyKey kind ind) = 1)

/-- A value beyond its threshold. -/
def Dev.wearCrossed (d : Dev) (kind ind value : Nat) : Bool :=
  match wearDefault kind ind with
  | some (below, _) => d.wearEnabled kind ind && (if below then decide (value < d.wearLimit kind ind) else decide (d.wearLimit kind ind < value))
  | none => false

/-- The margin to the threshold, per mille of the threshold (assumption 59). -/
def Dev.wearMargin (d : Dev) (kind ind value : Nat) : Nat :=
  let l := d.wearLimit kind ind
  match wearDefault kind ind with
  | some (below, _) =>
    if l = 0 then (if value = 0 then 1000 else 0)
    else if below then (value - l) * 1000 / l else (l - value) * 1000 / l
  | none => 1000

/-! ### Events and the inventory -/

/-- A spare has come into service (R412): the inventory, EV_SPARE_IN and the log. -/
def Dev.spareIn (d : Dev) (kind unit spare cause tick : Nat) : Dev :=
  let e : Retired := { kind := kind, cause := cause, unit := unit, spare := some spare, tick := tick }
  let d := d.updSpares (fun s => { s with
    retired := s.retired ++ [e]
    takeovers := s.takeovers + 1
    used := s.used ++ [(kind, spareScope kind unit, spare)] })
  d.raiseAt evSpareIn 1 unit (BitVec.ofNat 64 (kind + 2 ^ 8 * cause + 2 ^ 16 * spare)).toNat (BitVec.ofNat 64 tick) d.clk.count

/-- A unit is retired with no spare of its scope left (R419). -/
def Dev.spareNone (d : Dev) (kind unit cause : Nat) (gone : Bool) : Dev :=
  let c := spareScope kind unit
  let e : Retired := { kind := kind, cause := cause, unit := unit, spare := none, tick := d.now }
  let d := d.updSpares (fun s => { s with
    retired := if gone then s.retired ++ [e] else s.retired
    exhausted := if s.exhausted.contains (kind, c) then s.exhausted else s.exhausted ++ [(kind, c)] })
  d.raiseAt evSpareExhausted 2 unit (kind + 2 ^ 8 * c) d.clk.count d.clk.count

/-! ### What the want of a spare costs (R198, R269, R419) -/

/-- The apertures in descending number that are LIVE and hold a block for which `p` holds. -/
def Dev.liveWith (d : Dev) (p : Block → Bool) : List Nat :=
  ((d.aps.filter (fun (x : Nat × Aperture) => decide (x.2.state = 3) && x.2.live.any p)).map (fun x => x.1)).reverse

/-- The pad that a receiver serves. -/
def Dev.padOf (d : Dev) (rx : Nat) : Option Nat := (List.range 96).find? (fun p => decide ((d.pad p).rx = rx))

/-- The live load of a sector in kCS/s (R31, R270). -/
def Dev.sectorLoad (d : Dev) (s : Nat) (without : List Nat) : Nat :=
  let ps : Planes := (d.aps.filter (fun (x : Nat × Aperture) => decide (x.2.state = 3) && !(without.contains x.1))).map (fun (x : Nat × Aperture) => (x.1, x.2.live))
  ((ps.all 0x03).map (fun b => if b.2.unit / 64 = s then (match ps.fch (ps.plane b.1) b.2.unit with
    | some f => f.ceil.toNat * (tfN b.2.words / tfHop b.2.words)
    | none => 0) else 0)).sum

/-- Apertures to halt, from the front of a list, until the test passes without them. -/
def haltsUntil (fits : List Nat → Bool) : List Nat → List Nat → List Nat
  | done, [] => done
  | done, a :: t => if fits done then done else haltsUntil fits (done ++ [a]) t

/-- Firmware halts an aperture at the earliest tick of the device lead. -/
def Dev.haltSoon (d : Dev) (cause a : Nat) : Dev :=
  d.updGlob (fun g => { g with halts := g.halts ++ [{ unit := a, tick := d.now + scopeLead 0, cause := cause }] })

/-- An engine is retired with no spare (R269). -/
def Dev.loseEngine (d : Dev) (e cause : Nat) : Dev :=
  let x := d.engine e
  let s := x.sector
  let d := (d.setEngine e { x with role := 3 }).spareNone 3 e cause true
  let d := d.setReg (sectorReg s 0x04) 24000000
  (haltsUntil (fun w => decide (d.sectorLoad s w ≤ 24000000)) [] (d.liveWith (fun b => decide (b.type = 3 ∧ b.unit / 64 = s)))).foldl (fun d a => d.haltSoon 3 a) d

/-- The Facet region of a bank: the regions lie in order of number (assumption 60). -/
def bankRegion (b : Nat) : Nat := if b < 512 then 0 else if b < 640 then 1 else if b < 708 then 2 else if b < 740 then 3 else 4

/-- What the LIVE apertures outside a list need of a Facet region is within what is left of it. -/
def Dev.facetFits (d : Dev) (g : Nat) (without : List Nat) : Bool :=
  let ps : Planes := (d.aps.filter (fun (x : Nat × Aperture) => decide (x.2.state = 3) && !(without.contains x.1))).map (fun (x : Nat × Aperture) => (x.1, x.2.live))
  let lost := d.facetLost g
  match g with
  | 0 => decide ((ps.map (fun p => planeSum2 true p.2 p.2)).sum + lost ≤ 134217728)
  | 1 => decide ((ps.map (fun p => planeDensity p.2)).sum + lost ≤ 33554432)
  | 2 => decide ((ps.all 0x0C).length * 524288 + lost ≤ 17825792)
  | 3 => decide ((ps.map (fun p => planeReduction p.2)).sum + lost ≤ 8388608)
  | _ => true

/-- A block uses a Facet region. -/
def usesFacet (g : Nat) (b : Block) : Bool :=
  match g with
  | 0 => decide (b.type = 0x03)
  | 1 => decide (b.type = 0x0B) && !(dfHost b.words)
  | 2 => decide (b.type = 0x0C)
  | 3 => decide (b.type = 0x09 ∨ b.type = 0x0A ∨ b.type = 0x0C ∨ b.type = 0x08)
  | _ => false

/-- A unit of a kind must be retired, or its place loses it, with no spare of its scope (R419). `failed`: comparator health (R419). -/
def noSpare (kind unit cause : Nat) (x : Dev × Mems) : Dev × Mems :=
  let d := x.1
  let halt (x : Dev × Mems) (a : Nat) : Dev × Mems := haltAperture a 5 x.1.now x
  match kind with
  | 0 =>
    -- the receiver gives no more frames: its JESD204C link goes down, a PSL stream 1 ms after its last good frame (R189, R198)
    let d := d.spareNone 0 unit cause true
    match d.padOf unit with
    | some p =>
      let d := d.laneLost p
      (d.setPad p { d.pad p with aligned := false, good := 0, bad := 0 }, x.2)
    | none => (d, x.2)
  | 1 =>
    let d := d.spareNone 1 unit cause false
    (if cause = 2 then d.setAin (unit / 65) { d.ainOf (unit / 65) with failed := true } else d, x.2)
  | 3 => (d.loseEngine unit cause, x.2)
  | 4 =>
    let d := d.spareNone 4 unit cause true
    match d.placeOf 4 unit 512 with
    | some c =>
      let d := d.updSpares (fun s => { s with lostChans := c :: s.lostChans })
      (d.liveWith (fun b => decide (b.type = 2 ∧ b.unit = c))).foldl halt (d, x.2)
    | none => (d, x.2)
  | 5 =>
    let d := d.spareNone 5 unit cause true
    match (List.range 32).find? (fun n => decide (d.tpPhys n = unit)) with
    | some n =>
      let d := d.updSpares (fun s => { s with lostTps := n :: s.lostTps })
      (d.liveWith (fun b => decide (b.type = 0x0C ∧ b.unit = n))).foldl halt (d, x.2)
    | none => (d, x.2)
  | 6 =>
    let g := bankRegion ((d.placeOf 6 unit 768).getD unit)
    let d := (d.spareNone 6 unit cause true).updSpares (fun s => { s with shrunk := g :: s.shrunk })
    (haltsUntil (fun w => d.facetFits g w) [] (d.liveWith (usesFacet g))).foldl halt (d, x.2)
  | 7 => (d.retirePc unit 2, x.2)
  | 9 => (d.spareNone 9 unit cause true, x.2)
  | _ => x

/-! ### Take-overs (R412–R418) -/

/-- Firmware begins a take-over with a spare: its part is configured in shadow. `value` is that of the indicator that crossed. -/
def Dev.beginTakeover (d : Dev) (kind unit spare cause value : Nat) : Dev :=
  let t : Takeover := { kind := kind, unit := unit, spare := spare, cause := cause, began := d.cyc, value := value }
  let d := d.updSpares (fun s => { s with running := s.running ++ [t] })
  match kind with
  | 3 => d.setEngine spare { d.engine spare with role := 2, sector := (d.engine unit).sector }
  | 7 =>
    let l := (d.pc unit).logical
    (d.setPc spare { d.pc spare with role := 2, logical := l }).updCmc (fun c => { c with copy := Tbl.put l 0 c.copy })
  | _ => d

/-- One take-over of each kind at a time, and four at once (R413). -/
def Dev.mayBegin (d : Dev) (kind : Nat) : Bool :=
  decide (d.spares.running.length < 4) && !(d.spares.running.any (fun (t : Takeover) => decide (t.kind = kind)))

/-- A unit is to be replaced: a lane whose engine has used its spare lane has its engine replaced (R267). Answers whether it is acted on
now. -/
def replaceUnit (kind unit cause value : Nat) (x : Dev × Mems) : (Dev × Mems) × Bool :=
  let lane := decide (kind = 2) && (x.1.spareFor 2 unit).isNone
  let k := if lane then 3 else kind
  let u := if lane then unit / 9 else unit
  if x.1.spares.running.any (fun (t : Takeover) => decide (t.kind = k ∧ t.unit = u)) || x.1.isRetired k u then (x, true)
  else match x.1.spareFor k u with
    | some s => if x.1.mayBegin k then ((x.1.beginTakeover k u s cause value, x.2), true) else (x, false)
    | none => (noSpare k u cause x, true)

/-- A take-over ends without its spare: the spare is idle again. -/
def Dev.endTakeover (d : Dev) (t : Takeover) : Dev :=
  let d := if t.kind = 7 then d.dropPlanned t else d.updSpares (fun s => { s with running := s.running.filter (fun x => decide (x ≠ t)) })
  match t.kind with
  | 3 => d.setEngine t.spare { d.engine t.spare with role := 1, sector := 0 }
  | 7 => d.setPc t.spare { d.pc t.spare with role := 1, logical := 0xFF }
  | _ => d

/-- The third mismatch abandons the take-over; the unit stays in service (R412). -/
def Dev.abandon (d : Dev) (t : Takeover) : Dev :=
  let d := (d.endTakeover t).updSpares (fun s => { s with abandoned := s.abandoned + 1 })
  let d := d.logOnly 0x1001 1 (t.kind + 2 ^ 8 * t.cause + 2 ^ 16 * t.spare) (unit := t.unit)
  match t.kind with
  | 0 => d.raise (evLaneFault + t.unit) t.unit 5 ((d.padOf t.unit).getD 0)
  | _ => d

/-- The receiver's pad has lost alignment (R197). -/
def Dev.lostPad (d : Dev) (rx : Nat) : Bool :=
  match d.padOf rx with
  | some p => decide ((d.pad p).mode ≠ 0) && (d.pad p).everAligned && !(d.pad p).aligned
  | none => false

/-- The attempt has passed: the spares' outputs agreed, or the active receiver's frame was bad (R196, R412). -/
def Dev.lockstepPassed (d : Dev) (t : Takeover) (agree : Bool) : Bool :=
  agree || (decide (t.kind = 0) && (match d.padOf t.unit with | some p => (d.pad p).lastBad | none => false))

/-- The tick at which a spare takes over: the launch of R140; for a receiver that has lost alignment the first frame boundary (R197), for a
sequencer core the command boundary at hand (R418). -/
def Dev.spareTick (d : Dev) (t : Takeover) : Nat :=
  if t.kind = 9 then d.now
  else if t.kind = 0 ∧ d.lostPad t.unit then
    let taken := d.ownerTicks 0 t.unit
    freeBoundary (d.boundaries 0 t.unit) taken taken.length d.now
  else d.takeoverTick t.kind t.unit

/-- The lockstep of the take-over of a kind ends, once its span has passed (R411, R412). A receiver that has lost alignment takes over without
lockstep (R197); a pseudo-channel is compared once its copy is complete (R416). -/
def Dev.lockstepEnd (d : Dev) (kind : Nat) (agree : Bool) : Dev :=
  match d.spares.running.find? (fun (t : Takeover) => decide (t.kind = kind) && t.launch.isNone) with
  | none => d
  | some t =>
    let blind := decide (kind = 0) && d.lostPad t.unit
    let copying := decide (kind = 7) && decide (Tbl.look 0 d.cmc.copy (d.pc t.unit).logical < 2 ^ 21)
    let put (t' : Takeover) : Dev := d.updSpares (fun s => { s with running := s.running.map (fun x => if x = t then t' else x) })
    if blind then put { t with launch := some (d.spareTick t) }
    else if copying || decide (d.cyc < t.began + d.lockSpan t) then d
    else if d.lockstepPassed t agree then put { t with launch := some (d.spareTick t) }
    else if 2 ≤ t.mismatches then d.abandon t
    else put { t with mismatches := t.mismatches + 1, differed := true, began := d.cyc }

def execSpareLockstepEnd (dt id : Nat) (agree : Bool) (s : State) : Host.Outcome State Fault Refusal :=
  onDev dt (fun d => d.lockstepEnd id agree) s

/-- The frame sequences of channels break at tick `t` (R261): with the settings that the channel will then have. -/
def Dev.breakChannels (d : Dev) (t : Nat) (p : Nat → Bool) : Dev :=
  { d with chans := d.chans.map (fun (x : Nat × Chan) =>
      if p x.1 then (match x.2.frames with | some f => (x.1, x.2.breakFrames d.stagePlace t (match f.next.getLast? with | some (_, b) => b | none => f.block) f.fch) | none => x) else x) }

/-- A slice take-over (R183, R199): the spare takes the failing slice's position for good, rotation stops, and the converter says so
(assumption 116). -/
def Dev.retireSlice (d : Dev) (t : Takeover) : Dev :=
  let n := t.unit / 65
  let x := d.ainOf n
  let slices := match (List.range 64).find? (fun p => decide (Tbl.look p x.slices p = t.unit % 65)) with
    | some p => Tbl.put p (t.spare % 65) x.slices
    | none => x.slices
  let d := d.setAin n { x with slices := slices, out := none, degraded := true }
  let f := if t.cause ≠ 1 then let f := d.fresh; (f.1.toNat, f.2) else (t.value, d)
  (f.2.raise (evAinCal + n) n (t.unit % 65 + 2 ^ 8 * 2) f.1).raise (evAinCal + n) n (t.unit % 65 + 2 ^ 8 * 3) f.1

/-- The spare takes over at its launch tick. -/
def Dev.takeOver (d : Dev) (t : Takeover) : Dev :=
  let tick := t.launch.getD 0
  let d := d.updSpares (fun s => { s with running := s.running.filter (fun x => decide (x ≠ t)) })
  let d := match t.kind with
    | 0 =>
      { d with pads := (List.range 96).foldl (fun ps p =>
          let x := d.pad p
          if x.rx = t.unit then Tbl.put p { x with rx := t.spare, aligned := decide (x.mode ≠ 0), everAligned := decide (x.mode ≠ 0), good := 0, bad := 0, lastBad := false } ps else ps) d.pads }
    | 1 => d.retireSlice t
    | 2 =>
      let e := d.engine (t.unit / 9)
      let d := d.setEngine (t.unit / 9) { e with laneUsed := true }
      if t.differed then d.breakChannels tick (fun c => decide (c / 64 = e.sector)) else d
    | 3 =>
      let e := d.engine t.unit
      let d := (d.setEngine t.spare { d.engine t.spare with role := 0, sector := e.sector }).setEngine t.unit { e with role := 3, sector := 0 }
      if t.differed then d.breakChannels tick (fun c => decide (c / 64 = e.sector)) else d
    | 4 => if t.differed then (match d.placeOf 4 t.unit 512 with | some c => d.breakChannels tick (fun k => decide (k = c)) | none => d) else d
    | 5 =>
      { d with tps := (List.range 32).foldl (fun ps n => if d.tpPhys n = t.unit then Tbl.put n { d.tp n with phys := some t.spare } ps else ps) d.tps }
    | 7 =>
      let l := (d.pc t.unit).logical
      let d := (d.setPc t.spare { d.pc t.spare with role := 0, logical := l }).setPc t.unit { d.pc t.unit with role := 3, logical := 0xFF, train := none, setting := none }
      let d := d.updCmc (fun c => { c with copy := Tbl.drop l c.copy, copyWritten := c.copyWritten.filter (fun b => decide (b % c.p ≠ l)) })
      -- R389 gives EV_PC_RETIRED no cause for a planned take-over
      let f := d.fresh
      f.2.raiseAt evPcRetired (freeSev evPcRetired) t.unit (f.1.toNat % 256 + 2 ^ 8 * l + 2 ^ 16 * t.spare) d.clk.count d.clk.count
    | _ => d
  d.spareIn t.kind t.unit t.spare t.cause tick

/-! ### Retirement of a pseudo-channel: the launch of the new map (R376, R381–R385) -/

/-- The map with a spare in place of the one retired. -/
def Dev.mapSpare (d : Dev) (x l spare : Nat) : Dev :=
  (d.setPc spare { d.pc spare with role := 0, logical := l }).setPc x { d.pc x with role := 3, logical := 0xFF, train := none, setting := none }

/-- The map with one logical pseudo-channel less: those above it move down by one. -/
def Dev.mapLess (d : Dev) (x l : Nat) : Dev :=
  let d := d.setPc x { d.pc x with role := 3, logical := 0xFF, train := none, setting := none }
  let d := (List.range 192).foldl (fun (d : Dev) y =>
    let p := d.pc y
    if p.role = 0 ∧ l < p.logical then d.setPc y { p with logical := p.logical - 1 } else d) d
  d.updCmc (fun c => { c with p := c.p - 1 })

/-- The events of a capacity reduction at tick `t` (R384). -/
def Dev.capacityEvents (d : Dev) (x l tf cause t : Nat) (why : Nat := 2) : Dev :=
  let tb := BitVec.ofNat 64 t
  let d := d.raiseAt evPcRetired (freeSev evPcRetired) x (cause + 2 ^ 8 * l + 2 ^ 16 * 0xFFFF) (BitVec.ofNat 64 tf) tb
  let d := d.raiseAt evCapacityLost (freeSev evCapacityLost) x d.cmc.p (BitVec.ofNat 64 d.sum5Limit) tb
  let e : Retired := { kind := 7, cause := why, unit := x, spare := none, tick := t }
  let d := d.updSpares (fun s => { s with
    retired := s.retired ++ [e]
    exhausted := if s.exhausted.contains (7, 0) then s.exhausted else s.exhausted ++ [(7, 0)] })
  d.raiseAt evSpareExhausted 2 x 7 tb tb

/-- What a LIVE or HALTED aperture's live plane uses is placed. -/
def Dev.placeLive (d : Dev) (ps : Planes) (a : Nat) : Dev :=
  let p := d.ap a
  let x := d.placeLayout ps a 0 p.live p.rateLevel
  let base (r : SubRing) : SubRing := match x.1.1.find? (fun (o : SubRing) => decide (o.slot = r.slot ∧ o.ch = r.ch)) with
    | some o => { r with base := o.base }
    | none => r
  let d := x.2.updAcq a (fun (q : Acq) => { q with subs := q.subs.map base, mirrorBase := x.1.2, nextLayout := none })
  let d := (planeOf p.live 0x0B).foldl (fun (d : Dev) b =>
    let y := d.place 5 b.unit (feedBytes b.words)
    y.2.setFeed b.unit { y.2.feed b.unit with bufs := feedBases b.words y.1, nextBufs := none }) d
  (planeOf p.live 0x0D).foldl (fun (d : Dev) b =>
    let e := d.dmaCh b.unit
    if e.stageSize = 0 then d
    else
      let y := d.place (16 + a) (100 + b.unit) e.stageSize (planeLight p.live)
      y.2.setDma b.unit { e with stageBase := y.1, nextStage := none }) d

/-- One aperture in the order of R383: placed where it fits with those before it, else unplaced. `used` is the bandwidth of sum 5 so far. -/
def Dev.placeOne (d : Dev) (ps : Planes) (used : Frac) (a : Nat) : Dev × Frac :=
  let p := d.ap a
  let plane := p.standing
  let sum := Frac.add used (ps.sum5 plane)
  let d1 := d.updAp a (fun p => { p with unplaced := false })
  let placed := if p.state = 2 then d1.placeNext ps a plane
    else
      let d2 := d1.placeLive ps a
      if p.changeAdmitted then d2.placeNext ps a plane else d2
  if (placed.cmc.allocs.map (fun (z : Alloc) => z.size)).sum ≤ d.capacity ∧ Frac.le sum (Frac.ofInt d.sum5Limit) then (placed, sum)
  else (d.updAp a (fun p => { p with unplaced := true }), used)

/-- An unplaced aperture leaves its pending launch (R385). -/
def Dev.leaveLaunch (d : Dev) (a : Nat) : Dev :=
  match (d.ap a).launch with
  | some id =>
    let t := d.launchTickOf a
    let d := d.updGlob (fun g => { g with launches := g.launches.map (fun (l : Launch) => { l with apertures := l.apertures.filter (· != a) }) })
    ((d.updAp a (fun p => { p with launch := none })).stopShadows a).raise evLaunchCancelled id (4 + 2 ^ 16 * a) t
  | none => d

/-- The launch of the reduced map at tick `t` (R383–R385). -/
def capacityLaunch (r : Retire) (t : Nat) (x : Dev × Mems) : Dev × Mems :=
  let d := x.1.mapLess r.phys r.logical
  let d := d.updCmc (fun c => { c with allocs := [], poison := [], poisonPcs := [], wbuf := [], copy := [], copyWritten := [] })
  let inState (n : Nat) : List Nat := (d.aps.filter (fun (p : Nat × Aperture) => decide (p.2.state = n))).map (fun p => p.1)
  let order := inState 3 ++ inState 4 ++ inState 2
  let ps := d.standingPlanes
  let d := (order.foldl (fun (y : Dev × Frac) a => y.1.placeOne ps y.2 a) (d, ⟨0, 1⟩)).1
  let d := (List.range 3).foldl (fun (d : Dev) n => d.setLayer n { d.layer n with current := 3, pending := 3, stopped := true }) d
  let un := order.filter (fun a => (d.ap a).unplaced)
  let d := un.foldl (fun (d : Dev) a => d.leaveLaunch a) d
  let x := un.foldl (fun x a => haltAperture a 5 t x) (d, { x.2 with cap := [] })
  let d := (inState 4).foldl (fun (d : Dev) a => d.updAcq a (fun (q : Acq) => { q with listed := [] })) x.1
  let lv := d.launchLevels
  let x := lv.2.2.foldl (fun x a => haltAperture a 4 t x) (lv.1, x.2)
  let on := (inState 3).filter (fun a => decide ((x.1.ap a).state = 3) && (x.1.ap a).capture.isSome)
  let x := on.foldl (fun x a =>
    let x := cutRecords a 3 x
    ((x.1.updAcq a (fun (q : Acq) => { q with listed := [], slice := 0, wrote := false })).launchAcq t a, x.2)) x
  ((x.1.compileSchedule t).capacityEvents r.phys r.logical r.tf r.cause t, x.2)

/-- The launch of a retirement whose tick has come (R381, R384). -/
def retireLaunch (x : Dev × Mems) : Dev × Mems :=
  match x.1.cmc.retiring with
  | r :: rest =>
    match r.launch with
    | some t =>
      if x.1.now < t then x
      else
        let d := x.1.updCmc (fun c => { c with retiring := rest })
        match r.spare with
        | some s =>
          let d := d.mapSpare r.phys r.logical s
          let d := d.raiseAt evPcRetired (freeSev evPcRetired) r.phys (r.cause + 2 ^ 8 * r.logical + 2 ^ 16 * s) (BitVec.ofNat 64 r.tf) (BitVec.ofNat 64 t)
          (d.spareIn 7 r.phys s 2 t, x.2)
        | none => capacityLaunch r t (d, x.2)
    | none => x
  | [] => x

/-- A retirement before READY (R376): the MC writes the map itself, and nothing else is lost. `why` is the cause of R420. -/
def Dev.retireEarly (d : Dev) (x cause why : Nat) : Dev :=
  let l := (d.pc x).logical
  if (d.pc x).role = 3 then d
  else if (d.pc x).role = 1 then d.setPc x { d.pc x with role := 3 }
  else match d.chooseSpare x with
    | some s =>
      let d := d.mapSpare x l s
      let d := d.raiseAt evPcRetired (freeSev evPcRetired) x (cause + 2 ^ 8 * l + 2 ^ 16 * s) d.clk.count d.clk.count
      d.spareIn 7 x s why d.now
    | none => (d.mapLess x l).capacityEvents x l d.now cause d.now why

/-! ### WEAR_EVALUATION -/

/-- A crossing has been acted on. -/
def Dev.noteCrossing (d : Dev) (k : Nat × Nat × Nat) : Dev := { d with mc := { d.mc with crossed := if d.mc.crossed.contains k then d.mc.crossed else k :: d.mc.crossed } }

/-- A list of figures by kind, unit and indicator, with one of them replaced. -/
def putFigure (key : Nat × Nat × Nat) (v : Nat) (l : List (Nat × Nat × Nat × Nat)) : List (Nat × Nat × Nat × Nat) :=
  (l.filter (fun p => decide ((p.1, p.2.1, p.2.2.1) ≠ key))) ++ [(key.1, key.2.1, key.2.2, v)]

/-- An indicator has been measured: its value, and its margin where the policy has a threshold for it (R195, R420, R593). -/
def Dev.noteValue (d : Dev) (kind unit ind value : Nat) : Dev :=
  let m := d.wearMargin kind ind value
  d.updSpares (fun s => { s with
    values := putFigure (kind, unit, ind) value s.values
    margins := if (wearDefault kind ind).isNone then s.margins else putFigure (kind, unit, ind) m s.margins })

/-- The indicator has been evaluated less than a second ago (R593). -/
def Dev.evaluated (d : Dev) (kind unit ind : Nat) : Bool :=
  d.spares.evalAt.any (fun p => decide ((p.1, p.2.1, p.2.2.1) = (kind, unit, ind)) && notYet (some p.2.2.2) 3000000000 d.clk.time)

/-- What a lane receiver reports of itself as an indicator crosses or it fails (R201, assumption 116). -/
def Dev.laneReport (d : Dev) (kind unit ind : Nat) : Dev :=
  let cause := if ind = 2 then 2 else if ind ≤ 1 then 3 else if ind = 15 then 4 else 0
  if kind ≠ 0 ∨ cause = 0 then d else d.raise (evLaneFault + unit) unit cause ((d.padOf unit).getD 0)

/-- The MC evaluates one indicator of one unit, once per second (R593). Indicator 15 stands for a failure of the unit, acted on in either mode. -/
def wearEvaluation (kind unit ind value : Nat) (x : Dev × Mems) : Dev × Mems :=
  let key := (kind, unit, ind)
  if ind = 15 then
    (if kind = 7 then (x.1.retirePc unit 2, x.2) else if kind = 8 then x else (replaceUnit kind unit 2 value (x.1.laneReport kind unit 15, x.2)).1)
  else if x.1.evaluated kind unit ind then x
  else
    let d := (x.1.noteValue kind unit ind value).updSpares (fun s => { s with evalAt := putFigure (kind, unit, ind) x.1.clk.time s.evalAt })
    if !(d.wearCrossed kind ind value) then ({ d with mc := { d.mc with crossed := d.mc.crossed.filter (fun k => decide (k ≠ key)) } }, x.2)
    else if d.mc.crossed.contains key then (d, x.2)
    else if d.reports kind ind then (((d.laneReport kind unit ind).noteCrossing key).logOnly 0x100A 1 (kind + 2 ^ 8 * ind) (unit := unit) (data := value), x.2)
    else if kind = 8 then
      let d := d.noteCrossing key
      (if d.spares.rows.contains unit then d
       else (d.updSpares (fun s => { s with rows := s.rows ++ [unit] })).logOnly 0x1003 1 0 (unit := unit) (data := value), x.2)
    else if kind = 7 ∧ ind = 1 then ((d.noteCrossing key).retirePc unit 2, x.2)
    else
      let y := replaceUnit kind unit 1 value (d, x.2)
      if y.2 then ((y.1.1.noteCrossing key).laneReport kind unit ind, y.1.2) else y.1

def execWearEvaluation (dt kind unit ind value : Nat) (s : State) : Host.Outcome State Fault Refusal :=
  onHeld dt (fun d m => wearEvaluation kind unit ind value (d, m)) s

/-! ### ROTATION_SWAP (R181–R183) -/

/-- The first residual of a calibrated slice, of offset, gain and skew, that is beyond its limit, with its indicator (R593). -/
def Dev.sliceExcess (d : Dev) (res : List Nat) : Option (Nat × Nat) := (res.zipIdx.map (fun p => (p.2, p.1))).find? (fun p => d.wearCrossed 1 p.1 p.2)

/-- The calibrated slice takes the place it was calibrated against (R181); at the end of a lap the residual figures of the converter are measured
anew (R577). -/
def Dev.swapSlices (d : Dev) (n o : Nat) : Dev :=
  let x := d.ainOf n
  let p := x.swaps % 64
  let d := d.setAin n { x with slices := Tbl.put p o x.slices, out := some (Tbl.look p x.slices p), swaps := x.swaps + 1 }
  if (x.swaps + 1) % 65 = 0 then
    let f := (d.bump (ainReg n 0x04)).fresh
    f.2.setReg (0x5E0000 + 32 * n) (f.1.setWidth 32)
  else d

/-- Swap i takes place 8 ms × (i + 1) after READY (R181, assumption 45), unless a take-over of a slice of the converter runs. The slice outside has
been calibrated with its residuals; one beyond its limit in AUTO mode makes it the failing unit of a take-over, and it takes no position (R183). -/
def rotationSwap (n offset gain skew bandwidth : Nat) (x : Dev × Mems) : Dev × Mems :=
  let a := x.1.ainOf n
  let early := match x.1.mc.readyAt with | some t => decide (x.1.clk.time < t + (a.swaps + 1) * 24000000) | none => true
  match a.out with
  | none => x
  | some o =>
    let u := 65 * n + o
    if decide (x.1.fw.stage ≠ 0x3F ∨ 3 < n) || a.degraded || early || x.1.spares.running.any (fun (t : Takeover) => decide (t.kind = 1 ∧ t.unit / 65 = n)) then x
    else
      let f := x.1.fresh
      let res : Int := ((f.1.toNat % 501 : Nat) : Int) - 250
      let d := f.2.setAin n { f.2.ainOf n with residuals := Tbl.put o res (f.2.ainOf n).residuals }
      let d := ([offset, gain, skew, bandwidth].zipIdx).foldl (fun (d : Dev) p => d.noteValue 1 u p.2 p.1) d
      match d.sliceExcess [offset, gain, skew] with
      | none => (d.swapSlices n o, x.2)
      | some (ind, v) =>
        if d.reports 1 ind then (((d.noteCrossing (1, u, ind)).logOnly 0x100A 1 (1 + 2 ^ 8 * ind) (unit := u) (data := v)).swapSlices n o, x.2)
        else
          let y := replaceUnit 1 u 1 v (d, x.2)
          if y.2 then (y.1.1.raise (evAinCal + n) n (o + 2 ^ 8 * 1) v, y.1.2) else y.1

def execRotationSwap (dt n : Nat) (res : Residuals) (s : State) : Host.Outcome State Fault Refusal :=
  onAll dt (fun d m => rotationSwap n res.offset res.gain res.skew res.bandwidth (d, m)) s

/-! ### SEQUENCER_TRAP (R401, R402) -/

/-- A sequencer core's read is counted, and firmware rebuilds the marked bytes of the line. Where their source is marked itself, the apertures whose
tables depend on it are halted with cause 5, or, with code, FW_STATUS.FAULT is set. -/
def sequencerTrap (addr : Nat) (source : TrapSource) (x : Dev × Mems) : Dev × Mems :=
  let d := x.1.countMark 4 10 addr (x.1.facetMarked 4 addr)
  match source with
  | .whole => (d.updCmc (fun c => { c with facet := c.facet.filter (fun (p : Nat × Nat) => !(decide (p.1 = 4 ∧ p.2 / 64 = addr / 64))) }), x.2)
  | .code => ({ d with fw := { d.fw with fault := true } }, x.2)
  | .tables as_ => as_.foldl (fun y a => haltAperture a 5 y.1.now y) (d, x.2)

def execSequencerTrap (dt : Nat) (r : TrapRead) (s : State) : Host.Outcome State Fault Refusal :=
  onHeld dt (fun d m => sequencerTrap r.addr r.source (d, m)) s

/-! ### SPARE_STATUS (R420) -/

/-- Spares of a kind at manufacture, and the units in service (R411). -/
def sparesMade (kind : Nat) : Nat :=
  match kind with
  | 0 => 8
  | 1 => 4
  | 2 => 18
  | 3 => 2
  | 4 => 16
  | 5 => 2
  | 6 => 24
  | 7 => 12
  | 8 => Config.rowRepairs.toNat
  | _ => 1

def unitsMade (kind : Nat) : Nat :=
  match kind with
  | 0 => 96
  | 1 => 256
  | 2 => 144
  | 3 => 16
  | 4 => 512
  | 5 => 32
  | 6 => 768
  | 7 => 180
  | 8 => Config.dramRows.toNat
  | _ => 4

/-- Idle spares of a kind. -/
def Dev.sparesLeft (d : Dev) (kind : Nat) : Nat :=
  match kind with
  | 1 => ((List.range 4).filter (fun n => (d.ainOf n).out.isSome)).length
  | 3 => ((List.range 18).filter (fun e => decide ((d.engine e).role = 1))).length
  | 7 => d.idleSpares.length
  | 8 => Config.rowRepairs.toNat - d.spares.rows.length
  | 0 => ((List.range 8).filter (fun s => d.spareFree 0 (96 + s))).length
  | 2 => ((List.range 18).filter (fun e => d.spareFree 2 (9 * e + 8))).length
  | 4 => ((List.range 16).filter (fun s => d.spareFree 4 (512 + s))).length
  | 5 => ((List.range 2).filter (fun s => d.spareFree 5 (32 + s))).length
  | 6 => ((List.range 24).filter (fun s => d.spareFree 6 (768 + s))).length
  | _ => if d.spareFree 9 4 then 1 else 0

/-- Units of a kind in service: those made, less those lost without a spare. -/
def Dev.unitsActive (d : Dev) (kind : Nat) : Nat :=
  match kind with
  | 7 => d.cmc.p
  | 1 => unitsMade 1
  | _ => unitsMade kind - (d.spares.retired.filter (fun (r : Retired) => decide (r.kind = kind) && r.spare.isNone)).length

/-- The unit of a kind nearest to its threshold, and its margin; a kind not yet evaluated shows unit 0 and 1,000 (assumption 59). -/
def Dev.worstOf (d : Dev) (kind : Nat) : Nat × Nat :=
  match leastBy (fun (p : Nat × Nat × Nat × Nat) => p.2.2.2) (d.spares.margins.filter (fun (p : Nat × Nat × Nat × Nat) => decide (p.1 = kind))) with
  | some p => (p.2.1, p.2.2.2)
  | none => (0, 1000)

def Dev.spareWords (d : Dev) : List Word :=
  let s := d.spares
  [ BitVec.ofNat 32 s.takeovers, BitVec.ofNat 32 s.abandoned, Word.place 15 0 s.retired.length ||| Word.place 31 16 s.running.length, 0 ] ++
  (List.range 10).flatMap (fun k =>
    let w := d.worstOf k
    [ Word.place 15 0 (d.unitsActive k) ||| Word.place 31 16 (sparesMade k),
      Word.place 15 0 (d.sparesLeft k) ||| Word.place 31 16 (s.exhausted.filter (fun e => decide (e.1 = k))).length,
      BitVec.ofNat 32 w.1, BitVec.ofNat 32 w.2 ]) ++
  s.retired.flatMap (fun (r : Retired) =>
    [ Word.place 7 0 r.kind ||| Word.place 15 8 r.cause ||| Word.place 31 16 r.unit,
      match r.spare with | some u => BitVec.ofNat 32 u | none => 0xFFFFFFFF ] ++ qwords r.tick)

def formSpareStatus : CmdForm := { opcode := 0x62 }

def execSpareStatus (dt q : Nat) (e : Entry) (s : State) : Host.Outcome State Fault Refusal :=
  onDev dt (runCmd formSpareStatus q e noChecks (fun d =>
    formSpareStatus.reply (d.writeOutE e d.spareWords) q e { result0 := BitVec.ofNat 64 d.spares.retired.length })) s

/-! ### SPARE_POLICY (R594) -/

def formSparePolicy : CmdForm := { opcode := 0x63, ring0 := true, blockLen := 8 }

def sparePolicyChecks (_ : Dev) (b : List Word) : List (Nat × Bool) :=
  [ (0x00, (wearDefault (fldAt b 0x00 3 0) (fldAt b 0x00 7 4)).isSome), rng b 0x00 9 8 0 2, zer b 0x00 31 12 ]

/-- The policy as a command sets it. -/
def Mc.setPolicy (m : Mc) (b : List Word) : Mc :=
  let k := policyKey (fldAt b 0x00 3 0) (fldAt b 0x00 7 4)
  let mode := fldAt b 0x00 9 8
  let m := if mode = 2 then m else { m with modes := Tbl.put k mode m.modes }
  let m := if bitAt b 0x00 10 then { m with limits := Tbl.put k (dwAt b 0x04).toNat m.limits } else m
  if bitAt b 0x00 11 then
    let keep (t kept : Tbl Nat) : Tbl Nat := match t.find? (fun p => decide (p.1 = k)) with | some p => Tbl.put k p.2 kept | none => kept
    { m with limitsKept := keep m.limits m.limitsKept, modesKept := keep m.modes m.modesKept }
  else m

def execSparePolicy (dt q : Nat) (e : Entry) (s : State) : Host.Outcome State Fault Refusal :=
  onDev dt (runCmd formSparePolicy q e sparePolicyChecks (fun d =>
    let b := e.block
    let kind := fldAt b 0x00 3 0
    let ind := fldAt b 0x00 7 4
    let was := d.wearLimit kind ind
    let dflt := match wearDefault kind ind with | some x => x.2 | none => 0
    formSparePolicy.reply { d with mc := d.mc.setPolicy b } q e { result0 := BitVec.ofNat 64 was, result1 := BitVec.ofNat 64 dflt })) s

end Sys2Proof.Machine
end

