-- ==== Sys2Proof/Machine/Relay.lean ====
section
/-!
DEFINITION. Failed reads of host memory (R532, R533, R642), the block commands (R539–R541) and Relay (R542–R550).
-/

namespace Sys2Proof.Machine

/-! ### Failed reads of host memory (R642, R643) -/

/-- EV_HOSTMEM_ERR of ring `q`: what failed, the opcode, the lowest address. -/
def Dev.hostmemEvent (d : Dev) (q what opcode : Nat) (addr : QWord) : Dev :=
  d.raiseAt evHostmemErr 2 q (what + 2 ^ 8 * opcode) addr d.clk.count

/-- A read for ring `q` fails once more, that of the entry or that of its block: its lowest address so far. -/
def Dev.readFailed (d : Dev) (q : Nat) (block : Bool) (addr : QWord) : Dev :=
  let r := d.ring q
  let r := if r.readsBlock = block then r else { r with readsBlock := block, readFails := 0, failLow := none }
  let low := match r.failLow with | some a => if a ≤ addr then a else addr | none => addr
  d.setRing q { r with readFails := r.readFails + 1, failLow := some low }

/-- A read of an SQ entry fails: it is repeated, and the fourth time the ring faults, and nothing of the entry is used. -/
def Dev.entryFailed (d : Dev) (q : Nat) (addr : QWord) : Dev :=
  if d.served ≠ some q then d
  else
    let d := (d.fetchEntry q).readFailed q false addr
    let r := d.ring q
    if r.readFails < 4 then (d.setRing q { r with readAt := none }).fetchEntry q
    else
      let low := r.failLow.getD addr
      let at_ := r.sqBase + BitVec.ofNat 64 (64 * r.sqHead)
      (d.faultRing q 2 at_).hostmemEvent q 1 0xFF low

/-- A read of a parameter block or stage list fails: it is repeated, and the fourth time the command completes with EFS_HOSTMEM and does
nothing else. -/
def Dev.paramFailed (d : Dev) (q : Nat) (e : Entry) (addr : QWord) : Dev :=
  if d.served ≠ some q ∨ !e.ptr ∨ e.opcode ∉ listedOpcodes then d
  else
    let d := ((d.fetchEntry q).readBlock e).readFailed q true addr
    let r := d.ring q
    if r.readFails < 4 then d.setRing q { r with readAt := some d.clk.time }
    else
      let low := r.failLow.getD addr
      let ap := if targetsAperture e.opcode && decide (e.target ≤ 1023) then some e.target else none
      ((d.take q).hostmemEvent q 2 e.opcode low).answer q e { status := efsHostmem, result1 := low, ap := ap }

/-! ### Block commands (R539–R541) -/

def formBlock (write : Bool) : CmdForm := { opcode := if write then 0x39 else 0x38, blockLen := 24 }

def blockUnit (write : Bool) : Nat := if write then 512 else 64

def blockDmaChecks (write : Bool) (_ : Dev) (b : List Word) : List (Nat × Bool) :=
  let u := blockUnit write
  let n := (dwAt b 0x10).toNat
  [ (0x00, decide ((qAt b 0x00).toNat % u = 0)), (0x08, decide ((qAt b 0x08).toNat % 8 = 0)),
    (0x10, decide (u ≤ n ∧ n % u = 0)), zer b 0x14 31 0 ]

/-- The feed has a HOST-mode block in the plane of an aperture (R540). -/
def Dev.hostFeed (d : Dev) (p : Nat) : Bool :=
  d.aps.any (fun (x : Nat × Aperture) =>
    ((if 3 ≤ x.2.state then x.2.live else []) ++ (if 2 ≤ x.2.state then x.2.admitted else [])).any (fun b => decide (b.type = 0x0B ∧ b.unit = p) && dfHost b.words))

/-- A BLOCK_WRITE may write into an area: the buffers of a HOST-mode feed, or the capture area of an ADMITTED or HALTED aperture. -/
def Dev.writable (d : Dev) (x : Alloc) : Bool :=
  if x.region = 5 then d.hostFeed (x.owner % 8)
  else decide (16 ≤ x.region) && (let st := (d.ap (x.region - 16)).state; decide (st = 2 ∨ st = 4))

/-- The first address from `a` up to `to` that lies in no writable area. `fuel` bounds the areas that can follow one another. -/
def Dev.firstBarred (d : Dev) : Nat → Nat → Nat → Option Nat
  | 0, a, stop => if a < stop then some a else none
  | fuel + 1, a, stop =>
    if stop ≤ a then none
    else match d.cmc.allocs.find? (fun (x : Alloc) => decide (x.base ≤ a ∧ a < x.base + x.size) && d.writable x) with
      | some x => d.firstBarred fuel (x.base + x.size) stop
      | none => some a

/-- The first bad address of a block command (R539, R540). -/
def Dev.blockBad (d : Dev) (write : Bool) (a n : Nat) : Option Nat :=
  if d.capacity < a + n then some (max a d.capacity)
  else if write then d.firstBarred (d.cmc.allocs.length + 1) a (a + n)
  else none

/-- The channel a new block command takes: 62 or 63; a number from 100 up waits for one of them (assumption 56). -/
def Dev.freeBlock (d : Dev) : Nat :=
  let used := d.blocks.map (fun p => p.1)
  if !(used.contains 62) then 62 else if !(used.contains 63) then 63
  else match (List.range (used.length + 1)).find? (fun i => !(used.contains (100 + i))) with | some i => 100 + i | none => 100

def Dev.takeBlock (write : Bool) (q : Nat) (e : Entry) (d : Dev) : Dev :=
  let f := formBlock write
  runCmd f q e (blockDmaChecks write) (fun d =>
    let b := e.block
    let a := (qAt b 0x00).toNat
    let n := (dwAt b 0x10).toNat
    match d.blockBad write a n with
    | some x => f.reply d q e { status := efsRange, result0 := BitVec.ofNat 64 x }
    | none =>
      let ch := d.freeBlock
      let j : BlockJob := { ring := q, write := write, cap := a, host := (qAt b 0x08).toNat, length := n }
      (d.hold q f.opcode e (.block ch)).startBlock ch j) d

def execBlockRead (dt q : Nat) (e : Entry) (s : State) : Host.Outcome State Fault Refusal := onDev dt (Dev.takeBlock false q e) s
def execBlockWrite (dt q : Nat) (e : Entry) (s : State) : Host.Outcome State Fault Refusal := onDev dt (Dev.takeBlock true q e) s

/-- A block command ends. A failure leaves its channel halted with a kind of R537. -/
def Dev.endBlock (d : Dev) (ch : Nat) (j : BlockJob) (halt : Option Nat) (w : Answer) : Dev :=
  let d := { d with blocks := Tbl.drop ch d.blocks }
  let d := d.setDma ch (match halt with | some k => { ({} : DmaChan) with state := 5, haltKind := k } | none => {})
  ((match (d.ring j.ring).busy with
    | some b => if decide (b.wait = Wait.block ch) then d.finishRing j.ring w else d
    | none => d).nextBlock ch)

/-- Lines of a BLOCK_READ in order: the bytes of those before the first marked one, and that line. -/
def blockLines (first n : Nat) (errs : List Upset) (x : Dev × Mems) : List Byte × Option Nat × Dev :=
  (List.range n).foldl (fun (y : List Byte × Option Nat × Dev) i =>
    match y.2.1 with
    | some _ => y
    | none =>
      let r := y.2.2.lineData x.2.cap errs (first + i)
      let d := y.2.2.lineMet (first + i) 8 r.1
      if r.1.marked then (y.1, some (64 * (first + i)), d) else (y.1 ++ r.2, none, d)) ([], none, x.1)

/-- A line of the bounce area, which has no other place in the model (assumption 16): the bytes read, unless it is marked, and what that does. -/
def Dev.bounceLine (d : Dev) (data : List Byte) (flips : List (Nat × Nat)) : Option (List Byte) × Dev :=
  let r := lineRead false false data flips
  match r.1 with
  | .clean => (some r.2, d)
  | .corrected => (some r.2, d.countCe 6 0)
  | v => (none, d.countMark 6 8 0 (decide (v = .poison)))

/-- Whole blocks that a BLOCK_WRITE has read from the host are written to their target, up to a line of the bounce area that reads as
marked (R401, R540, R541). `errs` number the lines of the transfer. -/
def writeBlocks (a n : Nat) (data : List Word) (errs : List Upset) (x : Dev × Mems) : Nat × Bool × (Dev × Mems) :=
  (List.range n).foldl (fun (y : Nat × Bool × (Dev × Mems)) i =>
    if y.2.1 then y
    else
      let z := (List.range 8).foldl (fun (z : Option (List Byte) × Dev) k =>
        match z.1 with
        | none => z
        | some bs =>
          let r := z.2.bounceLine (bytesOfWords ((List.range 16).map (fun j => data.getD (128 * i + 16 * k + j) 0))) (upsetsOf errs (8 * i + k))
          (r.1.map (bs ++ ·), r.2)) (some [], y.2.2.1)
      match z.1 with
      | none => (y.1, true, (z.2, y.2.2.2))
      | some bs => (y.1 + 512, false, capWrite (a + 512 * i) bs (z.2, y.2.2.2))) (0, false, x)

/-- BLOCK_TRANSFER_COMPLETE (R541): the transfer reaches its end, or a marked line. -/
def blockComplete (ch : Nat) (data : List Word) (errs : List Upset) (x : Dev × Mems) : Dev × Mems :=
  match x.1.blocks.find? (fun p => decide (p.1 = ch)) with
  | none => x
  | some (_, j) =>
    if 64 ≤ ch then x
    else if j.write then
      let y := writeBlocks j.cap (j.length / 512) data errs x
      if y.2.1 then
        -- where firmware placed the bounce area is not stated: its line's address is a free value
        let f := y.2.2.1.fresh
        (f.2.endBlock ch j (some 0) { status := efsPoison, result0 := BitVec.ofNat 64 y.1, result1 := f.1 }, y.2.2.2)
      else (y.2.2.1.endBlock ch j none { result0 := BitVec.ofNat 64 j.length }, y.2.2.2)
    else
      let y := blockLines (j.cap / 64) (j.length / 64) errs x
      let d := if y.1.isEmpty then y.2.2 else y.2.2.emit (.write (BitVec.ofNat 64 j.host) (wordsOfBytes y.1) {})
      match y.2.1 with
      | some a => (d.endBlock ch j (some 0) { status := efsPoison, result0 := BitVec.ofNat 64 y.1.length, result1 := BitVec.ofNat 64 a }, x.2)
      | none => ((d.emit (.read (2000 + ch) (BitVec.ofNat 64 (j.host + j.length - 1)) 1 {})).endBlock ch j none { result0 := BitVec.ofNat 64 j.length }, x.2)

def execBlockTransferComplete (dt ch : Nat) (data : List Word) (errs : List Upset) (s : State) : Host.Outcome State Fault Refusal :=
  onAll dt (fun d m => blockComplete ch data errs (d, m)) s

/-- An access of a block command fails (R532, R541): retried three times; then the command ends, the whole blocks before it written. -/
def blockFailed (ch kind : Nat) (data : List Word) (addr : QWord) (x : Dev × Mems) : Dev × Mems :=
  match x.1.blocks.find? (fun p => decide (p.1 = ch)) with
  | none => x
  | some (_, j) =>
    if 64 ≤ ch then x
    else
      let d := x.1.bump (dmaReg ch 0x24)
      let low := match j.failLow with | some a => if a ≤ addr then a else addr | none => addr
      if j.fails < 3 then
        let d := { d with blocks := Tbl.put ch { j with fails := j.fails + 1, failLow := some low, since := d.clk.time } d.blocks }
        (if j.write then d.emit (.read (2000 + ch) addr (min j.length (j.host + j.length - addr.toNat)) {}) else d, x.2)
      else
        let y := if j.write then writeBlocks j.cap (min (data.length / 128) (j.length / 512)) data [] (d, x.2) else (0, false, (d, x.2))
        let d := (y.2.2.1.dmaEvent ch 1 kind addr.toNat).hostmemEvent j.ring 3 (if j.write then 0x39 else 0x38) low
        (d.endBlock ch j (some kind) { status := efsHostmem, result0 := BitVec.ofNat 64 y.1, result1 := low }, y.2.2.2)

/-! ### A read of host memory fails: the rows -/

/-- HALT_KIND of a failure (R537). -/
def failKind : ReadFail → Nat
  | .ur => 1
  | .ca => 2
  | .ep => 4

/-- Relay's flush read of an SQ entry fails: counted at its channel (R532, R537). The command itself is answered by the drive, or times
out. -/
def Dev.relayReadFailed (d : Dev) (slot cid : Nat) : Dev :=
  match ((Tbl.look ({} : DriveSlot) d.drives slot).cmds).find? (fun (c : NvmeCmd) => decide (c.cid = cid)) with
  | some c => match (Tbl.look ({} : RelayStream) d.relays c.stream).block with
    | some (_, b) => d.bump (dmaReg (rlChan b.words) 0x24)
    | none => d
  | none => d

/-- A failed read for one of its purposes; `kind` is its HALT_KIND. -/
def hostReadFailed (r : HostReq) (kind : Nat) (addr : QWord) (x : Dev × Mems) : Dev × Mems :=
  match r with
  | .sqEntry q => (x.1.entryFailed q addr, x.2)
  | .paramBlock q e => (x.1.paramFailed q e addr, x.2)
  | .flush c => (x.1.flushFailed c kind addr, x.2)
  | .block ch data => blockFailed ch kind data addr x
  | .relay slot cid => (x.1.relayReadFailed slot cid, x.2)

def execHostReadErrorCompletion (dt : Nat) (r : HostReq) (kind : ReadFail) (addr : QWord) (s : State) : Host.Outcome State Fault Refusal :=
  onAll dt (fun d m => hostReadFailed r (failKind kind) addr (d, m)) s

/-- The time at which the read now out for a purpose was sent. -/
def Dev.readSince (d : Dev) : HostReq → Option Nat
  | .sqEntry q | .paramBlock q _ => (d.ring q).readAt
  | .flush c => (d.dmaCh c).pub.map (fun p => p.since)
  | .block ch _ => (d.blocks.find? (fun p => decide (p.1 = ch))).map (fun p => p.2.since)
  | .relay slot cid => ((Tbl.look ({} : DriveSlot) d.drives slot).cmds.find? (fun (c : NvmeCmd) => decide (c.cid = cid))).map
      (fun c => d.clk.time - (d.cyc - c.cycle))

/-- HOST_READ_TIMEOUT: no completion has come within 10 ms; one that comes on the tick of expiry is accepted (R532, R642). -/
def execHostReadTimeout (dt : Nat) (r : HostReq) (addr : QWord) (s : State) : Host.Outcome State Fault Refusal :=
  onAll dt (fun d m => match d.readSince r with
    | some t => if t + 30000000 < d.clk.time then hostReadFailed r 3 addr (d, m) else (d, m)
    | none => (d, m)) s

/-! ### Relay: drive slots (R543) -/

def relayReg (s off : Nat) : Nat := 0x5A0000 + 32 * s + off

def Dev.drive (d : Dev) (s : Nat) : DriveSlot := Tbl.look ({} : DriveSlot) d.drives s
def Dev.setDrive (d : Dev) (s : Nat) (x : DriveSlot) : Dev := { d with drives := Tbl.put s x d.drives }
def Dev.relay (d : Dev) (st : Nat) : RelayStream := Tbl.look ({} : RelayStream) d.relays st
def Dev.setRelay (d : Dev) (st : Nat) (x : RelayStream) : Dev := { d with relays := Tbl.put st x d.relays }

/-- The fields of RELAY_ATTACH's block. -/
def dsSq (w : List Word) : QWord := qAt w 0x00
def dsDb (w : List Word) : QWord := qAt w 0x08
def dsPrpl (w : List Word) : QWord := qAt w 0x10
def dsSqM1 (w : List Word) : Nat := fldAt w 0x18 25 16
def dsNsid (w : List Word) : Word := dwAt w 0x1C
def dsCqM1 (w : List Word) : Nat := fldAt w 0x20 12 0
def dsCqDb (w : List Word) : QWord := dsDb w + BitVec.ofNat 64 (4 * 2 ^ fldAt w 0x20 19 16)
def dsLba (w : List Word) : Nat := 2 ^ fldAt w 0x20 23 20

def formAttach : CmdForm := { opcode := 0x50, blockLen := 40, targetHi := 15 }

def attachChecks (_ : Dev) (b : List Word) : List (Nat × Bool) :=
  [ zer b 0x00 11 0, zer b 0x08 1 0, zer b 0x10 11 0, rng b 0x18 15 0 1 65535, rng b 0x18 25 16 1 1023, zer b 0x18 31 26,
    rng b 0x1C 31 0 1 0xFFFFFFFE, rng b 0x20 12 0 1 8191, zer b 0x20 15 13, rng b 0x20 23 20 9 12, rng b 0x20 27 24 0 8, zer b 0x20 31 28,
    zer b 0x24 31 0 ]

def execRelayAttach (dt q : Nat) (e : Entry) (s : State) : Host.Outcome State Fault Refusal :=
  onDev dt (runCmd formAttach q e attachChecks (fun d =>
    if (d.drive e.target).state ≠ 0 then formAttach.reply d q e { status := efsState }
    else formAttach.reply (d.setDrive e.target { ({} : DriveSlot) with state := 1, block := e.block.take 10 }) q e {})) s

/-- A Relay stream is on the drive: it runs, or has not come to step 5 of R549. -/
def Dev.relayOn (d : Dev) (s : Nat) : Bool :=
  d.relays.any (fun (p : Nat × RelayStream) => (p.2.running || p.2.stopping) && (match p.2.block with | some (_, b) => (rlDrives b.words).contains s | none => false))

def formDetach : CmdForm := { opcode := 0x51, targetHi := 15 }

def execRelayDetach (dt q : Nat) (e : Entry) (s : State) : Host.Outcome State Fault Refusal :=
  onDev dt (runCmd formDetach q e noChecks (fun d =>
    if (d.drive e.target).state = 0 ∨ d.relayOn e.target then formDetach.reply d q e { status := efsState }
    else formDetach.reply { d with drives := Tbl.drop e.target d.drives } q e {})) s

/-! ### Relay: commands to the drives (R546, R547) -/

/-- EV_RELAY (R550). -/
def Dev.relayEvent (d : Dev) (slot cause st slba status : Nat) : Dev :=
  d.raise (evRelay + slot) slot (cause + 2 ^ 8 * st) (slba % 2 ^ 48 + 2 ^ 48 * status)

/-- The pages of a transfer after its first, as PRP entries (assumption 57). -/
def prpPages (addr len : Nat) : List Nat := (List.range ((addr % 4096 + len + 4095) / 4096 - 1)).map (fun i => (addr / 4096 + 1 + i) * 4096)

/-- The sixteen dwords of an NVMe command (assumption 57). -/
def nvmeWords (w : List Word) (cid opcode addr len slba : Nat) (fua : Bool) : List Word :=
  let pages := prpPages addr len
  let prp2 := if opcode = 0 ∨ pages.length = 0 then 0 else if pages.length = 1 then pages.headD 0 else (dsPrpl w).toNat + 4096 * cid
  [ Word.place 7 0 opcode ||| Word.place 31 16 cid, dsNsid w, 0, 0, 0, 0 ] ++ qwords (if opcode = 0 then 0 else addr) ++ qwords prp2 ++
  (if opcode = 0 then [0, 0, 0] else qwords slba ++ [BitVec.ofNat 32 (len / dsLba w - 1) ||| Word.place 30 30 fua.toNat]) ++ [0, 0, 0]

/-- A command goes to a drive: its PRP list, its SQ entry, a flush read of that, the doorbell. -/
def Dev.sendNvme (d : Dev) (slot st : Nat) (chunk : Option Nat) (slba addr len tries : Nat) (fua : Bool) : Dev :=
  let x := d.drive slot
  let w := x.block
  let cid := x.sqTail
  let at_ := dsSq w + BitVec.ofNat 64 (64 * cid)
  let pages := prpPages addr len
  let d := if chunk.isSome ∧ 2 ≤ pages.length then d.emit (.write (dsPrpl w + BitVec.ofNat 64 (4096 * cid)) (pages.flatMap qwords) {}) else d
  let d := d.emit (.write at_ (nvmeWords w cid (if chunk.isSome then 1 else 0) addr len slba fua) {})
  let d := d.emit (.read (3000 + slot) at_ 1 {})
  let tail := (cid + 1) % (dsSqM1 w + 1)
  let d := d.emit (.write (dsDb w) [BitVec.ofNat 32 tail] {})
  let c : NvmeCmd := { cid := cid, stream := st, chunk := chunk, slba := slba, addr := addr, len := len, tries := tries, cycle := d.cyc }
  d.setDrive slot { x with cmds := x.cmds ++ [c], sqTail := tail }

/-- Room for one more command on a drive. -/
def DriveSlot.room (x : DriveSlot) : Bool := decide (x.cmds.length < dsSqM1 x.block)

/-- The drive and logical block of chunk `k` (R546); none past the region with WRAP 0. -/
def chunkPlace (w : List Word) (lba k : Nat) : Option (Nat × Nat) :=
  let ds := rlDrives w
  let c := 2 ^ rlChunkLog w / lba
  let row := k / ds.length
  if !(rlWrap w) && decide (rlNlba w ≤ row * c) then none
  else some (ds.getD (k % ds.length) 0, rlSlba w + (if rlNlba w = 0 then 0 else row * c % rlNlba w))

/-- The logical block of the drive that chunk `k` of a stream goes to (R546). -/
def Dev.streamLba (d : Dev) (w : List Word) (k : Nat) : Nat :=
  let ds := rlDrives w
  dsLba (d.drive (ds.getD (k % ds.length) 0)).block

/-- A stream ends for a fault of its own: its channel halts with kind 6, which stops it (R546, R548). -/
def Dev.relayHalt (d : Dev) (st : Nat) (w : List Word) : Dev := (d.exportHalt (rlChan w) 6 6 st (d.dmaCh (rlChan w)).tail).stopRelay st

/-- A Flush to a drive that is due one, while it has room (FLUSH_CHUNKS). -/
def Dev.flushDrive (d : Dev) (slot st flushAt : Nat) : Dev :=
  let x := d.drive slot
  if flushAt ≠ 0 ∧ flushAt ≤ x.sinceFlush ∧ x.room then (d.setDrive slot { x with sinceFlush := 0 }).sendNvme slot st none 0 0 0 0 false else d

/-- RELAY_CHUNK_SUBMIT (R546, R547): the next chunk of a stream, once it is published; a stream that stops by a halt or a release still
submits the chunks published before. -/
def Dev.chunkSubmit (d : Dev) (st : Nat) : Dev :=
  let x := d.relay st
  match x.block with
  | none => d
  | some (_, b) =>
    let w := b.words
    let size := 2 ^ rlChunkLog w
    let k := x.next
    if !(x.running || (x.stopping && x.pad && !x.padded)) ∨ (d.dmaCh (rlChan w)).tail < (k + 1) * size then d
    else match chunkPlace w (d.streamLba w k) k with
      | none => if x.running then ((d.relayEvent ((rlDrives w).getD (k % (rlDrives w).length) 0) 3 st (rlSlba w + rlNlba w) 0).relayHalt st w) else d
      | some (slot, slba) =>
        let d := d.flushDrive slot st (rlFlushChunks w)
        let y := d.drive slot
        if (y.state ≠ 2) ∨ !y.room then d
        else
          let addr := x.base + k * size % x.size
          let d := d.sendNvme slot st (some k) slba addr size 0 (rlFua w)
          let d := d.setDrive slot { d.drive slot with sinceFlush := y.sinceFlush + 1 }
          (d.setRelay st { x with next := k + 1 }).flushDrive slot st (rlFlushChunks w)

def execRelayChunkSubmit (dt st : Nat) (s : State) : Host.Outcome State Fault Refusal := onDev dt (fun d => d.chunkSubmit st) s

/-! ### Relay: the end of a stream (R549) -/

/-- Commands of a stream outstanding on the drives. -/
def Dev.relayBusy (d : Dev) (st : Nat) : Bool := d.drives.any (fun (p : Nat × DriveSlot) => p.2.cmds.any (fun (c : NvmeCmd) => decide (c.stream = st)))

/-- The last partial chunk, padded with a PAD packet to a whole logical block, is submitted. -/
def Dev.padChunk (d : Dev) (st : Nat) (x : RelayStream) (w : List Word) : Dev :=
  let size := 2 ^ rlChunkLog w
  let c := rlChan w
  let lba := d.streamLba w x.next
  let rest := (d.dmaCh c).tail - x.next * size
  let d := d.setRelay st { x with padded := true }
  if rest = 0 ∨ size ≤ rest then d
  else match (d.dmaCh c).words, chunkPlace w lba x.next with
    | some e, some (slot, slba) =>
      if (d.drive slot).state = 2 ∧ !(d.drive slot).room then d.setRelay st x
      else
        let len := ceilDiv rest lba * lba
        let pad := len - rest
        let d := if pad = 0 then d else d.putPacket c e { ptype := 0, payload := List.replicate (pad - 32) 0 }
        if (d.drive slot).state ≠ 2 then d
        else (d.sendNvme slot st (some x.next) slba (x.base + x.next * size % x.size) len 0 (rlFua w)).setRelay st { x with padded := true, next := x.next + 1 }
    | _, _ => d

/-- Step by step to the Flushes: the published chunks and the partial one, every command outstanding, a Flush to every drive that has not
failed. -/
def Dev.relayAdvance (d : Dev) (st : Nat) : Dev :=
  let x := d.relay st
  match x.block with
  | none => d
  | some (_, b) =>
    let w := b.words
    if !x.stopping || x.flushed then d
    else if x.pad && !x.padded && decide ((x.next + 1) * 2 ^ rlChunkLog w ≤ (d.dmaCh (rlChan w)).tail) && (chunkPlace w (d.streamLba w x.next) x.next).isSome then d
    else
      let d := if x.pad && !x.padded then d.padChunk st x w else d
      if d.relayBusy st then d
      else
        let d := d.setRelay st { d.relay st with flushed := true }
        ((rlDrives w).filter (fun s => decide ((d.drive s).state = 2))).foldl (fun (d : Dev) s => d.sendNvme s st none 0 0 0 0 false) d

/-- RELAY_DRAIN_COMPLETE (R549): with the Flushes done, EV_RELAY cause 5 on each drive that has not failed. -/
def Dev.relayDrain (d : Dev) (st : Nat) : Dev :=
  let d := d.relayAdvance st
  let x := d.relay st
  match x.block with
  | none => d
  | some (_, b) =>
    if !x.stopping || !x.flushed || d.relayBusy st then d
    else
      let d := ((rlDrives b.words).filter (fun s => decide ((d.drive s).state = 2))).foldl (fun (d : Dev) s =>
        (d.setDrive s { d.drive s with state := 1 }).relayEvent s 5 st 0 0) d
      { d with relays := Tbl.drop st d.relays }

def execRelayDrainComplete (dt st : Nat) (s : State) : Host.Outcome State Fault Refusal := onDev dt (fun d => d.relayDrain st) s

/-! ### Relay: completions (R547, R548) -/

/-- HEAD of a stream's channel follows the chunks completed from the first without a gap (R527, R547). `fuel` bounds the walk. -/
def RelayStream.advance (x : RelayStream) : Nat → RelayStream
  | 0 => x
  | fuel + 1 =>
    if x.completed.contains x.headChunk then
      RelayStream.advance { x with headChunk := x.headChunk + 1, completed := x.completed.filter (· != x.headChunk) } fuel
    else x

/-- A chunk is on its drive. -/
def Dev.chunkDone (d : Dev) (c : NvmeCmd) (slot : Nat) : Dev :=
  let x := d.relay c.stream
  match c.chunk, x.block with
  | some k, some (_, b) =>
    let d := d.bump (relayReg slot 0x04)
    let y := ({ x with completed := k :: x.completed } : RelayStream).advance (x.completed.length + 1)
    let ch := rlChan b.words
    let e := d.dmaCh ch
    (d.setRelay c.stream y).setDma ch { e with head := max e.head (min e.written (y.headChunk * 2 ^ rlChunkLog b.words)) }
  | _, _ => d

/-- A command failed: resubmitted to the same drive and block while RETRY allows, else the drive has failed and the stream stops (R548);
a drive that has failed takes nothing more. -/
def Dev.commandFailed (d : Dev) (slot : Nat) (c : NvmeCmd) (status : Nat) (timedOut : Bool) : Dev :=
  let d := d.bump (relayReg slot 0x08)
  match (d.relay c.stream).block with
  | none => d
  | some (_, b) =>
    let w := b.words
    let retry := match (d.dmaCh (rlChan w)).words with | some e => exRetry e | none => 0
    let d := if timedOut then d.relayEvent slot 4 c.stream c.slba status else d
    if (d.drive slot).state = 3 then d
    else if c.tries < retry then
      let d := if timedOut then d else d.relayEvent slot 1 c.stream c.slba status
      d.sendNvme slot c.stream c.chunk c.slba c.addr c.len (c.tries + 1) (rlFua w)
    else ((d.setDrive slot { d.drive slot with state := 3 }).relayEvent slot 2 c.stream c.slba status).relayHalt c.stream w

/-- NVME_COMPLETION: an entry of the drive's CQ in BAR4 with the expected phase. -/
def Dev.nvmeDone (d : Dev) (slot cid status : Nat) : Dev :=
  let x := d.drive slot
  if x.state = 0 then d
  else
    let wraps := decide (x.cqHead = dsCqM1 x.block)
    let head := if wraps then 0 else x.cqHead + 1
    let x := { x with cqHead := head, cqPhase := if wraps then !x.cqPhase else x.cqPhase }
    let d := (d.setDrive slot x).emit (.write (dsCqDb x.block) [BitVec.ofNat 32 head] {})
    match x.cmds.find? (fun (c : NvmeCmd) => decide (c.cid = cid)) with
    | some c =>
      let d := d.setDrive slot { x with cmds := x.cmds.filter (fun (y : NvmeCmd) => decide (y.cid ≠ cid)) }
      if status = 0 then (d.chunkDone c slot).relayAdvance c.stream
      else ((d.setReg (relayReg slot 0x10) (Word.place 15 0 status)).commandFailed slot c status false).relayAdvance c.stream
    | none => if x.late.contains cid then (d.setDrive slot { x with late := x.late.filter (· != cid) }).bump (relayReg slot 0x0C) else d

def execNvmeCompletion (dt slot cid status : Nat) (s : State) : Host.Outcome State Fault Refusal := onDev dt (fun d => d.nvmeDone slot cid status) s

/-- NVME_COMMAND_TIMEOUT: no completion within 2,000 ms, the tick of expiry included (R87). -/
def Dev.nvmeTimeout (d : Dev) (slot cid : Nat) : Dev :=
  let x := d.drive slot
  match x.cmds.find? (fun (c : NvmeCmd) => decide (c.cid = cid)) with
  | some c =>
    if d.cyc ≤ c.cycle + 6000000000 then d
    else
      let d := d.setDrive slot { x with cmds := x.cmds.filter (fun (y : NvmeCmd) => decide (y.cid ≠ cid)), late := cid :: x.late }
      (d.commandFailed slot c 0 true).relayAdvance c.stream
  | none => d

def execNvmeCommandTimeout (dt slot cid : Nat) (s : State) : Host.Outcome State Fault Refusal := onDev dt (fun d => d.nvmeTimeout slot cid) s

end Sys2Proof.Machine
end

