-- ==== Sys2Proof/Machine/Reset.lean ====
section
/-!
DEFINITION. What a reset of everything but the MC leaves (R616): the data path as it is made, with the units that spares have replaced still
replaced.
-/

namespace Sys2Proof.Machine

def Dev.updMc (d : Dev) (f : Mc → Mc) : Dev := { d with mc := f d.mc }
def Dev.updPwr (d : Dev) (f : Power → Power) : Dev := { d with pwr := f d.pwr }

/-- The MC after a reset of the rest: an update still open is closed (R583), a sweep and the launches that wait are gone. -/
def Mc.afterReset (m : Mc) : Mc :=
  { m with update := none, sweep := none, tail := none, cals := [], inForce := [], tApplied := [], readyAt := none, trial := false }

/-- The spare inventory keeps what was retired and lost; take-overs under way are gone. -/
def Spares.afterReset (s : Spares) : Spares := { s with running := [], evalAt := [] }

/-- Everything but the MC is reset; the stage is where bring-up resumes or stops. Firmware that has run READY for more than 600 s breaks the
succession of FAULTs (R585). The map of retired units, the limits that go with them and
the pins stay. -/
def Dev.mainReset (d : Dev) (stage : Nat) : Dev :=
  { ({} : Dev) with
    clk := { ({} : Clock) with time := d.clk.time }
    pcie := { ({} : Pcie) with perst := d.pcie.perst, perstAt := d.pcie.perstAt }
    fw := { ({} : Fw) with stage := stage, image := d.fw.image }
    regs := (List.range 8).foldl (fun t s => if d.reg (sectorReg s 0x04) = RegMap.resetOf (sectorReg s 0x04) then t else Tbl.put (sectorReg s 0x04) (d.reg (sectorReg s 0x04)) t) []
    pads := d.pads.map (fun (p : Nat × Pad) => (p.1, ({ rx := p.2.rx } : Pad)))
    ain := d.ain.map (fun (p : Nat × Ain) =>
      (p.1, if p.2.degraded then ({ slices := p.2.slices, out := p.2.out, degraded := true, failed := p.2.failed } : Ain) else {}))
    engines := d.engines.map (fun (p : Nat × Engine) => (p.1, if p.2.role = 2 then { p.2 with role := 1, sector := 0 } else p.2))
    cmc := { ({} : Cmc) with
      p := d.cmc.p
      pcs := d.cmc.pcs.map (fun (x : Nat × Pc) =>
        (x.1, if x.2.role = 2 then ({ role := 1, logical := 0xFF } : Pc) else ({ role := x.2.role, logical := x.2.logical } : Pc))) }
    tps := d.tps.map (fun (p : Nat × Tp) => (p.1, ({ phys := p.2.phys } : Tp)))
    spares := d.spares.afterReset
    mc := { d.mc.afterReset with faults := if d.mc.readyAt.isSome && decide (d.mc.fwAt + 1800000000000 < d.clk.time) then 0 else d.mc.faults }
    pwr := { d.pwr with mdll := false, synths := [], mainOk := false, stopped := false, failAt := none, untrained := [], shutting := false, stageAt := d.clk.time }
    jtag := d.jtag
    free := d.free
    out := d.out }

/-- The reset empties capture memory and the local memories. -/
def mainReset (stage : Nat) (x : Dev × Mems) : Dev × Mems := (x.1.mainReset stage, {})

/-- The main rails go off (R599). Their order, 1 ms apart, is the board's to see and not in the state. -/
def Dev.railsOff (d : Dev) : Dev :=
  (d.updPwr (fun p => { p with enables := 0, enableAt := d.clk.time })).updMc (fun m => { m with mons := m.mons.filter (fun x => decide (x.1 = 6)), railGood := m.railGood &&& 64 })

/-- A fault of the MC: its code is the last fatal cause, STAGE reads 0xF0 and MC_STATE 4 (R65, R618). -/
def Dev.mcFault (d : Dev) (code : Nat) : Dev :=
  { d with fw := { d.fw with stage := 0xF0 }, mc := { d.mc with state := 4, fault := code } }

end Sys2Proof.Machine
end

