-- ==== Sys2Proof/Machine/McLog.lean ====
section
/-!
DEFINITION. Images as the MC reads and verifies them (R578, R579), the event log (R568–R572), identity and attestation (R587–R591), DESCRIBE
(R54–R58) and the watchdog of the MC (R562).
-/

namespace Sys2Proof.Machine

/-! ### Images (R578, R579) -/

/-- `n` bytes from offset `off`, little-endian. -/
def imgField (b : List Byte) (off n : Nat) : Nat := (takePad 0 n (b.drop off)).foldr (fun x v => 256 * v + x.toNat) 0

/-- `n` bytes from offset `off`, most significant first, as RFC 8391 writes numbers (assumption 61). -/
def imgBig (b : List Byte) (off n : Nat) : Nat := (takePad 0 n (b.drop off)).foldl (fun v x => 256 * v + x.toNat) 0

def imgLength (b : List Byte) : Nat := imgField b 0x10 4
def imgVersion (b : List Byte) : Nat := imgField b 0x08 4
def imgSvn (b : List Byte) : Nat := imgField b 0x0C 4 % 64
def imgKey (b : List Byte) : Nat := imgField b 0x04 4 / 2 ^ 8 % 4
def imgRevoke (b : List Byte) : Nat := imgField b 0x04 4 / 2 ^ 12 % 16
/-- PK: 68 bytes. -/
def imgPk (b : List Byte) : List Byte := takePad 0 68 (b.drop 0x18)
/-- The signed message. -/
def imgMessage (b : List Byte) : List Byte := b.take (imgLength b)
def imgSignature (b : List Byte) : List Byte := takePad 0 2820 (b.drop (imgLength b))

/-- A root slot is programmed, and not revoked. -/
def Mc.keyGood (m : Mc) (k : Nat) : Bool := Config.rootSlots.getLsbD k && !(m.revoked.testBit k)

/-- The first failed check of R579, 1–6. `total`: the size of the update that a header LENGTH must agree with (R583). -/
def Mc.imageCheck (m : Mc) (total : Option Nat) (b : List Byte) : Option Nat :=
  let n := imgLength b
  let size := match total with | some t => decide (n + 2824 = t) | none => true
  let format := decide (imgField b 0 4 = 0x4E525631 ∧ imgField b 4 4 % 256 = 1 ∧ 4096 ≤ n ∧ n ≤ 6291456 ∧ n % 8 = 0) && size
  if !format then some 1
  else if !(m.keyGood (imgKey b)) then some 2
  else if Config.shake256 (imgPk b) ≠ Config.rootHash (imgKey b) then some 3
  else if imgBig b 0x18 4 ≠ 0x12 then some 4
  else if imgSvn b < m.svn then some 5
  else if !(Config.xmssVerify (imgPk b) (imgMessage b) (imgSignature b)) then some 6
  else none

def Mc.slot (m : Mc) (n : Nat) : ImageSlot := m.slots.getD n {}
def Mc.setSlot (m : Mc) (n : Nat) (x : ImageSlot) : Mc := { m with slots := modAt (fun _ => x) n m.slots }

/-- The bytes of a slot. -/
def Mc.slotBytes (m : Mc) (n : Nat) : List Byte := match (m.slot n).data with | some b => b | none => Config.factoryImage n

/-- The image that firmware runs. -/
def Dev.runBytes (d : Dev) : List Byte := match d.mc.loaded with | some b => b | none => Config.factoryImage d.fw.image

/-- The eight dwords of a 256-bit hash, its first byte lowest. -/
def hashWords (h : BitVec 256) : List Word := (List.range 8).map (fun i => h.extractLsb' (32 * i) 32)

/-- SHAKE256 over bytes 0 to LENGTH − 1. -/
def imgMeasure (b : List Byte) : BitVec 256 := Config.shake256 (imgMessage b)

/-- VERSION of a slot, 0 when it is invalid. -/
def Mc.slotVersion (m : Mc) (n : Nat) : Nat := if (m.slot n).valid then imgVersion (m.slotBytes n) else 0

/-- 256 bits that no rule states. -/
def Dev.freshHash (d : Dev) : BitVec 256 × Dev :=
  let f0 := d.fresh
  let f1 := f0.2.fresh
  let f2 := f1.2.fresh
  let f3 := f2.2.fresh
  (f3.1 ++ f2.1 ++ f1.1 ++ f0.1, f3.2)

/-- The measurement of a slot: free when the slot is invalid, since its LENGTH then says nothing. -/
def Dev.slotMeasure (d : Dev) (n : Nat) : BitVec 256 × Dev :=
  if (d.mc.slot n).valid then (imgMeasure (d.mc.slotBytes n), d) else d.freshHash

/-! ### The log (R569–R572) -/

/-- The sixteen dwords of a record. -/
def LogRec.words (r : LogRec) : List Word :=
  let ws : List Word :=
    [ BitVec.ofNat 32 r.seq, Word.place 15 0 r.boot ||| Word.place 17 16 r.sev ||| Word.place 19 18 r.src, Word.place 15 0 r.code, BitVec.ofNat 32 r.ms,
      r.tb.lo, r.tb.hi, Word.place 15 0 r.unit, BitVec.ofNat 32 r.arg, r.data.lo, r.data.hi ] ++
    (List.range 4).map (fun i => BitVec.ofNat 32 (r.extra / 2 ^ (32 * i))) ++ [0]
  ws ++ [crc32 ws]

/-- Every record held, in flash and in the write buffer. -/
def Mc.records (m : Mc) : List LogRec := m.log ++ m.buf

def formLogRead : CmdForm := { opcode := 0x61, recovery := true, blockLen := 8 }

def logReadChecks (_ : Dev) (b : List Word) : List (Nat × Bool) := [rng b 0x04 15 0 1 65535, zer b 0x04 31 16]

def execLogRead (dt q : Nat) (e : Entry) (s : State) : Host.Outcome State Fault Refusal :=
  onDev dt (runCmd formLogRead q e logReadChecks (fun d =>
    let from_ := (dwAt e.block 0x00).toNat
    let rs := (d.mc.records.filter (fun r => decide (from_ ≤ r.seq))).take (min (fldAt e.block 0x04 15 0) (e.outLen / 64))
    let after := match rs.getLast? with | some r => (r.seq + 1) % 2 ^ 32 | none => from_
    formLogRead.reply (d.writeOutE e (rs.flatMap LogRec.words)) q e { result0 := BitVec.ofNat 64 rs.length, result1 := BitVec.ofNat 64 after })) s

/-- One record reaches flash. Before the first record of a sector, the sector is erased with what it holds (R571). -/
def Dev.flushRecord (d : Dev) (r : LogRec) : Dev :=
  let sector (n : Nat) : Nat := n / 1024 % 512
  let d :=
    if r.seq % 1024 = 0 then
      let kept := d.mc.log.filter (fun x => decide (sector x.seq ≠ sector r.seq))
      let d := d.updMc (fun m => { m with log := kept })
      let oldest := match kept.head? with | some x => x.seq | none => r.seq
      d.raiseAt evLogWrap 0 0 oldest (BitVec.ofNat 64 (sector r.seq)) d.clk.count
    else d
  d.updMc (fun m => { m with log := m.log ++ [r] })

/-- The records of the write buffer reach flash (R570). -/
def Dev.flushLog (d : Dev) : Dev := d.mc.buf.foldl (fun d r => d.flushRecord r) (d.updMc (fun m => { m with buf := [] }))

def execLogFlush (dt : Nat) (s : State) : Host.Outcome State Fault Refusal := onDev dt (fun d => if d.pwr.standby then d.flushLog else d) s

/-! ### Identity and attestation (R587–R591) -/

/-- The dword of KEYS_PROG, KEYS_REVOKED, SVN and BLOCKS. -/
def Mc.otpWord (m : Mc) : Word :=
  Word.place 3 0 Config.rootSlots.toNat ||| Word.place 7 4 m.revoked ||| Word.place 13 8 m.svn ||| Word.place 22 14 m.blocks

/-- FW_STATUS as BAR0 shows it (R50). -/
def Dev.fwStatus (d : Dev) : Word :=
  Word.place 0 0 d.fw.ready.toNat ||| Word.place 1 1 d.fw.recovery.toNat ||| Word.place 2 2 d.fw.image ||| Word.place 3 3 d.fw.fault.toNat |||
    Word.place 15 8 d.fw.stage

/-- ATT_PK: 68 bytes. -/
def attPk : List Word := wordsOfBytes (takePad 0 68 Config.attestKey)

/-- The block of IDENTITY_READ. -/
def Dev.identityWords (d : Dev) : List Word × Dev :=
  let m := d.mc
  let a := d.slotMeasure 0
  let b := a.2.slotMeasure 1
  ([Config.serial.setWidth 32, (Config.serial >>> 32).setWidth 32, Word.place 7 0 (d.fld 0x04 7 0) ||| Word.place 15 8 (d.fld 0x04 15 8), m.otpWord,
    BitVec.ofNat 32 m.leaf, BitVec.ofNat 32 m.boots] ++ attPk ++
   [0, BitVec.ofNat 32 (m.slotVersion 0), BitVec.ofNat 32 (m.slotVersion 1),
    Word.place 0 0 m.active ||| Word.place 2 1 (match m.pending with | some n => n + 1 | none => 0) ||| Word.place 3 3 m.trial.toNat, 0] ++
   hashWords a.1 ++ hashWords b.1, b.2)

def formIdentity : CmdForm := { opcode := 0x6C, recovery := true }

def execIdentityRead (dt q : Nat) (e : Entry) (s : State) : Host.Outcome State Fault Refusal :=
  onDev dt (runCmd formIdentity q e noChecks (fun d =>
    let x := d.identityWords
    formIdentity.reply (x.2.writeOutE e x.1) q e {})) s

/-- EV_LEAVES_LOW, once for each of the two levels (R591). -/
def Dev.leavesLow (d : Dev) : Dev :=
  let left := 1048576 - d.mc.leaf
  let tell (d : Dev) : Dev := d.raiseAt evLeavesLow 1 0 left (BitVec.ofNat 64 d.mc.leaf) d.clk.count
  let d := if left ≤ 65536 && !d.mc.low64 then tell (d.updMc (fun m => { m with low64 := true })) else d
  if left ≤ 4096 && !d.mc.low4 then tell (d.updMc (fun m => { m with low4 := true })) else d

/-- The MC starts (R562, R568, R589): 1 standby power-up, 2 watchdog. -/
def Dev.mcStart (d : Dev) (cause : Nat) : Dev :=
  let d := d.updMc (fun m => { m with leaf := m.blocks * 4096, claimed := false })
  (d.logOnly 0x100B 0 cause).leavesLow

/-- A leaf for a signature (R590 steps 1 and 2, R591): the leaf, none when there is none. The layout of ARG in record 0x1008 is not stated. -/
def Dev.takeLeaf (d : Dev) : Option Nat × Dev :=
  let m := d.mc
  let claim := decide (m.leaf % 4096 = 0) || !m.claimed
  if m.leaf = 1048576 ∨ (claim ∧ 256 ≤ m.blocks) then (none, d)
  else
    let d := if claim then
        let f := d.fresh
        (f.2.updMc (fun m => { m with blocks := m.blocks + 1, claimed := true })).logOnly 0x1008 0 (f.1.toNat % 2 ^ 32)
      else d
    (some m.leaf, (d.updMc (fun m => { m with leaf := m.leaf + 1 })).leavesLow)

/-- The first 256 bytes of the report: the signed message. -/
def Dev.attestWords (d : Dev) (leaf : Nat) (nonce : List Word) : List Word :=
  [ Word.place 15 0 1 ||| Word.place 31 16 3076, 0, Config.serial.setWidth 32, (Config.serial >>> 32).setWidth 32, BitVec.ofNat 32 leaf,
    BitVec.ofNat 32 d.mc.boots, d.clk.count.lo, d.clk.count.hi ] ++ takePad 0 10 nonce ++ hashWords (imgMeasure d.runBytes) ++
  [ BitVec.ofNat 32 (imgVersion d.runBytes), d.mc.otpWord, d.fwStatus ] ++ List.replicate 35 0

/-- The signature: its index field, most significant byte first (assumption 61), then the rest. -/
def attestSignature (leaf : Nat) (msg : List Byte) : List Byte :=
  [BitVec.ofNat 8 (leaf / 2 ^ 24), BitVec.ofNat 8 (leaf / 2 ^ 16), BitVec.ofNat 8 (leaf / 2 ^ 8), BitVec.ofNat 8 leaf] ++
    takePad 0 2816 (Config.xmssSign leaf msg)

def formAttest : CmdForm := { opcode := 0x6B, recovery := true, byPtr := true, blockLen := 48 }

def attestChecks (_ : Dev) (b : List Word) : List (Nat × Bool) := [zer b 0x28 31 0, zer b 0x2C 31 0]

def execAttest (dt q : Nat) (e : Entry) (s : State) : Host.Outcome State Fault Refusal :=
  onDev dt (runCmd formAttest q e attestChecks (fun d =>
    if e.outLen < 3080 then formAttest.reply d q e (paramError 1 0x08)
    else match d.takeLeaf with
      | (none, d) => formAttest.reply d q e { status := efsLeaves }
      | (some leaf, d) =>
        let msg := d.attestWords leaf e.block
        let out := msg ++ wordsOfBytes (attestSignature leaf (bytesOfWords msg)) ++ [0]
        formAttest.reply ((d.writeOutE e out).logOnly 0x1007 0 leaf) q e {})) s

/-! ### MC_WATCHDOG_RESTART and PERISCOPE_REFRESH (R562, R65, R646) -/

/-- The watchdog restarts the MC: PSC_SEQ holds until the MC runs again, after a number of CLK_STBY edges that no rule states (assumption 113). -/
def Dev.watchdogRestart (d : Dev) : Dev :=
  let f := (d.mcStart 2).fresh
  f.2.updMc (fun m => { m with psc := { m.psc with hold := 1 + f.1.toNat % 2 ^ 32 } })

def execMcWatchdogRestart (dt : Nat) (s : State) : Host.Outcome State Fault Refusal := onDev dt (fun d => if d.pwr.standby then d.watchdogRestart else d) s

/-- The hottest sensor, the lowest-numbered of several: its temperature and index. -/
def hottest (ts : List Int) : Int × Nat :=
  match ts.max? with
  | some t => (t, ts.findIdx (fun x => decide (x = t)))
  | none => (0, 0)

/-- PSC_SEQ after a CLK_STBY edge (R646): 0 on the first, held while the MC restarts, else one more. -/
def Periscope.nextSeq (p : Periscope) : Nat := if !p.begun then 0 else if p.hold ≠ 0 then p.seq else (p.seq + 1) % 2 ^ 32

/-- The mirror takes the MC's registers on a CLK_STBY edge, 120 ticks after the one before, and PSC_SEQ advances (R601). -/
def Mc.refresh (m : Mc) (stage time : Nat) : Mc :=
  let h := hottest m.temps
  { m with psc := { seq := m.psc.nextSeq, begun := true, hold := m.psc.hold - 1, stage := stage, state := m.state, tj := codeOf 16 h.1, sensor := h.2, rails := m.railGood,
                    logSeq := m.logSeq - 1, fault := m.fault, temps := m.temps, edgeAt := some time } }

def execPeriscopeRefresh (dt : Nat) (s : State) : Host.Outcome State Fault Refusal :=
  onDev dt (fun d => if d.pwr.standby && !(notYet d.mc.psc.edgeAt 120 d.clk.time) then d.updMc (fun m => m.refresh d.fw.stage d.clk.time) else d) s

/-! ### DESCRIBE (R54–R58) -/

/-- A record: its type and its body; REC_LEN counts the two dwords of its head. -/
def recordOf (type : Nat) (body : List Word) : List Word := [Word.place 15 0 type ||| Word.place 31 16 (4 * body.length + 8), 0] ++ body

def Dev.describe1 (d : Dev) : List Word :=
  let b := d.runBytes
  recordOf 1 ([ BitVec.ofNat 32 (imgVersion b),
    Word.place 0 0 d.fw.image ||| Word.place 1 1 d.mc.trial.toNat ||| Word.place 2 2 d.fw.recovery.toNat ||| Word.place 13 8 (imgSvn b) ||| Word.place 31 24 1 ]
    ++ hashWords (imgMeasure b))

/-- The figures of records 0x0002 and 0x0003. -/
structure Figures where
  sectors : List Nat
  staging : Nat
  capture : Nat
  sched : Nat
  plane : Nat
  reduction : Nat
  exports : Nat
  trace : Nat
  rate : Nat
  p : Nat
  left : List Nat
  deriving DecidableEq, Repr

def figuresMade : Figures :=
  { sectors := List.replicate 8 48000000, staging := 134217728, capture := 193273528320, sched := 5000000000000, plane := 33554432, reduction := 8388608,
    exports := 100000000000, trace := 32, rate := 0, p := 180, left := (List.range 10).map sparesMade }

def Dev.figuresNow (d : Dev) : Figures :=
  { sectors := (List.range 8).map (fun s => (d.reg (sectorReg s 4)).toNat), staging := 134217728 - d.facetLost 0, capture := d.capacity,
    sched := d.sum5Limit, plane := 33554432 - d.facetLost 1, reduction := 8388608 - d.facetLost 3, exports := d.exportLimit,
    trace := 32 - d.spares.lostTps.length, rate := d.cmc.rate, p := d.cmc.p, left := (List.range 10).map d.sparesLeft }

def Figures.words (f : Figures) (type : Nat) : List Word :=
  recordOf type ([ 24000000, BitVec.ofNat 32 (f.sectors.foldl min 48000000), BitVec.ofNat 32 f.staging, 0 ] ++ qwords f.capture ++ qwords f.sched ++
    [ BitVec.ofNat 32 f.plane, 8, BitVec.ofNat 32 f.reduction, 0 ] ++ qwords 768000000000 ++ qwords f.exports ++
    [ Word.place 15 0 1024 ||| Word.place 31 16 256, Word.place 15 0 64 ||| Word.place 31 16 f.trace, Word.place 15 0 60 ||| Word.place 31 16 16,
      Word.place 1 0 f.rate ||| Word.place 15 8 f.p ] ++
    f.sectors.map (BitVec.ofNat 32) ++
    (List.range 5).map (fun i => Word.place 15 0 (f.left.getD (2 * i) 0) ||| Word.place 31 16 (f.left.getD (2 * i + 1) 0)) ++ [0])

def Dev.describe5 (d : Dev) : List Word :=
  let on := d.aps.filter (fun (x : Nat × Aperture) => decide (2 ≤ x.2.state) && planeCompat x.2.standing)
  let bps := ((on.filter (fun (x : Nat × Aperture) => decide (x.2.state = 3))).map (fun (x : Nat × Aperture) => x.2.schedBps)).sum
  recordOf 5 ([1 ||| Word.place 11 8 10, Word.place 15 0 on.length] ++ qwords bps)

/-- The records in ascending type; in recovery mode the MC writes the first only. -/
def Dev.describeRecords (d : Dev) : List (List Word) :=
  if d.fw.recovery then [d.describe1]
  else [d.describe1, figuresMade.words 2, d.figuresNow.words 3, recordOf 4 [0x7FFE, 0], d.describe5]

/-- The records that fit whole, up to the first that does not. -/
def fitWhole : Nat → List (List Word) → List (List Word)
  | _, [] => []
  | room, r :: t => if 4 * r.length ≤ room then r :: fitWhole (room - 4 * r.length) t else []

def formDescribe : CmdForm := { opcode := 0x01, recovery := true }

def execDescribe (dt q : Nat) (e : Entry) (s : State) : Host.Outcome State Fault Refusal :=
  onDev dt (runCmd formDescribe q e noChecks (fun d =>
    let rs := fitWhole e.outLen d.describeRecords
    formDescribe.reply (d.writeOutE e rs.flatten) q e { result0 := BitVec.ofNat 64 rs.length, result1 := BitVec.ofNat 64 (4 * rs.flatten.length) })) s

end Sys2Proof.Machine
end

