-- ==== Sys2Proof/Machine/McSense.lean ====
section
/-!
DEFINITION. Sensors, thermal protection and rails (R564–R567, R573, R574, R598, R630), and SENSOR_READ (R565).
-/

namespace Sys2Proof.Machine

/-! ### Rails (R567, R596, R598, R630) -/

/-- The nine supplies in the order core, SRAM, I/O, SerDes, analogue, HBM VPP, VDD, VDDQ, standby: the rail, the window in mV, and the maximum
current in units of 10 mA. -/
def supplies : List (Nat × Nat × Nat × Nat) :=
  [ (0, 728, 772, 42800), (1, 825, 875, 7000), (2, 1746, 1854, 300), (3, 873, 927, 5000), (4, 1164, 1236, 2200), (5, 1710, 1890, 400),
    (5, 1067, 1133, 5200), (5, 388, 412, 4260), (6, 1710, 1890, 70) ]

/-- The rails of the eight enable outputs, in the order in which they are switched on (R598). -/
def railOrder : List Nat := [0, 1, 4, 3, 5, 5, 5, 2]

/-- The rail is on: every enable of it has been asserted and its supplies have entered their windows. -/
def Power.railOn (p : Power) (r : Nat) : Bool :=
  decide (r = 6) || (decide (p.enables ≠ 0) && !((railOrder.drop (if p.enables = 8 then 8 else p.enables - 1)).contains r))

/-- The measurements of a rail's supplies with their limits. -/
def railParts (ms : List (Nat × Nat)) (r : Nat) : List ((Nat × Nat) × Nat × Nat × Nat) :=
  ((ms.zip supplies).filter (fun p => decide (p.2.1 = r))).map (fun p => (p.1, p.2.2))

def partUnder (p : (Nat × Nat) × Nat × Nat × Nat) : Bool := decide (p.1.1 < p.2.1)
def partOut (p : (Nat × Nat) × Nat × Nat × Nat) : Bool := partUnder p || decide (p.2.2.1 < p.1.1)
/-- The overcurrent limit is 110 % of the maximum current. -/
def partHigh (p : (Nat × Nat) × Nat × Nat × Nat) : Bool := decide (11 * p.2.2.2 < 10 * p.1.2)

/-- Power in mW of a supply measured in mV and 10 mA. -/
def partPower (p : (Nat × Nat) × Nat × Nat × Nat) : Nat := p.1.1 * p.1.2 / 100

/-- One conversion of a rail: its monitor and the causes of EV_RAIL. -/
def RailMon.step (m : RailMon) (ps : List ((Nat × Nat) × Nat × Nat × Nat)) : RailMon × List Nat :=
  let out := ps.any partOut
  let under := ps.any partUnder
  let high := ps.any partHigh
  let bad := if out then m.bad + 1 else 0
  let low := if under then m.under + 1 else 0
  let left := decide (3 ≤ bad) && !m.flagged
  let above := high && !m.current
  let back := (m.flagged || m.current) && !out && !high
  ({ bad := bad, under := low, flagged := (m.flagged || left) && !back, current := (m.current || above) && !back },
   (if left then [if under then 1 else 2] else []) ++ (if above then [3] else []) ++ (if back then [4] else []))

/-- What is measured of a rail: voltage, current and power. Of the HBM group no rule says which voltage and current stand for the three. -/
def Dev.railFigures (d : Dev) (ms : List (Nat × Nat)) (r : Nat) : (Nat × Nat × Nat) × Dev :=
  let ps := railParts ms r
  let mw := (ps.map partPower).sum
  if r = 5 then
    let f := d.fresh
    ((f.1.toNat % 2 ^ 16, f.1.toNat / 2 ^ 16 % 2 ^ 16, mw), f.2)
  else match ps with
    | p :: _ => ((p.1.1, p.1.2, mw), d)
    | [] => ((0, 0, 0), d)

/-- The monitors after a conversion of one rail, and its events. -/
def Dev.monitor (d : Dev) (ms : List (Nat × Nat)) (r : Nat) : Dev :=
  if !(d.pwr.railOn r) || (d.pwr.shutting && decide (r ≠ 6)) then d
  else
    let y := (Tbl.look ({} : RailMon) d.mc.mons r).step (railParts ms r)
    let g := d.mc.rails.getD r (0, 0, 0)
    let good := !((railParts ms r).any partOut)
    let d := d.updMc (fun m => { m with
      mons := Tbl.put r y.1 m.mons
      railGood := if good then m.railGood ||| 2 ^ r else m.railGood &&& (127 - 2 ^ r) })
    y.2.foldl (fun (d : Dev) c => d.raiseAt evRail 2 r c (BitVec.ofNat 64 (g.1 % 2 ^ 16 + 2 ^ 16 * g.2.1)) d.clk.count) d

/-- A main rail has been under its window for 10 ms, from the first of eleven conversions to the last. -/
def Dev.railLost (d : Dev) : Option Nat := (List.range 6).find? (fun r => decide (11 ≤ (Tbl.look ({} : RailMon) d.mc.mons r).under))

/-- A rail fault: everything but the MC is reset, and the rails stay off until SHDN_N rises (R567, R598, R616). -/
def railFault (fwFault : Bool) (code : Nat) (x : Dev × Mems) : Dev × Mems :=
  let y := mainReset 0xF0 x
  let d := (y.1.railsOff.mcFault code).updPwr (fun p => { p with railsLocked := true })
  ({ d with fw := { d.fw with fault := fwFault } }, y.2)

/-! ### Temperatures (R564, R566, R573, R574) -/

/-- One conversion against a threshold in 1/16 °C: its counts, and whether it is crossed upward or downward. -/
def Threshold.step (x : Threshold) (limit tj : Int) : Threshold × Option Bool :=
  let up := if limit ≤ tj then x.up + 1 else 0
  let down := if tj < limit - 80 then x.down + 1 else 0
  if !x.on && decide (3 ≤ up) then ({ up := up, down := down, on := true }, some true)
  else if x.on && decide (3 ≤ down) then ({ up := up, down := down, on := false }, some false)
  else ({ up := up, down := down, on := x.on }, none)

/-- ARG of the thermal events: TJ_MAX, and [31] on the downward crossing. -/
def thermalArg (tj : Int) (up : Bool) : Nat := codeOf 16 tj + (if up then 0 else 2 ^ 31)

/-- The MC acts on TJ_MAX. -/
def thermal (x : Dev × Mems) : Dev × Mems :=
  let h := hottest x.1.mc.temps
  let w := x.1.mc.warn.step 1600 h.1
  let c := x.1.mc.crit.step 1840 h.1
  let t := x.1.mc.trip.step 2000 h.1
  let d := x.1.updMc (fun m => { m with warn := w.1, crit := c.1, trip := t.1 })
  let d := match w.2 with | some up => d.raiseAt evThermalWarn 1 h.2 (thermalArg h.1 up) 1600 d.clk.count | none => d
  let d := match c.2 with
    | some true => (d.liveWith (fun _ => true)).foldl (fun (d : Dev) a => d.haltSoon 5 a) (d.raiseAt evThermalCrit 3 h.2 (thermalArg h.1 true) 1840 d.clk.count)
    | _ => d
  if decide (t.2 = some true) && !d.pwr.tripped then
    let y := mainReset 0xF0 (d, x.2)
    ((y.1.railsOff.mcFault 0x101).updPwr (fun p => { p with tripped := true }), y.2)
  else (d, x.2)

/-- Sum and number of the last 100 conversions of sensor 40 + `n`. -/
def Mc.tempSum (m : Mc) (n : Nat) : Int × Nat := ((m.recent.map (fun ts => ts.getD n 0)).sum, m.recent.length)

/-- A mean in 1/16 °C. How it is rounded is not stated: it is free between its neighbours, and free altogether before the first conversion. -/
def Dev.meanOf (d : Dev) (s : Int × Nat) : Int × Dev :=
  let f := d.fresh
  if s.2 = 0 then (signedOf 16 f.1.toNat, f.2)
  else if s.1 % (s.2 : Int) = 0 then (s.1 / (s.2 : Int), d)
  else (s.1 / (s.2 : Int) + (f.1.toNat % 2 : Nat), f.2)

/-- T of converter `n`: the mean of sensor 40 + n over the last 100 ms. -/
def Dev.meanT (d : Dev) (n : Nat) : Int × Dev := d.meanOf (d.mc.tempSum n)

/-- T of the converter has moved 0.5 °C or more from that of the coefficients in force. -/
def Mc.moved (m : Mc) (n : Nat) : Bool :=
  let s := m.tempSum n
  decide (8 * s.2 ≤ (s.1 - s.2 * Tbl.look 0 m.tApplied n).natAbs) && decide (s.2 ≠ 0)

def bitSet (mask n : Nat) : Bool := decide (mask / 2 ^ n % 2 = 1)

/-- A converter is swept now. -/
def Mc.swept (m : Mc) (n : Nat) : Bool := match m.sweep with | some s => bitSet s.conv n | none => false

/-- New coefficients for every converter whose T has moved: folded into a CAL_APPLY that is pending for it, else in a launch of their own. -/
def Dev.reinterpolate (d : Dev) : Dev :=
  let waits (src : Bool) (n : Nat) : Bool := d.mc.cals.any (fun (c : CalLaunch) => bitSet c.conv n && c.source.isSome == src)
  let ns := (List.range 4).filter (fun n => decide (d.fw.stage = 0x3F) && d.mc.moved n && !(d.mc.swept n) && !(waits false n))
  ns.foldl (fun (d : Dev) n =>
    let t := d.meanT n
    let d := t.2
    if waits true n then
      d.updMc (fun m => { m with cals := m.cals.map (fun (c : CalLaunch) => if bitSet c.conv n then { c with temps := Tbl.put n t.1 c.temps } else c) })
    else
      let tick := d.ownTick
      d.updMc (fun m => { m with cals := m.cals ++ [{ conv := 2 ^ n, tick := tick, source := none, temps := [(n, t.1)] }] })) d

/-- The temperatures of the swept converters, summed over the sweep (R614). -/
def Dev.sweepTemps (d : Dev) : Dev :=
  match d.mc.sweep with
  | none => d
  | some s =>
    let y := (List.range 4).foldl (fun (y : Dev × List (Int × Nat)) n =>
      let o := s.sums.getD n (0, 0)
      if bitSet s.conv n then (let t := y.1.meanT n; (t.2, y.2 ++ [(o.1 + t.1, o.2 + 1)])) else (y.1, y.2 ++ [o])) (d, [])
    y.1.updMc (fun m => { m with sweep := some { s with sums := y.2 } })

/-! ### SENSOR_CONVERSION and SENSOR_READ -/

/-- The one conversion a millisecond (R564) of every sensor and monitor: 48 temperatures in 1/16 °C, and the nine supplies as (mV, 10 mA). -/
def sensorConversion (temps : List Int) (ms : List (Nat × Nat)) (x : Dev × Mems) : Dev × Mems :=
  if !x.1.pwr.standby || notYet x.1.mc.convAt 3000000 x.1.clk.time then x
  else
    let ts := takePad 0 48 temps
    let ms := takePad (0, 0) 9 ms
    let d := x.1.updMc (fun m => { m with
      temps := ts
      convAt := some x.1.clk.time
      sampleTb := if x.1.clk.run then x.1.clk.count else 0
      recent := (((ts.drop 40).take 4) :: m.recent).take 100 })
    let y := (List.range 7).foldl (fun (y : List (Nat × Nat × Nat) × Dev) r => let g := y.2.railFigures ms r; (y.1 ++ [g.1], g.2)) ([], d)
    let d := y.2.updMc (fun m => { m with rails := y.1 })
    let d := (List.range 7).foldl (fun (d : Dev) r => d.monitor ms r) d
    let d := d.sweepTemps.reinterpolate
    let x := thermal (d, x.2)
    match x.1.railLost with
    | some r => railFault true (0x200 + r) x
    | none => x

def execSensorConversion (dt : Nat) (temps : List Int) (rails : List (Nat × Nat)) (s : State) : Host.Outcome State Fault Refusal :=
  onAll dt (fun d m => sensorConversion temps rails (d, m)) s

def Dev.sensorWords (d : Dev) : List Word :=
  let m := d.mc
  let h := hottest m.temps
  let temp (i : Nat) : Nat := codeOf 16 (m.temps.getD i 0)
  let rail (r : Nat) : Nat × Nat × Nat := m.rails.getD r (0, 0, 0)
  [ m.sampleTb.lo, m.sampleTb.hi, BitVec.ofNat 32 (d.clk.time / 3000000), Word.place 15 0 (codeOf 16 h.1) ||| Word.place 21 16 h.2 ] ++
  (List.range 24).map (fun i => Word.place 15 0 (temp (2 * i)) ||| Word.place 31 16 (temp (2 * i + 1))) ++
  (List.range 7).flatMap (fun r => [Word.place 15 0 (rail r).1 ||| Word.place 31 16 (rail r).2.1, BitVec.ofNat 32 (rail r).2.2]) ++
  [ BitVec.ofNat 32 ((List.range 7).map (fun r => (rail r).2.2)).sum, 0 ]

def formSensorRead : CmdForm := { opcode := 0x60, recovery := true }

def execSensorRead (dt q : Nat) (e : Entry) (s : State) : Host.Outcome State Fault Refusal :=
  onDev dt (runCmd formSensorRead q e noChecks (fun d => formSensorRead.reply (d.writeOutE e d.sensorWords) q e {})) s

end Sys2Proof.Machine
end

