-- ==== Sys2Proof/Machine/McCal.lean ====
section
/-!
DEFINITION. Calibration: CAL_SWEEP (R610–R615), CAL_APPLY (R575, R576) and the launches that firmware makes for itself (R140, R574): LAUNCH_TICK.
-/

namespace Sys2Proof.Machine

/-- The residual figures of converter `n` (R577). -/
def calReg (n off : Nat) : Nat := 0x5E0000 + 32 * n + off

/-- The path figures of a converter are new: no rule gives their values, but for the skew of AIN0 against itself. -/
def Dev.freshPath (d : Dev) (n : Nat) : Dev :=
  let f := d.fresh
  (f.2.setReg (calReg n 0x04) (f.1.setWidth 32)).setReg (calReg n 0x08) (if n = 0 then 0 else (f.1 >>> 32).setWidth 32)

/-! ### CAL_SWEEP -/

def formCalSweep : CmdForm := { opcode := 0x58, blockLen := 40 }

/-- The fields of R610, with the built-in profiles' own in place of the user's. -/
def sweepPoints (b : List Word) : Nat := if fldAt b 0x00 7 6 = 1 then 512 else if fldAt b 0x00 7 6 = 2 then 1200 else fldAt b 0x0C 13 0
def sweepDwell (b : List Word) : Nat := if fldAt b 0x00 7 6 = 1 then 100 else if fldAt b 0x00 7 6 = 2 then 50 else fldAt b 0x10 15 0
def sweepSpan (b : List Word) : Nat × Nat := if fldAt b 0x00 7 6 = 0 then (fldAt b 0x04 23 0, fldAt b 0x08 23 0) else (10000, 12000000)

def calSweepChecks (_ : Dev) (b : List Word) : List (Nat × Bool) :=
  let user := decide (fldAt b 0x00 7 6 = 0)
  [ rng b 0x00 3 0 1 15, rng b 0x00 5 4 0 1, rng b 0x00 7 6 0 2, zerUnless user b 0x00 5 4, rng b 0x00 15 8 0 74, zer b 0x00 31 17,
    zerUnless user b 0x04 31 0, (0x04, !user || decide (10000 ≤ fldAt b 0x04 23 0 ∧ fldAt b 0x04 23 0 ≤ 12000000)), zer b 0x04 31 24,
    zerUnless user b 0x08 31 0, (0x08, !user || decide (fldAt b 0x04 23 0 < fldAt b 0x08 23 0 ∧ fldAt b 0x08 23 0 ≤ 12000000)), zer b 0x08 31 24,
    zerUnless user b 0x0C 31 0, (0x0C, !user || decide (2 ≤ fldAt b 0x0C 13 0 ∧ fldAt b 0x0C 13 0 ≤ 8192)), zer b 0x0C 31 14,
    zerUnless user b 0x10 31 0, (0x10, !user || decide ((if fldAt b 0x00 5 4 = 0 then 30 else 10) ≤ fldAt b 0x10 15 0)), zer b 0x10 31 16 ] ++
  zeroFrom b 0x14

/-- A channel that takes the stream of a named converter is in a LIVE aperture (R612). -/
def Dev.convertersLive (d : Dev) (conv : Nat) : Bool :=
  d.aps.any (fun (x : Nat × Aperture) => decide (x.2.state = 3 ∧ planeConverters x.2.live &&& conv ≠ 0))

/-- A sweep starts: the tone is on, and T is taken at its start. -/
def Dev.startSweep (d : Dev) (b : List Word) : Dev :=
  let span := sweepSpan b
  let s : Sweep :=
    { conv := fldAt b 0x00 3 0, points := sweepPoints b, us := 100 + sweepPoints b * sweepDwell b, startAt := d.clk.time,
      usable := decide (64 ≤ sweepPoints b ∧ span.1 ≤ 300000 ∧ 11700000 ≤ span.2), sums := [] }
  (({ d with pwr := { d.pwr with synths := sortBy id (7 :: d.pwr.synths) } } : Dev).updMc (fun m => { m with sweep := some s, tail := none })).sweepTemps

def execCalSweep (dt q : Nat) (e : Entry) (s : State) : Host.Outcome State Fault Refusal :=
  onDev dt (runCmd formCalSweep q e calSweepChecks (fun d =>
    if d.mc.sweep.isSome || d.convertersLive (fldAt e.block 0x00 3 0) then formCalSweep.reply d q e modeError
    else (d.startSweep e.block).hold q 0x58 e .calSweep)) s

/-- The last point has been measured (R614, R615). -/
def Dev.sweepEnd (d : Dev) : Dev :=
  match d.mc.sweep with
  | none => d
  | some s =>
    if d.clk.time < s.startAt + 3000 * s.us then d
    else
      let ns := (List.range 4).filter (fun n => bitSet s.conv n)
      let token := d.mc.tokens + 1
      let d := { d with pwr := { d.pwr with synths := d.pwr.synths.filter (fun x => decide (x ≠ 7)) } }
      let d := d.updMc (fun m => { m with sweep := none, tokens := token })
      let y := ns.foldl (fun (y : List Int × Dev) n =>
        let t := y.2.meanOf (s.sums.getD n (0, 0))
        let d := t.2.updMc (fun m => { m with results := Tbl.put n { token := token, usable := s.usable, meanT := t.1 } m.results })
        (y.1 ++ [t.1], d.freshPath n)) ([], d)
      y.2.finish .calSweep { result0 := BitVec.ofNat 64 s.points, result1 := BitVec.ofInt 64 (y.1.headD 0) }

def execCalSweepEnd (dt : Nat) (s : State) : Host.Outcome State Fault Refusal := onDev dt (fun d => d.sweepEnd) s

/-! ### CAL_APPLY -/

/-- The set point within 5 °C of a temperature in 1/16 °C: 25, 45, 65, 85 and 105 °C are points 0 to 4. -/
def setPointNear (t : Int) : Option Nat := (List.range 5).find? (fun k => decide ((t - (400 + 320 * k : Nat)).natAbs ≤ 80))

def formCalApply : CmdForm := { opcode := 0x59, blockLen := 16 }

/-- The usable result of a converter. -/
def Mc.result (m : Mc) (n : Nat) : Option SweepResult :=
  match m.results.find? (fun p => decide (p.1 = n)) with
  | some p => if p.2.usable then some p.2 else none
  | none => none

def calApplyChecks (d : Dev) (b : List Word) : List (Nat × Bool) :=
  let near := (List.range 4).all (fun n =>
    !(bitSet (fldAt b 0x00 3 0) n) || (match d.mc.result n with | some r => (setPointNear r.meanT).isSome | none => true))
  [ rng b 0x00 3 0 1 15, rng b 0x00 5 4 0 2, zer b 0x00 31 7, (0x00, decide (fldAt b 0x00 5 4 ≠ 1) || near), zer b 0x04 31 0 ]

def execCalApply (dt q : Nat) (e : Entry) (s : State) : Host.Outcome State Fault Refusal :=
  onDev dt (runCmd formCalApply q e calApplyChecks (fun d =>
    let b := e.block
    let conv := fldAt b 0x00 3 0
    let ns := (List.range 4).filter (fun n => bitSet conv n)
    if decide (fldAt b 0x00 5 4 = 1) && ns.any (fun n => (d.mc.result n).isNone) then formCalApply.reply d q e modeError
    else match d.leadTick (qAt b 0x08) 0 with
      | .error w => formCalApply.reply d q e w
      | .ok t =>
        let y := ns.foldl (fun (y : Tbl Int × Dev) n => let v := y.2.meanT n; (Tbl.put n v.1 y.1, v.2)) ([], d)
        let c : CalLaunch := { conv := conv, tick := t, source := some (fldAt b 0x00 5 4), persist := bitAt b 0x00 6, temps := y.1 }
        (y.2.updMc (fun m => { m with cals := m.cals ++ [c] })).hold q 0x59 e (.calApply t))) s

/-- The set of a converter as its user sets in flash make it: the factory's point where there is none. -/
def Mc.userSet (m : Mc) (n : Nat) : List Nat := (List.range 5).map (fun k => Tbl.look 0 m.userSets (8 * n + k))

/-- The set of a converter at a CAL_APPLY. -/
def Mc.applySet (m : Mc) (n source : Nat) (persist : Bool) : Mc :=
  match source with
  | 0 => { m with inForce := Tbl.put n [0, 0, 0, 0, 0] m.inForce }
  | 1 =>
    match m.result n with
    | some r => match setPointNear r.meanT with
      | some k => { m with
          inForce := Tbl.put n (modAt (fun _ => r.token) k (Tbl.look (m.userSet n) m.inForce n)) m.inForce
          userSets := if persist then Tbl.put (8 * n + k) r.token m.userSets else m.userSets }
      | none => m
    | none => m
  | _ => { m with inForce := Tbl.put n (m.userSet n) m.inForce }

/-- T of the coefficients in force becomes `t` (R574, R577). -/
def Dev.applyT (d : Dev) (n : Nat) (t : Int) : Dev :=
  (d.updMc (fun m => { m with tApplied := Tbl.put n t m.tApplied })).setReg (calReg n 0x0C) (Word.place 15 0 (codeOf 16 t))

/-- Coefficients come into force at their launch (R574–R577). -/
def Dev.calLaunch (d : Dev) (c : CalLaunch) : Dev :=
  let ns := (List.range 4).filter (fun n => bitSet c.conv n)
  let d := ns.foldl (fun (d : Dev) n =>
    let d := (d.applyT n (Tbl.look 0 c.temps n)).newDelayTrim n
    match c.source with
    | none => d.bump (calReg n 0x10)
    | some src => (d.updMc (fun m => m.applySet n src c.persist)).freshPath n) d
  match c.source with
  | none => d
  | some src =>
    let d := d.raiseAt evCalApplied 0 0 (c.conv + 2 ^ 4 * src) (BitVec.ofNat 64 c.tick) d.clk.count
    d.finish (.calApply c.tick) { result0 := BitVec.ofNat 64 c.tick }

/-! ### LAUNCH_TICK (R139, R140) -/

/-- The launches that firmware made for itself and whose tick has come: take-overs, a retirement, coefficients. -/
def firmwareLaunches (x : Dev × Mems) : Dev × Mems :=
  let due (t : Option Nat) : Bool := match t with | some v => decide (v ≤ x.1.now) | none => false
  let d := (x.1.spares.running.filter (fun (t : Takeover) => due t.launch)).foldl (fun (d : Dev) t => d.takeOver t) x.1
  let x := retireLaunch (d, x.2)
  let cs := x.1.mc.cals.filter (fun (c : CalLaunch) => decide (c.tick ≤ x.1.now))
  let d := x.1.updMc (fun m => { m with cals := m.cals.filter (fun (c : CalLaunch) => decide (x.1.now < c.tick)) })
  (cs.foldl (fun (d : Dev) c => d.calLaunch c) d, x.2)

/-- A launch tick: identifier 0 stands for firmware's own launches. -/
def launchTick (id : Nat) (x : Dev × Mems) : Dev × Mems := if id = 0 then firmwareLaunches x else launchNow id x

def execLaunchTick (dt id : Nat) (s : State) : Host.Outcome State Fault Refusal := onHeld dt (fun d m => launchTick id (d, m)) s

end Sys2Proof.Machine
end

