-- ==== Sys2Proof/Machine/McUpdate.lean ====
section
/-!
DEFINITION. Image slots, updates and trials (R580–R586).
-/

namespace Sys2Proof.Machine

/-- A change of the boot record: written into the other copy with the next SEQ (R580). -/
def Mc.record (m : Mc) (active : Nat) (pending : Option Nat) (trials : Nat) : Mc :=
  { m with bootSeq := m.bootSeq + 1, active := active, pending := pending, trials := trials }

/-- MC_STATE while no update is open (R65). -/
def Dev.restState (d : Dev) : Nat := if d.fw.recovery then 2 else 1

/-- The open update ends. -/
def Dev.closeUpdate (d : Dev) : Dev := d.updMc (fun m => { m with update := none, state := if m.state = 3 then d.restState else m.state })

/-! ### FW_UPDATE_BEGIN, FW_UPDATE_DATA, FW_UPDATE_COMMIT (R582, R583) -/

def formBegin : CmdForm := { opcode := 0x68, ring0 := true, recovery := true, blockLen := 4 }

def beginChecks (_ : Dev) (b : List Word) : List (Nat × Bool) :=
  let t := (dwAt b 0x00).toNat
  [(0x00, decide (6920 ≤ t ∧ t ≤ 6294280 ∧ t % 8 = 0))]

/-- PENDING is cleared and the slot that is not ACTIVE erased. -/
def Dev.openUpdate (d : Dev) (total : Nat) : Dev :=
  let n := 1 - d.mc.active
  d.updMc (fun m => { (m.record m.active none 0).setSlot n { data := some [], valid := false } with
    update := some { slot := n, total := total, at_ := d.clk.time }, state := 3 })

def execFwUpdateBegin (dt q : Nat) (e : Entry) (s : State) : Host.Outcome State Fault Refusal :=
  onDev dt (runCmd formBegin q e beginChecks (fun d =>
    if d.mc.update.isSome then formBegin.reply d q e modeError
    else formBegin.reply (d.openUpdate (dwAt e.block 0x00).toNat) q e {})) s

def formData : CmdForm := { opcode := 0x69, ring0 := true, recovery := true, byPtr := true, blockLen := 16 }

/-- The data of a block by pointer, from 0x08. -/
def dataBytes (b : List Word) : List Byte := bytesOfWords (b.drop 2)

/-- The bytes that the slot of the open update has received. -/
def Mc.received (m : Mc) : Nat := match m.update with | some u => (m.slotBytes u.slot).length | none => 0

def dataChecks (d : Dev) (b : List Word) : List (Nat × Bool) :=
  let fits := match d.mc.update with
    | some u => decide ((dwAt b 0x00).toNat = d.mc.received ∧ d.mc.received + (dataBytes b).length ≤ u.total)
    | none => true
  [(0x00, fits), zer b 0x04 31 0]

def execFwUpdateData (dt q : Nat) (e : Entry) (s : State) : Host.Outcome State Fault Refusal :=
  onDev dt (runCmd formData q e (fun d b => if 1048584 < e.inLen then [] else dataChecks d b) (fun d =>
    if 1048584 < e.inLen then formData.reply d q e (paramError 1 0x18)
    else match d.mc.update with
      | none => formData.reply d q e modeError
      | some u =>
        let all := d.mc.slotBytes u.slot ++ dataBytes e.block
        formData.reply (d.updMc (fun m => { m.setSlot u.slot { data := some all, valid := false } with update := some { u with at_ := d.clk.time } })) q e {})) s

def formCommit : CmdForm := { opcode := 0x6A, ring0 := true, recovery := true }

/-- A failed verification is logged (R579). -/
def Dev.logFailedImage (d : Dev) (slot check : Nat) : Dev := d.logOnly 0x1004 2 0 (unit := slot) (extra := check)

/-- The slot of an update is verified: it becomes PENDING, or the update is closed. -/
def Dev.commitUpdate (d : Dev) (u : Update) : Answer × Dev :=
  let b := d.mc.slotBytes u.slot
  let v := BitVec.ofNat 64 (imgVersion b)
  match d.mc.imageCheck (some u.total) b with
  | none => ({ result0 := v }, (d.closeUpdate).updMc (fun m => (m.record m.active (some u.slot) 0).setSlot u.slot { data := some b, valid := true }))
  | some k => ({ status := efsAuth }, ((d.closeUpdate).logFailedImage u.slot k).raiseAt evUpdateDone 1 u.slot 3 v d.clk.count)

def execFwUpdateCommit (dt q : Nat) (e : Entry) (s : State) : Host.Outcome State Fault Refusal :=
  onDev dt (runCmd formCommit q e noChecks (fun d =>
    match d.mc.update with
    | some u =>
      if d.mc.received = u.total then (let x := d.commitUpdate u; formCommit.reply x.2 q e x.1) else formCommit.reply d q e modeError
    | none => formCommit.reply d q e modeError)) s

/-- UPDATE_IDLE_TIMEOUT: 600 s without data; data that come on the tick of expiry are still in time (R87). -/
def execUpdateIdleTimeout (dt : Nat) (s : State) : Host.Outcome State Fault Refusal :=
  onDev dt (fun d => match d.mc.update with
    | some u => if u.at_ + 1800000000000 < d.clk.time then d.closeUpdate else d
    | none => d) s

/-! ### Trials (R581, R584) -/

/-- An image becomes ACTIVE: the security version rises to its SVN, and the slots it names are revoked, but for its own. -/
def Dev.becomeActive (d : Dev) (n : Nat) : Dev :=
  let b := d.mc.slotBytes n
  d.updMc (fun m => { m.record n none 0 with
    trial := false
    svn := max m.svn (imgSvn b)
    revoked := m.revoked ||| (imgRevoke b &&& (15 - 2 ^ imgKey b)) })

/-- TRIAL_SUCCESS: READY in time, and FAULT 0 for 60 s since. -/
def Dev.trialSuccess (d : Dev) : Dev :=
  match d.mc.pending, d.mc.readyAt with
  | some n, some t =>
    if d.mc.trial && !d.fw.fault && decide (t ≤ d.mc.fwAt + 30000000000 ∧ t + 180000000000 ≤ d.clk.time) then
      (d.becomeActive n).raiseAt evUpdateDone 1 n 1 (BitVec.ofNat 64 (imgVersion (d.mc.slotBytes n))) d.clk.count
    else d
  | _, _ => d

def execTrialSuccess (dt : Nat) (s : State) : Host.Outcome State Fault Refusal := onDev dt (fun d => d.trialSuccess) s

/-- A trial has failed: PENDING is cleared, and EV_UPDATE_DONE follows once the ACTIVE image is READY. -/
def Dev.dropTrial (d : Dev) : Dev :=
  match d.mc.pending with
  | some n => (d.updMc (fun m => { m.record m.active none 0 with trial := false, rolled := some n })).logOnly 0x1005 2 0 (unit := n)
  | none => d.updMc (fun m => { m with trial := false })

/-- An image is loaded: what firmware runs from now on. -/
def Dev.loadImage (d : Dev) (n : Nat) : Dev :=
  ({ d with fw := { d.fw with image := n } } : Dev).updMc (fun m => { m with loaded := (m.slot n).data })

/-- The MC restarts the sequencer cores from the ACTIVE slot: bring-up goes on from stage 0x31. -/
def Dev.rollBack (d : Dev) : Dev :=
  let d := d.dropTrial.loadImage d.mc.active
  (({ d with fw := { d.fw with ready := false, fault := false, stage := 0x31 } } : Dev).updPwr (fun p => { p with stageAt := d.clk.time })).updMc
    (fun m => { m with fwAt := d.clk.time, readyAt := none })

/-- TRIAL_READY_TIMEOUT: not READY within 10 s of firmware's start. -/
def execTrialReadyTimeout (dt : Nat) (s : State) : Host.Outcome State Fault Refusal :=
  onDev dt (fun d =>
    if d.mc.trial && !d.fw.ready && decide (d.fw.stage = 0x31 ∨ d.fw.stage = 0x32) && decide (d.mc.fwAt + 30000000000 < d.clk.time) then d.rollBack else d) s

/-! ### Image selection at bring-up (R581, R585) -/

/-- The slots to try, in order: PENDING first when one is set, otherwise ACTIVE; then the other. -/
def Mc.bootOrder (m : Mc) : List Nat :=
  let first := match m.pending with | some n => n | none => m.active
  [first, 1 - first]

/-- Verify the slots in order: the first that is accepted, and a record for each that fails. A slot that an update left invalid is passed over. -/
def Dev.verifySlots (d : Dev) : List Nat → Option Nat × Dev
  | [] => (none, d)
  | n :: t =>
    match d.mc.imageCheck none (d.mc.slotBytes n) with
    | some k => (d.logFailedImage n k).verifySlots t
    | none => if (d.mc.slot n).valid then (some n, d) else d.verifySlots t

/-- Recovery mode: READY and RECOVERY 1, MC_STATE 2. A later bring-up boots whatever slot is accepted then (R585, R586). -/
def Dev.enterRecovery (d : Dev) : Dev :=
  ({ d with fw := { d.fw with ready := true, recovery := true, stage := 0xE0 } } : Dev).updMc (fun m => { m with state := 2, faults := 0, rcv := false })

/-- A slot is chosen: a PENDING one runs as a trial, and the TRIAL count advances. -/
def Dev.bootSlot (d : Dev) (n : Nat) : Dev :=
  let d := d.loadImage n
  if d.mc.pending = some n then d.updMc (fun m => { m.record m.active m.pending (m.trials + 1) with trial := true }) else d

/-- Stage 0x30. A trial that was interrupted counts as failed (R584). Answers whether an image is to be loaded. -/
def Dev.selectImage (d : Dev) : Bool × Dev :=
  let d := if d.mc.pending.isSome && decide (d.mc.trials ≠ 0) then d.dropTrial else d
  if d.mc.rcv || decide (3 ≤ d.mc.faults) then (false, d.enterRecovery)
  else match d.verifySlots d.mc.bootOrder with
    | (some n, d) => (true, d.bootSlot n)
    | (none, d) => (false, d.enterRecovery)

end Sys2Proof.Machine
end

