-- ==== Sys2Proof/Machine/Link.lean ====
section
/-!
DEFINITION. The PCIe function (R37–R40, R102, R616, R620): the events that cut the device off from the host, the return of READY, and the link.
-/

namespace Sys2Proof.Machine

/-- The messages of unmasked vectors whose pending bit is set (R102). -/
def Dev.sendPending (d : Dev) : Dev :=
  if d.pcie.msixEnable && d.pcie.busMaster && !d.pcie.msixFnMask then
    let go := d.pcie.pba.filter (fun v => !(Tbl.look ({} : MsixEntry) d.pcie.msix v).masked)
    go.foldl (fun (d : Dev) v => let m := Tbl.look ({} : MsixEntry) d.pcie.msix v; d.emit (.msix v m.addr m.data))
      { d with pcie := { d.pcie with pba := d.pcie.pba.filter (fun v => !(go.contains v)) } }
  else d

/-- A streaming channel halts by R39, without a retry. No host access has failed, so the address of EV_DMA is free. -/
def Dev.cutExport (d : Dev) (c : Nat) : Dev :=
  let f := d.fresh
  f.2.exportHalt c 5 1 5 f.1.toNat

/-- The commands held for a verdict, on rings that are no more: they complete inside the device, and `Dev.post` discards what they answer
(R39, R81). Ring `q`'s stands at 64 + q. -/
def Dev.loose (d : Dev) : Tbl Ring :=
  d.rings.foldl (fun (t : Tbl Ring) p => match p.2.busy with
    | some b => (match b.wait with
      | .held _ _ => Tbl.put (64 + p.1 % 64) { busy := some b } t
      | _ => t)
    | none => t) []

/-- What FLR, D3hot and a clear of Bus Master Enable do (R39). `clears`: MSI-X Enable, Function Mask and Bus Master Enable are cleared too. -/
def Dev.cutHost (d : Dev) (clears : Bool) : Dev :=
  let d := { d with
    rings := d.loose
    rrRing := 0
    rrUsed := 0
    blocks := []
    ev := { d.ev with enabled := false, head := 0, tail := 0, phase := true }
    fw := { d.fw with ready := false }
    pcie := { d.pcie with
      msix := []
      pba := []
      deletedAt := some d.clk.time
      msixEnable := d.pcie.msixEnable && !clears
      msixFnMask := d.pcie.msixFnMask && !clears
      busMaster := d.pcie.busMaster && !clears
      mps := if clears then 0 else d.pcie.mps
      mrrs := if clears then 2 else d.pcie.mrrs } }
  let d := ((d.setFld 0x50 16 16 0).setFld 0x54 0 0 0).setFld 0x54 1 1 0
  let d := (d.dma.filter (fun (p : Nat × DmaChan) => decide (p.1 < 60))).foldl (fun (d : Dev) p => d.cutExport p.1) d
  let d := { d with dma := d.dma.filter (fun (p : Nat × DmaChan) => decide (p.1 < 60)) }
  d.relays.foldl (fun (d : Dev) (p : Nat × RelayStream) => d.stopRelay p.1) d

/-- The function exists: its controller is out of reset and powered. -/
def Dev.functionUp (d : Dev) : Bool := d.pwr.mainOk && !d.pcie.perst

/-- FLR closes an update that is open, too (R583). -/
def execFlr (dt : Nat) (s : State) : Host.Outcome State Fault Refusal :=
  onDev dt (fun d => if d.functionUp then (d.cutHost true).closeUpdate else d) s

def execHotReset (dt : Nat) (s : State) : Host.Outcome State Fault Refusal :=
  onDev dt (fun d => if d.functionUp then (let d := d.cutHost true; { d with pcie := { d.pcie with d3hot := false } }) else d) s

def execD3hotEntry (dt : Nat) (s : State) : Host.Outcome State Fault Refusal :=
  onDev dt (fun d => if d.functionUp then (let d := d.cutHost false; { d with pcie := { d.pcie with d3hot := true } }) else d) s

def execBusMasterClear (dt : Nat) (s : State) : Host.Outcome State Fault Refusal :=
  onDev dt (fun d => if d.functionUp then (let d := d.cutHost false; { d with pcie := { d.pcie with busMaster := false } }) else d) s

/-- READY_RETURN: the deletion is complete, and the function is in D0 with Bus Master Enable set (R40). -/
def Dev.readyReturn (d : Dev) : Dev :=
  if d.pcie.deletedAt.isSome && d.functionUp && !d.pcie.d3hot && d.pcie.busMaster && decide (d.fw.stage = 0x3F ∨ d.fw.stage = 0xE0) then
    let d := { d with pcie := { d.pcie with deletedAt := none }, fw := { d.fw with ready := true } }
    d.raiseAt evFwReady 0 0 2 (BitVec.ofNat 64 (imgVersion d.runBytes)) d.clk.count
  else d

def execReadyReturn (dt : Nat) (s : State) : Host.Outcome State Fault Refusal := onDev dt (fun d => d.readyReturn) s

/-- MSIX_VECTOR_UNMASK: the vector's Mask bit becomes 0 (R102). -/
def execMsixVectorUnmask (dt v : Nat) (s : State) : Host.Outcome State Fault Refusal :=
  onDev dt (fun d =>
    if v < 256 then
      ({ d with pcie := { d.pcie with msix := Tbl.put v { Tbl.look ({} : MsixEntry) d.pcie.msix v with masked := false } d.pcie.msix } } : Dev).sendPending
    else d) s

/-- PERST_ASSERT: the controller and the link are reset, with the effects of R39 (R616). -/
def execPerstAssert (dt : Nat) (s : State) : Host.Outcome State Fault Refusal :=
  onDev dt (fun d =>
    let d := if d.functionUp then d.cutHost true else d
    { d with pcie := { d.pcie with perst := true, linkUp := false, d3hot := false, mps := 0, mrrs := 2, busMaster := false, msixEnable := false, msixFnMask := false } }) s

def execPerstRelease (dt : Nat) (s : State) : Host.Outcome State Fault Refusal :=
  onDev dt (fun d => if d.pcie.perst then { d with pcie := { d.pcie with perst := false, perstAt := d.clk.time } } else d) s

/-- PCIE_LINK_UP: the negotiated rate, in tenths of a GT/s, and width set the export limit (R33). -/
def execPcieLinkUp (dt rate10 width : Nat) (s : State) : Host.Outcome State Fault Refusal :=
  onDev dt (fun d => if d.functionUp then { d with pcie := { d.pcie with linkUp := true, rate10 := rate10, width := width } } else d) s

/-- What a register of configuration space reads as (R37, R39); its bits that no rule names read 0 (assumption 106). -/
def Pcie.config (p : Pcie) : CfgReg → Word
  | .command => Word.place 2 2 p.busMaster.toNat
  | .msixControl => Word.place 10 0 255 ||| Word.place 14 14 p.msixFnMask.toNat ||| Word.place 15 15 p.msixEnable.toNat
  | .power => Word.place 1 0 (if p.d3hot then 3 else 0) ||| Word.place 3 3 1
  | .identity => 0x75121F5E
  | .classCode => Word.place 31 8 0x118000
  | .deviceControl => Word.place 7 5 p.mps ||| Word.place 14 12 p.mrrs
  | .deviceCaps => Word.place 2 0 2

/-- CONFIGURATION_REQUEST: Retry Status until 100 ms after the release of PERST#, then the register's content (R37, R620). -/
def execConfigurationRequest (r : CfgRead) (s : State) : Host.Outcome State Fault Refusal :=
  onDev r.dt (fun d =>
    if d.functionUp then d.emit (.cfg (if d.clk.time < d.pcie.perstAt + 300000000 then none else some (d.pcie.config r.reg))) else d) s

end Sys2Proof.Machine
end

