-- ==== Sys2Proof/Machine/Power.lean ====
section
/-!
DEFINITION. Supplies, clocks, resets and bring-up (R375–R378, R409, R410, R417, R596–R623, R637), the JTAG port (R640) and the SMBus target
(R639).
-/

namespace Sys2Proof.Machine

/-! ### Stages (R618) -/

/-- Synthesiser `n` is locked (R607). -/
def Power.lock (p : Power) (n : Nat) : Power := { p with synths := sortBy id (n :: p.synths.filter (fun k => decide (k ≠ n))) }

def Dev.enterStage (d : Dev) (n : Nat) : Dev := ({ d with fw := { d.fw with stage := n } } : Dev).updPwr (fun p => { p with stageAt := d.clk.time })

/-- Before READY a unit that fails its test is replaced at once, with cause 3: no launch is needed, since nothing runs. -/
def replaceNow (kind unit : Nat) (x : Dev × Mems) : Dev × Mems :=
  let lane := decide (kind = 2) && (x.1.spareFor 2 unit).isNone
  let k := if lane then 3 else kind
  let u := if lane then unit / 9 else unit
  if x.1.isRetired k u then x
  else match x.1.spareFor k u with
    | some s => (x.1.takeOver { kind := k, unit := u, spare := s, cause := 3, launch := some x.1.now }, x.2)
    | none => noSpare k u 3 x

/-- A pseudo-channel whose decoder fails its self-test is retired (R410). R389 lists no cause for it. -/
def Dev.retireDecoder (d : Dev) (x : Nat) : Dev :=
  let f := d.fresh
  f.2.retireEarly x (f.1.toNat % 256) 3

/-- Stage 0x21 ends: those without a setting are retired, a whole stack with cause 4 (R375, R376), and listed rows have been repaired
(R417). -/
def Dev.endTraining (d : Dev) : Dev :=
  let bad := (List.range 192).filter (fun x => d.pwr.untrained.contains x)
  let whole (s : Nat) : Bool := ((List.range 32).map (32 * s + ·)).all (fun y => bad.contains y || decide ((d.pc y).role = 3))
  let d := bad.foldl (fun (d : Dev) x => d.retireEarly x (if whole (x / 32) then 4 else 3) 2) d
  let d := d.updPwr (fun p => { p with untrained := [] })
  if d.spares.rows.isEmpty then d else d.setFld 0x510014 2 2 1

/-- A row that fails the self-test is repaired and entered in the list. -/
def Dev.repairRow (d : Dev) (row : Nat) : Dev :=
  let d := d.setFld 0x510014 2 2 1
  if d.spares.rows.contains row then d
  else (d.updSpares (fun s => { s with rows := s.rows ++ [row] })).logOnly 0x1003 1 0 (unit := row)

/-- The units of a kind in a list of failures. -/
def badOf (kind : Nat) (bad : List (Nat × Nat)) : List Nat := (bad.filter (fun p => decide (p.1 = kind))).map (fun p => p.2)

/-- A stage has failed its own check (R623). -/
def Dev.stageFailed (d : Dev) : Dev :=
  let n := d.fw.stage
  (d.mcFault (0x500 + n)).updPwr (fun p => { p with failAt := some d.clk.time })

/-- Stage 0x3F: firmware is ready. -/
def Dev.ready (d : Dev) : Dev :=
  let d := d.enterStage 0x3F
  let d := ({ d with fw := { d.fw with ready := true } } : Dev).updMc (fun m => { m with readyAt := some d.clk.time })
  let d := d.raiseAt evFwReady 0 0 1 (BitVec.ofNat 64 (imgVersion d.runBytes)) d.clk.count
  match d.mc.rolled with
  | some n => (d.updMc (fun m => { m with rolled := none })).raiseAt evUpdateDone 1 n 2 (BitVec.ofNat 64 (imgVersion (d.mc.slotBytes n))) d.clk.count
  | none => d

/-- Foreground calibration under the sets for the present T (stage 0x32): the user sets in flash in place of the factory's points. -/
def Dev.calibrate (d : Dev) : Dev :=
  (List.range 4).foldl (fun (d : Dev) n =>
    let t := d.meanT n
    ((t.2.updMc (fun m => { m with inForce := Tbl.put n (m.userSet n) m.inForce })).applyT n t.1).newDelayTrim n) d

/-- CLK_CORE starts: the count and the cycles are 0 (R107). -/
def Dev.startClocks (d : Dev) : Dev := { d with clk := { d.clk with run := true, cycle := 0, count := 0, tq := .free, tqLog := [] } }

/-- A stage ends well: the synthesisers of its step are locked (R607), and the MC leaves reset no earlier than 2 ms after its supply (R618). -/
def stageDone (bad : List (Nat × Nat)) (x : Dev × Mems) : Dev × Mems :=
  let d := x.1
  match d.fw.stage with
  | 0x00 => if d.clk.time < d.pwr.stageAt + 6000000 then x else (d.enterStage 0x01, x.2)
  | 0x01 => if d.pwr.shdnLow then x else (((d.mcStart 1).updMc (fun m => { m with state := 1 })).enterStage 0x02, x.2)
  | 0x02 => if d.pwr.enables = 8 then ((d.updMc (fun m => { m with railGood := 127 })).enterStage 0x10, x.2) else x
  | 0x10 => if d.pwr.refclk && d.pwr.mdll && !d.pwr.mrstLow then (d.startClocks.enterStage 0x11, x.2) else x
  | 0x11 => ((d.updPwr (fun p => { p.lock 2 with mainOk := true })).enterStage 0x12, x.2)
  | 0x12 => ((d.updPwr (fun p => p.lock 3)).enterStage 0x20, x.2)
  | 0x20 =>
    let banks := badOf 6 bad
    let y := banks.foldl (fun y u => replaceNow 6 u y) x
    ((if banks.isEmpty then y.1 else y.1.setFld 0x510014 0 0 1).enterStage 0x21, y.2)
  | 0x21 =>
    let d := (badOf 7 bad).foldl (fun (d : Dev) u => d.trainingFailed u) d
    if d.cmc.relock.isSome || d.cmc.rateReq.isSome then (d, x.2) else (((d.updPwr (fun p => p.lock 4)).endTraining).enterStage 0x22, x.2)
  | 0x22 =>
    let dec := badOf 7 bad
    let d := dec.foldl (fun (d : Dev) u => d.retireDecoder u) (if dec.isEmpty then d else d.setFld 0x510014 1 1 1)
    let d := ((badOf 8 bad).foldl (fun (d : Dev) r => d.repairRow r) d).setFld 0x510014 3 3 1
    let f := d.fresh
    ((f.2.logOnly 0x1009 0 (f.1.toNat % 2 ^ 32)).enterStage 0x30, x.2)
  | 0x30 =>
    let y := d.selectImage
    (if y.1 then y.2.enterStage 0x31 else y.2, x.2)
  | 0x31 =>
    let y := (badOf 9 bad).foldl (fun y u => replaceNow 9 u y) x
    (((y.1.compileSchedule y.1.now).updMc (fun m => { m with fwAt := y.1.clk.time, readyAt := none })).enterStage 0x32, y.2)
  | 0x32 =>
    let y := (bad.filter (fun p => decide (p.1 ≠ 6 ∧ p.1 ≠ 7 ∧ p.1 ≠ 8))).foldl (fun y p => replaceNow p.1 p.2 y) x
    ((y.1.updPwr (fun p => (p.lock 0).lock 1)).calibrate.ready, y.2)
  | _ => x

/-- BRINGUP_STAGE_END: the stage's own check has passed or failed; `bad` lists the units, by kind, that failed its tests. -/
def stageEnd (ok : Bool) (bad : List (Nat × Nat)) (x : Dev × Mems) : Dev × Mems :=
  let n := x.1.fw.stage
  if !x.1.pwr.standby || x.1.pwr.shutting || decide (n = 0x3F ∨ n = 0xE0 ∨ n = 0xF0) then x
  else if ok then stageDone bad x else (x.1.stageFailed, x.2)

def execBringupStageEnd (dt : Nat) (ok : Bool) (bad : List (Nat × Nat)) (s : State) : Host.Outcome State Fault Refusal :=
  onAll dt (fun d m => stageEnd ok bad (d, m)) s

/-! ### Restarts (R584, R585, R616, R617, R623) -/

/-- The main rails are on and the part is not held by a fault of wider scope: a reset that keeps the rails can act. -/
def Power.resettable (p : Power) : Bool := p.standby && decide (p.enables = 8) && !p.shutting && !p.railsLocked && !p.tripped

/-- A reset that resumes at stage 0x10 (R616). -/
def restartAt10 (x : Dev × Mems) : Dev × Mems :=
  let y := mainReset 0x10 x
  (y.1.updMc (fun m => { m with state := 1 }), y.2)

/-- FIRMWARE_FAULT_RESTART: FAULT has been held for 1 s, so that it was set 1 s ago. A trial image is rolled back; else the MC restarts the part. Three FAULTs in succession,
each within 600 s of firmware's start, lead to recovery mode. -/
def firmwareFault (x : Dev × Mems) : Dev × Mems :=
  let d := x.1
  if !d.pwr.resettable || d.pwr.stopped || decide (d.fw.stage ≠ 0x3F ∧ d.fw.stage ≠ 0x32) then x
  else
    let soon := decide (d.clk.time ≤ d.mc.fwAt + 1803000000000)
    let d := d.updMc (fun m => { m with faults := if soon then m.faults + 1 else 0, readyAt := none })
    if d.mc.trial then (d.rollBack, x.2) else restartAt10 (d, x.2)

def execFirmwareFaultRestart (dt : Nat) (s : State) : Host.Outcome State Fault Refusal := onAll dt (fun d m => firmwareFault (d, m)) s

/-- STAGE_FAILURE_RESTART: 1 s after a stage failed. The third in succession ends in recovery mode. -/
def stageRestart (x : Dev × Mems) : Dev × Mems :=
  match x.1.pwr.failAt with
  | none => x
  | some t =>
    if !x.1.pwr.resettable || decide (x.1.clk.time < t + 3000000000) then x
    else
      let d := x.1.updMc (fun m => { m with faults := m.faults + 1, readyAt := none })
      if 3 ≤ d.mc.faults then (((d.updPwr (fun p => { p with failAt := none })).enterRecovery), x.2) else restartAt10 (d, x.2)

def execStageFailureRestart (dt : Nat) (s : State) : Host.Outcome State Fault Refusal := onAll dt (fun d m => stageRestart (d, m)) s

/-- MRST_N low for 1 µs: everything but the MC is reset, and bring-up waits at stage 0x10 (R616, R637). One that arrives during a shutdown, or
while the rails are off, has no further effect (R617). -/
def mrstLow (x : Dev × Mems) : Dev × Mems :=
  let act := x.1.pwr.resettable && decide (0x10 ≤ x.1.fw.stage)
  let y := if act then restartAt10 x else x
  (y.1.updPwr (fun p => { p with mrstLow := true }), y.2)

def execMrstNLow (dt : Nat) (s : State) : Host.Outcome State Fault Refusal := onAll dt (fun d m => mrstLow (d, m)) s

/-- MRST_N is released. The JTAG instructions that take effect only while it is low act as BYPASS from here on (R640). -/
def execMrstNRelease (dt : Nat) (s : State) : Host.Outcome State Fault Refusal :=
  onDev dt (fun d =>
    let d := d.updPwr (fun p => { p with mrstLow := false, stageAt := if p.mrstLow then d.clk.time else p.stageAt })
    { d with jtag := { d.jtag with ir := if 3 ≤ d.jtag.ir then 0 else d.jtag.ir } }) s

/-! ### Supplies (R561, R570, R597–R600) -/

/-- What the MC loses with standby power: everything but flash and OTP. -/
def Mc.losePower (m : Mc) : Mc :=
  { ({} : Mc) with
    boots := m.boots, logSeq := m.logSeq, log := m.log, revoked := m.revoked, svn := m.svn, blocks := m.blocks, leaf := m.blocks * 4096,
    low64 := m.low64, low4 := m.low4, slots := m.slots, bootSeq := m.bootSeq, active := m.active, pending := m.pending, trials := m.trials,
    rolled := m.rolled, limits := m.limitsKept, modes := m.modesKept, limitsKept := m.limitsKept, modesKept := m.modesKept, userSets := m.userSets,
    tokens := m.tokens }

/-- Standby power goes: the whole part is without power. -/
def powerOff (x : Dev × Mems) : Dev × Mems :=
  let y := mainReset 0x00 x
  let d := (y.1.railsOff.updMc Mc.losePower).updSpares (fun s => { s with margins := [] })
  ({ d with jtag := {}, clk := {}, fw := {}, pwr := { ({} : Power) with standby := false, mrstLow := d.pwr.mrstLow, shdnLow := d.pwr.shdnLow } }, y.2)

def execStandbyPowerLoss (dt : Nat) (s : State) : Host.Outcome State Fault Refusal := onAll dt (fun d m => powerOff (d, m)) s

/-- STANDBY_POWER_UP: bring-up begins at stage 0x00, and RCV_N is sampled (R585, R618). -/
def powerUp (rcvLow shdnLow : Bool) (x : Dev × Mems) : Dev × Mems :=
  let y := powerOff x
  let d := y.1.updMc (fun m => { m with boots := (m.boots + 1) % 2 ^ 32, rcv := rcvLow })
  (d.updPwr (fun p => { p with standby := true, shdnLow := shdnLow }), y.2)

def execStandbyPowerUp (dt : Nat) (rcvLow shdnLow : Bool) (s : State) : Host.Outcome State Fault Refusal :=
  onAll dt (fun d m => powerUp rcvLow shdnLow (d, m)) s

/-- Rails may be switched on: stage 0x02, no fault of a rail, no shutdown. -/
def Dev.mayEnable (d : Dev) : Bool :=
  d.pwr.standby && decide (d.fw.stage = 0x02) && !d.pwr.railsLocked && !d.pwr.tripped && !d.pwr.shdnLow

/-- RAIL_ENABLE: the rail before is in its window, and 1 ms later the next enable is asserted. -/
def Dev.railEnable (d : Dev) : Dev :=
  let n := d.pwr.enables
  if !d.mayEnable || decide (8 ≤ n) || decide (n ≠ 0 ∧ d.clk.time < d.pwr.enableAt + 3000000) then d
  else
    let r := railOrder.getD (n - 1) 0
    let good := if n = 0 ∨ n = 5 ∨ n = 6 then d.mc.railGood else d.mc.railGood ||| 2 ^ r
    (d.updPwr (fun p => { p with enables := n + 1, enableAt := d.clk.time })).updMc (fun m => { m with railGood := good })

def execRailEnable (dt : Nat) (s : State) : Host.Outcome State Fault Refusal := onDev dt (fun d => d.railEnable) s

/-- RAIL_WINDOW_TIMEOUT: the rail enabled last is not in its window 10 ms after its enable. -/
def railTimeout (x : Dev × Mems) : Dev × Mems :=
  let p := x.1.pwr
  if !x.1.mayEnable || decide (p.enables = 0 ∨ x.1.clk.time ≤ p.enableAt + 30000000) then x
  else railFault false (0x300 + railOrder.getD (p.enables - 1) 0) x

def execRailWindowTimeout (dt : Nat) (s : State) : Host.Outcome State Fault Refusal := onAll dt (fun d m => railTimeout (d, m)) s

/-- SHDN_N low for 1 ms: firmware halts every LIVE aperture and stops its streams, and the rails follow (R600). -/
def Dev.shutdown (d : Dev) : Dev :=
  if !d.pwr.standby || d.pwr.shdnLow then d
  else
    let d := d.updPwr (fun p => { p with shdnLow := true, shutting := decide (p.enables ≠ 0) })
    let d := (d.liveWith (fun _ => true)).foldl (fun (d : Dev) a => d.haltSoon 5 a) d
    d.relays.foldl (fun (d : Dev) (p : Nat × RelayStream) => d.stopRelay p.1 true) d

def execShdnNLow (dt : Nat) (s : State) : Host.Outcome State Fault Refusal := onDev dt (fun d => d.shutdown) s

/-- SHUTDOWN_COMPLETE: the main rails are off and the log's buffer is empty: MAIN_OK goes low, and bring-up resumes at stage 0x02. -/
def shutdownDone (x : Dev × Mems) : Dev × Mems :=
  if !x.1.pwr.shutting || !x.1.mc.buf.isEmpty then x
  else
    let y := mainReset 0x02 x
    (y.1.railsOff.updMc (fun m => { m with state := 1 }), y.2)

def execShutdownComplete (dt : Nat) (s : State) : Host.Outcome State Fault Refusal := onAll dt (fun d m => shutdownDone (d, m)) s

/-- SHDN_N returns high: the rails of a rail fault may be switched on again, from stage 0x02 (R598, R600). -/
def Dev.shdnHigh (d : Dev) : Dev :=
  let d0 := d.updPwr (fun p => { p with shdnLow := false })
  if d.pwr.shdnLow && d.pwr.railsLocked && !d.pwr.tripped then
    ((d0.updPwr (fun p => { p with railsLocked := false })).updMc (fun m => { m with state := 1 })).enterStage 0x02
  else d0

def execShdnNHigh (dt : Nat) (s : State) : Host.Outcome State Fault Refusal := onDev dt (fun d => d.shdnHigh) s

/-! ### Clocks (R602–R607) -/

/-- REFCLK is present. A part whose clocks were stopped waits for its reset (R605). -/
def execRefclkPresent (dt : Nat) (s : State) : Host.Outcome State Fault Refusal :=
  onDev dt (fun d => if decide (d.pwr.enables = 8) then d.updPwr (fun p => { p with refclk := true }) else d) s

/-- REFCLK is lost: every clock of the root stops, and the contents of the memories are lost. Before the MDLL has locked, the part only waits
again. -/
def refclkLost (x : Dev × Mems) : Dev × Mems :=
  let d := x.1.updPwr (fun p => { p with refclk := false })
  if !x.1.pwr.refclk || !x.1.pwr.mdll || decide (x.1.pwr.enables ≠ 8) then (d, x.2)
  else
    let y := mainReset 0xF0 (d, x.2)
    let d := (y.1.mcFault 0x401).updPwr (fun p => { p with stopped := true })
    ({ d with fw := { d.fw with fault := true } }, y.2)

def execRefclkLost (dt : Nat) (s : State) : Host.Outcome State Fault Refusal := onAll dt (fun d m => refclkLost (d, m)) s

/-- MDLL_LOCK: the band search ends. Where no band is in range, the rails go off as at a rail fault (R603). -/
def mdllLock (ok : Bool) (x : Dev × Mems) : Dev × Mems :=
  if decide (x.1.fw.stage ≠ 0x10) || !x.1.pwr.refclk || x.1.pwr.mrstLow || x.1.pwr.mdll then x
  else if ok then (x.1.updPwr (fun p => { p with mdll := true }), x.2)
  else railFault false 0x402 x

def execMdllLock (dt : Nat) (ok : Bool) (s : State) : Host.Outcome State Fault Refusal := onAll dt (fun d m => mdllLock ok (d, m)) s

/-- SYNTHESISER_LOCK: synthesiser `n` is locked and its output starts, or it is not. -/
def execSynthesiserLock (dt n : Nat) (ok : Bool) (s : State) : Host.Outcome State Fault Refusal :=
  onDev dt (fun d =>
    if !d.pwr.mdll || decide (40 ≤ n) then d
    else
      let d := d.updPwr (fun p => if ok then p.lock n else { p with synths := p.synths.filter (fun k => decide (k ≠ n)) })
      if ok ∧ 16 ≤ n then d.jesdCheckUp (n - 16) else d) s

/-! ### JTAG (R616, R640) -/

def execTrstNLow (dt : Nat) (s : State) : Host.Outcome State Fault Refusal := onDev dt (fun d => { d with jtag := {} }) s

/-- An instruction is loaded; the data register it selects. -/
def Dev.jtagLoad (d : Dev) (ir bits v : Nat) : Dev :=
  if d.pwr.standby then ({ d with jtag := { d.jtag with ir := ir } } : Dev).emit (.jtag bits v) else d

def execBypass (dt : Nat) (s : State) : Host.Outcome State Fault Refusal := onDev dt (fun d => d.jtagLoad 0 1 0) s
def execIdcode (dt : Nat) (s : State) : Host.Outcome State Fault Refusal := onDev dt (fun d => d.jtagLoad 1 32 0x175123CB) s

/-- SAMPLE/PRELOAD: the levels of the covered balls are sampled, and boundary values preloaded. The levels are the board's, so what is sampled is
free. -/
def execSamplePreload (dt v : Nat) (s : State) : Host.Outcome State Fault Refusal :=
  onDev dt (fun d =>
    let f := d.fresh
    if d.pwr.standby then ({ f.2 with jtag := { f.2.jtag with boundary := v } } : Dev).jtagLoad 2 64 f.1.toNat else d) s

/-- An instruction that takes effect only while MRST_N is low, and acts as BYPASS otherwise. -/
def Dev.jtagHeld (d : Dev) (ir : Nat) (v : Option Nat) : Dev :=
  if d.pwr.mrstLow then
    match v with
    | some b =>
      let f := d.fresh
      if d.pwr.standby then ({ f.2 with jtag := { f.2.jtag with boundary := b } } : Dev).jtagLoad ir 64 f.1.toNat else d
    | none => d.jtagLoad ir 1 0
  else d.jtagLoad 0 1 0

def execExtest (dt v : Nat) (s : State) : Host.Outcome State Fault Refusal := onDev dt (fun d => d.jtagHeld 3 (some v)) s
def execClamp (dt : Nat) (s : State) : Host.Outcome State Fault Refusal := onDev dt (fun d => d.jtagHeld 4 none) s
def execHighz (dt : Nat) (s : State) : Host.Outcome State Fault Refusal := onDev dt (fun d => d.jtagHeld 5 none) s

/-! ### SMBus (R65, R639) -/

/-- The dword at offset `off` of the Periscope window, from the mirror. -/
def Periscope.word (p : Periscope) (off : Nat) : Word :=
  if off = 0x00 then BitVec.ofNat 32 p.seq
  else if off = 0x04 then Word.place 7 0 p.stage ||| Word.place 11 8 p.state
  else if off = 0x08 then Word.place 15 0 p.tj ||| Word.place 21 16 p.sensor
  else if off = 0x0C then Word.place 6 0 p.rails
  else if off = 0x10 then BitVec.ofNat 32 p.logSeq
  else if off = 0x14 then BitVec.ofNat 32 p.fault
  else if 0x100 ≤ off ∧ off < 0x1C0 ∧ off % 4 = 0 then Word.place 15 0 (codeOf 16 (p.temps.getD ((off - 0x100) / 4) 0))
  else 0

/-- SMB_ALERT_N is low. -/
def Dev.alert (d : Dev) : Bool := decide (d.mc.state = 4) || decide (1600 ≤ (hottest d.mc.temps).1)

/-- CRC-8 of SMBus's PEC, polynomial x⁸ + x² + x + 1 (PRESUMED, assumption 92). -/
def pec (bs : List Byte) : Byte :=
  bs.foldl (fun c b => (List.range 8).foldl (fun (c : Byte) _ => if c.msb then (c <<< 1) ^^^ 0x07 else c <<< 1) (c ^^^ b)) 0

/-- Block Read: a byte count of 4, the dword, and the PEC over the whole exchange (R638, R639). -/
def execSmbusBlockRead (dt cmd : Nat) (s : State) : Host.Outcome State Fault Refusal :=
  onDev dt (fun d => if d.pwr.standby then
      let address := 2 * (0x58 + Config.smbAddr.toNat)
      let data := 4 :: bytesOfWord (d.mc.psc.word (4 * (cmd % 256)))
      d.emit (.smbus (data ++ [pec ([BitVec.ofNat 8 address, BitVec.ofNat 8 cmd, BitVec.ofNat 8 (address + 1)] ++ data)]))
    else d) s

/-- A read of the Alert Response Address: the target's address while the alert is low, else no answer. -/
def execSmbusAlertResponse (dt : Nat) (s : State) : Host.Outcome State Fault Refusal :=
  onDev dt (fun d => d.emit (.smbus (if d.pwr.standby && d.alert then [BitVec.ofNat 8 (0x58 + Config.smbAddr.toNat)] else []))) s

/-- Writes and other protocols are not acknowledged. -/
def execSmbusWrite (dt : Nat) (s : State) : Host.Outcome State Fault Refusal := onDev dt (fun d => d.emit (.smbus [])) s

end Sys2Proof.Machine
end

