-- ==== Sys2Proof/Machine/HostView.lean ====
section
/-!
DEFINITION. What a register reads as: the maps' registers (R50, R65, R200, R231, R270, R317, R353, R388, R421, R452, R489, R512, R537, R550,
R551, R577), the coefficients of R648 and the windows of R438 and R455.
-/

namespace Sys2Proof.Machine

/-! ### Addresses -/

/-- The index of the register at `addr` in an array of `n` registers from `base`, `stride` bytes apart. -/
def regIndex (base stride n addr : Nat) : Option Nat :=
  if base ≤ addr ∧ (addr - base) % stride = 0 ∧ (addr - base) / stride < n then some ((addr - base) / stride) else none

/-- The arrays of 64-bit registers that are read under R59, by their low halves: base, stride, count. -/
def pairRows : List (Nat × Nat × Nat) :=
  [ (0x10, 4, 1), (0x410008, 32, 244), (0x440010, 32, 512), (0x460000, 32, 512), (0x470008, 32, 18), (0x4E0010, 32, 192), (0x520410, 64, 8),
    (0x520418, 64, 8), (0x520420, 64, 8), (0x540010, 64, 32), (0x580008, 64, 64), (0x580010, 64, 64), (0x580018, 64, 64) ]

/-- `addr` holds the low half of a 64-bit register. -/
def isLowHalf (addr : Nat) : Bool := pairRows.any (fun r => (regIndex r.1 r.2.1 r.2.2 addr).isSome)

/-- `addr` holds the high half of a 64-bit register. -/
def isHighHalf (addr : Nat) : Bool := decide (4 ≤ addr) && isLowHalf (addr - 4)

/-- A coefficient of R648 lies at the address. -/
def isCoef (addr : Nat) : Bool :=
  decide (addr % 4 = 0) &&
    (decide (0x600000 ≤ addr ∧ addr < 0x600000 + 128 * 6) || decide (0x600400 ≤ addr ∧ addr < 0x600400 + 4 * 16) ||
     decide (0x600480 ≤ addr ∧ addr < 0x600480 + 4 * 24) || decide (0x610000 ≤ addr ∧ addr < 0x610000 + 96 * 1025) ||
     decide (0x630000 ≤ addr ∧ addr < 0x630000 + 48 * 256))

/-- The cell of a density plane in use that an address names (R438): the plane and the cell. -/
def Dev.cellAt (d : Dev) (addr : Nat) : Option (Nat × Nat) :=
  if 0x800000 ≤ addr ∧ addr < 0x800000 + 8 * 0x400000 ∧ addr % 4 = 0 then
    let p := (addr - 0x800000) / 0x400000
    let k := (addr - 0x800000) % 0x400000 / 4
    match (d.feed p).block with
    | some (_, b) => if !dfHost b.words && decide (k < dfWidth b.words * dfHeight b.words) then some (p, k) else none
    | none => none
  else none

/-- The local memory that an address names (R455): the address in the memory of the trace processors, processor `n` from `n × 2¹⁹`. -/
def localAt (addr : Nat) : Option Nat :=
  if 0x4000000 ≤ addr ∧ addr < 0x4000000 + 32 * 0x80000 ∧ addr % 4 = 0 then some (addr - 0x4000000) else none

/-- The indirect address is mapped (R63). -/
def Dev.mapped (d : Dev) (addr : Nat) : Bool :=
  decide (0x400000 ≤ addr) && ((RegMap.find addr).isSome || isCoef addr || (d.cellAt addr).isSome || (localAt addr).isSome)

/-! ### BAR0 -/

/-- The capability list (R52): identifier, BASE and LEN of each header in order. -/
def capabilities : List (Nat × Nat × Nat) :=
  [(1, 0x40, 0x18), (2, 0x1000, 0x404), (3, 0x10, 0x08), (4, 0x18, 0x0C), (5, 0x24, 0x04), (6, 0x28, 0x04), (7, 0x2000, 0x400)]

/-- The dword of the capability list at an offset from 0x100. -/
def capWord (off : Nat) : Word :=
  let c := capabilities.getD (off / 16) (0, 0, 0)
  if off % 16 = 0 then Word.place 7 0 c.1 ||| Word.place 11 8 1 ||| Word.place 31 16 (if off / 16 = 6 then 0 else 0x110 + off)
  else if off % 16 = 4 then Word.place 23 0 c.2.1
  else if off % 16 = 8 then Word.place 23 0 c.2.2
  else 0

/-- A BAR0 register. A register that no view gives reads as stored: 0 for a WO field and for an offset not listed (R11, R49). -/
def Dev.bar0View (d : Dev) (off : Nat) : Word :=
  if off = 0x08 then d.fwStatus
  else if off = 0x10 then d.clk.count.lo
  else if off = 0x14 then d.clk.count.hi
  else if 0x100 ≤ off ∧ off < 0x170 then capWord (off - 0x100)
  else if 0x2000 ≤ off ∧ off < 0x2400 then d.mc.psc.word (off - 0x2000)
  else if off = 0x1C then 0
  else d.reg off

/-! ### The indirect space, by unit -/

/-- A register view: its value, and the device, in which a free value may have been used. -/
abbrev RegView := Word × Dev

/-- A view whose field `[hi:lo]` is a free value below `bound`, beside what the rest of the register holds. -/
def Dev.freeView (d : Dev) (hi lo bound : Nat) (rest : Word) : RegView :=
  let f := d.fresh
  (rest ||| Word.place hi lo (f.1.toNat % bound), f.2)

/-- The latest value of an indicator, 0 before its first evaluation (R195, R593). -/
def Dev.wearValue (d : Dev) (kind unit ind : Nat) : Nat :=
  match d.spares.values.find? (fun v => decide (v.1 = kind ∧ v.2.1 = unit ∧ v.2.2.1 = ind)) with
  | some v => v.2.2.2
  | none => 0

/-- PAD_STAT (R200). The eye margins of a pad are those last evaluated of the receiver that serves it (R195). -/
def Dev.padView (d : Dev) (p off : Nat) : RegView :=
  let x := d.pad p
  if off = 0 then (Word.place 1 0 x.mode ||| Word.place 2 2 x.aligned.toNat ||| Word.place 9 3 x.rx, d)
  else if off = 8 then (Word.place 15 0 (d.wearValue 0 x.rx 0) ||| Word.place 31 16 (d.wearValue 0 x.rx 1), d)
  else (d.reg (padReg p off), d)

/-- STREAM_STAT (R200). MEAS_RATE counts the real samples of the last whole window of 1 ms (assumption 117). -/
def Dev.streamView (d : Dev) (s off : Nat) : RegView :=
  let x := d.stream s
  if off = 0 then (Word.place 1 0 x.state, d)
  else if off = 0x1C then
    (BitVec.ofNat 32 (if x.rateWin = d.cyc / 3000000 then x.rateLast else if x.rateWin + 1 = d.cyc / 3000000 then x.rateNow else 0), d)
  else (d.reg (streamReg s off), d)

/-- AIN_STAT (R200). -/
def Dev.ainView (d : Dev) (n off : Nat) : Word :=
  let x := d.ainOf n
  if off = 0 then Word.place 6 0 (x.out.getD 0x7F) ||| Word.place 7 7 x.degraded.toNat else d.reg (ainReg n off)

/-- CHAN_STAT (R231). -/
def Dev.chanView (d : Dev) (c off : Nat) : Word :=
  let x := d.chan c
  if off = 0 then Word.place 1 0 x.state ||| Word.place 2 2 x.shadow.isSome.toNat ||| Word.place 13 4 (d.servedBy 4 c) else d.reg (chanReg c off)

/-- XFORM_STAT (R270). -/
def Dev.xformView (d : Dev) (c off : Nat) : Word :=
  match (d.chan c).frames with
  | some f =>
    if off = 0x14 then BitVec.ofNat 32 f.a
    else if off = 0x18 then BitVec.ofNat 32 (f.a + engineLatency f.block.words)
    else if off = 0x1C then Word.place 15 0 (cgQ f.block.words) ||| Word.place 31 16 (enbwQ f.block.words)
    else d.reg (xformReg c off)
  | none => d.reg (xformReg c off)

/-- ENG_STAT (R270). The busy fraction of an engine that serves a sector is free up to 1,000. -/
def Dev.engView (d : Dev) (e off : Nat) : RegView :=
  let x := d.engine e
  if off = 0 then (Word.place 1 0 x.role ||| Word.place 4 2 (if x.role = 1 ∨ x.role = 3 then 0 else x.sector) ||| Word.place 5 5 x.laneUsed.toNat, d)
  else if off = 0x10 ∧ (x.role = 0 ∨ x.role = 2) then d.freeView 9 0 1001 0
  else (d.reg (engReg e off), d)

/-- SECTOR_STAT (R270). -/
def Dev.sectorView (d : Dev) (s off : Nat) : Word :=
  if off = 0 then BitVec.ofNat 32 (d.sectorLoad s []) else d.reg (sectorReg s off)

/-- LE_STAT (R317). -/
def Dev.leView (d : Dev) (c off : Nat) : Word :=
  let x := d.leUnit c
  if off = 8 then Word.place 23 0 (min x.run (2 ^ 24 - 1)) ||| Word.place 24 24 x.armRise.toNat ||| Word.place 25 25 x.armFall.toNat else d.reg (leReg c off)

/-- ACQ_STAT (R353). -/
def Dev.acqView (d : Dev) (a off : Nat) : Word :=
  let p := d.ap a
  if off = 0 then Word.place 3 0 p.acqState ||| Word.place 15 4 p.acq.triggered ||| Word.place 19 16 p.rateLevel else d.reg (acqReg a off)

/-- PC_STAT (R388). -/
def Dev.pcView (d : Dev) (x off : Nat) : Word :=
  let p := d.pc x
  if off = 0 then Word.place 1 0 p.role ||| Word.place 9 2 p.logical ||| Word.place 10 10 p.pd0.toNat ||| Word.place 11 11 p.pd1.toNat |||
    Word.place 12 12 p.hot.toNat
  else if off = 0x1C then
    let ms := d.cyc / 3000000
    if p.actsMs = ms then d.reg (pcReg x off) else if p.actsMs + 1 = ms then BitVec.ofNat 32 p.acts else 0
  else d.reg (pcReg x off)

/-- CMC_STAT and the registers beside it (R388). -/
def Dev.cmcView (d : Dev) (addr : Nat) : RegView :=
  if addr = 0x4E2000 then (Word.place 1 0 d.cmc.rate ||| Word.place 15 8 d.cmc.p ||| Word.place 19 16 d.idleSpares.length, d)
  else if addr = 0x4E2004 then (BitVec.ofNat 32 (d.sum5Raw * 10 / 180), d)
  else if addr = 0x4E200C then (Word.place 7 0 (d.fld addr 7 0) ||| Word.place 15 8 (slotsAt d.cmc.rate), d)
  else (d.reg addr, d)

/-- REG_STAT (R421). -/
def Dev.regionView (d : Dev) (g off : Nat) : Word :=
  if off = 0 then Word.place 0 0 (d.region g).light.toNat ||| Word.place 1 1 (decide (g < 5)).toNat else d.reg (regStat g off)

/-- VPOS: the line of the frame in progress. -/
def Dev.vpos (d : Dev) : Nat :=
  if d.raster.running then ((Frac.div (Frac.sub (Frac.ofInt d.cyc) d.raster.frameAt) (dmLines d.raster.mode 1)).floor).toNat else 0

/-- DISP_STAT and the registers beside it (R452). -/
def Dev.dispView (d : Dev) (addr : Nat) : Word :=
  let r := d.raster
  if addr = 0x520000 then Word.place 0 0 r.running.toNat ||| Word.place 1 1 r.black.toNat ||| Word.place 2 2 r.hpd.toNat ||| Word.place 3 3 r.linkUp.toNat |||
    Word.place 4 4 d.cmc.panic.toNat ||| Word.place 19 8 d.vpos
  else if addr = 0x520004 then BitVec.ofNat 32 r.frame
  else d.reg addr

/-- LAYER_STAT (R452). -/
def Dev.layerView (d : Dev) (n off : Nat) : Word :=
  let x := d.layer n
  let w := x.set.getD []
  if off = 0 then Word.place 1 0 x.current ||| Word.place 3 2 x.pending ||| Word.place 4 4 (lyEnable w).toNat ||| Word.place 7 5 (lySource w)
  else d.reg (layerReg n off)

/-- FEED_STAT (R452). -/
def Dev.feedView (d : Dev) (p off : Nat) : Word :=
  let x := d.feed p
  if 0x10 ≤ off ∧ off < 0x28 then
    let b := x.bufs.getD ((off - 0x10) / 8) 0
    BitVec.ofNat 32 (if off % 8 = 0 then b else b / 2 ^ 32)
  else if off = 0x28 then (match x.block with | some (_, b) => Word.place 15 0 (dfPitch b.words) | none => 0)
  else d.reg (feedReg p off)

/-- Busy ticks of the millisecond before the present one, per mille. -/
def Tp.busyPm (t : Tp) (cyc : Nat) : Nat :=
  let ms := cyc / 3000000
  (if t.busyMs = ms then t.busyPrev else if t.busyMs + 1 = ms then t.busyNow else 0) / 3000

/-- TP_STAT (R489). -/
def Dev.tpView (d : Dev) (n off : Nat) : Word :=
  let t := d.tp n
  if off = 0 then Word.place 1 0 t.state ||| Word.place 7 2 (t.phys.getD n) ||| Word.place 11 8 t.av ||| Word.place 12 12 t.sv.toNat |||
    Word.place 13 13 t.ie.toNat ||| Word.place 14 14 t.wait.isSome.toNat
  else if off = 4 then Word.place 18 0 t.pc
  else if off = 8 then Word.place 3 0 t.trap
  else if off = 0x0C then Word.place 18 0 t.faultAddr
  else if off = 0x18 then Word.place 9 0 (t.busyPm d.cyc)
  else d.reg (tpReg n off)

/-- MK_STAT and MKQ_STAT (R512). -/
def Dev.markerView (d : Dev) (n off : Nat) : Word :=
  let x := d.marker n
  if off = 0 then Word.place 0 0 x.level.toNat ||| Word.place 1 1 (x.pending.isSome || x.edges.any (fun (e : MkEdge) => e.start)).toNat
  else if off = 0x18 then Word.place 8 0 x.q.packets ||| Word.place 9 9 x.endMark.toNat ||| Word.place 10 10 (d.fld (mkReg n 0x18) 10 10)
  else d.reg (mkReg n off)

/-- The export registers of a channel (R537). -/
def Dev.exportView (d : Dev) (c off : Nat) : Word :=
  let x := d.dmaCh c
  if off = 0 then Word.place 2 0 x.state ||| Word.place 3 3 x.shadow.isSome.toNat ||| Word.place 6 4 x.tries ||| Word.place 7 7 x.req.toNat |||
    Word.place 15 8 x.haltKind
  else if off = 0x08 then BitVec.ofNat 32 (if c < 60 then x.head else 0)
  else if off = 0x0C then BitVec.ofNat 32 (if c < 60 then x.head / 2 ^ 32 else 0)
  else if off = 0x10 then BitVec.ofNat 32 x.tail
  else if off = 0x14 then BitVec.ofNat 32 (x.tail / 2 ^ 32)
  else if off = 0x18 then BitVec.ofNat 32 x.stg
  else if off = 0x1C then BitVec.ofNat 32 (x.stg / 2 ^ 32)
  else if off = 0x2C then BitVec.ofNat 32 (d.exportFill c / 1024)
  else d.reg (dmaReg c off)

/-- RQ_STAT (R537). -/
def Dev.rqView (d : Dev) (n off : Nat) : Word :=
  let q := (d.tp n).rq
  if off = 0 then Word.place 12 0 q.packets else if off = 4 then Word.place 12 0 q.words else d.reg (rqReg n off)

/-- RELAY_STAT (R550). -/
def Dev.relayView (d : Dev) (s off : Nat) : Word :=
  let x := d.drive s
  if off = 0 then Word.place 1 0 x.state ||| Word.place 25 16 x.cmds.length else d.reg (relayReg s off)

/-- LOAD_STAT (R551): ρ and σ; μ is free up to 1,000. A σ above what its field holds, as after a fall of the link, reads as 1,023, and one against
a limit of 0 as 0 (DESIGN CHOICE, assumption 126). -/
def Dev.loadView (d : Dev) (addr : Nat) : RegView :=
  if addr = 0x5C0000 then
    let rho := d.fld 0x4E200C 7 0 * 1000 / slotsAt d.cmc.rate
    let total := (d.livePlanes.map (fun (p : Nat × List Block) => planeSum8 p.2)).sum
    let sigma := if d.exportLimit = 0 then 0 else total * 1000 / d.exportLimit
    d.freeView 29 20 1001 (Word.place 9 0 rho ||| Word.place 19 10 (min sigma 1023))
  else (d.reg addr, d)

/-- The unit and the offset in its block of `stride` bytes from `base`. -/
def unitOf (base stride addr : Nat) : Nat × Nat := ((addr - base) / stride, (addr - base) % stride)

/-- A register of the indirect space that one of its maps lists. -/
def Dev.indView (d : Dev) (addr : Nat) : RegView :=
  let d := if 0x560000 ≤ addr ∧ addr < 0x560400 then d.settleMarker ((addr - 0x560000) / 64) else d
  let at_ (base stride : Nat) (f : Nat → Nat → Word) : RegView := (f (unitOf base stride addr).1 (unitOf base stride addr).2, d)
  if addr < 0x410000 then d.padView (unitOf 0x400000 16 addr).1 (unitOf 0x400000 16 addr).2
  else if addr < 0x420000 then d.streamView (unitOf 0x410000 32 addr).1 (unitOf 0x410000 32 addr).2
  else if addr < 0x440000 then at_ 0x420000 32 d.ainView
  else if addr < 0x460000 then at_ 0x440000 32 d.chanView
  else if addr < 0x470000 then at_ 0x460000 32 d.xformView
  else if addr < 0x471000 then d.engView (unitOf 0x470000 32 addr).1 (unitOf 0x470000 32 addr).2
  else if addr < 0x480000 then at_ 0x471000 16 d.sectorView
  else if addr < 0x490000 then at_ 0x480000 16 d.leView
  else if addr < 0x4C0000 then (d.reg addr, d)
  else if addr < 0x4E0000 then at_ 0x4C0000 32 d.acqView
  else if addr < 0x4E2000 then at_ 0x4E0000 32 d.pcView
  else if addr < 0x500000 then d.cmcView addr
  else if addr < 0x510000 then at_ 0x500000 32 d.regionView
  else if addr = 0x51000C then (Word.place 20 0 d.cmc.scrubPos, d)
  else if addr < 0x520000 then (d.reg addr, d)
  else if addr < 0x520100 then (d.dispView addr, d)
  else if addr < 0x520400 then at_ 0x520100 32 d.layerView
  else if addr < 0x520600 then at_ 0x520400 64 d.feedView
  else if addr < 0x540000 then (d.reg addr, d)
  else if addr < 0x560000 then at_ 0x540000 64 d.tpView
  else if addr < 0x580000 then at_ 0x560000 64 d.markerView
  else if addr < 0x590000 then at_ 0x580000 64 d.exportView
  else if addr < 0x5A0000 then at_ 0x590000 16 d.rqView
  else if addr < 0x5C0000 then at_ 0x5A0000 32 d.relayView
  else if addr < 0x5E0000 then d.loadView addr
  else (d.reg addr, d)

/-- The byte that a store of the processor has left at `a` but that the memory does not show yet: the last of those that are due (R464). -/
def Dev.owedByte (d : Dev) (a : Nat) : Option Byte :=
  let b := a % 2 ^ 19
  (sortBy (fun (p : Nat × Nat × List Byte) => p.1) ((Tbl.look ({} : Tp) d.tps (a / 2 ^ 19)).pendMem.filter (fun (p : Nat × Nat × List Byte) => decide (p.1 ≤ d.cyc)))).foldl
    (fun (v : Option Byte) (p : Nat × Nat × List Byte) => if p.2.1 ≤ b ∧ b < p.2.1 + p.2.2.length then p.2.2[b - p.2.1]? else v) none

/-- A dword of a trace processor's local memory: a byte that holds a memory mark reads as 0, and the read is counted (R401, R455). -/
def Dev.localView (d : Dev) (m : Memory) (a : Nat) : RegView :=
  let marks := (List.range 4).filter (fun i => d.facetMarked 2 (a + i) && (d.owedByte (a + i)).isNone)
  let bytes := (List.range 4).map (fun i => match d.owedByte (a + i) with | some v => v | none => if marks.contains i then 0 else m.read (a + i))
  (dwAt (wordsOfBytes bytes) 0, match marks with | i :: _ => d.countMark 2 9 (a + i) true | [] => d)

/-- Any register, window or coefficient: 0 where nothing is mapped (R49, R63). -/
def Dev.view (d : Dev) (m : Mems) (addr : Nat) : RegView :=
  if addr < 0x400000 then (d.bar0View addr, d)
  else if isCoef addr then ((Config.filterCoef addr).setWidth 32, d)
  else match d.cellAt addr, localAt addr with
    | some (p, k), _ =>
      let d := d.cellRead p k
      (BitVec.ofNat 32 (Tbl.look 0 (d.feed p).cells k), d)
    | none, some a => d.localView m.tp a
    | none, none => if (RegMap.find addr).isSome then d.indView addr else (0, d)

end Sys2Proof.Machine
end

