-- ==== Sys2Proof/Machine/Mailbox.lean ====
section
/-!
DEFINITION. The commands of the host-interface chapter that manage the mailbox and the events (R66, R67, R90, R96, R97).
-/

namespace Sys2Proof.Machine

/-- NOP (R90): completes. -/
def formNop : CmdForm := { opcode := 0x00, recovery := true }

def execNop (dt q : Nat) (e : Entry) (s : State) : Host.Outcome State Fault Refusal :=
  onDev dt (runCmd formNop q e noChecks (fun d => formNop.reply d q e {})) s

/-- RING_CREATE (R66). -/
def formRingCreate : CmdForm := { opcode := 0x02, ring0 := true, blockLen := 20, targetLo := 1, targetHi := 63 }

/-- The checks of RING_CREATE's block (R66). -/
def ringCreateChecks (_ : Dev) (b : List Word) : List (Nat × Bool) :=
  [ (0x00, decide (fldAt b 0x00 11 0 = 0)), (0x08, decide (fldAt b 0x08 11 0 = 0)),
    (0x10, decide (4 ≤ fldAt b 0x10 3 0 ∧ fldAt b 0x10 3 0 ≤ 12 ∧ 4 ≤ fldAt b 0x10 7 4 ∧ fldAt b 0x10 7 4 ≤ 12 ∧
      1 ≤ fldAt b 0x10 19 16 ∧ fldAt b 0x10 31 20 = 0)) ]

/-- The ring that a RING_CREATE block describes (R66). -/
def ringOfBlock (b : List Word) : Ring :=
  { inUse := true, sqBase := qAt b 0x00, cqBase := qAt b 0x08, sqLog2 := fldAt b 0x10 3 0, cqLog2 := fldAt b 0x10 7 4,
    vector := fldAt b 0x10 15 8, weight := fldAt b 0x10 19 16 }

def execRingCreate (dt q : Nat) (e : Entry) (s : State) : Host.Outcome State Fault Refusal :=
  onDev dt (runCmd formRingCreate q e ringCreateChecks (fun d =>
    if (d.ring e.target).inUse then formRingCreate.reply d q e { status := efsState }
    else formRingCreate.reply (d.setRing e.target (ringOfBlock e.block)) q e {})) s

/-- RING_DELETE (R67). -/
def formRingDelete : CmdForm := { opcode := 0x03, ring0 := true, targetLo := 1, targetHi := 63 }

/-- A wait in execution on the ring ends at once, with EFS_ABORTED and DETAIL 2; a BARRIER also withdraws (R67, R645). -/
def Dev.abortWait (d : Dev) (r : Nat) : Dev :=
  match (d.ring r).busy with
  | some b =>
    match b.wait with
    | .aperture a _ _ => d.finishRing r { status := efsAborted, detail := 2, ap := some a }
    | .barrier id scope _ =>
      let d := (d.withdrawBarrier id scope).2
      d.finishRing r { status := efsAborted, detail := 2 }
    | _ => d
  | none => d

def execRingDelete (dt q : Nat) (e : Entry) (s : State) : Host.Outcome State Fault Refusal :=
  onDev dt (runCmd formRingDelete q e noChecks (fun d =>
    if (d.ring e.target).inUse then
      let d := d.hold q 0x03 e (.ringDelete e.target)
      let d := d.setRing e.target { d.ring e.target with deleting := true }
      (d.abortWait e.target).ringSettled e.target
    else formRingDelete.reply d q e { status := efsState })) s

/-- EVENT_RING_SET (R96). -/
def formEventRingSet : CmdForm := { opcode := 0x04, ring0 := true, blockLen := 12 }

def eventRingSetChecks (_ : Dev) (b : List Word) : List (Nat × Bool) :=
  let en := bitAt b 0x08 16
  [ (0x00, !en || decide (fldAt b 0x00 11 0 = 0)),
    (0x08, (!en || decide (4 ≤ fldAt b 0x08 4 0 ∧ fldAt b 0x08 4 0 ≤ 16)) &&
      decide (fldAt b 0x08 15 5 = 0 ∧ fldAt b 0x08 31 17 = 0)) ]

/-- Write the backlog into the ring, oldest first (R98). -/
def Dev.flushBacklog (d : Dev) : Dev :=
  let d' := { d with ev := { d.ev with backlog := [] } }
  d.ev.backlog.foldl (fun d e => d.writeRecord e) d'

/-- Set up, replace or disable the event ring; SEQ continues and PHASE starts at 1 (R96, R98). -/
def Dev.setEventRing (d : Dev) (b : List Word) : Dev :=
  if bitAt b 0x08 16 then
    ({ d with ev := { d.ev with enabled := true, base := qAt b 0x00, log2 := fldAt b 0x08 4 0, head := 0, tail := 0, phase := true } }
      : Dev).flushBacklog
  else { d with ev := { d.ev with enabled := false } }

def execEventRingSet (dt q : Nat) (e : Entry) (s : State) : Host.Outcome State Fault Refusal :=
  onDev dt (runCmd formEventRingSet q e eventRingSetChecks (fun d =>
    formEventRingSet.reply (d.setEventRing e.block) q e {})) s

/-- EVENT_ROUTE (R97). -/
def formEventRoute : CmdForm := { opcode := 0x05, blockLen := 8 }

def eventRouteChecks (_ : Dev) (b : List Word) : List (Nat × Bool) :=
  [ (0x00, decide (fldAt b 0x00 15 11 = 0 ∧ fldAt b 0x00 31 28 = 0 ∧ 1 ≤ fldAt b 0x00 27 16 ∧ fldAt b 0x00 27 16 ≤ 2048 ∧
      fldAt b 0x00 10 0 + fldAt b 0x00 27 16 ≤ 2048)),
    (0x04, decide (fldAt b 0x04 31 10 = 0)) ]

/-- Route sources FIRST to FIRST + COUNT − 1 (R97). -/
def Dev.setRoutes (d : Dev) (first count : Nat) (r : EvRoute) : Dev :=
  { d with ev := { d.ev with routes := (List.range count).foldl (fun t i => Tbl.put (first + i) r t) d.ev.routes } }

def execEventRoute (dt q : Nat) (e : Entry) (s : State) : Host.Outcome State Fault Refusal :=
  onDev dt (runCmd formEventRoute q e eventRouteChecks (fun d =>
    let b := e.block
    formEventRoute.reply (d.setRoutes (fldAt b 0x00 10 0) (fldAt b 0x00 27 16)
      { record := bitAt b 0x04 8, irq := bitAt b 0x04 9, vector := fldAt b 0x04 7 0 }) q e {})) s

end Sys2Proof.Machine
end

