-- ==== Sys2Proof/Machine/HostAccess.lean ====
section
/-!
DEFINITION. Accesses through the BARs and configuration space (R11–R13, R39–R51, R59–R64, R69–R74, R101): register reads and writes, the doorbells,
the indirect window and the capture window. A row of the host stands for an access that has arrived (assumption 62).
-/

namespace Sys2Proof.Machine

/-! ### Reads -/

/-- The read shadow of a path (R59). -/
def Dev.shadow (d : Dev) (p : Port) : Option Shadow :=
  match p with
  | .host => d.shadowHost
  | .sequencer => d.shadowSeq
  | .mc => d.shadowMc

def Dev.setShadow (d : Dev) (p : Port) (x : Shadow) : Dev :=
  match p with
  | .host => { d with shadowHost := some x }
  | .sequencer => { d with shadowSeq := some x }
  | .mc => { d with shadowMc := some x }

/-- The events of the present tick at a register. -/
def Dev.eventsAt (d : Dev) (addr : Nat) : List RcEvent := d.rcNow.filter (fun (x : RcEvent) => decide (x.addr = addr))

/-- The device with the register's fields that a read clears as they stood before the events of the present tick (R12). -/
def Dev.before (d : Dev) (addr : Nat) : Dev :=
  match d.eventsAt addr, RegMap.find addr with
  | x :: _, some (r, _) =>
    d.setReg addr (r.fields.foldl (fun (w : Word) (f : RegField) => if f.access = Access.rc then w.setFld f.hi f.lo (x.old.fld f.hi f.lo) else w) (d.reg addr))
  | _, _ => d

/-- Entries of a marker input that were due before the present tick are settled before its registers are read: they are no events of this
tick (R12). -/
def Dev.settleFor (d : Dev) (addr : Nat) : Dev :=
  if 0x560000 ≤ addr ∧ addr < 0x560400 then
    let n := (addr - 0x560000) / 64
    ({ d.settleBy n (d.cyc - 1) with rcNow := d.rcNow } : Dev).settleMarker n
  else if 0x460000 ≤ addr ∧ addr < 0x464000 then d.serve ((addr - 0x460000) / 2048)
  else if 0x471000 ≤ addr ∧ addr < 0x471080 then d.serve ((addr - 0x471000) / 16)
  else d

/-- The RC fields of a register that lie wholly within bytes `lo` to `lo + len - 1` return to their reset values (R11, R48); the events of the
present tick act on them again (R12). -/
def Dev.clearRead (d : Dev) (addr lo len : Nat) : Dev :=
  match RegMap.find addr with
  | some (r, i) =>
    let go := r.fields.filter (fun f => decide (f.access = Access.rc) && decide (8 * lo ≤ f.lo ∧ f.hi < 8 * (lo + len)))
    if go.isEmpty then d
    else
      let clear (w : Word) : Word := go.foldl (fun (w : Word) (f : RegField) => w.setFld f.hi f.lo (f.resetAt i)) w
      let again := (d.eventsAt addr).filter (fun (x : RcEvent) => go.any (fun f => decide ((f.hi, f.lo) = x.op.span)))
      let d := { d with rcNow := d.rcNow.map (fun (x : RcEvent) => if x.addr = addr then { x with old := clear x.old } else x) }
      let d := d.setReg addr (again.foldl (fun (w : Word) (x : RcEvent) => x.op.run w) (clear (d.reg addr)))
      -- SCRUB_UE counts from its last read, and EV_SCRUB_POISON may be raised again (R408)
      match regIndex 0x50000C 32 1040 addr with
      | some g => d.setRegion g { d.region g with scrubRaised := false }
      | none => d
  | none => d

/-- The input whose queue an MKQ_DATA alias pops (R501). -/
def mkqAt (addr : Nat) : Option Nat := if 0x560000 ≤ addr ∧ addr < 0x560400 ∧ 0x20 ≤ addr % 64 ∧ addr % 64 < 0x30 then some ((addr - 0x560000) / 64) else none

/-- The value of a register read on a path, with the shadow of R59 and R60. -/
def Dev.readValue (d : Dev) (m : Mems) (p : Port) (addr : Nat) : Word × Dev :=
  match mkqAt addr with
  | some n =>
    let r := d.popMarker n
    (BitVec.ofNat 32 r.1, r.2)
  | none =>
    if isHighHalf addr then
      match d.shadow p with
      | some s => if s.addr + 4 = addr then (s.high, d) else ((d.view m addr).1, d.hostStatus hsShadowMiss)
      | none => ((d.view m addr).1, d.hostStatus hsShadowMiss)
    else
      let v := d.view m addr
      if isLowHalf addr then (v.1, v.2.setShadow p { addr := addr, high := (d.view m (addr + 4)).1 }) else v

/-- Bytes `lo` to `lo + len - 1` of a dword, as a number. -/
def bytesOf (w : Word) (lo len : Nat) : Nat := w.toNat / 2 ^ (8 * lo) % 2 ^ (8 * len)

/-- A register read on a path: the bytes returned, and the fields it clears. Fields that a read clears are returned as they stood before the
events of the present tick, and those events survive the clear (R12). -/
def Dev.readReg (d : Dev) (m : Mems) (p : Port) (addr lo len : Nat) : Dev :=
  let d := d.settleFor addr
  let v := (d.before addr).readValue m p addr
  (({ v.2 with regs := if (d.eventsAt addr).isEmpty then v.2.regs else Tbl.put addr (d.reg addr) v.2.regs } : Dev).clearRead addr lo len).emit
    (.regRead (bytesOf v.1 lo len))

/-- IND_ADDR advances after an IND_DATA access under AINC (R48, R63). -/
def Dev.autoInc (d : Dev) : Dev := if d.fld 0x20 0 0 = 1 then d.setReg 0x18 (d.reg 0x18 + 4) else d

/-- The indirect address. -/
def Dev.indAddr (d : Dev) : Nat := (d.reg 0x18).toNat

/-- A read of IND_DATA (R62, R63). -/
def Dev.indRead (d : Dev) (m : Mems) (lo len : Nat) : Dev :=
  let a := d.indAddr
  (if d.mapped a then d.readReg m .host a lo len else (d.hostStatus hsIndFault).emit (.regRead 0)).autoInc

/-- What an access of an indirect register is: an access of IND_DATA while IND_ADDR names the register, or one that is turned away before
READY (R62, R64). -/
def Dev.indNames (d : Dev) (addr : Nat) : Bool := !d.fw.ready || decide (d.indAddr = addr)

/-- What answers while READY is 0 (R64). -/
def answersEarly (off : Nat) : Bool := decide (off < 0x10) || decide (0x100 ≤ off ∧ off < 0x170) || decide (0x2000 ≤ off ∧ off < 0x2400)

/-- A host read within one dword of BAR0. Offsets from 0x0040_0000 on are not listed in it (R49): the indirect space, which has the same
numbers in the model's register file, is reached through IND_DATA alone. -/
def Dev.hostReadDword (d : Dev) (m : Mems) (off lo len : Nat) : Dev :=
  if !d.fw.ready && !answersEarly off then (d.hostStatus hsEarly).emit (.regRead 0)
  else if 0x400000 ≤ off then d.emit (.regRead 0)
  else if off = 0x1C then d.indRead m lo len
  else d.readReg m .host off lo len

/-- A host read of bytes `lo` to `lo + len - 1` from a BAR0 offset: one that reaches into a second dword is a read of the lower dword followed by one
of the higher (R47, R48). -/
def Dev.hostRead (d : Dev) (m : Mems) (off lo len : Nat) : Dev :=
  let d1 := if lo < 4 then d.hostReadDword m off lo (min len (4 - lo)) else d
  if 4 < lo + len then d1.hostReadDword m (off + 4) (lo - 4) (lo + len - max lo 4) else d1

/-- A read on a path. -/
def Dev.pathRead (d : Dev) (m : Mems) (p : Port) (addr lo len : Nat) : Dev :=
  match p with
  | .host => d.hostRead m addr lo len
  | .sequencer => d.readReg m .sequencer addr lo len
  | .mc => d.readReg m .mc addr lo len

def execIndDataRead (dt lo len : Nat) (s : State) : Host.Outcome State Fault Refusal := onDev dt (fun d => d.hostRead s.mem 0x1C lo len) s

def execLowHalfRead (dt : Nat) (p : Port) (addr lo len : Nat) (s : State) : Host.Outcome State Fault Refusal :=
  onDev dt (fun d => d.pathRead s.mem p addr lo len) s

def execHighHalfRead (dt : Nat) (p : Port) (addr lo len : Nat) (s : State) : Host.Outcome State Fault Refusal :=
  onDev dt (fun d => d.pathRead s.mem p addr lo len) s

def execRcFieldRead (dt addr lo len : Nat) (s : State) : Host.Outcome State Fault Refusal := onDev dt (fun d => d.hostRead s.mem addr lo len) s

def execEarlyRead (dt addr : Nat) (s : State) : Host.Outcome State Fault Refusal := onDev dt (fun d => d.hostRead s.mem addr 0 4) s

/-- MKQ_DATA_READ: alias `k` of input `n`, read through IND_DATA. -/
def execMkqDataRead (dt n k : Nat) (s : State) : Host.Outcome State Fault Refusal :=
  onDev dt (fun d => if d.indNames (mkReg n (0x20 + 4 * (k % 4))) then d.hostRead s.mem 0x1C 0 4 else d) s

/-! ### Doorbells (R69, R71, R74, R101) -/

/-- A doorbell value is refused: `which` is 0 for SQ_DB and 1 for CQ_DB. A ring that has faulted stays so and raises nothing more. -/
def Dev.refuseDoorbell (d : Dev) (q which : Nat) (v : Word) : Dev :=
  let d := d.hostStatus hsDbRange
  if (d.ring q).fault then d else d.faultRing q (1 + 2 ^ 8 * which) (v.setWidth 64)

/-- SQ_DB(q): the commit point of new entries. -/
def Dev.sqDoorbell (d : Dev) (q : Nat) (v : Word) : Dev :=
  let r := d.ring q
  let n := 2 ^ r.sqLog2
  let t := v.fld 11 0
  if !r.inUse then d.hostStatus hsDbRange
  else if n ≤ t ∨ (r.sqHead + n - r.sqTail - 1) % n < (t + n - r.sqTail) % n then d.refuseDoorbell q 0 v
  else d.setRing q { r with sqTail := t, bells := if t = r.sqTail then r.bells else r.bells ++ [(t, d.clk.time)] }

/-- CQ_DB(q): frees room, so that a held completion is written. -/
def Dev.cqDoorbell (d : Dev) (q : Nat) (v : Word) : Dev :=
  let r := d.ring q
  let n := 2 ^ r.cqLog2
  let h := v.fld 11 0
  if !r.inUse then d.hostStatus hsDbRange
  else if n ≤ h ∨ (r.cqTail + n - r.cqHead) % n < (h + n - r.cqHead) % n then d.refuseDoorbell q 1 v
  else
    let d := d.setRing q { r with cqHead := h }
    match r.held with
    | some c => if (d.ring q).cqFull || !d.ev.due.isEmpty then d else (d.writeCompletion q c).ringSettled q
    | none => d

/-- EVQ_DB: a HEAD outside the span from the device's head to its tail is ignored. -/
def Dev.evDoorbell (d : Dev) (v : Word) : Dev :=
  let r := d.ev
  let n := 2 ^ r.log2
  let h := v.fld 15 0
  if r.enabled ∧ h < n ∧ (h + n - r.head) % n ≤ (r.tail + n - r.head) % n then { d with ev := { r with head := h } } else d

/-! ### Writes -/

/-- Set the RW fields of a register (R11). -/
def Dev.storeRw (d : Dev) (addr : Nat) (v : Word) : Dev :=
  match RegMap.find addr with
  | some (r, _) =>
    -- STAGE_CODE acts on launches after the present tick (R392)
    let d := if addr = 0x510000 ∧ d.cmc.stageWas.all (fun p => decide (p.1 ≠ d.cyc)) then
        d.updCmc (fun c => { c with stageWas := some (d.cyc, decide (d.fld 0x510000 0 0 = 1)) }) else d
    let d := d.setReg addr (r.fields.foldl (fun (w : Word) (f : RegField) => if f.access = Access.rw then w.setFld f.hi f.lo (v.fld f.hi f.lo) else w) (d.reg addr))
    -- new watermarks meet the line buffers as they stand (R447)
    if addr = 0x520008 then d.fillChanged else d
  | none => d

/-- The value changes a field marked PR (R13). -/
def Dev.breaksPr (d : Dev) (addr : Nat) (v : Word) : Bool :=
  match RegMap.find addr with
  | some (r, _) => r.fields.any (fun f => decide (f.access = Access.pr) && decide (v.fld f.hi f.lo ≠ (d.reg addr).fld f.hi f.lo))
  | none => false

/-- A write of RING0_CFG (R50, R51): the fields are taken only while ENABLE is 0. ENABLE 0 to 1 samples the ring, once an earlier ring 0 is gone;
1 to 0 deletes it as RING_DELETE does, and clears the fault. -/
def Dev.writeRing0Cfg (d : Dev) (v : Word) : Dev :=
  let old := d.fld 0x50 16 16
  let new := v.fld 16 16
  if old = 0 then
    let d := d.storeRw 0x50 v
    if new = 1 ∧ !(d.ring 0).deleting then d.sampleRing0 else d
  else if new = 0 then
    let d := (d.setFld 0x50 16 16 0).setFld 0x54 1 1 0
    if (d.ring 0).inUse then
      let d := d.setRing 0 { d.ring 0 with deleting := true }
      (d.abortWait 0).ringSettled 0
    else d.dropRing 0
  else d

/-- A write of EXP_CTRL (R535, R536). -/
def Dev.writeExpCtrl (d : Dev) (c : Nat) (v : Word) : Dev :=
  let d := if v.fld 0 0 = 1 then d.exportPause c else d.exportResume c
  if v.fld 1 1 = 1 then d.clearHalt c else d

/-- A write of an indirect register. -/
def Dev.writeInd (d : Dev) (addr : Nat) (v : Word) : Dev :=
  match regIndex 0x580004 64 64 addr, regIndex 0x580008 64 64 addr, regIndex 0x58000C 64 64 addr with
  | some c, _, _ => if c < 60 then d.writeExpCtrl c v else d
  | _, some c, _ => if c < 60 then d.storeRw addr v else d
  | _, _, some c => d.headWrite c v
  | _, _, _ => d.storeRw addr v

/-- A write of IND_DATA (R62, R63); `none` where it changes a field marked PR. -/
def Dev.indWrite (d : Dev) (v : Word) : Except Nat Dev :=
  let a := d.indAddr
  if !d.mapped a then .ok (d.hostStatus hsIndFault).autoInc
  else if d.breaksPr a v then .error a
  else .ok (d.writeInd a v).autoInc

/-- A host write of one dword of BAR0; the address of the register where it changes a field marked PR. -/
def Dev.writeDword (d : Dev) (off : Nat) (v : Word) : Except Nat Dev :=
  if !d.fw.ready && !answersEarly off then .ok (d.hostStatus hsEarly)
  else if 0x2000 ≤ off ∧ off < 0x2400 ∨ 0x400000 ≤ off then .ok d
  else if off = 0x1C then d.indWrite v
  else if d.breaksPr off v then .error off
  else match regIndex 0x1000 16 64 off, regIndex 0x1004 16 64 off with
    | some q, _ => .ok (d.sqDoorbell q v)
    | _, some q => .ok (d.cqDoorbell q v)
    | _, _ =>
      if off = 0x1400 then .ok (d.evDoorbell v)
      else if off = 0x50 then .ok (d.writeRing0Cfg v)
      else if 0x40 ≤ off ∧ off < 0x50 ∧ d.fld 0x50 16 16 = 1 then .ok d
      else .ok (d.storeRw off v)

/-- Dwords from an offset up, the lower first (R47). -/
def Dev.writeDwords (d : Dev) (off : Nat) : List Word → Except Nat Dev
  | [] => .ok d
  | v :: t =>
    match d.writeDword off v with
    | .ok d => d.writeDwords (off + 4) t
    | .error a => .error a

/-- The outcome of a host write. -/
def onWrite (dt : Nat) (f : Dev → Except Nat Dev) (s : State) : Host.Outcome State Fault Refusal :=
  match f (s.dev.pass dt) with
  | .ok d => .next { s with dev := d }
  | .error a => .fault (.undefinedPrWrite a)

def execSqDb (dt q : Nat) (v : Word) (s : State) : Host.Outcome State Fault Refusal :=
  onWrite dt (fun d => if q < 64 then d.writeDword (0x1000 + 16 * q) v else .ok d) s

def execCqDb (dt q : Nat) (v : Word) (s : State) : Host.Outcome State Fault Refusal :=
  onWrite dt (fun d => if q < 64 then d.writeDword (0x1004 + 16 * q) v else .ok d) s

/-- A write of IND_DATA as the write of one register: while IND_ADDR names it. -/
def Dev.indWriteOf (d : Dev) (addr : Nat) (v : Word) : Except Nat Dev := if d.indNames addr then d.writeDword 0x1C v else .ok d

/-- EXP_HEAD_WRITE: the high half of HEAD is written through IND_DATA (R527). -/
def execExpHeadWrite (dt c : Nat) (hi : Word) (s : State) : Host.Outcome State Fault Refusal :=
  onWrite dt (fun d => d.indWriteOf (dmaReg c 0x0C) hi) s

/-- EXP_CTRL as a write of PAUSE and CLEAR_HALT leaves its other bits (R13). -/
def Dev.expCtrlWith (d : Dev) (c pause clear : Nat) : Word := ((d.reg (dmaReg c 0x04)).setFld 0 0 pause).setFld 1 1 clear

/-- EXP_PAUSE and EXP_RESUME: PAUSE is written through IND_DATA (R536). -/
def execExpPause (dt c : Nat) (s : State) : Host.Outcome State Fault Refusal :=
  onWrite dt (fun d => d.indWriteOf (dmaReg c 0x04) (d.expCtrlWith c 1 0)) s
def execExpResume (dt c : Nat) (s : State) : Host.Outcome State Fault Refusal :=
  onWrite dt (fun d => d.indWriteOf (dmaReg c 0x04) (d.expCtrlWith c 0 0)) s

/-- CLEAR_HALT: written 1 through IND_DATA, PAUSE as it stands (R535). -/
def execClearHalt (dt c : Nat) (s : State) : Host.Outcome State Fault Refusal :=
  onWrite dt (fun d => d.indWriteOf (dmaReg c 0x04) (d.expCtrlWith c (d.fld (dmaReg c 0x04) 0 0) 1)) s

def execEvqDb (dt : Nat) (v : Word) (s : State) : Host.Outcome State Fault Refusal := onWrite dt (fun d => d.writeDword 0x1400 v) s

def execRing0Enable (dt : Nat) (v : Word) (s : State) : Host.Outcome State Fault Refusal := onWrite dt (fun d => d.writeDword 0x50 v) s

def execRing0Disable (dt : Nat) (v : Word) (s : State) : Host.Outcome State Fault Refusal := onWrite dt (fun d => d.writeDword 0x50 v) s

def execIndDataWrite (dt : Nat) (v : Word) (s : State) : Host.Outcome State Fault Refusal := onWrite dt (fun d => d.writeDword 0x1C v) s

/-- BAR0_PARTIAL_WRITE (R48): discarded. An access of IND_DATA advances IND_ADDR all the same. -/
def Dev.partialWrite (d : Dev) (addr lo len : Nat) : Dev :=
  if lo = 0 ∧ 4 ≤ len then d
  else
    let d := d.hostStatus hsPartialWr
    if !d.fw.ready && !answersEarly addr then d.hostStatus hsEarly
    else if addr = 0x1C then d.autoInc else d

def execBar0PartialWrite (dt addr lo len : Nat) (s : State) : Host.Outcome State Fault Refusal := onDev dt (fun d => d.partialWrite addr lo len) s

/-! ### BAR4 and configuration space (R39, R40, R102) -/

/-- A dword of an MSI-X table entry is written. -/
def MsixEntry.write (e : MsixEntry) (k : Nat) (v : Word) : MsixEntry :=
  match k with
  | 0 => { e with addr := QWord.ofHalves v e.addr.hi }
  | 1 => { e with addr := QWord.ofHalves e.addr.lo v }
  | 2 => { e with data := v }
  | _ => { e with masked := decide (v.fld 0 0 = 1) }

/-- A host write of one dword of BAR4: the MSI-X table takes it; a write of the completion-queue memory or of the pending bits is discarded. -/
def Dev.writeBar4 (d : Dev) (off : Nat) (v : Word) : Dev :=
  if 0x300000 ≤ off ∧ off < 0x301000 then
    let n := (off - 0x300000) / 16
    let e := (Tbl.look ({} : MsixEntry) d.pcie.msix n).write ((off - 0x300000) % 16 / 4) v
    ({ d with pcie := { d.pcie with msix := Tbl.put n e d.pcie.msix } } : Dev).sendPending
  else d

/-- A write of a configuration register. Setting Bus Master Enable lets pending messages go; clearing it, and D3hot, do what R39 says. -/
def Dev.writeConfig (d : Dev) (r : CfgReg) (v : Word) : Dev :=
  if !d.functionUp then d
  else match r with
    | .command =>
      if v.fld 2 2 = 1 then ({ d with pcie := { d.pcie with busMaster := true } } : Dev).sendPending
      else if d.pcie.busMaster then (let d := d.cutHost false; { d with pcie := { d.pcie with busMaster := false } })
      else d
    | .msixControl =>
      ({ d with pcie := { d.pcie with msixEnable := decide (v.fld 15 15 = 1), msixFnMask := decide (v.fld 14 14 = 1) } } : Dev).sendPending
    | .power =>
      if v.fld 1 0 = 3 ∧ !d.pcie.d3hot then (let d := d.cutHost false; { d with pcie := { d.pcie with d3hot := true } })
      else if v.fld 1 0 = 0 then { d with pcie := { d.pcie with d3hot := false } }
      else d
    | .deviceControl =>
      -- values that R37 does not list leave the field as it is (assumption 106)
      { d with pcie := { d.pcie with
          mps := if v.fld 7 5 ≤ 2 then v.fld 7 5 else d.pcie.mps
          mrrs := if v.fld 14 12 ≤ 5 then v.fld 14 12 else d.pcie.mrrs } }
    | .identity => d
    | .classCode => d
    | .deviceCaps => d

/-- REGISTER_WRITE: one dword, or two in an 8-byte access, at an offset divisible by 4 (R47). -/
def Dev.registerWrite (d : Dev) (sp : RegSpace) (vs : List Word) : Except Nat Dev :=
  match sp with
  | .bar0 off => d.writeDwords off vs
  | .bar4 off => .ok (vs.zipIdx.foldl (fun (d : Dev) (p : Word × Nat) => d.writeBar4 (off + 4 * p.2) p.1) d)
  | .config r => .ok (match vs with | v :: _ => d.writeConfig r v | [] => d)

def execRegisterWrite (dt : Nat) (sp : RegSpace) (vs : List Word) (s : State) : Host.Outcome State Fault Refusal :=
  onWrite dt (fun d => d.registerWrite sp vs) s

/-! ### BAR2 (R41–R46, R620) -/

/-- The capture capacity as BAR2 sees it: 0 until READY. -/
def Dev.windowCapacity (d : Dev) : Nat := if d.fw.ready ∨ d.fw.stage = 0x3F then d.capacity else 0

/-- A line that is not the poison pattern and cannot be corrected: what it returns beside the EP bit is free (R44, assumption 8). -/
def Dev.freeLine (d : Dev) : List Byte × Dev :=
  ((List.range 8).flatMap (fun i => bytesOfWords [QWord.lo (Config.freeValue (d.free + i)), QWord.hi (Config.freeValue (d.free + i))]), { d with free := d.free + 8 })

/-- One line of a BAR2 read: its bytes, and whether it is marked. -/
def Dev.windowLine (d : Dev) (m : Memory) (errs : List Upset) (line : Nat) : List Byte × Bool × Dev :=
  let r := d.lineData m errs line
  let d := d.lineMet line 6 r.1
  if r.1 = .uncorrectable then let f := d.freeLine; (f.1, true, f.2) else (r.2, r.1.marked, d)

/-- BAR2_READ: `errs` are the upset bits of the lines read. -/
def Dev.windowRead (d : Dev) (m : Memory) (off len : Nat) (errs : List Upset) : Dev :=
  let a := d.fld 0x24 7 0 * 2 ^ 30 + off
  if len = 0 then d
  else if d.windowCapacity < a + len then d.emit .unsupported
  else
    let y := (linesOf a len).foldl (fun (y : List Byte × Bool × Dev) l =>
      let z := y.2.2.windowLine m errs l
      (y.1 ++ z.1, y.2.1 || z.2.1, z.2.2)) ([], false, d)
    y.2.2.emit (.bar2 ((y.1.drop (a % 64)).take len) y.2.1)

/-- BAR2_MAX_NS after one more read: how long it took is free (R551, R555, assumption 8). -/
def Dev.noteWindow (d : Dev) : Dev :=
  let f := d.fresh
  f.2.rcDo 0x5C0004 (.most 31 0 (f.1.toNat % 2 ^ 32))

def execBar2Read (dt off len : Nat) (errs : List Upset) (s : State) : Host.Outcome State Fault Refusal :=
  onDev dt (fun d => (d.windowRead s.mem.cap off len errs).noteWindow) s

def execBar2Write (dt _off : Nat) (s : State) : Host.Outcome State Fault Refusal := onDev dt (fun d => d.hostStatus hsBar2Wr) s

end Sys2Proof.Machine
end

