-- ==== Sys2Proof/Machine/Dispatch.lean ====
section
/-!
DEFINITION. The meaning of every command: one arm per constructor of Instr, each a direct call.
-/

namespace Sys2Proof.Machine

def exec (i : Instr) (s : State) : Host.Outcome State Fault Refusal :=
  match i with
  | .nop dt q e => Sys2Proof.Machine.execNop dt q e s
  | .describe dt q e => Sys2Proof.Machine.execDescribe dt q e s
  | .ringCreate dt q e => Sys2Proof.Machine.execRingCreate dt q e s
  | .ringDelete dt q e => Sys2Proof.Machine.execRingDelete dt q e s
  | .eventRingSet dt q e => Sys2Proof.Machine.execEventRingSet dt q e s
  | .eventRoute dt q e => Sys2Proof.Machine.execEventRoute dt q e s
  | .timeRead dt q e => Sys2Proof.Machine.execTimeRead dt q e s
  | .timeRefSet dt q e => Sys2Proof.Machine.execTimeRefSet dt q e s
  | .launchAt dt q e => Sys2Proof.Machine.execLaunchAt dt q e s
  | .launchBind dt q e => Sys2Proof.Machine.execLaunchBind dt q e s
  | .launchFire dt q e => Sys2Proof.Machine.execLaunchFire dt q e s
  | .launchCancel dt q e => Sys2Proof.Machine.execLaunchCancel dt q e s
  | .barrier dt q e => Sys2Proof.Machine.execBarrier dt q e s
  | .snapshot dt q e => Sys2Proof.Machine.execSnapshot dt q e s
  | .snapshotJoin dt q e => Sys2Proof.Machine.execSnapshotJoin dt q e s
  | .snapshotFire dt q e => Sys2Proof.Machine.execSnapshotFire dt q e s
  | .resetAt dt q e => Sys2Proof.Machine.execResetAt dt q e s
  | .broadcast dt q e => Sys2Proof.Machine.execBroadcast dt q e s
  | .apertureStage dt q e => Sys2Proof.Machine.execApertureStage dt q e s
  | .apertureAdmit dt q e => Sys2Proof.Machine.execApertureAdmit dt q e s
  | .apertureHalt dt q e => Sys2Proof.Machine.execApertureHalt dt q e s
  | .apertureRelease dt q e => Sys2Proof.Machine.execApertureRelease dt q e s
  | .apertureQuery dt q e => Sys2Proof.Machine.execApertureQuery dt q e s
  | .apertureWait dt q e => Sys2Proof.Machine.execApertureWait dt q e s
  | .captureArm dt q e => Sys2Proof.Machine.execCaptureArm dt q e s
  | .captureTrigger dt q e => Sys2Proof.Machine.execCaptureTrigger dt q e s
  | .captureFreeze dt q e => Sys2Proof.Machine.execCaptureFreeze dt q e s
  | .recordList dt q e => Sys2Proof.Machine.execRecordList dt q e s
  | .blockRead dt q e => Sys2Proof.Machine.execBlockRead dt q e s
  | .blockWrite dt q e => Sys2Proof.Machine.execBlockWrite dt q e s
  | .tpLoad dt q e => Sys2Proof.Machine.execTpLoad dt q e s
  | .tpStart dt q e => Sys2Proof.Machine.execTpStart dt q e s
  | .tpResume dt q e => Sys2Proof.Machine.execTpResume dt q e s
  | .tpStop dt q e => Sys2Proof.Machine.execTpStop dt q e s
  | .displayMode dt q e => Sys2Proof.Machine.execDisplayMode dt q e s
  | .layerSet dt q e => Sys2Proof.Machine.execLayerSet dt q e s
  | .layerFlip dt q e => Sys2Proof.Machine.execLayerFlip dt q e s
  | .relayAttach dt q e => Sys2Proof.Machine.execRelayAttach dt q e s
  | .relayDetach dt q e => Sys2Proof.Machine.execRelayDetach dt q e s
  | .calSweep dt q e => Sys2Proof.Machine.execCalSweep dt q e s
  | .calApply dt q e => Sys2Proof.Machine.execCalApply dt q e s
  | .sensorRead dt q e => Sys2Proof.Machine.execSensorRead dt q e s
  | .logRead dt q e => Sys2Proof.Machine.execLogRead dt q e s
  | .spareStatus dt q e => Sys2Proof.Machine.execSpareStatus dt q e s
  | .sparePolicy dt q e => Sys2Proof.Machine.execSparePolicy dt q e s
  | .fwUpdateBegin dt q e => Sys2Proof.Machine.execFwUpdateBegin dt q e s
  | .fwUpdateData dt q e => Sys2Proof.Machine.execFwUpdateData dt q e s
  | .fwUpdateCommit dt q e => Sys2Proof.Machine.execFwUpdateCommit dt q e s
  | .attest dt q e => Sys2Proof.Machine.execAttest dt q e s
  | .identityRead dt q e => Sys2Proof.Machine.execIdentityRead dt q e s
  | .sqDb dt q v => Sys2Proof.Machine.execSqDb dt q v s
  | .cqDb dt q v => Sys2Proof.Machine.execCqDb dt q v s
  | .evqDb dt v => Sys2Proof.Machine.execEvqDb dt v s
  | .ring0Enable dt v => Sys2Proof.Machine.execRing0Enable dt v s
  | .ring0Disable dt v => Sys2Proof.Machine.execRing0Disable dt v s
  | .indDataRead dt lo len => Sys2Proof.Machine.execIndDataRead dt lo len s
  | .indDataWrite dt v => Sys2Proof.Machine.execIndDataWrite dt v s
  | .lowHalfRead dt p addr lo len => Sys2Proof.Machine.execLowHalfRead dt p addr lo len s
  | .highHalfRead dt p addr lo len => Sys2Proof.Machine.execHighHalfRead dt p addr lo len s
  | .rcFieldRead dt addr lo len => Sys2Proof.Machine.execRcFieldRead dt addr lo len s
  | .bar0PartialWrite dt addr lo len => Sys2Proof.Machine.execBar0PartialWrite dt addr lo len s
  | .registerWrite dt sp vs => Sys2Proof.Machine.execRegisterWrite dt sp vs s
  | .bar2Read dt off len errs => Sys2Proof.Machine.execBar2Read dt off len errs s
  | .bar2Write dt off => Sys2Proof.Machine.execBar2Write dt off s
  | .msixVectorUnmask dt v => Sys2Proof.Machine.execMsixVectorUnmask dt v s
  | .expHeadWrite dt c hi => Sys2Proof.Machine.execExpHeadWrite dt c hi s
  | .expPause dt c => Sys2Proof.Machine.execExpPause dt c s
  | .expResume dt c => Sys2Proof.Machine.execExpResume dt c s
  | .clearHalt dt c => Sys2Proof.Machine.execClearHalt dt c s
  | .mkqDataRead dt n k => Sys2Proof.Machine.execMkqDataRead dt n k s
  | .flr dt => Sys2Proof.Machine.execFlr dt s
  | .d3hotEntry dt => Sys2Proof.Machine.execD3hotEntry dt s
  | .busMasterClear dt => Sys2Proof.Machine.execBusMasterClear dt s
  | .hotReset dt => Sys2Proof.Machine.execHotReset dt s
  | .readyReturn dt => Sys2Proof.Machine.execReadyReturn dt s
  | .hostReadErrorCompletion dt r kind addr => Sys2Proof.Machine.execHostReadErrorCompletion dt r kind addr s
  | .hostReadTimeout dt r addr => Sys2Proof.Machine.execHostReadTimeout dt r addr s
  | .commandTimeout dt q => Sys2Proof.Machine.execCommandTimeout dt q s
  | .refInPresent dt => Sys2Proof.Machine.execRefInPresent dt s
  | .refInLost dt => Sys2Proof.Machine.execRefInLost dt s
  | .ppsEdge dt falling frac => Sys2Proof.Machine.execPpsEdge dt falling frac s
  | .ppsLost dt => Sys2Proof.Machine.execPpsLost dt s
  | .timebaseLock dt loop phase => Sys2Proof.Machine.execTimebaseLock dt loop phase s
  | .idle dt k w => Sys2Proof.Machine.execIdle dt k w s
  | .rangeReq dt k w => Sys2Proof.Machine.execRangeReq dt k w s
  | .rangeEcho dt k w => Sys2Proof.Machine.execRangeEcho dt k w s
  | .fire dt k w => Sys2Proof.Machine.execFire dt k w s
  | .cancel dt k w => Sys2Proof.Machine.execCancel dt k w s
  | .applied dt k w => Sys2Proof.Machine.execApplied dt k w s
  | .snapFire dt k w => Sys2Proof.Machine.execSnapFire dt k w s
  | .resetFire dt k w => Sys2Proof.Machine.execResetFire dt k w s
  | .barrierArrive dt k w => Sys2Proof.Machine.execBarrierArrive dt k w s
  | .barrierWithdraw dt k w => Sys2Proof.Machine.execBarrierWithdraw dt k w s
  | .barrierRelease dt k w => Sys2Proof.Machine.execBarrierRelease dt k w s
  | .barrierWithdrawn dt k w => Sys2Proof.Machine.execBarrierWithdrawn dt k w s
  | .bcastData dt k w => Sys2Proof.Machine.execBcastData dt k w s
  | .bcastAck dt k w => Sys2Proof.Machine.execBcastAck dt k w s
  | .trig dt k w => Sys2Proof.Machine.execTrig dt k w s
  | .verdict dt k w => Sys2Proof.Machine.execVerdict dt k w s
  | .remoteTrigTimeout dt id fire => Sys2Proof.Machine.execRemoteTrigTimeout dt id fire s
  | .rangingTimer dt k => Sys2Proof.Machine.execRangingTimer dt k s
  | .syncLinkUp dt k delayPs upstream => Sys2Proof.Machine.execSyncLinkUp dt k delayPs upstream s
  | .syncLinkDown dt k cause => Sys2Proof.Machine.execSyncLinkDown dt k cause s
  | .launchTick dt id => Sys2Proof.Machine.execLaunchTick dt id s
  | .snapshotTick dt id => Sys2Proof.Machine.execSnapshotTick dt id s
  | .snapshotOutWrite dt id => Sys2Proof.Machine.execSnapshotOutWrite dt id s
  | .resetTick dt id => Sys2Proof.Machine.execResetTick dt id s
  | .broadcastDelivery dt => Sys2Proof.Machine.execBroadcastDelivery dt s
  | .apertureHaltTick dt a => Sys2Proof.Machine.execApertureHaltTick dt a s
  | .captureArmEffect dt a => Sys2Proof.Machine.execCaptureArmEffect dt a s
  | .captureFreezeEffect dt a => Sys2Proof.Machine.execCaptureFreezeEffect dt a s
  | .tpStartTick dt n => Sys2Proof.Machine.execTpStartTick dt n s
  | .pslFrame dt pad words => Sys2Proof.Machine.execPslFrame dt pad words s
  | .pslGroupRelease dt sn => Sys2Proof.Machine.execPslGroupRelease dt sn s
  | .streamDownTimeout dt sn => Sys2Proof.Machine.execStreamDownTimeout dt sn s
  | .substituteDue dt sn => Sys2Proof.Machine.execSubstituteDue dt sn s
  | .jesdMultiblockRelease dt link arr convs => Sys2Proof.Machine.execJesdMultiblockRelease dt link arr convs s
  | .sysrefEdge dt => Sys2Proof.Machine.execSysrefEdge dt s
  | .jesdLaneAlignmentLoss dt pad => Sys2Proof.Machine.execJesdLaneAlignmentLoss dt pad s
  | .splitterDelivery dt sn r0 r1 => Sys2Proof.Machine.execSplitterDelivery dt sn r0 r1 s
  | .rotationSwap dt n res => Sys2Proof.Machine.execRotationSwap dt n res s
  | .spareLockstepEnd dt id agree => Sys2Proof.Machine.execSpareLockstepEnd dt id agree s
  | .wearEvaluation dt kind unit ind value => Sys2Proof.Machine.execWearEvaluation dt kind unit ind value s
  | .channelOutputWrite dt c => Sys2Proof.Machine.execChannelOutputWrite dt c s
  | .frameReadStart dt sector engine errs => Sys2Proof.Machine.execFrameReadStart dt sector engine errs s
  | .spectrumDelivery dt c checkFails => Sys2Proof.Machine.execSpectrumDelivery dt c checkFails s
  | .binEmission dt c => Sys2Proof.Machine.execBinEmission dt c s
  | .timeSampleDelivery dt c => Sys2Proof.Machine.execTimeSampleDelivery dt c s
  | .maskVerdict dt u => Sys2Proof.Machine.execMaskVerdict dt u s
  | .combinerEvent dt k => Sys2Proof.Machine.execCombinerEvent dt k s
  | .combinerVerdict dt k => Sys2Proof.Machine.execCombinerVerdict dt k s
  | .apertureCandidate dt a => Sys2Proof.Machine.execApertureCandidate dt a s
  | .apertureVerdict dt a => Sys2Proof.Machine.execApertureVerdict dt a s
  | .triggerPulse dt n => Sys2Proof.Machine.execTriggerPulse dt n s
  | .cancelCode dt n => Sys2Proof.Machine.execCancelCode dt n s
  | .rearmEnd dt a => Sys2Proof.Machine.execRearmEnd dt a s
  | .entryWrite dt a slot ch => Sys2Proof.Machine.execEntryWrite dt a slot ch s
  | .recordComplete dt a => Sys2Proof.Machine.execRecordComplete dt a s
  | .periodBoundary dt => Sys2Proof.Machine.execPeriodBoundary dt s
  | .scheduledSlot dt x => Sys2Proof.Machine.execScheduledSlot dt x s
  | .refreshSlot dt x => Sys2Proof.Machine.execRefreshSlot dt x s
  | .neighbourRefreshSlot dt x => Sys2Proof.Machine.execNeighbourRefreshSlot dt x s
  | .leftoverSlot dt r => Sys2Proof.Machine.execLeftoverSlot dt r s
  | .rankPowerDown dt x rank => Sys2Proof.Machine.execRankPowerDown dt x rank s
  | .stackTemperatureSample dt stack t => Sys2Proof.Machine.execStackTemperatureSample dt stack t s
  | .retrainStart dt x => Sys2Proof.Machine.execRetrainStart dt x s
  | .trainingStepEnd dt x eyeW eyeH ok => Sys2Proof.Machine.execTrainingStepEnd dt x eyeW eyeH ok s
  | .phyRelockDone dt => Sys2Proof.Machine.execPhyRelockDone dt s
  | .ceWriteback dt addr => Sys2Proof.Machine.execCeWriteback dt addr s
  | .captureScrubRead dt x errs => Sys2Proof.Machine.execCaptureScrubRead dt x errs s
  | .facetScrubRead dt g line errs => Sys2Proof.Machine.execFacetScrubRead dt g line errs s
  | .sequencerTrap dt r => Sys2Proof.Machine.execSequencerTrap dt r s
  | .decaySweepStart dt p => Sys2Proof.Machine.execDecaySweepStart dt p s
  | .renderStart dt p => Sys2Proof.Machine.execRenderStart dt p s
  | .renderComplete dt p => Sys2Proof.Machine.execRenderComplete dt p s
  | .verticalBlankingStart dt => Sys2Proof.Machine.execVerticalBlankingStart dt s
  | .activeLineStart dt => Sys2Proof.Machine.execActiveLineStart dt s
  | .pixelClockLock dt => Sys2Proof.Machine.execPixelClockLock dt s
  | .hpdRise dt edid dpcd => Sys2Proof.Machine.execHpdRise dt edid dpcd s
  | .irqHpd dt locked => Sys2Proof.Machine.execIrqHpd dt locked s
  | .hpdLoss dt => Sys2Proof.Machine.execHpdLoss dt s
  | .dpLinkTrainingEnd dt ok => Sys2Proof.Machine.execDpLinkTrainingEnd dt ok s
  | .tpNop dt n => Sys2Proof.Machine.execTpNop dt n s
  | .tpHalt dt n => Sys2Proof.Machine.execTpHalt dt n s
  | .tpWait dt n mask => Sys2Proof.Machine.execTpWait dt n mask s
  | .waitWake dt n => Sys2Proof.Machine.execWaitWake dt n s
  | .tpSig dt n code => Sys2Proof.Machine.execTpSig dt n code s
  | .tpAdd dt n => Sys2Proof.Machine.execTpAdd dt n s
  | .tpSub dt n => Sys2Proof.Machine.execTpSub dt n s
  | .tpAnd dt n => Sys2Proof.Machine.execTpAnd dt n s
  | .tpOr dt n => Sys2Proof.Machine.execTpOr dt n s
  | .tpXor dt n => Sys2Proof.Machine.execTpXor dt n s
  | .tpShl dt n => Sys2Proof.Machine.execTpShl dt n s
  | .tpShr dt n => Sys2Proof.Machine.execTpShr dt n s
  | .tpSar dt n => Sys2Proof.Machine.execTpSar dt n s
  | .tpMul dt n => Sys2Proof.Machine.execTpMul dt n s
  | .tpCmp dt n => Sys2Proof.Machine.execTpCmp dt n s
  | .tpMov dt n => Sys2Proof.Machine.execTpMov dt n s
  | .tpLi dt n => Sys2Proof.Machine.execTpLi dt n s
  | .tpLih dt n => Sys2Proof.Machine.execTpLih dt n s
  | .tpLd dt n => Sys2Proof.Machine.execTpLd dt n s
  | .tpSt dt n => Sys2Proof.Machine.execTpSt dt n s
  | .tpStacc dt n => Sys2Proof.Machine.execTpStacc dt n s
  | .tpMovp dt n => Sys2Proof.Machine.execTpMovp dt n s
  | .tpMovb dt n => Sys2Proof.Machine.execTpMovb dt n s
  | .tpMovl dt n => Sys2Proof.Machine.execTpMovl dt n s
  | .tpMvp dt n => Sys2Proof.Machine.execTpMvp dt n s
  | .tpMvb dt n => Sys2Proof.Machine.execTpMvb dt n s
  | .tpMvl dt n => Sys2Proof.Machine.execTpMvl dt n s
  | .tpAddp dt n => Sys2Proof.Machine.execTpAddp dt n s
  | .tpCmac4 dt n => Sys2Proof.Machine.execTpCmac4 dt n s
  | .tpCmac1 dt n => Sys2Proof.Machine.execTpCmac1 dt n s
  | .tpClra dt n => Sys2Proof.Machine.execTpClra dt n s
  | .tpAdda dt n => Sys2Proof.Machine.execTpAdda dt n s
  | .tpMva dt n => Sys2Proof.Machine.execTpMva dt n s
  | .tpBr dt n => Sys2Proof.Machine.execTpBr dt n s
  | .tpJal dt n => Sys2Proof.Machine.execTpJal dt n s
  | .tpJr dt n => Sys2Proof.Machine.execTpJr dt n s
  | .tpRti dt n => Sys2Proof.Machine.execTpRti dt n s
  | .tpRep dt n => Sys2Proof.Machine.execTpRep dt n s
  | .tpPop dt n => Sys2Proof.Machine.execTpPop dt n s
  | .tpPush dt n => Sys2Proof.Machine.execTpPush dt n s
  | .tpQcntFeed dt n => Sys2Proof.Machine.execTpQcntFeed dt n s
  | .tpQcntResult dt n => Sys2Proof.Machine.execTpQcntResult dt n s
  | .tpMfc dt n => Sys2Proof.Machine.execTpMfc dt n s
  | .tpMtc dt n => Sys2Proof.Machine.execTpMtc dt n s
  | .tpBindClr dt n => Sys2Proof.Machine.execTpBindClr dt n s
  | .tpTcmpHiWrite dt n => Sys2Proof.Machine.execTpTcmpHiWrite dt n s
  | .tpRdt dt n => Sys2Proof.Machine.execTpRdt dt n s
  | .interruptEntry dt n => Sys2Proof.Machine.execInterruptEntry dt n s
  | .timerCompare dt n => Sys2Proof.Machine.execTimerCompare dt n s
  | .feedDescriptorPush dt n f => Sys2Proof.Machine.execFeedDescriptorPush dt n f s
  | .markerEdge dt n falling sub => Sys2Proof.Machine.execMarkerEdge dt n falling sub s
  | .markerEntryPush dt n => Sys2Proof.Machine.execMarkerEntryPush dt n s
  | .intervalTimeout dt n => Sys2Proof.Machine.execIntervalTimeout dt n s
  | .queueDrain dt c => Sys2Proof.Machine.execQueueDrain dt c s
  | .packetStart dt r => Sys2Proof.Machine.execPacketStart dt r s
  | .flushTimer dt c => Sys2Proof.Machine.execFlushTimer dt c s
  | .publicationStart dt c => Sys2Proof.Machine.execPublicationStart dt c s
  | .flushReadComplete dt c => Sys2Proof.Machine.execFlushReadComplete dt c s
  | .blockTransferComplete dt ch data errs => Sys2Proof.Machine.execBlockTransferComplete dt ch data errs s
  | .relayChunkSubmit dt st => Sys2Proof.Machine.execRelayChunkSubmit dt st s
  | .nvmeCompletion dt slot cid status => Sys2Proof.Machine.execNvmeCompletion dt slot cid status s
  | .nvmeCommandTimeout dt slot cid => Sys2Proof.Machine.execNvmeCommandTimeout dt slot cid s
  | .relayDrainComplete dt st => Sys2Proof.Machine.execRelayDrainComplete dt st s
  | .sensorConversion dt temps rails => Sys2Proof.Machine.execSensorConversion dt temps rails s
  | .calSweepEnd dt => Sys2Proof.Machine.execCalSweepEnd dt s
  | .logFlush dt => Sys2Proof.Machine.execLogFlush dt s
  | .mcWatchdogRestart dt => Sys2Proof.Machine.execMcWatchdogRestart dt s
  | .updateIdleTimeout dt => Sys2Proof.Machine.execUpdateIdleTimeout dt s
  | .trialReadyTimeout dt => Sys2Proof.Machine.execTrialReadyTimeout dt s
  | .trialSuccess dt => Sys2Proof.Machine.execTrialSuccess dt s
  | .firmwareFaultRestart dt => Sys2Proof.Machine.execFirmwareFaultRestart dt s
  | .stageFailureRestart dt => Sys2Proof.Machine.execStageFailureRestart dt s
  | .standbyPowerUp dt rcvLow shdnLow => Sys2Proof.Machine.execStandbyPowerUp dt rcvLow shdnLow s
  | .railEnable dt => Sys2Proof.Machine.execRailEnable dt s
  | .railWindowTimeout dt => Sys2Proof.Machine.execRailWindowTimeout dt s
  | .shdnNLow dt => Sys2Proof.Machine.execShdnNLow dt s
  | .shutdownComplete dt => Sys2Proof.Machine.execShutdownComplete dt s
  | .shdnNHigh dt => Sys2Proof.Machine.execShdnNHigh dt s
  | .mrstNLow dt => Sys2Proof.Machine.execMrstNLow dt s
  | .mrstNRelease dt => Sys2Proof.Machine.execMrstNRelease dt s
  | .refclkPresent dt => Sys2Proof.Machine.execRefclkPresent dt s
  | .refclkLost dt => Sys2Proof.Machine.execRefclkLost dt s
  | .mdllLock dt ok => Sys2Proof.Machine.execMdllLock dt ok s
  | .synthesiserLock dt n ok => Sys2Proof.Machine.execSynthesiserLock dt n ok s
  | .bringupStageEnd dt ok bad => Sys2Proof.Machine.execBringupStageEnd dt ok bad s
  | .perstAssert dt => Sys2Proof.Machine.execPerstAssert dt s
  | .perstRelease dt => Sys2Proof.Machine.execPerstRelease dt s
  | .trstNLow dt => Sys2Proof.Machine.execTrstNLow dt s
  | .bypass dt => Sys2Proof.Machine.execBypass dt s
  | .idcode dt => Sys2Proof.Machine.execIdcode dt s
  | .samplePreload dt v => Sys2Proof.Machine.execSamplePreload dt v s
  | .extest dt v => Sys2Proof.Machine.execExtest dt v s
  | .clamp dt => Sys2Proof.Machine.execClamp dt s
  | .highz dt => Sys2Proof.Machine.execHighz dt s
  | .smbusBlockRead dt cmd => Sys2Proof.Machine.execSmbusBlockRead dt cmd s
  | .smbusAlertResponse dt => Sys2Proof.Machine.execSmbusAlertResponse dt s
  | .jesdLaneAligned dt pad => Sys2Proof.Machine.execJesdLaneAligned dt pad s
  | .syncWordCrcError dt k => Sys2Proof.Machine.execSyncWordCrcError dt k s
  | .syncWordSlot dt k => Sys2Proof.Machine.execSyncWordSlot dt k s
  | .standbyPowerLoss dt => Sys2Proof.Machine.execStandbyPowerLoss dt s
  | .pcieLinkUp dt rate10 width => Sys2Proof.Machine.execPcieLinkUp dt rate10 width s
  | .configurationRequest r => Sys2Proof.Machine.execConfigurationRequest r s
  | .periscopeRefresh dt => Sys2Proof.Machine.execPeriscopeRefresh dt s
  | .triggerPulseEnd dt n => Sys2Proof.Machine.execTriggerPulseEnd dt n s
  | .overRangeSample dt n code => Sys2Proof.Machine.execOverRangeSample dt n code s
  | .smbusWrite dt => Sys2Proof.Machine.execSmbusWrite dt s
  | .earlyRead dt addr => Sys2Proof.Machine.execEarlyRead dt addr s

end Sys2Proof.Machine
end

