-- ==== Sys2Proof/Safety.lean ====
section
/-!
DEFINITION. What counts as a safe run, and the words in which the statements speak of commands: the row of a mailbox command, the taking
of one, the commands that reach the memories, and those that can meet a PR field.
-/

namespace Sys2Proof.Machine

/-! ### Runs -/

/-- The states that a run passes through, each answered as the next of the one before. -/
inductive Reaches (s : State) : State → Prop where
  | refl : Reaches s s
  | step {t u : State} : Reaches s t → step t = .next u → Reaches s u

/-- A safe run: no state of it stops. -/
def Safe (s : State) : Prop := ∀ t, Reaches s t → ∃ u, step t = .next u

/-! ### States with another device -/

/-- The state with its device replaced: queue and memories as they were. -/
def State.onto (s : State) (d : Dev) : State := { s with dev := d }

/-- The state with its device and memories replaced. -/
def State.ontoAll (s : State) (x : Dev × Mems) : State := { s with dev := x.1, mem := x.2 }

/-- The device `dt` ticks on. -/
def State.after (s : State) (dt : Nat) : Dev := s.dev.pass dt

/-- The device `dt` ticks on, with the entry `e` at the head of ring `q` taken and its parameter block read. -/
def State.taken (s : State) (dt q : Nat) (e : Entry) : Dev := ((s.dev.pass dt).take q).readBlock e

/-! ### Mailbox commands -/

/-- A mailbox command: its operands, its form and the checks of its own parameters. -/
structure MailRow where
  dt : Nat
  q : Nat
  e : Entry
  form : CmdForm
  bad : Dev → List Word → List (Nat × Bool)

/-- The row of a command of R90; none for what is no mailbox command. -/
def mailboxRow : Instr → Option MailRow
  | .nop dt q e => some ⟨dt, q, e, formNop, noChecks⟩
  | .describe dt q e => some ⟨dt, q, e, formDescribe, noChecks⟩
  | .ringCreate dt q e => some ⟨dt, q, e, formRingCreate, ringCreateChecks⟩
  | .ringDelete dt q e => some ⟨dt, q, e, formRingDelete, noChecks⟩
  | .eventRingSet dt q e => some ⟨dt, q, e, formEventRingSet, eventRingSetChecks⟩
  | .eventRoute dt q e => some ⟨dt, q, e, formEventRoute, eventRouteChecks⟩
  | .timeRead dt q e => some ⟨dt, q, e, formTimeRead, noChecks⟩
  | .timeRefSet dt q e => some ⟨dt, q, e, formTimeRef, timeRefChecks⟩
  | .launchAt dt q e => some ⟨dt, q, e, (formLaunch e), (launchChecks e.ptr)⟩
  | .launchBind dt q e => some ⟨dt, q, e, (formLaunch e), (launchChecks e.ptr)⟩
  | .launchFire dt q e => some ⟨dt, q, e, (formLaunch e), (launchChecks e.ptr)⟩
  | .launchCancel dt q e => some ⟨dt, q, e, formCancel, noChecks⟩
  | .barrier dt q e => some ⟨dt, q, e, formBarrier, barrierChecks⟩
  | .snapshot dt q e => some ⟨dt, q, e, formSnapshot, snapshotChecks⟩
  | .snapshotJoin dt q e => some ⟨dt, q, e, formSnapshot, snapshotChecks⟩
  | .snapshotFire dt q e => some ⟨dt, q, e, formSnapshot, snapshotChecks⟩
  | .resetAt dt q e => some ⟨dt, q, e, formReset, resetChecks⟩
  | .broadcast dt q e => some ⟨dt, q, e, formBroadcast, broadcastChecks⟩
  | .apertureStage dt q e => some ⟨dt, q, e, formStage, noChecks⟩
  | .apertureAdmit dt q e => some ⟨dt, q, e, formAdmit, noChecks⟩
  | .apertureHalt dt q e => some ⟨dt, q, e, formHalt, haltChecks⟩
  | .apertureRelease dt q e => some ⟨dt, q, e, formRelease, noChecks⟩
  | .apertureQuery dt q e => some ⟨dt, q, e, formQuery, noChecks⟩
  | .apertureWait dt q e => some ⟨dt, q, e, formWait, waitChecks⟩
  | .captureArm dt q e => some ⟨dt, q, e, formArm, noChecks⟩
  | .captureTrigger dt q e => some ⟨dt, q, e, formTrigger, noChecks⟩
  | .captureFreeze dt q e => some ⟨dt, q, e, formFreeze, noChecks⟩
  | .recordList dt q e => some ⟨dt, q, e, formRecordList, recordListChecks⟩
  | .blockRead dt q e => some ⟨dt, q, e, (formBlock false), (blockDmaChecks false)⟩
  | .blockWrite dt q e => some ⟨dt, q, e, (formBlock true), (blockDmaChecks true)⟩
  | .tpLoad dt q e => some ⟨dt, q, e, formTpLoad, (tpLoadChecks e.target e.inLen)⟩
  | .tpStart dt q e => some ⟨dt, q, e, formTpStart, tpStartChecks⟩
  | .tpResume dt q e => some ⟨dt, q, e, formTpStart, tpStartChecks⟩
  | .tpStop dt q e => some ⟨dt, q, e, formTpStop, noChecks⟩
  | .displayMode dt q e => some ⟨dt, q, e, formDisplayMode, displayModeChecks⟩
  | .layerSet dt q e => some ⟨dt, q, e, formLayerSet, layerSetChecks⟩
  | .layerFlip dt q e => some ⟨dt, q, e, formLayerFlip, (layerFlipChecks e.target)⟩
  | .relayAttach dt q e => some ⟨dt, q, e, formAttach, attachChecks⟩
  | .relayDetach dt q e => some ⟨dt, q, e, formDetach, noChecks⟩
  | .calSweep dt q e => some ⟨dt, q, e, formCalSweep, calSweepChecks⟩
  | .calApply dt q e => some ⟨dt, q, e, formCalApply, calApplyChecks⟩
  | .sensorRead dt q e => some ⟨dt, q, e, formSensorRead, noChecks⟩
  | .logRead dt q e => some ⟨dt, q, e, formLogRead, logReadChecks⟩
  | .spareStatus dt q e => some ⟨dt, q, e, formSpareStatus, noChecks⟩
  | .sparePolicy dt q e => some ⟨dt, q, e, formSparePolicy, sparePolicyChecks⟩
  | .fwUpdateBegin dt q e => some ⟨dt, q, e, formBegin, beginChecks⟩
  | .fwUpdateData dt q e => some ⟨dt, q, e, formData, (fun d b => if 1048584 < e.inLen then [] else dataChecks d b)⟩
  | .fwUpdateCommit dt q e => some ⟨dt, q, e, formCommit, noChecks⟩
  | .attest dt q e => some ⟨dt, q, e, formAttest, attestChecks⟩
  | .identityRead dt q e => some ⟨dt, q, e, formIdentity, noChecks⟩
  | _ => none

/-- A command that the device's mode or its ring does not allow: the status of R85's first two checks. -/
def CmdForm.barred (f : CmdForm) (d : Dev) (q : Nat) : Option Nat :=
  if d.fw.recovery && !f.recovery then some efsOpcode
  else if f.ring0 && decide (q ≠ 0) then some efsAccess
  else none

/-- `dt` ticks on, firmware takes this entry from ring `q`, and it passes every check of R85 up to its parameters. -/
def State.takes (s : State) (dt : Nat) (f : CmdForm) (q : Nat) (e : Entry) (bad : Dev → List Word → List (Nat × Bool)) : Bool :=
  decide ((s.after dt).served = some q) && decide (e.opcode = f.opcode) && (f.barred (s.after dt) q).isNone && (f.badEntry e).isNone &&
    (firstBad (f.inlineRest e ++ bad (s.taken dt q e) e.block)).isNone

/-- Two devices agree outside the mailbox: rings, what is sent, the pending bits of MSI-X, and MBX_MAX_NS (R551) with the note of its change. -/
def Dev.sameButMailbox (a b : Dev) : Prop :=
  b = { a with
    rings := b.rings, rrRing := b.rrRing, rrUsed := b.rrUsed, out := b.out, pcie := { a.pcie with pba := b.pcie.pba },
    regs := b.regs, rcNow := b.rcNow } ∧ ∀ addr, addr ≠ 0x5C0008 → b.reg addr = a.reg addr

/-- No acquisition of these apertures is provisional: no command on them is held (R81). -/
abbrev Dev.settled (d : Dev) (as_ : List Nat) : Prop := as_.any (fun a => (d.ap a).acq.prov.isSome) = false

/-- LAUNCH_AT past its parameters: no aperture's acquisition is provisional, no clash of identifiers, room among the pending launches, apertures that
may be launched and are placed. -/
def State.launchPasses (s : State) (dt q : Nat) (e : Entry) (mode : Nat) (placed : Dev) : Prop :=
  let d := s.taken dt q e
  s.takes dt (formLaunch e) q e (launchChecks e.ptr) = true ∧ d.settled (launchList e.block) ∧ fldAt e.block 0x08 1 0 = mode ∧
    d.launchOf e.target = none ∧ d.glob.launches.all (fun l => decide (l.id ≠ e.target)) = true ∧ d.glob.launches.length < 256 ∧
    (mode = 2 → d.scopeReady (fldAt e.block 0x08 3 2) = true) ∧
    d.notLaunchable (launchList e.block) = none ∧ d.placeAgain (launchList e.block).eraseDups = .ok placed

/-! ### Sync words -/

/-- A word on link `k` is acted on: the link is up, and the word is no repeat of one acted on already (R123). -/
def Dev.hears (d : Dev) (k : Nat) (w : SyncWord) : Bool := (d.link k).up && !(w.repeated && (d.link k).rxSeen.contains (w.seq % 256))

/-- The device with the word noted as good, and its SEQ kept among those acted on lately. -/
def Dev.heard (d : Dev) (k : Nat) (w : SyncWord) : Dev :=
  let g := d.goodWord k
  g.setLink k { g.link k with rxSeen := (w.seq % 256 :: (g.link k).rxSeen).take 64 }

/-! ### Issue by a trace processor -/

/-- What the issue of an instruction of processor `n` finds: results due by now are written, stores due have reached local memory, and an
IE that was to rise with this instruction has risen (R464, R469). -/
def State.tpFinds (s : State) (dt n : Nat) : TpRes :=
  let d := s.after dt
  let x := tpStores n d.cyc (((d.tp n).timer d.now).settle d.cyc) d s.mem
  let t := { x.1 with ie := x.1.ie || x.1.ieNext, ieNext := false }
  { dev := (x.2.1.setTp n x.1).setTp n t, mem := x.2.2, tp := t }

/-- Processor `n` issues the word `w` now: it runs and waits for nothing, no interrupt is taken, the word at PC is `w` with no byte marked,
and `w` is an instruction of R474 that may stand there (R465, R466, R468, R472). -/
def State.issues (s : State) (dt n : Nat) (w : Word) : Bool :=
  let d := s.after dt
  let t := (d.tp n).timer d.now
  let r := s.tpFinds dt n
  decide (n ≤ 31 ∧ t.state = 2 ∧ t.wait = none ∧ t.nextAt ≤ d.cyc) && !t.interrupts && (tpMarked r.dev n r.tp.pc 4).isNone &&
    decide (BitVec.ofNat 32 (tpLoad r.mem n r.tp.pc 4) = w) && iListed w && !(r.tp.heldOff && iPlaced w)

/-- What is left when an instruction has had the effect `r`: PC moves on, the next issue is two ticks later, the instruction is counted, and
a processor that was asked to stop stops where the boundary is not held off (R465, R466, R486). -/
def State.tpLeft (s : State) (dt n : Nat) (r : TpRes) : State :=
  let c := (s.after dt).cyc
  let t := { (r.tp.advance).busy c with nextAt := c + 2 }
  let d := (r.dev.setTp n t).bump64 (tpReg n 0x10)
  s.ontoAll (if t.stopReq && !t.heldOff && decide (t.state = 2) then (d.setTp n { t with state := 1 }).tpStopped n else d, r.mem)


/-! ### Commands and the memories -/

/-- The commands that can change capture memory or the local memories of trace processors. -/
def reachesMemory : Instr → Bool
  | .ppsEdge .. | .syncLinkUp .. | .leftoverSlot .. | .renderStart .. | .packetStart .. | .queueDrain .. | .flushReadComplete .. | .apertureHaltTick ..
  | .launchTick .. | .firmwareFaultRestart .. | .stageFailureRestart .. | .mrstNLow .. | .standbyPowerLoss ..
  | .railWindowTimeout .. | .shutdownComplete .. | .refclkLost .. | .mdllLock .. | .resetTick .. | .feedDescriptorPush ..
  | .tpAdd .. | .tpSub .. | .tpAnd .. | .tpOr .. | .tpXor .. | .tpMul .. | .tpCmp .. | .tpMov .. | .tpLi .. | .tpLih ..
  | .tpLd .. | .tpSt .. | .tpStacc .. | .tpMovp .. | .tpMovb .. | .tpMovl .. | .tpMvp .. | .tpMvb .. | .tpMvl ..
  | .tpAddp .. | .tpCmac4 .. | .tpCmac1 .. | .tpClra .. | .tpAdda .. | .tpBr .. | .tpJal .. | .tpJr .. | .tpRti ..
  | .tpRep .. | .tpPop .. | .tpQcntFeed .. | .tpQcntResult .. | .tpMfc .. | .tpTcmpHiWrite .. | .tpRdt ..
  | .recordComplete .. | .apertureCandidate .. | .captureFreezeEffect .. | .entryWrite .. | .captureScrubRead .. | .facetScrubRead ..
  | .sensorConversion .. | .bringupStageEnd .. | .standbyPowerUp .. | .blockTransferComplete ..
  | .hostReadErrorCompletion .. | .hostReadTimeout .. | .wearEvaluation .. | .tpLoad .. | .tpShl .. | .tpShr ..
  | .tpSar .. | .tpMva .. | .tpNop .. | .tpHalt .. | .tpWait .. | .tpSig .. | .tpPush .. | .tpMtc .. | .tpBindClr .. => true
  | _ => false

/-- The commands that write registers of a map, where a field marked PR can be met. -/
def meetsPr : Instr → Bool
  | .sqDb .. | .cqDb .. | .evqDb .. | .ring0Enable .. | .ring0Disable .. | .indDataWrite .. | .registerWrite .. => true
  | _ => false

end Sys2Proof.Machine
end

