-- ==== Sys2Proof/Certificates/Slice0/Obligations.lean ====
section
/-!
DEFINITION. The statements for the provers: sixty, one per family of commands or kind of state. Each names, for every command it is about, a next state that
the command answers under hypotheses on the state and the operands alone.
-/

open Sys2Proof Sys2Proof.Machine

/-- A step runs the command at the front of the queue, on the state whose queue is the rest. From 02_host_interface.md. -/
def Obligations.StepRunsFrontCommand : Prop :=
  ∀ (c : Instr) (rest : List Instr) (s : State), step { s with pending := c :: rest } = exec c { s with pending := rest }

/-- On an empty queue one tick passes and nothing else happens (the model's choice: assumption 1). From 03_timebase_launch.md. Rests also on the model's
own choice or reading: log 1. -/
def Obligations.EmptyQueuePassesOneTick : Prop :=
  ∀ s : State, s.pending = [] → step s = .next (s.onto (s.after 1)) ∧ (s.after 1).clk.time = s.dev.clk.time + 1 ∧
    (s.dev.clk.run = true → (s.after 1).clk.count = s.dev.clk.count + 1) ∧ (s.dev.clk.run = false → (s.after 1).clk.count = s.dev.clk.count)

/-- No command touches the commands that wait behind it. The commands that do not reach the memories leave every byte of both as it was. From
95_what_each_step_holds.md. -/
def Obligations.CommandsKeepQueueAndMemories : Prop :=
  (∀ (i : Instr) (s t : State), exec i s = .next t → t.pending = s.pending) ∧
  (∀ (i : Instr) (s t : State), reachesMemory i = false → exec i s = .next t →
      t.mem = s.mem ∧ ∀ a, t.mem.cap.read a = s.mem.cap.read a ∧ t.mem.tp.read a = s.mem.tp.read a)

/-- Every command but the seven kinds of register write answers a next state in every state; those stop only at a field marked PR. A write that changes a
field marked PR stops the model: the spec gives the device no protection there. From 00_scope.md. Rests also on the model's own choice or reading: log
13. -/
def Obligations.OnlyPrWritesStop : Prop :=
  (∀ (i : Instr) (s : State),
      (meetsPr i = false → ∃ t, exec i s = .next t) ∧
      (meetsPr i = true → (∃ t, exec i s = .next t) ∨ ∃ a, exec i s = .fault (.undefinedPrWrite a))) ∧
  (∀ (dt off : Nat) (v : Word) (s : State),
      let d := s.after dt
      d.fw.ready = true → off < 0x2000 → off ≠ 0x1C → d.breaksPr off v = true →
        exec (.registerWrite dt (.bar0 off) [v]) s = .fault (.undefinedPrWrite off))

/-- Every step keeps both memories canonical: addresses rise strictly and no byte listed is 0. From 09_capture_memory.md; 12_trace_processors.md. Rests
also on the model's own choices or readings: log 5, 6. -/
def Obligations.StepKeepsMemoriesCanonical : Prop :=
  ∀ s t : State, s.mem.wf = true → step s = .next t → t.mem.wf = true

/-- Right after standby power-up: stage 0x00, not READY, no ring, no aperture, memories empty, clocks not yet running, and no command waits. After reset
both memories are canonical: they list nothing. From 17_power_clocks_bringup.md. Rests also on the model's own choices or readings: log 5, 6, 14. -/
def Obligations.ResetIsStandbyPowerUp : Prop :=
  (State.reset.pending = [] ∧ State.reset.mem = {} ∧ State.reset.dev.fw.stage = 0x00 ∧ State.reset.dev.fw.ready = false ∧ State.reset.dev.rings = [] ∧ State.reset.dev.aps = [] ∧ State.reset.dev.clk.run = false ∧
      State.reset.dev.pwr.standby = true ∧ State.reset.dev.pwr.enables = 0 ∧ State.reset.dev.mc.log = []) ∧
  (State.reset.mem.wf = true ∧ State.reset.mem.cap = [] ∧ State.reset.mem.tp = [])

/-- Every mailbox command is checked in one order: whether firmware takes it now, its opcode, its opcode in the present mode, its ring, its entry, its
parameters, of which a block by pointer is read first. The first failure completes it with its status and has no other effect. An entry with the
opcode of another command is left to that command. From 02_host_interface.md. Rests also on the model's own choices or readings: log 2, 18. -/
def Obligations.MailboxChecksInOrder : Prop :=
  ∀ (i : Instr) (r : MailRow) (s : State), mailboxRow i = some r →
    let d := s.after r.dt
    let answer (w : Answer) : State := s.onto (r.form.reply (d.take r.q) r.q r.e w)
    (d.served ≠ some r.q → exec i s = .next (s.onto d)) ∧
    (d.served = some r.q → r.e.opcode ≠ r.form.opcode →
      (r.e.opcode ∈ listedOpcodes → exec i s = .next (s.onto d)) ∧
      (r.e.opcode ∉ listedOpcodes → exec i s = .next (s.onto ((d.take r.q).answer r.q r.e { status := efsOpcode })))) ∧
    (d.served = some r.q → r.e.opcode = r.form.opcode →
      (d.fw.recovery = true → r.form.recovery = false → exec i s = .next (answer { status := efsOpcode })) ∧
      ((d.fw.recovery = true → r.form.recovery = true) →
        (r.form.ring0 = true → r.q ≠ 0 → exec i s = .next (answer { status := efsAccess })) ∧
        ((r.form.ring0 = true → r.q = 0) →
          (∀ off, r.form.badEntry r.e = some off →
            exec i s = .next (answer { status := efsParam, detail := 1, result0 := BitVec.ofNat 64 off })) ∧
          (r.form.badEntry r.e = none →
            ∀ off, firstBad (r.form.inlineRest r.e ++ r.bad (s.taken r.dt r.q r.e) r.e.block) = some off →
              exec i s = .next (s.onto (r.form.reply (s.taken r.dt r.q r.e) r.q r.e
                { status := efsParam, detail := 0, result0 := BitVec.ofNat 64 off }))))))

/-- Taking a command advances the head of its ring by one entry, modulo the ring's depth, and changes no other ring and nothing outside the mailbox. The
snooped read of the entry goes out unless it is out already. A completion goes to the CQ's tail with the ring's PHASE, while the ring is in use, the
queue has room and no event record of the tick is to go before it; the tail moves on, and at the end of the queue it returns to 0 and PHASE turns.
While the CQ is full the completion is held, nothing is sent, and the ring has no command to take. From 02_host_interface.md. -/
def Obligations.TakingAndCompleting : Prop :=
  (∀ (d : Dev) (q : Nat),
      let r := d.ring q
      ((d.take q).ring q).sqHead = (r.sqHead + 1) % 2 ^ r.sqLog2 ∧ (d.take q).ring q = r.taken ∧
      (∀ k, k ≠ q → (d.take q).ring k = d.ring k) ∧ d.sameButMailbox (d.take q) ∧
      (d.take q).out = d.out ++ (if r.readAt.isSome then [] else [.read (4000 + q) (r.sqBase + BitVec.ofNat 64 (64 * r.sqHead)) 64 .snooped])) ∧
  (∀ (d : Dev) (q : Nat) (c : Completion), (d.ring q).inUse = true → (d.ring q).cqFull = false → d.ev.due = [] → c.noirq = true →
      let r := d.ring q
      let t := d.post q c
      t.out = d.out ++ [.write (r.cqBase + BitVec.ofNat 64 (32 * r.cqTail)) (c.dwords r.phase) .snooped] ∧
      (r.cqTail + 1 ≠ 2 ^ r.cqLog2 → (t.ring q).cqTail = r.cqTail + 1 ∧ (t.ring q).phase = r.phase) ∧
      (r.cqTail + 1 = 2 ^ r.cqLog2 → (t.ring q).cqTail = 0 ∧ (t.ring q).phase = !r.phase) ∧
      d.sameButMailbox t ∧ ∀ k, k ≠ q → t.ring k = d.ring k) ∧
  (∀ (d : Dev) (q : Nat) (c : Completion), (d.ring q).inUse = true → (d.ring q).cqFull = true →
      (d.post q c).out = d.out ∧ ((d.post q c).ring q).held = some c ∧ (d.post q c).waiting q = false ∧ (d.post q c).served ≠ some q)

/-- The commands that report: NOP completes; the others write their block to the OUT buffer, as far as it goes, and complete. Nothing else of the device
changes. The commands that list: RECORD_LIST the records of an aperture that is not EMPTY, LOG_READ the log from a SEQ on. RING_CREATE puts the ring
that its block describes into use, RING_DELETE marks it for deletion while its own command waits, EVENT_RING_SET and EVENT_ROUTE set the event ring
and the routes. A ring already in use, or not in use, is EFS_STATE. From 02_host_interface.md; 08_acquisition.md; 16_management_trust.md. -/
def Obligations.ReportsListsAndRings : Prop :=
  (∀ (dt q : Nat) (e : Entry) (s : State),
      let d := s.taken dt q e
      (s.takes dt formNop q e noChecks = true → exec (.nop dt q e) s = .next (s.onto (formNop.reply d q e {}))) ∧
      (s.takes dt formTimeRead q e noChecks = true →
        exec (.timeRead dt q e) s = .next (s.onto (formTimeRead.reply (d.writeOutE e d.timeWords) q e {}))) ∧
      (s.takes dt formSensorRead q e noChecks = true →
        exec (.sensorRead dt q e) s = .next (s.onto (formSensorRead.reply (d.writeOutE e d.sensorWords) q e {}))) ∧
      (s.takes dt formIdentity q e noChecks = true →
        exec (.identityRead dt q e) s = .next (s.onto (formIdentity.reply (d.identityWords.2.writeOutE e d.identityWords.1) q e {}))) ∧
      (s.takes dt formSpareStatus q e noChecks = true →
        exec (.spareStatus dt q e) s = .next (s.onto (formSpareStatus.reply (d.writeOutE e d.spareWords) q e
          { result0 := BitVec.ofNat 64 d.spares.retired.length }))) ∧
      (s.takes dt formQuery q e noChecks = true →
        exec (.apertureQuery dt q e) s = .next (s.onto (formQuery.reply (d.writeOutE e (d.queryWords e.target)) q e
          { result0 := BitVec.ofNat 64 (4 * (d.queryWords e.target).length),
            result1 := BitVec.ofNat 64 (((d.queryWords e.target).length - 20) / 2) }))) ∧
      (s.takes dt formDescribe q e noChecks = true →
        let rs := fitWhole e.outLen d.describeRecords
        exec (.describe dt q e) s = .next (s.onto (formDescribe.reply (d.writeOutE e rs.flatten) q e
          { result0 := BitVec.ofNat 64 rs.length, result1 := BitVec.ofNat 64 (4 * rs.flatten.length) })))) ∧
  (∀ (dt q : Nat) (e : Entry) (s : State),
      let d := s.taken dt q e
      (s.takes dt formRecordList q e recordListChecks = true →
        ((d.ap e.target).state ≠ 0 →
          let p := d.ap e.target
          let rs := p.recordsFrom e.block e.outLen
          ∃ last, exec (.recordList dt q e) s = .next (s.onto (formRecordList.reply (d.writeOutE e (p.listHeader ++ (rs.map (·.2)).flatten)) q e
            { result0 := BitVec.ofNat 64 rs.length, result1 := BitVec.ofNat 64 last })) ∧
            (rs = [] → last = (dwAt e.block 0).toNat) ∧ (∀ r, rs.getLast? = some r → last = r.1.recno + 1)) ∧
        ((d.ap e.target).state = 0 →
          exec (.recordList dt q e) s = .next (s.onto (formRecordList.reply d q e (d.stateError e.target))))) ∧
      (s.takes dt formLogRead q e logReadChecks = true →
        let from_ := (dwAt e.block 0x00).toNat
        let rs := (d.mc.records.filter (fun r => decide (from_ ≤ r.seq))).take (min (fldAt e.block 0x04 15 0) (e.outLen / 64))
        ∃ after, exec (.logRead dt q e) s = .next (s.onto (formLogRead.reply (d.writeOutE e (rs.flatMap LogRec.words)) q e
          { result0 := BitVec.ofNat 64 rs.length, result1 := BitVec.ofNat 64 after })) ∧
          (rs = [] → after = from_) ∧ (∀ r, rs.getLast? = some r → after = (r.seq + 1) % 2 ^ 32))) ∧
  (∀ (dt q : Nat) (e : Entry) (s : State),
      let d := s.taken dt q e
      (s.takes dt formRingCreate q e ringCreateChecks = true →
        ((d.ring e.target).inUse = false →
          exec (.ringCreate dt q e) s = .next (s.onto (formRingCreate.reply (d.setRing e.target (ringOfBlock e.block)) q e {}))) ∧
        ((d.ring e.target).inUse = true →
          exec (.ringCreate dt q e) s = .next (s.onto (formRingCreate.reply d q e { status := efsState })))) ∧
      (s.takes dt formRingDelete q e noChecks = true →
        ((d.ring e.target).inUse = true →
          let h := d.hold q 0x03 e (.ringDelete e.target)
          exec (.ringDelete dt q e) s =
            .next (s.onto (((h.setRing e.target { h.ring e.target with deleting := true }).abortWait e.target).ringSettled e.target))) ∧
        ((d.ring e.target).inUse = false →
          exec (.ringDelete dt q e) s = .next (s.onto (formRingDelete.reply d q e { status := efsState })))) ∧
      (s.takes dt formEventRingSet q e eventRingSetChecks = true →
        (bitAt e.block 0x08 16 = true →
          ∃ d', exec (.eventRingSet dt q e) s = .next (s.onto (formEventRingSet.reply d' q e {})) ∧
            d' = { d with ev := { d.ev with enabled := true, base := qAt e.block 0x00, log2 := fldAt e.block 0x08 4 0, head := 0, tail := 0, phase := true } }.flushBacklog) ∧
        (bitAt e.block 0x08 16 = false →
          exec (.eventRingSet dt q e) s = .next (s.onto (formEventRingSet.reply { d with ev := { d.ev with enabled := false } } q e {})))) ∧
      (s.takes dt formEventRoute q e eventRouteChecks = true →
        ∃ d', exec (.eventRoute dt q e) s = .next (s.onto (formEventRoute.reply d' q e {})) ∧
          d' = { d with ev := { d.ev with routes := d'.ev.routes } } ∧
          ∀ n, Tbl.look ({} : EvRoute) d'.ev.routes n =
            if fldAt e.block 0x00 10 0 ≤ n ∧ n < fldAt e.block 0x00 10 0 + fldAt e.block 0x00 27 16 then
              { record := bitAt e.block 0x04 8, irq := bitAt e.block 0x04 9, vector := fldAt e.block 0x04 7 0 }
            else Tbl.look ({} : EvRoute) d.ev.routes n))

/-- LAUNCH_AT in its three modes, under an identifier that is not pending: AT and FIRE make the apertures launch pending for a tick that keeps the lead of
their scope, BIND without one. A FIRE goes out over its scope and its command waits for the count. LAUNCH_CANCEL removes a pending launch whose tick
is far enough off: one of this device alone at once, with a count that waits for it; one that this device fired waits until its CANCEL is sent. With
no such launch it is EFS_STATE, and within the lead EFS_LEAD. From 03_timebase_launch.md. Rests also on the model's own choices or readings: log 17,
20, 109, 110. -/
def Obligations.LaunchCommandsTakeEffect : Prop :=
  (∀ (dt q : Nat) (e : Entry) (s : State) (placed : Dev) (t : Nat),
      let d := s.taken dt q e
      let id := e.target
      let as_ := (launchList e.block).eraseDups
      let scope := fldAt e.block 0x08 3 2
      (s.launchPasses dt q e 0 placed → d.leadTick (qAt e.block 0x00) scope = .ok t →
        exec (.launchAt dt q e) s = .next (s.onto ((formLaunch e).reply
          (((placed.putLaunch none { id := id, mode := 0, tick := some t, scope := scope, apertures := as_, check := d.now }).markPending id as_).avoidLaunches)
          q e { result0 := BitVec.ofNat 64 t }))) ∧
      (s.launchPasses dt q e 1 placed →
        exec (.launchBind dt q e) s = .next (s.onto ((formLaunch e).reply
          ((placed.putLaunch none { id := id, mode := 1, tick := none, scope := scope, apertures := as_ }).markPending id as_) q e {}))) ∧
      (s.launchPasses dt q e 2 placed → d.leadTick (qAt e.block 0x00) scope = .ok t →
        let l : Launch := { id := id, mode := 2, tick := some t, scope := scope, apertures := as_, origin := true, fired := false, check := d.now }
        exec (.launchFire dt q e) s = .next (s.onto (((((placed.putLaunch none l).markPending id as_).avoidLaunches).hold q 0x12 e (.fire id t)).sendScope scope
          { type := 0x10, id := id, arg := scope, tick := BitVec.ofNat 64 t } (fun d => d.onFire id scope t))))) ∧
  (∀ (dt q : Nat) (e : Entry) (s : State),
      let d := s.taken dt q e
      s.takes dt formCancel q e noChecks = true → d.settled (d.launchApsOf e.target) →
        (∀ l t, d.launchOf e.target = some l → l.tick = some t → l.origin = false → d.now + 150 ≤ t →
          let r := d.removeLaunch l
          let own (c : AppliedCount) : AppliedCount := if c.id = l.id ∧ c.tick = t ∧ c.snap = false then { c with waits := c.waits.filter (· != 99) } else c
          exec (.launchCancel dt q e) s = .next (s.onto (formCancel.reply
            (({ r with glob := { r.glob with applied := r.glob.applied.map own } } : Dev).closeGathers) q e {})) ∧
          l ∉ r.glob.launches) ∧
        (∀ l t, d.launchOf e.target = some l → l.tick = some t → l.origin = true → d.now + scopeLead l.scope ≤ t →
          exec (.launchCancel dt q e) s = .next (s.onto
            (((((d.removeLaunch l).dropGather l.id t).hold q 0x13 e (.cancel l.id t)).sendScope l.scope
              { type := 0x11, id := l.id, arg := l.scope, tick := BitVec.ofNat 64 t } (fun d => d)).settleCancels))) ∧
        (d.launchOf e.target = none → exec (.launchCancel dt q e) s = .next (s.onto (formCancel.reply d q e { status := efsState }))) ∧
        (∀ l t, d.launchOf e.target = some l → l.tick = some t → l.origin = false → t < d.now + 150 →
          exec (.launchCancel dt q e) s = .next (s.onto (formCancel.reply d q e
            { status := efsLead, result0 := BitVec.ofNat 64 t, result1 := BitVec.ofNat 64 (d.now + 150) }))))

/-- A launch whose lead is below the minimum of its scope is refused with EFS_LEAD, the tick asked for and the earliest that would do; it is applied
neither late nor in part: nothing but the mailbox changes. Rule R21. -/
def Obligations.ShortLeadIsRefused : Prop :=
  ∀ (dt q : Nat) (e : Entry) (s : State) (placed : Dev) (mode : Nat),
    let d := s.taken dt q e
    let least := d.now + scopeLead (fldAt e.block 0x08 3 2)
    s.launchPasses dt q e mode placed → (mode = 0 ∨ mode = 2) → qAt e.block 0x00 ≠ 0 → (qAt e.block 0x00).toNat < least →
      ∃ t, (∀ i, i = .launchAt dt q e ∨ i = .launchFire dt q e → exec i s = .next (s.onto t)) ∧
        t = (formLaunch e).reply d q e { status := efsLead, result0 := qAt e.block 0x00, result1 := BitVec.ofNat 64 least } ∧
        d.sameButMailbox t

/-- SNAPSHOT in its three modes, under an identifier that is not pending: it takes the next number, is scheduled, and its command waits. A FIRE goes out
over its scope. RESET_AT, BARRIER and BROADCAST: a device-scope RESET_AT is scheduled and its command waits; a device-scope BARRIER completes at once,
and one of a wider scope that is ready counts its own host's arrival and waits; a BROADCAST at the top of a ready scope queues its payload for the
links below and waits; it is not delivered before one sent earlier. From 03_timebase_launch.md. Rests also on the model's own choices or readings: log
17, 28, 29, 47, 49. -/
def Obligations.SnapshotAndScopeCommands : Prop :=
  (∀ (dt q : Nat) (e : Entry) (s : State) (t : Nat),
      let d := s.taken dt q e
      let id := e.target
      let scope := fldAt e.block 0x08 3 2
      let no := d.glob.snapNo
      let n : Dev := { d with glob := { d.glob with snapNo := no + 1 } }
      s.takes dt formSnapshot q e snapshotChecks = true → d.glob.snaps.all (fun x => decide (x.id ≠ id)) = true → d.glob.snaps.length < 256 →
        (fldAt e.block 0x08 1 0 = 0 → d.leadTick (qAt e.block 0x00) scope = .ok t →
          exec (.snapshot dt q e) s = .next (s.onto ((n.putSnap none { id := id, no := no, mode := 0, tick := some t }).hold q 0x15 e (.snapshot id no)))) ∧
        (fldAt e.block 0x08 1 0 = 1 →
          exec (.snapshotJoin dt q e) s =
            .next (s.onto ((n.putSnap none { id := id, no := no, mode := 1, tick := none, scope := scope, fired := false }).hold q 0x15 e (.snapshot id no)))) ∧
        (fldAt e.block 0x08 1 0 = 2 → d.scopeReady scope = true → d.leadTick (qAt e.block 0x00) scope = .ok t →
          let held := (n.putSnap none { id := id, no := no, mode := 2, tick := some t, scope := scope, origin := true, fired := false }).hold q 0x15 e (.snapFire id t)
          exec (.snapshotFire dt q e) s = .next (s.onto (held.sendScope scope
            { type := 0x18, id := id, arg := scope, tick := BitVec.ofNat 64 t } (fun d => d.onSnapFire id scope t))))) ∧
  (∀ (dt q : Nat) (e : Entry) (s : State),
      let d := s.taken dt q e
      (s.takes dt formReset q e resetChecks = true → fldAt e.block 0x08 1 0 = 0 → ∀ t, d.leadTick (qAt e.block 0x00) 0 = .ok t →
        let r : ResetAct := { id := e.target, tick := t, scope := 0, time := bitAt e.block 0x08 8, acq := bitAt e.block 0x08 9, load := qAt e.block 0x10,
                              origin := true, fired := true }
        exec (.resetAt dt q e) s = .next (s.onto
          ({ d with glob := { d.glob with resets := d.glob.resets ++ [r] } }.hold q 0x16 e (.reset e.target t)))) ∧
      (s.takes dt formBarrier q e barrierChecks = true →
        (fldAt e.block 0x00 1 0 = 0 → exec (.barrier dt q e) s = .next (s.onto (formBarrier.reply d q e {}))) ∧
        (fldAt e.block 0x00 1 0 ≠ 0 → d.scopeReady (fldAt e.block 0x00 1 0) = true →
          exec (.barrier dt q e) s = .next (s.onto
            ((d.hold q 0x14 e (.barrier e.target (fldAt e.block 0x00 1 0) false)).arriveBarrier e.target (fldAt e.block 0x00 1 0) none 0)))) ∧
      (s.takes dt formBroadcast q e broadcastChecks = true →
        let scope := fldAt e.block 0x20 1 0
        d.isTop scope = true → d.scopeReady scope = true →
          let earlier := (d.glob.bcasts.filter (fun (x : Bcast) => x.sender && !x.delivered)).map (fun (x : Bcast) => x.tick)
          let t := earlier.foldl max (d.now + releaseDelay scope)
          let payload := takePad 0 8 e.block
          let x : Bcast := { id := e.target, tick := t, payload := payload, scope := scope, waits := d.downLinks scope, count := 0, sender := true, ring := q }
          exec (.broadcast dt q e) s = .next (s.onto
            (({ d with glob := { d.glob with bcasts := d.glob.bcasts ++ [x] } }.queueWords (d.downLinks scope)
              { type := 0x28, id := e.target, arg := scope, tick := BitVec.ofNat 64 t, payload := payload }).hold q 0x17 e .broadcast))))

/-- APERTURE_STAGE puts each block of a legal list in the place of the staged block of its TYPE and UNIT; an EMPTY aperture becomes STAGED, one that is
LIVE or HALTED has a change staged. APERTURE_ADMIT of a plane whose checks, ownership and sums pass places what it needs and takes the staged plane as
admitted. APERTURE_RELEASE frees an aperture that is STAGED, ADMITTED or HALTED with no launch pending; in any other state it is EFS_STATE.
APERTURE_WAIT completes at once when the awaited state holds, with the present tick; else it waits. From 01_sample_path.md; 02_host_interface.md.
Rests also on the model's own choices or readings: log 21, 22. -/
def Obligations.ApertureCommandsTakeEffect : Prop :=
  (∀ (dt q : Nat) (e : Entry) (s : State) (bs : List Block),
      let d := s.taken dt q e
      let p := d.ap e.target
      let plane := bs.foldl planePut p.staged
      s.takes dt formStage q e noChecks = true → d.settled [e.target] → parseStage (e.block.length + 1) 0 e.block = .ok bs → d.stageBad e.target plane bs = none → p.stageable = true →
        d.ownedBad e.target bs = none →
          let x := d.setAp e.target { p with staged := plane, changeStaged := p.changeStaged || decide (3 ≤ p.state) }
          exec (.apertureStage dt q e) s = .next (s.onto (formStage.reply (if p.state = 0 then x.enterState e.target 1 else x) q e {}))) ∧
  (∀ (dt q : Nat) (e : Entry) (s : State),
      let d := s.taken dt q e
      let a := e.target
      let p := d.ap a
      let ps := d.planesWith a p.staged
      let placed := d.placeNext ps a p.staged
      s.takes dt formAdmit q e noChecks = true → d.settled [a] → d.planeBad ps a p.staged = none → d.mc.crit.on = false →
        (p.state = 1 ∨ 3 ≤ p.state ∧ p.changeStaged = true) → d.ownedBad a p.staged = none → d.firstFail ps = none →
          exec (.apertureAdmit dt q e) s = .next (s.onto (formAdmit.reply (placed.admitted ps a) q e {}))) ∧
  (∀ (dt q : Nat) (e : Entry) (s : State),
      let d := s.taken dt q e
      let p := d.ap e.target
      s.takes dt formRelease q e noChecks = true →
        ((p.state = 1 ∨ p.state = 2 ∨ p.state = 4) ∧ p.launch = none →
          exec (.apertureRelease dt q e) s = .next (s.onto (formRelease.reply (d.releaseAp e.target) q e {}))) ∧
        (¬ ((p.state = 1 ∨ p.state = 2 ∨ p.state = 4) ∧ p.launch = none) →
          exec (.apertureRelease dt q e) s = .next (s.onto (formRelease.reply d q e (d.stateError e.target))))) ∧
  (∀ (dt q : Nat) (e : Entry) (s : State),
      let d := s.taken dt q e
      let st := fldAt e.block 0x00 3 0
      let sub := fldAt e.block 0x00 7 4
      s.takes dt formWait q e waitChecks = true →
        ((d.ap e.target).matchesWait st sub = true → exec (.apertureWait dt q e) s = .next (s.onto (formWait.reply d q e { result0 := d.clk.count }))) ∧
        ((d.ap e.target).matchesWait st sub = false → exec (.apertureWait dt q e) s = .next (s.onto (d.hold q 0x25 e (.aperture e.target st sub)))))

/-- The first sum that fails completes APERTURE_ADMIT with EFS_ADMIT and has no other effect: nothing but the mailbox changes. From 01_sample_path.md. -/
def Obligations.FailedAdmissionHasNoEffect : Prop :=
  ∀ (dt q : Nat) (e : Entry) (s : State) (x : Nat × Nat × Nat),
    let d := s.taken dt q e
    let a := e.target
    let p := d.ap a
    let ps := d.planesWith a p.staged
    s.takes dt formAdmit q e noChecks = true → d.settled [a] → d.planeBad ps a p.staged = none → d.mc.crit.on = false →
      (p.state = 1 ∨ 3 ≤ p.state ∧ p.changeStaged = true) → d.ownedBad a p.staged = none → d.firstFail ps = some x →
        ∃ t, exec (.apertureAdmit dt q e) s = .next (s.onto t) ∧ t = formAdmit.reply d q e (admitError x) ∧ d.sameButMailbox t ∧
          (t.ap a).state = p.state ∧ (admitError x).status = efsAdmit

/-- APERTURE_HALT, CAPTURE_ARM, CAPTURE_FREEZE and CAPTURE_TRIGGER on an aperture that is not provisional and is in a state that allows them: a halt is
scheduled for its tick, an arming and a freeze 150 ticks on, and their commands wait; a trigger reaches the aperture as a confirmed candidate of the
present tick. Each command that changes an aperture whose acquisition is provisional is held until the verdict: it changes nothing but its ring, on
which it waits. From 02_host_interface.md; 07_triggers.md; 08_acquisition.md. Rests also on the model's own choice or reading: log 112. -/
def Obligations.CaptureCommandsTakeEffect : Prop :=
  (∀ (dt q : Nat) (e : Entry) (s : State),
      let d := s.taken dt q e
      let a := e.target
      let p := d.ap a
      let waits (o : Nat) (w : Wait) (x : Dev) : Dev := x.setRing q { x.ring q with busy := ((d.hold q o e w).ring q).busy }
      (s.takes dt formHalt q e haltChecks = true → p.acq.prov = none → p.state = 3 → p.launch = none →
        ∀ t, d.leadTick (qAt e.block 0x00) 0 = .ok t →
          exec (.apertureHalt dt q e) s =
            .next (s.onto (waits 0x22 (.halt a) { d with glob := { d.glob with halts := d.glob.halts ++ [{ unit := a, tick := t }] } }))) ∧
      (s.takes dt formArm q e noChecks = true → p.state = 3 → p.acq.sub = 5 →
        exec (.captureArm dt q e) s =
          .next (s.onto (waits 0x30 (.arm a) { d with glob := { d.glob with arms := d.glob.arms ++ [{ unit := a, tick := d.now + 150 }] } }))) ∧
      (s.takes dt formFreeze q e noChecks = true → p.acq.prov = none → p.state = 3 → (p.acq.sub = 1 ∨ p.acq.sub = 2 ∨ p.acq.sub = 4) →
        exec (.captureFreeze dt q e) s =
          .next (s.onto (waits 0x32 (.freeze a) { d with glob := { d.glob with freezes := d.glob.freezes ++ [{ unit := a, tick := d.now + 150 }] } }))) ∧
      (s.takes dt formTrigger q e noChecks = true → p.acq.prov = none → p.state = 3 → (p.acq.sub = 1 ∨ p.acq.sub = 2) →
        let c : Candidate := { src := selCmd a, fire := d.now, tick := d.now, prov := false }
        let m := (d.hold q 0x31 e (.held [a] .trigger)).meetCandidate a c
        exec (.captureTrigger dt q e) s = .next (s.onto
          (((m.leave (selCmd a) 0 (.cand c)).updAcq a (fun x => { x with inbox := (m.ap a).acq.inbox })).finishRing q { result0 := d.clk.count, ap := some a })))) ∧
  (∀ (dt q : Nat) (e : Entry) (s : State),
      let d := s.taken dt q e
      let a := e.target
      ((d.ap a).acq.prov.isSome = true →
        (s.takes dt formStage q e noChecks = true → exec (.apertureStage dt q e) s = .next (s.onto (d.hold q 0x20 e (.held [a] (.stage e))))) ∧
        (s.takes dt formAdmit q e noChecks = true → exec (.apertureAdmit dt q e) s = .next (s.onto (d.hold q 0x21 e (.held [a] (.admission e))))) ∧
        (s.takes dt formHalt q e haltChecks = true →
          exec (.apertureHalt dt q e) s = .next (s.onto (d.hold q 0x22 e (.held [a] (.halt (qAt e.block 0x00)))))) ∧
        (s.takes dt formTrigger q e noChecks = true → exec (.captureTrigger dt q e) s = .next (s.onto (d.hold q 0x31 e (.held [a] .trigger)))) ∧
        (s.takes dt formFreeze q e noChecks = true → exec (.captureFreeze dt q e) s = .next (s.onto (d.hold q 0x32 e (.held [a] .freeze))))) ∧
      (¬ d.settled (launchList e.block) → s.takes dt (formLaunch e) q e (launchChecks e.ptr) = true →
        let t := s.onto (d.hold q 0x12 e (.held (launchList e.block) (.launch e)))
        exec (.launchAt dt q e) s = .next t ∧ exec (.launchBind dt q e) s = .next t ∧ exec (.launchFire dt q e) s = .next t) ∧
      (¬ d.settled (d.launchApsOf a) → s.takes dt formCancel q e noChecks = true →
        exec (.launchCancel dt q e) s = .next (s.onto (d.hold q 0x13 e (.held (d.launchApsOf a) (.cancel e))))))

/-- TP_LOAD into a processor that does not run writes its image and stops it; TP_START, fresh or with RESUME, schedules the start and waits; TP_STOP stops
a running processor and waits for the boundary. TP_LOAD's bytes: what it writes is the image, at its address in the processor's local memory; without
CLEAR every other byte is as the processor's stores that are due left it. From 12_trace_processors.md. Rests also on the model's own choice or
reading: log 43. -/
def Obligations.TpCommandsTakeEffect : Prop :=
  (∀ (dt q : Nat) (e : Entry) (s : State),
      let d := s.taken dt q e
      let n := e.target
      (s.takes dt formTpLoad q e (tpLoadChecks e.target e.inLen) = true → (d.tp n).state ≠ 2 →
        let y := tpLoadImage n e.block (d, s.mem)
        exec (.tpLoad dt q e) s = .next (s.ontoAll (formTpLoad.reply y.1 q e {}, y.2))) ∧
      (s.takes dt formTpStart q e tpStartChecks = true → ((d.tp n).state = 1 ∨ (d.tp n).state = 3) → ∀ t, d.leadTick (qAt e.block 0x08) 0 = .ok t →
        let st : TpStart := { tick := t, entry := fldAt e.block 0x00 18 0, ivec := fldAt e.block 0x04 18 0, resume := bitAt e.block 0x00 31 }
        let x := (d.setTp n { d.tp n with start := some st }).hold q 0x41 e (.tpStart n)
        exec (.tpStart dt q e) s = .next (s.onto x) ∧ exec (.tpResume dt q e) s = .next (s.onto x)) ∧
      (s.takes dt formTpStop q e noChecks = true → (d.tp n).state = 2 →
        exec (.tpStop dt q e) s = .next (s.onto ((d.hold q 0x42 e (.tpStop n)).tpHaltNow n)))) ∧
  (∀ (dt q : Nat) (e : Entry) (s t : State),
      let n := e.target
      let at_ := n * tpMask + fldAt e.block 0x00 18 0
      let image := (bytesOfWords (e.block.drop 4)).take (fldAt e.block 0x04 19 0)
      let d := s.taken dt q e
      let stored := (tpStores n d.cyc (d.tp n) d s.mem).2.2
      s.mem.wf = true → s.takes dt formTpLoad q e (tpLoadChecks e.target e.inLen) = true → ((s.taken dt q e).tp n).state ≠ 2 → exec (.tpLoad dt q e) s = .next t →
        (∀ i, i < image.length → t.mem.tp.read (at_ + i) = image.getD i 0) ∧ t.mem.cap = s.mem.cap ∧
        (bitAt e.block 0x08 0 = false → ∀ a, (a < at_ ∨ at_ + image.length ≤ a) → t.mem.tp.read a = stored.tp.read a))

/-- DISPLAY_MODE on a running raster waits for the next start of vertical blanking, LAYER_SET and LAYER_FLIP for the next latch; with the raster stopped
the layer commands complete at once. BLOCK_READ and BLOCK_WRITE within their range take a channel and wait for the transfer; RELAY_ATTACH takes a free
drive slot, RELAY_DETACH gives back one with no stream on it. From 11_density_display.md; 14_export_streaming.md. -/
def Obligations.DisplayAndTransferCommands : Prop :=
  (∀ (dt q : Nat) (e : Entry) (s : State),
      let d := s.taken dt q e
      let layered (x : Dev) : Dev := x.setLayer e.target { x.layer e.target with waiting := some e.block }
      (s.takes dt formDisplayMode q e displayModeChecks = true →
        (d.raster.running = true →
          exec (.displayMode dt q e) s = .next (s.onto ({ d.hold q 0x48 e .displayMode with raster := { d.raster with waiting := some e.block } }))) ∧
        (d.raster.running = false → dmEnable e.block = true →
          exec (.displayMode dt q e) s =
            .next (s.onto ({ d.hold q 0x48 e .displayMode with raster := { d.raster with waiting := some e.block, locking := true } })))) ∧
      (s.takes dt formLayerSet q e layerSetChecks = true →
        (d.raster.running = true → exec (.layerSet dt q e) s = .next (s.onto ((layered d).hold q 0x49 e (.layerSet e.target)))) ∧
        (d.raster.running = false → exec (.layerSet dt q e) s = .next (s.onto (formLayerSet.reply (layered d) q e d.latchAnswer)))) ∧
      (s.takes dt formLayerFlip q e (layerFlipChecks e.target) = true → ∀ f, d.layerFeed e.target = some f → dfAutoFlip f = false →
        let x := d.requestFlip e.target (fldAt e.block 0x00 1 0)
        (x.raster.running = true → exec (.layerFlip dt q e) s = .next (s.onto (x.hold q 0x4A e (.layerFlip e.target)))) ∧
        (x.raster.running = false → exec (.layerFlip dt q e) s = .next (s.onto (formLayerFlip.reply x q e x.latchAnswer))))) ∧
  (∀ (dt q : Nat) (e : Entry) (s : State),
      let d := s.taken dt q e
      let job (write : Bool) : BlockJob :=
        { ring := q, write := write, cap := (qAt e.block 0x00).toNat, host := (qAt e.block 0x08).toNat, length := (dwAt e.block 0x10).toNat }
      let started (write : Bool) : Dev := (d.hold q (formBlock write).opcode e (.block d.freeBlock)).startBlock d.freeBlock (job write)
      (s.takes dt (formBlock false) q e (blockDmaChecks false) = true → d.blockBad false (job false).cap (job false).length = none →
        exec (.blockRead dt q e) s = .next (s.onto (started false))) ∧
      (s.takes dt (formBlock true) q e (blockDmaChecks true) = true → d.blockBad true (job true).cap (job true).length = none →
        exec (.blockWrite dt q e) s = .next (s.onto (started true))) ∧
      (s.takes dt formAttach q e attachChecks = true → (d.drive e.target).state = 0 →
        exec (.relayAttach dt q e) s =
          .next (s.onto (formAttach.reply (d.setDrive e.target { ({} : DriveSlot) with state := 1, block := e.block.take 10 }) q e {}))) ∧
      (s.takes dt formDetach q e noChecks = true → (d.drive e.target).state ≠ 0 → d.relayOn e.target = false →
        exec (.relayDetach dt q e) s = .next (s.onto (formDetach.reply { d with drives := Tbl.drop e.target d.drives } q e {}))))

/-- CAL_SWEEP starts a sweep and waits for its end; CAL_APPLY with lead schedules the coefficients of its converters and waits; SPARE_POLICY answers the
threshold as it was and the default, and sets the policy. The update commands: BEGIN erases the slot that is not ACTIVE and opens the update, DATA
appends to it, COMMIT verifies what was received; an update is never of the ACTIVE slot. ATTEST with room for the report signs it with the next leaf,
which is used up; with no leaf left it is EFS_LEAVES. TIME_REF_SET takes effect where it changes nothing, or no aperture is LIVE and no launch is
pending; else it is EFS_STATE with APSTATE 0xF. From 03_timebase_launch.md; 16_management_trust.md; 17_power_clocks_bringup.md. Rests also on the
model's own choices or readings: log 82, 84. -/
def Obligations.ManagementCommandsTakeEffect : Prop :=
  (∀ (dt q : Nat) (e : Entry) (s : State),
      let d := s.taken dt q e
      let conv := fldAt e.block 0x00 3 0
      (s.takes dt formCalSweep q e calSweepChecks = true → d.mc.sweep = none → d.convertersLive conv = false →
        exec (.calSweep dt q e) s = .next (s.onto ((d.startSweep e.block).hold q 0x58 e .calSweep))) ∧
      (s.takes dt formCalApply q e calApplyChecks = true →
        (fldAt e.block 0x00 5 4 = 1 → ∀ n, n < 4 → bitSet conv n = true → (d.mc.result n).isSome = true) → ∀ t, d.leadTick (qAt e.block 0x08) 0 = .ok t →
        ∃ (d' : Dev) (temps : Tbl Int), exec (.calApply dt q e) s = .next (s.onto
            ((d'.updMc (fun m => { m with cals := m.cals ++ [{ conv := conv, tick := t, source := some (fldAt e.block 0x00 5 4), persist := bitAt e.block 0x00 6, temps := temps }] })).hold
              q 0x59 e (.calApply t))) ∧
          d' = { d with free := d'.free }) ∧
      (s.takes dt formSparePolicy q e sparePolicyChecks = true →
        let kind := fldAt e.block 0x00 3 0
        let ind := fldAt e.block 0x00 7 4
        ∀ x, wearDefault kind ind = some x →
          exec (.sparePolicy dt q e) s = .next (s.onto (formSparePolicy.reply { d with mc := d.mc.setPolicy e.block } q e
            { result0 := BitVec.ofNat 64 (d.wearLimit kind ind), result1 := BitVec.ofNat 64 x.2 })))) ∧
  (∀ (dt q : Nat) (e : Entry) (s : State),
      let d := s.taken dt q e
      (s.takes dt formBegin q e beginChecks = true → d.mc.update = none →
        exec (.fwUpdateBegin dt q e) s = .next (s.onto (formBegin.reply (d.openUpdate (dwAt e.block 0x00).toNat) q e {})) ∧
        (∀ u, (d.openUpdate (dwAt e.block 0x00).toNat).mc.update = some u → u.slot = 1 - d.mc.active ∧ u.total = (dwAt e.block 0x00).toNat) ∧
        (d.openUpdate (dwAt e.block 0x00).toNat).mc.active = d.mc.active) ∧
      (s.takes dt formData q e (fun d b => if 1048584 < e.inLen then [] else dataChecks d b) = true → e.inLen ≤ 1048584 → ∀ u, d.mc.update = some u →
        exec (.fwUpdateData dt q e) s = .next (s.onto (formData.reply
          { d with mc := { d.mc.setSlot u.slot { data := some (d.mc.slotBytes u.slot ++ dataBytes e.block), valid := false } with update := some { u with at_ := d.clk.time } } } q e {}))) ∧
      (s.takes dt formCommit q e noChecks = true → ∀ u, d.mc.update = some u → d.mc.received = u.total →
        exec (.fwUpdateCommit dt q e) s = .next (s.onto (formCommit.reply (d.commitUpdate u).2 q e (d.commitUpdate u).1)))) ∧
  (∀ (dt q : Nat) (e : Entry) (s : State),
      let d := s.taken dt q e
      s.takes dt formAttest q e attestChecks = true → 3080 ≤ e.outLen →
        (d.takeLeaf.1 = none ↔ d.mc.leaf = 1048576 ∨ ((d.mc.leaf % 4096 = 0 ∨ d.mc.claimed = false) ∧ 256 ≤ d.mc.blocks)) ∧
        (d.takeLeaf.1 = none → exec (.attest dt q e) s = .next (s.onto (formAttest.reply d q e { status := efsLeaves }))) ∧
        (∀ leaf, d.takeLeaf.1 = some leaf →
          let x := d.takeLeaf.2
          let msg := x.attestWords leaf e.block
          leaf = d.mc.leaf ∧ x.mc.leaf = leaf + 1 ∧
          exec (.attest dt q e) s = .next (s.onto (formAttest.reply
            ((x.writeOutE e (msg ++ wordsOfBytes (attestSignature leaf (bytesOfWords msg)) ++ [0])).logOnly 0x1007 0 leaf) q e {})))) ∧
  (∀ (dt q : Nat) (e : Entry) (s : State),
      let d := s.taken dt q e
      s.takes dt formTimeRef q e timeRefChecks = true →
        ((d.clk.refChanges e.block = false ∨ (∀ p ∈ d.aps, p.2.state ≠ 3) ∧ d.glob.launches = []) →
          exec (.timeRefSet dt q e) s = .next (s.onto (formTimeRef.reply (d.setTimeRef e.block) q e {})) ∧
          (d.setTimeRef e.block).clk.role = fldAt e.block 0x00 5 4 ∧ (d.setTimeRef e.block).clk.refMode = fldAt e.block 0x00 1 0 ∧
          (d.setTimeRef e.block).clk.ppsEn = bitAt e.block 0x00 2 ∧ (d.setTimeRef e.block).clk.count = d.clk.count) ∧
        (d.clk.refChanges e.block = true → ((∃ p ∈ d.aps, p.2.state = 3) ∨ d.glob.launches ≠ []) →
          exec (.timeRefSet dt q e) s = .next (s.onto (formTimeRef.reply d q e { status := efsState, mode := true }))))

/-- While READY is 0 the identity dwords, FW_STATUS, HOST_STATUS, the capability list and the Periscope window answer; any other BAR0 access reads 0 or is
discarded, and sets HOST_STATUS.EARLY. Rule R64. -/
def Obligations.EarlyAccessesAreTurnedAway : Prop :=
  ∀ (dt addr : Nat) (v : Word) (s : State),
    let d := s.after dt
    let answers : Prop := addr < 0x10 ∨ 0x100 ≤ addr ∧ addr < 0x170 ∨ 0x2000 ≤ addr ∧ addr < 0x2400
    let early : Dev := d.hostStatus 1
    d.fw.ready = false →
      (¬ answers → exec (.earlyRead dt addr) s = .next (s.onto (early.emit (.regRead 0))) ∧
        exec (.registerWrite dt (.bar0 addr) [v]) s = .next (s.onto early) ∧ early.reg 0x0C = (d.reg 0x0C).setFld 1 1 1) ∧
      (answers → exec (.earlyRead dt addr) s = .next (s.onto (d.readReg s.mem .host addr 0 4)) ∧
        (isHighHalf addr = false → d.eventsAt addr = [] →
          (d.readReg s.mem .host addr 0 4).out.getLast? = some (.regRead (bytesOf (d.view s.mem addr).1 0 4))))

/-- A read of the low half of a 64-bit register returns it and copies its high half into the shadow of the path it came by, on the same cycle; the shadows
of the other paths stay. Rule R59. Rests also on the model's own choice or reading: log 63. -/
def Obligations.LowHalfReadFillsTheShadow : Prop :=
  ∀ (dt addr : Nat) (p : Port) (s : State),
    let d := (s.after dt).settleFor addr
    let v := d.view s.mem addr
    (p = .host → (s.after dt).fw.ready = true ∧ addr < 0x400000 ∧ addr ≠ 0x1C) → isLowHalf addr = true → isHighHalf addr = false → mkqAt addr = none →
      d.eventsAt addr = [] →
      ∃ t, exec (.lowHalfRead dt p addr 0 4) s = .next t ∧ t.mem = s.mem ∧
        t.dev.shadow p = some { addr := addr, high := (d.view s.mem (addr + 4)).1 } ∧ (∀ o, o ≠ p → t.dev.shadow o = v.2.shadow o) ∧
        t.dev.out.getLast? = some (.regRead (bytesOf v.1 0 4))

/-- A read of the high half returns the path's shadow when the last low-half read on that path was of the same register; otherwise it returns the live
high half and sets HOST_STATUS.SHADOW_MISS. Rule R60. Rests also on the model's own choice or reading: log 63. -/
def Obligations.HighHalfReadReturnsTheShadow : Prop :=
  ∀ (dt addr : Nat) (p : Port) (s : State),
    let d := (s.after dt).settleFor addr
    (p = .host → (s.after dt).fw.ready = true ∧ addr < 0x400000 ∧ addr ≠ 0x1C) → isHighHalf addr = true → mkqAt addr = none → d.eventsAt addr = [] →
      (∀ x, d.shadow p = some x → x.addr + 4 = addr →
        exec (.highHalfRead dt p addr 0 4) s = .next (s.onto ((d.clearRead addr 0 4).emit (.regRead (bytesOf x.high 0 4))))) ∧
      ((∀ x, d.shadow p = some x → x.addr + 4 ≠ addr) →
        exec (.highHalfRead dt p addr 0 4) s = .next (s.onto
          (((d.hostStatus 3).clearRead addr 0 4).emit (.regRead (bytesOf (d.view s.mem addr).1 0 4))))) ∧
      (d.hostStatus 3).reg 0x0C = (d.reg 0x0C).setFld 3 3 1

/-- A whole read of a BAR0 register with RC fields returns its value and clears those fields to their reset values; its other fields stay. Of any
register, a hardware event of the same tick at a field that the read clears is not lost: it acts on the cleared field. From 00_scope.md. -/
def Obligations.RcReadClears : Prop :=
  (∀ (dt addr : Nat) (s : State),
    let d := s.after dt
    d.fw.ready = true → addr < 0x400000 → addr ≠ 0x1C → isHighHalf addr = false → isLowHalf addr = false → d.eventsAt addr = [] →
      exec (.rcFieldRead dt addr 0 4) s = .next (s.onto ((d.clearRead addr 0 4).emit (.regRead (bytesOf (d.view s.mem addr).1 0 4))))) ∧
  ∀ (d : Dev) (addr i : Nat) (r : RegRow), RegMap.find addr = some (r, i) →
    let go := r.fields.filter (fun f => decide (f.access = Access.rc) && decide (f.hi < 32))
    let cleared := go.foldl (fun (w : Word) (f : RegField) => w.setFld f.hi f.lo (f.resetAt i)) (d.reg addr)
    (d.eventsAt addr = [] → (d.clearRead addr 0 4).reg addr = cleared) ∧
    (∀ x, d.eventsAt addr = [x] → (∃ f ∈ go, (f.hi, f.lo) = x.op.span) → (d.clearRead addr 0 4).reg addr = x.op.run cleared) ∧
    ∀ b, b ≠ addr → (d.clearRead addr 0 4).reg b = d.reg b

/-- An IND_DATA access of a mapped address reads or writes the register that IND_ADDR names and advances IND_ADDR under AINC; of an unmapped one, a read
returns 0, a write is discarded, IND_FAULT is set, and IND_ADDR advances all the same. Rule R63. -/
def Obligations.IndirectAccess : Prop :=
  ∀ (dt : Nat) (v : Word) (s : State),
    let d := s.after dt
    let a := d.indAddr
    let faulted : Dev := d.hostStatus 5
    d.fw.ready = true →
      (d.mapped a = true → exec (.indDataRead dt 0 4) s = .next (s.onto (d.readReg s.mem .host a 0 4).autoInc)) ∧
      (d.mapped a = true → d.breaksPr a v = false → exec (.indDataWrite dt v) s = .next (s.onto (d.writeInd a v).autoInc)) ∧
      (d.mapped a = false → exec (.indDataRead dt 0 4) s = .next (s.onto (faulted.emit (.regRead 0)).autoInc) ∧
        exec (.indDataWrite dt v) s = .next (s.onto faulted.autoInc) ∧ faulted.reg 0x0C = (d.reg 0x0C).setFld 5 5 1) ∧
      (∀ x : Dev, (x.fld 0x20 0 0 = 1 → x.autoInc = x.setReg 0x18 (x.reg 0x18 + 4)) ∧ (x.fld 0x20 0 0 ≠ 1 → x.autoInc = x))

/-- A write of one register without a row of its own sets its RW fields and nothing else; a BAR0 write of part of a dword, and any BAR2 write, is
discarded with its bit of HOST_STATUS set; a partial write of IND_DATA advances IND_ADDR all the same. A BAR2 read within the capture capacity returns
its bytes of the line it touches, as memory holds them when no bit of the line is upset; of a line that holds the poison pattern it returns zeros,
marked poisoned. One that reaches beyond the capacity completes with Unsupported Request as a whole. None changes memory; each may raise BAR2_MAX_NS
by a free time. From 00_scope.md; 02_host_interface.md. Rests also on the model's own choices or readings: log 66, 69, 70. -/
def Obligations.RegisterWritesAndBar2Reads : Prop :=
  (∀ (dt off lo len : Nat) (v : Word) (s : State),
      let d := s.after dt
      (d.fw.ready = true → off < 0x1000 → off ≠ 0x1C → off ≠ 0x50 → (off < 0x40 ∨ 0x50 < off) → d.breaksPr off v = false →
        exec (.registerWrite dt (.bar0 off) [v]) s = .next (s.onto (d.storeRw off v)) ∧
        (∀ r i, RegMap.find off = some (r, i) → d.storeRw off v = d.setReg off
          (r.fields.foldl (fun (w : Word) (f : RegField) => if f.access = Access.rw then w.setFld f.hi f.lo (v.fld f.hi f.lo) else w) (d.reg off))) ∧
        (RegMap.find off = none → d.storeRw off v = d)) ∧
      (d.fw.ready = true → (lo ≠ 0 ∨ len < 4) →
        (off ≠ 0x1C → exec (.bar0PartialWrite dt off lo len) s = .next (s.onto (d.hostStatus 0))) ∧
        (off = 0x1C → exec (.bar0PartialWrite dt off lo len) s = .next (s.onto (d.hostStatus 0).autoInc))) ∧
      exec (.bar2Write dt off) s = .next (s.onto (d.hostStatus 2)) ∧
      ∀ k, k < 32 → (d.hostStatus k).reg 0x0C = (d.reg 0x0C).setFld k k 1) ∧
  (∀ (dt off len : Nat) (errs : List Upset) (s : State),
      let d := s.after dt
      let a := d.fld 0x24 7 0 * 2 ^ 30 + off
      0 < len →
        (d.windowCapacity < a + len → exec (.bar2Read dt off len errs) s = .next (s.onto (d.emit .unsupported).noteWindow)) ∧
        (a + len ≤ d.windowCapacity → a % 64 + len ≤ 64 → (∀ u ∈ errs, u.line ≠ a / 64) →
          ∃ t, exec (.bar2Read dt off len errs) s = .next t ∧ t.mem = s.mem ∧
            (d.lineMarked (a / 64) = false → t.dev.out = d.out ++ [.bar2 (((s.mem.cap.readBytes (64 * (a / 64)) 64).drop (a % 64)).take len) false]) ∧
            (d.lineMarked (a / 64) = true → t.dev.out = d.out ++ [.bar2 (List.replicate len 0) true])))

/-- SQ_DB commits entries up to a TAIL that does not pass the device's head; CQ_DB frees room up to the device's tail, and a completion that waited for it
is written once no event record of the tick is to go first; EVQ_DB moves the event ring's head. A value at or above the depth sets DB_RANGE and faults
the ring. Every write leaves the reserved field as it reads. RING0_CFG.ENABLE from 0 to 1 with legal registers puts ring 0 into use at the bases and
depths they hold, and RUN is 1; from 1 to 0, with nothing in execution and no completion held, deletes it. From 02_host_interface.md. Rests also on
the model's own choice or reading: log 65. -/
def Obligations.DoorbellsAndRing0 : Prop :=
  (∀ (dt q : Nat) (v : Word) (s : State),
      let d := s.after dt
      let r := d.ring q
      let up (off : Nat) : Prop := d.fw.ready = true ∧ q < 64 ∧ r.inUse = true ∧ d.breaksPr (off + 16 * q) v = false
      (up 0x1000 → v.fld 11 0 < 2 ^ r.sqLog2 →
        (v.fld 11 0 + 2 ^ r.sqLog2 - r.sqTail) % 2 ^ r.sqLog2 ≤ (r.sqHead + 2 ^ r.sqLog2 - r.sqTail - 1) % 2 ^ r.sqLog2 →
          ∃ t, exec (.sqDb dt q v) s = .next (s.onto (d.setRing q t)) ∧ t = { r with sqTail := v.fld 11 0, bells := t.bells } ∧
            (v.fld 11 0 = r.sqTail → t.bells = r.bells) ∧ (v.fld 11 0 ≠ r.sqTail → t.bells = r.bells ++ [(v.fld 11 0, d.clk.time)])) ∧
      (up 0x1004 → v.fld 11 0 < 2 ^ r.cqLog2 → (v.fld 11 0 + 2 ^ r.cqLog2 - r.cqHead) % 2 ^ r.cqLog2 ≤ (r.cqTail + 2 ^ r.cqLog2 - r.cqHead) % 2 ^ r.cqLog2 →
        let x := d.setRing q { r with cqHead := v.fld 11 0 }
        (r.held = none → exec (.cqDb dt q v) s = .next (s.onto x)) ∧
        (∀ c, r.held = some c → (x.ring q).cqFull = false → d.ev.due = [] →
          exec (.cqDb dt q v) s = .next (s.onto ((x.writeCompletion q c).ringSettled q)))) ∧
      (d.fw.ready = true → d.breaksPr 0x1400 v = false → d.ev.enabled = true → v.fld 15 0 < 2 ^ d.ev.log2 →
        (v.fld 15 0 + 2 ^ d.ev.log2 - d.ev.head) % 2 ^ d.ev.log2 ≤ (d.ev.tail + 2 ^ d.ev.log2 - d.ev.head) % 2 ^ d.ev.log2 →
          exec (.evqDb dt v) s = .next (s.onto { d with ev := { d.ev with head := v.fld 15 0 } })) ∧
      (up 0x1000 → r.fault = false → 2 ^ r.sqLog2 ≤ v.fld 11 0 →
        ∃ t, exec (.sqDb dt q v) s = .next t ∧ (t.dev.ring q).fault = true ∧ t.dev.waiting q = false) ∧
      (up 0x1004 → r.fault = false → 2 ^ r.cqLog2 ≤ v.fld 11 0 →
        ∃ t, exec (.cqDb dt q v) s = .next t ∧ (t.dev.ring q).fault = true ∧ t.dev.waiting q = false)) ∧
  (∀ (dt : Nat) (v : Word) (s : State),
      let d := s.after dt
      let x := d.storeRw 0x50 v
      (d.fw.ready = true → d.breaksPr 0x50 v = false → d.fld 0x50 16 16 = 0 → v.fld 16 16 = 1 → (d.ring 0).deleting = false →
        (4 ≤ x.fld 0x50 3 0 ∧ x.fld 0x50 3 0 ≤ 12 ∧ 4 ≤ x.fld 0x50 7 4 ∧ x.fld 0x50 7 4 ≤ 12 ∧ x.fld 0x40 11 0 = 0 ∧ x.fld 0x48 11 0 = 0) →
          exec (.ring0Enable dt v) s = .next (s.onto ((x.setRing 0
            { inUse := true, sqBase := x.reg64 0x40, cqBase := x.reg64 0x48, sqLog2 := x.fld 0x50 3 0, cqLog2 := x.fld 0x50 7 4,
              vector := x.fld 0x50 15 8 }).setFld 0x54 0 0 1))) ∧
      (d.fw.ready = true → d.breaksPr 0x50 v = false → d.fld 0x50 16 16 = 1 → v.fld 16 16 = 0 →
        (d.ring 0).inUse = true → (d.ring 0).busy = none → (d.ring 0).held = none →
          ∃ t, exec (.ring0Disable dt v) s = .next t ∧ (t.dev.ring 0).inUse = false ∧ t.mem = s.mem ∧ ∀ k, k ≠ 0 → (d.ring k).busy = none → t.dev.ring k = d.ring k))

/-- Unmasking a vector whose bit is pending, on a function that may send, sends its message and clears the bit. EXP_HEAD_HI within the written stream
moves HEAD and outside it is refused; PAUSE 1 asks a running channel to pause, PAUSE 0 resumes it, and CLEAR_HALT runs a halted one. Each is a write
of IND_DATA, which advances IND_ADDR under AINC; while IND_ADDR names another register it is none of these. MKQ_DATA pops one word of the queue of an
input that no export takes, through any of its aliases, and returns it: a read of IND_DATA while IND_ADDR names the alias. From 02_host_interface.md;
13_markers.md; 14_export_streaming.md. Rests also on the model's own choices or readings: log 24, 128. -/
def Obligations.HostDrivesVectorsAndExports : Prop :=
  (∀ (dt v : Nat) (s : State),
      let d := s.after dt
      let m := Tbl.look ({} : MsixEntry) d.pcie.msix v
      v < 256 → d.pcie.msixEnable = true → d.pcie.busMaster = true → d.pcie.msixFnMask = false → d.pcie.pba = [v] →
        ∃ t, exec (.msixVectorUnmask dt v) s = .next t ∧ t.dev.pcie.pba = [] ∧ t.dev.out = d.out ++ [.msix v m.addr m.data] ∧
          Tbl.look ({} : MsixEntry) t.dev.pcie.msix v = { m with masked := false } ∧ t.mem = s.mem) ∧
  (∀ (dt c : Nat) (hi : Word) (s : State),
      let d := s.after dt
      let x := d.dmaCh c
      c < 60 → d.fw.ready = true →
        (d.indAddr = dmaReg c 0x0C → exec (.expHeadWrite dt c hi) s = .next (s.onto (d.headWrite c hi).autoInc) ∧
          ∀ w, x.words = some w → exRelay w = false →
            let y := d.setReg (dmaReg c 0x0C) hi
            let v := (QWord.ofHalves (y.reg (dmaReg c 0x08)) hi).toNat
            (x.head ≤ v → v ≤ x.tail → d.headWrite c hi = y.setDma c { x with head := v }) ∧
            (v < x.head ∨ x.tail < v → d.headWrite c hi = (y.bump (dmaReg c 0x28)).dmaEvent c 4 0 v)) ∧
        (d.indAddr = dmaReg c 0x04 →
          exec (.expPause dt c) s = .next (s.onto (d.exportPause c).autoInc) ∧ exec (.expResume dt c) s = .next (s.onto (d.exportResume c).autoInc) ∧
          (d.fld (dmaReg c 0x04) 0 0 = 0 → exec (.clearHalt dt c) s = .next (s.onto ((d.exportResume c).clearHalt c).autoInc)) ∧
          (d.fld (dmaReg c 0x04) 0 0 = 1 → exec (.clearHalt dt c) s = .next (s.onto ((d.exportPause c).clearHalt c).autoInc)) ∧
          (x.state = 1 → d.exportPause c = ((d.setFld (dmaReg c 0x04) 0 0 1).setDma c { x with state := 2 }).pauseCheck c) ∧
          (x.state = 3 → d.exportResume c = ((d.setFld (dmaReg c 0x04) 0 0 0).setDma c { x with state := 1, pausePending := false }).exportReq c) ∧
          (x.state = 5 → d.clearHalt c = (d.setDma c { x with state := 1, haltKind := 0, tries := 0 }).exportReq c)) ∧
        (d.indAddr ≠ dmaReg c 0x0C → exec (.expHeadWrite dt c hi) s = .next (s.onto d)) ∧
        (d.indAddr ≠ dmaReg c 0x04 → exec (.expPause dt c) s = .next (s.onto d) ∧ exec (.expResume dt c) s = .next (s.onto d) ∧
          exec (.clearHalt dt c) s = .next (s.onto d))) ∧
  (∀ (dt n k : Nat) (s : State),
      let d := s.after dt
      let a := mkReg n (0x20 + 4 * k)
      let y := d.settleFor a
      d.fw.ready = true → n < 16 → k < 4 → d.indAddr = a → y.eventsAt a = [] →
        exec (.mkqDataRead dt n k) s = .next (s.onto
          (((y.popMarker n).2.clearRead a 0 4).emit (.regRead (bytesOf (BitVec.ofNat 32 (y.popMarker n).1) 0 4))).autoInc) ∧
        (y.markerExported n = false → y.cmc.facet = [] → (y.popMarker n).1 = ((y.marker n).q.pop y.cyc).2.1))

/-- FLR, a hot reset, D3hot and a clear of Bus Master Enable delete every ring, disable the event ring and clear the MSI-X table; READY falls to 0.
Channels, engines and memory stay as they are; with no export in being, so does every aperture. READY_RETURN after such a deletion, in D0 with Bus
Master Enable set and bring-up done or ended in recovery: READY is 1 and EV_FW_READY with cause 2 is produced. Before, nothing happens. PERST#, the
link and configuration requests: Retry Status until 100 ms after the release, then what the register holds, with the identity, class code, Bus Master
Enable and power state of the function in their places. From 02_host_interface.md; 16_management_trust.md; 17_power_clocks_bringup.md. Rests also on
the model's own choices or readings: log 62, 90, 93, 106. -/
def Obligations.FunctionAndLink : Prop :=
  (∀ (dt : Nat) (i : Instr) (s : State),
      let d := s.after dt
      d.functionUp = true → (i = .flr dt ∨ i = .hotReset dt ∨ i = .d3hotEntry dt ∨ i = .busMasterClear dt) →
        ∃ t, exec i s = .next t ∧ (∀ k, k < 64 → (t.dev.ring k).inUse = false) ∧ t.dev.ev.enabled = false ∧ t.dev.ev.routes = d.ev.routes ∧
          t.dev.pcie.msix = [] ∧ t.dev.fw.ready = false ∧ t.dev.chans = d.chans ∧ t.dev.engines = d.engines ∧ t.mem = s.mem ∧
          (i = .flr dt → t.dev.pcie.msixEnable = false ∧ t.dev.pcie.msixFnMask = false ∧ t.dev.mc.update = none) ∧
          (i = .d3hotEntry dt → t.dev.pcie.d3hot = true) ∧ (i = .busMasterClear dt → t.dev.pcie.busMaster = false) ∧
          (i = .d3hotEntry dt ∨ i = .busMasterClear dt → t.dev.pcie.msixEnable = d.pcie.msixEnable ∧ t.dev.pcie.msixFnMask = d.pcie.msixFnMask) ∧
          (d.dma = [] → t.dev.aps = d.aps ∧ t.dev.pcie.pba = [] ∧ t.dev.ev.backlog = d.ev.backlog ∧ t.dev.fld 0x50 16 16 = 0 ∧ t.dev.fld 0x54 0 0 = 0 ∧
            t.dev.fld 0x54 1 1 = 0)) ∧
  (∀ (dt : Nat) (s : State),
      let d := s.after dt
      let due : Prop := d.pcie.deletedAt.isSome = true ∧ d.functionUp = true ∧ d.pcie.d3hot = false ∧ d.pcie.busMaster = true ∧
        (d.fw.stage = 0x3F ∨ d.fw.stage = 0xE0)
      (due → exec (.readyReturn dt) s = .next (s.onto
        ({ d with pcie := { d.pcie with deletedAt := none }, fw := { d.fw with ready := true } }.raiseAt
          0x000 0 0 2 (BitVec.ofNat 64 (imgVersion d.runBytes)) d.clk.count))) ∧
      (¬ due → exec (.readyReturn dt) s = .next (s.onto d))) ∧
  (∀ (dt rate10 width : Nat) (r : CfgReg) (s : State),
      let d := s.after dt
      (∃ t, exec (.perstAssert dt) s = .next t ∧ t.mem = s.mem ∧ t.dev.pcie.perst = true ∧ t.dev.pcie.linkUp = false ∧ t.dev.pcie.d3hot = false ∧ t.dev.pcie.busMaster = false ∧
        t.dev.pcie.msixEnable = false ∧ (d.dma = [] → t.dev.aps = d.aps) ∧ (d.functionUp = true → (∀ k, k < 64 → (t.dev.ring k).inUse = false) ∧ t.dev.fw.ready = false)) ∧
      (d.pcie.perst = true → exec (.perstRelease dt) s = .next (s.onto { d with pcie := { d.pcie with perst := false, perstAt := d.clk.time } })) ∧
      (d.pcie.perst = false → exec (.perstRelease dt) s = .next (s.onto d)) ∧
      (d.functionUp = true →
        exec (.pcieLinkUp dt rate10 width) s = .next (s.onto { d with pcie := { d.pcie with linkUp := true, rate10 := rate10, width := width } }) ∧
        exec (.configurationRequest ⟨dt, r⟩) s = .next (s.onto (d.emit (.cfg (if d.clk.time < d.pcie.perstAt + 300000000 then none else some (d.pcie.config r))))) ∧
        d.pcie.config .identity = 0x75121F5E ∧ d.pcie.config .classCode = 0x11800000 ∧ (d.pcie.config .command).getLsbD 2 = d.pcie.busMaster ∧
        (d.pcie.config .msixControl).getLsbD 15 = d.pcie.msixEnable ∧ (d.pcie.config .power).getLsbD 0 = d.pcie.d3hot))

/-- A read of host memory that fails: an SQ entry is read again up to three times, and the fourth failure faults the ring; the fourth failure of a
parameter block completes the command with EFS_HOSTMEM and the lowest address. A read for which no completion has come after 10 ms has failed so, and
none sooner. A command's TIMEOUT_MS runs out no sooner than its time, and 0 never does. What the command awaits may still come on the tick of expiry;
else, at the end of the tick, a command that waits for an aperture, a halt, an arming or a freeze completes with EFS_TIMEOUT. From
02_host_interface.md. Rests also on the model's own choices or readings: log 49, 71. -/
def Obligations.FailedReadsAndTimeouts : Prop :=
  (∀ (dt q : Nat) (e : Entry) (kind : ReadFail) (addr : QWord) (s : State),
      let d := s.after dt
      let g := d.fetchEntry q
      let f := g.readFailed q false addr
      let b := (g.readBlock e).readFailed q true addr
      let fails (i : HostReq) (t : State) : Prop := exec (.hostReadErrorCompletion dt i kind addr) s = .next t ∧
        (∀ t0, d.readSince i = some t0 → (t0 + 30000000 < d.clk.time → exec (.hostReadTimeout dt i addr) s = .next t) ∧
          (d.clk.time ≤ t0 + 30000000 → exec (.hostReadTimeout dt i addr) s = .next (s.onto d)))
      d.served = some q →
        ((f.ring q).readFails < 4 → fails (.sqEntry q) (s.onto ((f.setRing q { f.ring q with readAt := none }).fetchEntry q))) ∧
        ((f.ring q).readFails = 4 →
          let r := f.ring q
          fails (.sqEntry q) (s.onto ((f.faultRing q 2 (r.sqBase + BitVec.ofNat 64 (64 * r.sqHead))).hostmemEvent q 1 0xFF (r.failLow.getD addr)))) ∧
        (e.ptr = true → e.opcode ∈ listedOpcodes →
          ((b.ring q).readFails < 4 → fails (.paramBlock q e) (s.onto (b.setRing q { b.ring q with readAt := some d.clk.time }))) ∧
          ((b.ring q).readFails = 4 →
            let low := (b.ring q).failLow.getD addr
            let ap := if targetsAperture e.opcode && decide (e.target ≤ 1023) then some e.target else none
            fails (.paramBlock q e) (s.onto (((b.take q).hostmemEvent q 2 e.opcode low).answer q e { status := efsHostmem, result1 := low, ap := ap })))) ∧
        ((d.ring q).readsBlock = false → (f.ring q).readFails = (d.ring q).readFails + 1 ∧
          (∀ a, (d.ring q).failLow = some a → (f.ring q).failLow = some (if a ≤ addr then a else addr)))) ∧
  ((∀ (dt q : Nat) (b : Busy) (s : State),
      let d := s.after dt
      (d.ring q).busy = some b →
        (b.timeoutMs = 0 ∨ d.clk.time < b.takenAt + b.timeoutMs * 3000000 → exec (.commandTimeout dt q) s = .next (s.onto d)) ∧
        (b.timeoutMs ≠ 0 → b.takenAt + b.timeoutMs * 3000000 ≤ d.clk.time →
          exec (.commandTimeout dt q) s = .next (s.onto (d.setRing q { d.ring q with busy := some { b with expired := true } })))) ∧
    ∀ (d : Dev) (q : Nat),
      ((d.ring q).busy = none → d.expireRing q = d) ∧
      (∀ b, (d.ring q).busy = some b → b.expired = false → d.expireRing q = d) ∧
      (∀ b, (d.ring q).busy = some b → b.expired = true →
        (∃ a, b.wait = .halt a ∨ b.wait = .arm a ∨ b.wait = .freeze a ∨ ∃ st sub, b.wait = .aperture a st sub) →
          d.expireRing q = d.finishRing q { status := efsTimeout, ap := b.ap }))

/-- REF_IN present and lost, an edge of PPS_IN and its loss, and lock: what each writes in the clock. A configured reference lost is holdover, with the
correction at its average of the last second; the last one back ends it, SLEWING, with at most 5 ppm added and no step; with every reference present,
the frequency error below 1 ppb and the phase error within two ticks the timebase is LOCKED, which an edge of PPS_IN farther off ends. An armed load
acts at the first edge of PPS_IN at or after its cycle: the count is loaded and the arming is spent. What is due at that tick acts first. From
03_timebase_launch.md. Rests also on the model's own choices or readings: log 27, 111. -/
def Obligations.ReferencesComeAndGo : Prop :=
  (∀ (dt : Nat) (s : State),
      let d := s.after dt
      let c := d.clk
      let began : Option Nat := some (c.holdoverAt.getD c.time)
      let held : Int := if c.tq = Tq.holdover then c.trim else c.trimMean
      let slewed (t : State) : Prop := t.mem = s.mem ∧ t.dev.clk.tq = Tq.slewing ∧ t.dev.clk.count = c.count ∧ t.dev.clk.trim = c.trim ∧
        t.dev.clk.holdoverAt = none ∧ -5000000 ≤ t.dev.clk.added ∧ t.dev.clk.added ≤ 5000000
      (c.refMode ≠ 0 → c.role ≤ 1 →
        (c.tq ≠ Tq.holdover → exec (.refInPresent dt) s = .next (s.onto { d with clk := { c with refPresent := true } })) ∧
        (c.tq = Tq.holdover → (c.ppsEn = true → c.ppsPresent = true) →
          ∃ t, exec (.refInPresent dt) s = .next t ∧ slewed t ∧ t.dev.clk.refPresent = true) ∧
        (c.refPresent = true →
          ∃ t, exec (.refInLost dt) s = .next t ∧ t.mem = s.mem ∧
            t.dev.clk = { (c.setTq .holdover).setTrim held 0 with refPresent := false, holdoverAt := began })) ∧
      (∀ falling frac, c.ppsEn = true → c.ppsFall = falling → c.ppsLoad = none → c.tq ≠ Tq.holdover → d.heldCmds = [] →
        (∃ n, ((c.tq = Tq.locked → 3 * (d.ppsPhase frac).natAbs ≤ 20000) →
            exec (.ppsEdge dt falling frac) s = .next (s.onto { d with clk := { c with
              lastPps := c.count, ppsCycle := some c.cycle, ppsGood := n, ppsPresent := c.ppsPresent || decide (3 ≤ n), phaseErr := d.ppsPhase frac } })) ∧
          (∀ x, c.ppsCycle = some x → 2999997000 ≤ c.cycle - x → c.cycle - x ≤ 3000003000 → n = min (c.ppsGood + 1) 3) ∧
          (c.ppsCycle = none → n = 1)) ∧
        (c.tq = Tq.locked → 20000 < 3 * (d.ppsPhase frac).natAbs → ∃ t, exec (.ppsEdge dt falling frac) s = .next t ∧ slewed t)) ∧
      (∀ x, c.ppsEn = true → c.ppsPresent = true → c.ppsCycle = some x → x + 3300000000 ≤ c.cycle →
        ∃ t, exec (.ppsLost dt) s = .next t ∧ t.mem = s.mem ∧
          t.dev.clk = { (c.setTq .holdover).setTrim held 0 with ppsPresent := false, ppsGood := 0, holdoverAt := began }) ∧
      (∀ trim freq phase : Int, d.refsSet = true → d.refsPresent = true → c.tq ≠ Tq.locked → freq.natAbs < 1000 →
        let p := if c.ppsEn then c.phaseErr else phase
        (c.ppsEn = true ∨ c.tq = Tq.slewing → 3 * p.natAbs ≤ 20000) →
        ∃ t, exec (.timebaseLock dt ⟨trim, freq⟩ phase) s = .next t ∧ t.mem = s.mem ∧
          t.dev.clk = { (c.setTq .locked).setTrim trim 0 with phaseErr := p, holdoverAt := none })) ∧
  (∀ (dt frac at_ : Nat) (falling : Bool) (v : QWord) (s : State),
      let d := s.after dt
      let c := d.clk
      c.ppsEn = true → c.ppsFall = falling → c.ppsLoad = some (v, at_) → at_ ≤ c.cycle →
        (d.actionsDue = false → d.heldCmds = [] →
          ∃ t, exec (.ppsEdge dt falling frac) s = .next t ∧ t.mem = s.mem ∧ t.dev.clk.count = v ∧ t.dev.clk.epoch = c.epoch + 1 ∧
            t.dev.clk.ppsLoad = none ∧ t.dev.glob.launches = []) ∧
        (d.actionsDue = true →
          let x := settleDue (d, s.mem)
          exec (.ppsEdge dt falling frac) s = .next (s.ontoAll ((x.1.ppsEdge falling frac).runHeldAll, x.2))))

/-- A timebase load takes the count to its value and advances EPOCH; every launch and RESET_AT still pending, and every snapshot not yet latched, is gone;
no aperture named by a cancelled launch is launch pending under it. From 03_timebase_launch.md. Rests also on the model's own choices or readings: log
46, 48. -/
def Obligations.LoadCancelsScheduledActions : Prop :=
  ∀ (d : Dev) (v : QWord),
    let t := d.loadTime v
    t.clk.count = v ∧ t.clk.epoch = d.clk.epoch + 1 ∧ t.clk.cycle = d.clk.cycle ∧ t.clk.time = d.clk.time ∧
    t.glob.launches = [] ∧ t.glob.resets = [] ∧ (∀ x ∈ t.glob.snaps, x.latched.isSome = true) ∧
    ∀ l ∈ d.glob.launches, ∀ a ∈ l.apertures, (t.ap a).launch ≠ some l.id

/-- A word acted on already is not acted on again: its repeat, on a link that is up, is only noted as a good word, whatever its type. From
03_timebase_launch.md. -/
def Obligations.RepeatedWordIsIgnored : Prop :=
  ∀ (dt k : Nat) (w : SyncWord) (i : Instr) (s : State),
    let d := s.after dt
    (d.link k).up = true → w.repeated = true → w.seq % 256 ∈ (d.link k).rxSeen →
      i ∈ [Instr.rangeReq dt k w, .rangeEcho dt k w, .fire dt k w, .cancel dt k w, .applied dt k w, .snapFire dt k w, .resetFire dt k w,
        .barrierArrive dt k w, .barrierWithdraw dt k w, .barrierRelease dt k w, .barrierWithdrawn dt k w, .bcastData dt k w, .bcastAck dt k w,
        .trig dt k w, .verdict dt k w] →
      exec i s = .next (s.onto (d.setLink k { d.link k with bad := 0, goodAt := d.cyc }))

/-- Words that come down to a member: FIRE schedules the launch bound under its identifier, CANCEL removes it, SNAP_FIRE and RESET_FIRE schedule theirs,
the parts of BCAST_DATA are kept and with the last the payload waits for its tick, APPLIED ends the command that waits for the count, BARRIER_RELEASE
ends the one at the barrier at its tick, and BARRIER_WITHDRAWN at once. A word of launch class that comes within 108 ticks of its tick is late: a late
FIRE leaves the binding pending and applies nothing, and a late BARRIER_RELEASE releases nothing. From 03_timebase_launch.md. Rests also on the
model's own choices or readings: log 28, 47. -/
def Obligations.WordsReachAMember : Prop :=
  (∀ (dt : Nat) (w : SyncWord) (s : State),
      let d := s.after dt
      let r := d.heard 0 w
      let g := r.glob
      let tick := w.tick.toNat
      let scope := w.arg % 4
      let bscope := w.arg / 2 ^ 16 % 4
      let part := w.arg / 2 ^ 24 % 256
      let others := (r.link 0).parts.filter (fun p => decide (p.1 ≠ w.id ∨ p.2.1 ≠ part))
      d.clk.role = 3 → d.hears 0 w = true →
        (∀ l, r.firedOf w.id = some l → l.mode = 1 → l.origin = false → d.now + 108 ≤ tick →
          exec (.fire dt 0 w) s = .next (s.onto (r.putLaunch (some l)
            { id := w.id, mode := 2, tick := some tick, scope := scope, apertures := l.apertures, fired := true, check := d.now }).avoidLaunches)) ∧
        (∀ l, r.firedOf w.id = some l → l.tick = some tick → d.now + 108 ≤ tick →
          exec (.cancel dt 0 w) s = .next (s.onto ((r.dropGather w.id tick).removeLaunch l))) ∧
        (∀ x, r.snapOf w.id = some x → x.mode = 1 → x.origin = false → d.now + 108 ≤ tick →
          exec (.snapFire dt 0 w) s = .next (s.onto (r.putSnap (some x) { id := w.id, no := x.no, mode := 2, tick := some tick, scope := scope }))) ∧
        (d.now + 108 ≤ tick → (∀ x ∈ g.resets, x.origin = false) →
          exec (.resetFire dt 0 w) s = .next (s.onto { r with glob := { g with resets := g.resets ++
            [{ id := w.id, tick := tick, scope := scope, time := decide (w.arg / 4 % 2 = 1), acq := decide (w.arg / 8 % 2 = 1),
               load := QWord.ofHalves (w.payload.getD 0 0) (w.payload.getD 1 0), origin := false }] } })) ∧
        (part < 3 → exec (.bcastData dt 0 w) s = .next (s.onto (r.setLink 0
          { r.link 0 with parts := others ++ [(w.id, part, tick + 2 ^ 64 * (w.arg % 2 ^ 24))] }))) ∧
        (∀ v, part = 3 → (r.link 0).bcastWhole w.id = some v →
          ∃ t, exec (.bcastData dt 0 w) s = .next t ∧ t.mem = s.mem ∧ t.dev.glob.bcasts = g.bcasts ++
            [{ id := w.id, tick := tick, payload := (List.range 8).map (fun j => BitVec.ofNat 32 (v / 2 ^ (32 * j))), scope := 1, waits := [], count := 0,
               sender := false }]) ∧
        (w.arg / 2 ^ 16 % 2 = 0 → exec (.applied dt 0 w) s = .next (s.onto
          (r.finish (.fire w.id tick) { result0 := BitVec.ofNat 64 tick, result1 := BitVec.ofNat 64 (w.arg % 2 ^ 16) }))) ∧
        (w.arg / 2 ^ 16 % 2 = 1 → exec (.applied dt 0 w) s = .next (s.onto (r.updGlob (fun (x : Globals) =>
          { x with snaps := x.snaps.map (fun (y : Snap) => if y.id = w.id ∧ y.tick = some tick ∧ y.origin then { y with applied := some (w.arg % 2 ^ 16) } else y) })))) ∧
        (d.now + 108 ≤ tick → exec (.barrierRelease dt 0 w) s = .next (s.onto { r with glob := { g with
          barriers := g.barriers.filter (fun c => !(decide (c.id = w.id ∧ c.scope = bscope)))
          releases := g.releases ++ [{ id := w.id, scope := bscope, tick := tick, cycle := d.cyc + (tick - d.now) }] } })) ∧
        exec (.barrierWithdrawn dt 0 w) s = .next (s.onto (r.finish (.barrier w.id bscope true) { status := efsTimeout }))) ∧
  (∀ (dt : Nat) (w : SyncWord) (s : State),
      let d := s.after dt
      let r := d.heard 0 w
      d.clk.role = 3 → d.hears 0 w = true → w.tick.toNat < d.now + 108 →
        (∀ l : Launch, r.firedOf w.id = some l → l.mode = 1 → r.glob.applied = [] →
          ∃ t, exec (.fire dt 0 w) s = .next t ∧ t.mem = s.mem ∧ t.dev.aps = r.aps ∧
            t.dev.glob = (r.putLaunch (some l) { l with mode := 1, tick := none, origin := false, fired := false }).glob) ∧
        ∃ t, exec (.barrierRelease dt 0 w) s = .next t ∧ t.mem = s.mem ∧ t.dev.glob = r.glob ∧ t.dev.rings = r.rings)

/-- Words that come to a link's other end: an IDLE keeps the quality and the scope bit it carries, which on a member are the scope-complete bits; a
request is echoed, an echo is a measurement whose mean over the last eight is the delay; at the top of a group's scope an arrival is counted, and the
last one releases the barrier, a withdrawal is answered, and an acknowledgement counts toward its broadcast. From 03_timebase_launch.md. Rests also on
the model's own choices or readings: log 28, 47. -/
def Obligations.WordsReachTheTop : Prop :=
  ∀ (dt k : Nat) (w : SyncWord) (s : State),
    let d := s.after dt
    let r := d.heard k w
    let g := r.glob
    let n := w.arg % 2 ^ 16
    ((d.link k).up = true →
      ∃ t, exec (.idle dt k w) s = .next t ∧ t.mem = s.mem ∧
        (t.dev.link k) = { d.link k with bad := 0, goodAt := d.cyc, tq := w.arg % 4, complete := decide (w.arg / 4 % 2 = 1) } ∧
        (d.clk.role = 3 → k = 0 → t.dev.clk.scopeGroup = decide (w.arg / 4 % 2 = 1) ∧ t.dev.clk.scopeSystem = decide (w.arg / 4 % 2 = 1))) ∧
    (d.hears k w = true →
      exec (.rangeReq dt k w) s = .next (s.onto (r.queueWord k { type := 0x02, id := w.id, tick := w.tick, payload := [d.clk.count.lo, d.clk.count.hi] })) ∧
      ((d.link k).reqAt = some w.tick →
        let ms := (((d.clk.count - w.tick).toNat - w.arg) * 1000 / 6 :: (d.link k).meas).take 8
        ∃ t, exec (.rangeEcho dt k w) s = .next t ∧ t.mem = s.mem ∧ (t.dev.link k).meas = ms ∧ (t.dev.link k).delayPs = ms.sum / ms.length ∧ (t.dev.link k).reqAt = none) ∧
      (d.clk.role = 1 → w.arg / 2 ^ 16 % 4 = 1 → g.barriers = [] →
        let c : BarrierCount := { id := w.id, scope := 1, links := [(k, n)], own := false }
        exec (.barrierArrive dt k w) s = .next (s.onto { r with glob := { g with barriers := [c] } })) ∧
      (d.clk.role = 1 → w.arg / 2 ^ 16 % 4 = 1 → d.groupLinks = [k] → (r.link k).spaced = [] → (r.link k).launchQ.length ≤ 2 →
        ∀ c : BarrierCount, g.barriers = [c] → c.id = w.id → c.scope = 1 → c.own = true → c.links = [] →
          let out : SyncOut := { type := 0x22, id := w.id, arg := (n + 1) % 2 ^ 16 + 2 ^ 16, tick := BitVec.ofNat 64 (d.now + 1575) }
          ∃ t, exec (.barrierArrive dt k w) s = .next t ∧ t.mem = s.mem ∧ t.dev.glob.barriers = [] ∧
            t.dev.glob.releases = g.releases ++ [{ id := w.id, scope := 1, tick := d.now + 1575, cycle := d.cyc + 1575 }] ∧
            (t.dev.link k).launchQ = (r.link k).launchQ ++ [out, { out with flags := 1 }]) ∧
      (d.clk.role = 1 → w.arg / 2 ^ 16 % 4 = 1 → g.releases = [] → ∀ c : BarrierCount, g.barriers = [c] → c.id = w.id → c.scope = 1 →
        let c' : BarrierCount := { c with links := c.links.filter (fun l => decide (l.1 ≠ k)), sentUp := false }
        exec (.barrierWithdraw dt k w) s = .next (s.onto
          ({ r with glob := { g with barriers := [c'] } }.queueWord k { type := 0x23, id := w.id, arg := c'.count % 2 ^ 16 + 2 ^ 16 }))) ∧
      (d.clk.role = 1 → ∀ x : Bcast, g.bcasts = [x] → x.id = w.id → k ∈ x.waits → x.delivered = false →
        exec (.bcastAck dt k w) s = .next (s.onto
          { r with glob := { g with bcasts := [{ x with waits := x.waits.filter (· != k), count := x.count + w.arg }] } })))

/-- TRIG and VERDICT at a member: a confirmed TRIG leaves at once for its consumers, a provisional one is pending until its VERDICT, which ends it, or for
16,384 ticks, after the last of which it is cancelled and counted; a verdict that matches nothing is counted. A lane's slot sends the oldest word of
launch class, then of triggers, then the rest, else an IDLE, each with its CRC; ranging is asked for once a second on a link that is up; a bad CRC is
counted there; a link within its cable allowance comes up with the delay it measured, loading or slewing the count of a device below, and an upstream
link that goes down takes the device into holdover. From 03_timebase_launch.md; 07_triggers.md. Rests also on the model's own choices or readings: log
28, 108. -/
def Obligations.RemoteTriggersAndLanes : Prop :=
  (∀ (dt : Nat) (w : SyncWord) (s : State),
      let d := s.after dt
      let r := d.heard 0 w
      let fire := w.arg % 256
      let src := 0x5000 + w.id
      (d.clk.role = 3 → d.hears 0 w = true →
        (w.prov = false → exec (.trig dt 0 w) s = .next (s.onto
          ((r.bump 0x4A2000).leave src 30 (.cand { src := src, fire := fire, tick := w.tick.toNat, prov := false })))) ∧
        (w.prov = true → d.remote.pending.length < 64 →
          ∃ t, exec (.trig dt 0 w) s = .next t ∧ t.mem = s.mem ∧ t.dev.aps = d.aps ∧ t.dev.combs = d.combs ∧
            t.dev.remote = { d.remote with pending := d.remote.pending ++ [(w.id, fire, w.tick.toNat, d.clk.cycle, 0)] }) ∧
        (d.remote.pending = [] → (w.id, fire) ∉ d.remote.resolved → exec (.verdict dt 0 w) s = .next (s.onto (r.bump 0x4A200C))) ∧
        (∀ p, d.remote.pending = [p] → p.1 = w.id → p.2.1 = fire → w.arg / 2 ^ 10 % 2 = 0 →
          ∃ t, exec (.verdict dt 0 w) s = .next t ∧ t.mem = s.mem ∧ t.dev.aps = d.aps ∧ t.dev.combs = d.combs ∧ t.dev.remote = { d.remote with pending := [] })) ∧
      (∀ p, d.remote.pending = [p] → p.2.2.2.1 + 16384 < d.clk.cycle →
        ∃ t, exec (.remoteTrigTimeout dt p.1 p.2.1) s = .next t ∧ t.mem = s.mem ∧
          t.dev.remote = { pending := [], resolved := d.remote.resolved ++ [(p.1, p.2.1)] } ∧ t.dev.reg 0x4A2004 = d.reg 0x4A2004 + 1)) ∧
  (∀ (dt k : Nat) (s : State),
      let d := s.after dt
      let l := d.link k
      let seq := (l.txSeq + 1) % 256
      let idle := d.clk.tq.code + 4 * (d.idleBit k).toNat
      (l.up = true → d.glob.applied = [] →
        (∀ (w : SyncOut) (rest : List SyncOut), l.launchQ = { w with flags := 0, seq := none } :: { w with flags := 1, seq := none } :: rest → w.type ≠ 0x01 → w.type ≠ 0x02 →
          l.spaced = [] →
          exec (.syncWordSlot dt k) s = .next (s.onto
            ((d.setLink k { l with txSeq := seq, launchQ := { w with flags := 1, seq := some seq } :: rest }).emit
              (.sync k w.type seq 0 w.id w.arg w.tick (wordCrc (wordBits w.type seq 0 w.id w.arg w.tick)))).settleCancels)) ∧
        (l.launchQ = [] → l.trigQ = [] → l.otherQ = [] →
          exec (.syncWordSlot dt k) s = .next (s.onto
            (d.emit (.sync k 0x00 l.txSeq 0 0 idle d.clk.count (wordCrc (wordBits 0x00 l.txSeq 0 0 idle d.clk.count)))).settleCancels))) ∧
      (l.up = true →
        (l.rangedAt = none → exec (.rangingTimer dt k) s = .next (s.onto ((d.setLink k { l with rangedAt := some d.cyc }).queueWord k { type := 0x01 }))) ∧
        (∀ t0, l.rangedAt = some t0 →
          (t0 + 3000000000 ≤ d.cyc → exec (.rangingTimer dt k) s = .next (s.onto ((d.setLink k { l with rangedAt := some d.cyc }).queueWord k { type := 0x01 }))) ∧
          (d.cyc < t0 + 3000000000 → exec (.rangingTimer dt k) s = .next (s.onto d))) ∧
        (l.bad < 15 → exec (.syncWordCrcError dt k) s = .next (s.onto
          ({ d with clk := { d.clk with linkErr := d.clk.linkErr + 1 } }.setLink k { l with bad := l.bad + 1 })))) ∧
      (∀ (ps : Nat) (up : QWord), l.up = false → d.linkUsed k = true → l.meas = [] → ps ≤ (if k < 8 then 250000 else 775000) → d.heldCmds = [] →
        (d.fromAbove k = false →
          ∃ t, exec (.syncLinkUp dt k ps up) s = .next t ∧ t.mem = s.mem ∧
            t.dev.link k = { ({} : SyncLink) with up := true, delayPs := ps, meas := [ps], txSeq := l.txSeq, rangedAt := some d.cyc, goodAt := d.cyc }) ∧
        (d.fromAbove k = true → (∀ p ∈ d.aps, p.2.state ≠ 3) → d.actionsDue = false →
          ∃ t, exec (.syncLinkUp dt k ps up) s = .next t ∧ t.mem = s.mem ∧ (t.dev.link k).up = true ∧ t.dev.clk.count = up + BitVec.ofNat 64 (ps * 3 / 1000)) ∧
        (d.fromAbove k = true → (∃ p ∈ d.aps, p.2.state = 3) →
          ∃ t, exec (.syncLinkUp dt k ps up) s = .next t ∧ t.mem = s.mem ∧ t.dev.clk.count = d.clk.count ∧ t.dev.clk.tq = Tq.slewing)) ∧
      (∀ cause : Nat, l.up = true → d.linkUsed k = true → d.glob.applied = [] → (cause = 1 → l.goodAt + 720 ≤ d.cyc ∨ 16 ≤ l.bad) →
        ∃ t, exec (.syncLinkDown dt k cause) s = .next t ∧ t.mem = s.mem ∧ t.dev.link k = { ({} : SyncLink) with delayPs := l.delayPs, txSeq := l.txSeq } ∧
          (d.fromAbove k = true → t.dev.clk.tq = Tq.holdover)))

/-- A launch whose tick has come takes its apertures LIVE under their new planes, is pending no more, and EV_LAUNCH_DONE gives the tick and how many they
were. A launch of a wider scope also counts this device. A halt whose tick has come takes a LIVE aperture to HALTED with its cause, from that tick,
with no candidate held; the other apertures keep their state. From 03_timebase_launch.md; 08_acquisition.md. Rests also on the model's own choices or
readings: log 23, 25. -/
def Obligations.LaunchAndHaltTicks : Prop :=
  ((∀ (dt id t : Nat) (l : Launch) (s : State),
      let d := s.after dt
      let as_ := d.dueApertures l
      let x := launchApertures t as_ (d, s.mem)
      let c := x.1.retuneLinks l.check t as_
      let y : Dev := { c with glob := { c.glob with launches := c.glob.launches.filter (fun m => decide (m ≠ l)) } }.raiseAt 0x010 (Config.eventSev 0x010).toNat
        id as_.length 0 (BitVec.ofNat 64 t)
      id ≠ 0 → d.dueLaunch id = some l → l.tick = some t → as_ ≠ [] →
        (l.mode = 0 → exec (.launchTick dt id) s = .next (s.ontoAll (y.runHeldAll, x.2))) ∧
        (l.mode ≠ 0 → exec (.launchTick dt id) s = .next (s.ontoAll ((y.report id t 99 1 false).runHeldAll, x.2)))) ∧
    ∀ (d : Dev) (t : Nat) (r : Relaunch),
      let p := (d.installPlane t r).ap r.a
      p.state = 3 ∧ p.since = t ∧ p.live = r.new ∧ p.launch = none ∧ p.changeAdmitted = false ∧ p.haltCause = (d.ap r.a).haltCause) ∧
  (∀ (dt a : Nat) (h : Sched) (s : State),
      let d := s.after dt
      dueSched d d.glob.halts a = some h → (d.ap a).state = 3 → d.heldCmds = [] →
        ∃ t, exec (.apertureHaltTick dt a) s = .next t ∧ (t.dev.ap a).state = 4 ∧ (t.dev.ap a).haltCause = h.cause ∧ (t.dev.ap a).since = h.tick ∧
          (t.dev.ap a).acq.sub = 0 ∧ (t.dev.ap a).acq.prov = none ∧ h ∉ t.dev.glob.halts ∧ ∀ b, b ≠ a → (t.dev.ap b).state = (d.ap b).state)

/-- A snapshot latches every aperture that is not EMPTY at its tick; then it is written to the OUT buffer of its command, which completes with the tick
and the entries written. RESET_AT at its tick restarts the acquisition of every LIVE aperture when it asks for it, then loads the count when it asks
for it, and its command completes on the origin. A broadcast at its tick is stored, and counted; one that waits for its acknowledgements stays. From
03_timebase_launch.md. Rests also on the model's own choices or readings: log 29, 46. -/
def Obligations.ScheduledActionsHappen : Prop :=
  (∀ (dt id q t : Nat) (x : Snap) (s : State),
      let d := s.after dt
      x.id = id → x.tick = some t → d.glob.snaps = [x] → d.ringsOn (.snapshot id x.no) = [q] →
        (x.mode = 0 → x.latched = none → x.fired = true → t ≤ d.now → d.launchesBy t = false →
          let as_ := (d.aps.filter (fun (p : Nat × Aperture) => decide (p.2.state ≠ 0))).map (·.1)
          exec (.snapshotTick dt id) s = .next (s.onto { d with glob := { d.glob with snaps :=
            [{ x with latched := some (as_.map d.snapEntry, d.clk.tq.code, d.clk.epoch), waits := as_.flatMap (fun a => (d.ap a).acq.unresolved a) }] } })) ∧
        (∀ es tq epoch b, x.latched = some (es, tq, epoch) → x.waits = [] → x.applied = none → (d.ring q).busy = some b →
          let n := if b.outLen < 16 then 0 else min es.length ((b.outLen - 16) / 32)
          let head := qwords t ++ [Word.place 15 0 es.length ||| Word.place 17 16 tq ||| Word.place 20 18 d.clk.group ||| Word.place 23 21 d.clk.pos, BitVec.ofNat 32 epoch]
          let f := (d.writeOut b.outPtr b.outLen (head ++ (es.take n).flatten)).finishRing q { result0 := BitVec.ofNat 64 t, result1 := BitVec.ofNat 64 n }
          exec (.snapshotOutWrite dt id) s = .next (s.onto
            (if (f.ringsOn (.snapFire id t)).isEmpty then { f with glob := { f.glob with snaps := f.glob.snaps.filter (fun y => decide (y ≠ x)) } } else f)))) ∧
  (∀ (dt id : Nat) (r : ResetAct) (b : Bcast) (s : State),
      let d := s.after dt
      (r.id = id → r.tick ≤ d.now → r.fired = true → d.glob.resets = [r] → d.launchesBy d.now = false → d.snapsBy d.now = false →
        let live := (d.aps.filter (fun (p : Nat × Aperture) => decide (p.2.state = 3))).map (·.1)
        let y := if r.acq then live.foldl (fun z a => restartAcq a z) (d, s.mem) else (d, s.mem)
        let c := (y.1.updGlob (fun g => { g with resets := [] })).finish (.reset r.id r.tick) { doneTb := some (BitVec.ofNat 64 r.tick) }
        let z := if r.time then c.loadTime (r.load + BitVec.ofNat 64 (d.now - r.tick)) else c
        exec (.resetTick dt id) s = .next (s.ontoAll (z.runHeldAll, y.2))) ∧
      (d.glob.bcasts = [b] → b.delivered = false → b.tick ≤ d.now → b.waits ≠ [] →
        exec (.broadcastDelivery dt) s = .next (s.onto
          { d with glob := { d.glob with bcasts := [{ b with delivered := true }] }, clk := { d.clk with bcast := b.payload, bcastSeq := d.clk.bcastSeq + 1 } })))

/-- The decision on a mask unit's oldest frame: the frame leaves the unit, its hit enters the history, FRAMES and HIST follow, and HITS counts a hit.
Before D + N/8 + 48 nothing happens. A confirmed event at a combiner moves its sequence on; the event that satisfies the last stage makes an output,
numbered, and counted in FIRES when it has left the combiner, 6 ticks later. One stamped before the launch's count is discarded. A verdict settles the
provisional event held for it: confirmed it counts, cancelled it is gone. From 07_triggers.md. Rests also on the model's own choice or reading: log
122. -/
def Obligations.MasksAndCombiners : Prop :=
  (∀ (dt u : Nat) (f : MaskFrame) (rest : List MaskFrame) (s : State),
      let d := s.after dt
      let x := d.mask u
      u < 256 → x.frames = f :: rest →
        (d.clk.cycle < f.d + f.n / 8 + 48 → exec (.maskVerdict dt u) s = .next (s.onto d)) ∧
        (f.d + f.n / 8 + 48 ≤ d.clk.cycle →
          let hit := decide (mkBinsMin f.block.words ≤ f.viol) && !f.excluded && !(f.poison || f.checkFails) && !(bitAt f.block.words 0x08 11 && f.ovr)
          let hist := (hit :: (if f.restart then [] else x.hist)).take 64
          ∃ t, exec (.maskVerdict dt u) s = .next t ∧ t.mem = s.mem ∧ (t.dev.mask u).frames = rest ∧ (t.dev.mask u).hist = hist ∧
            t.dev.reg (0x490000 + 32 * u) = d.reg (0x490000 + 32 * u) + 1 ∧ t.dev.reg (0x490000 + 32 * u + 0x18) = histWord hist ∧
            t.dev.reg (0x490000 + 32 * u + 0x04) = d.reg (0x490000 + 32 * u + 0x04) + (if hit then 1 else 0))) ∧
  ((∀ (dt k i : Nat) (b : Block) (c : Candidate) (at_ : Nat) (rest : List (Nat × Nat × TrigMsg)) (s : State),
      let d := s.after dt
      let x := d.comb k
      k < 64 → x.block = some b → at_ ≤ d.clk.cycle →
        (x.inbox = (at_, i, .cand c) :: rest → c.tick < x.from_ →
          exec (.combinerEvent dt k) s = .next (s.onto ((d.setComb k { x with inbox := rest }).combStat k))) ∧
        (x.inbox = (at_, i, .cand c) :: rest → x.from_ ≤ c.tick → x.prov = none → c.prov = false →
          let r := x.seq.take b.words i c.tick
          (r.2 = none → ∃ t, exec (.combinerEvent dt k) s = .next t ∧ t.mem = s.mem ∧ t.dev.comb k = { x with inbox := rest, seq := r.1 } ∧ ∀ j, j ≠ k → t.dev.comb j = d.comb j) ∧
          (∀ tick, r.2 = some tick → ∃ t e, exec (.combinerEvent dt k) s = .next t ∧ t.mem = s.mem ∧ (t.dev.comb k).seq = r.1 ∧ (t.dev.comb k).fires = x.fires + 1 ∧
            t.dev.combTold = d.combTold ++ [e] ∧ e.k = k ∧ e.cycle = d.cyc + 6 ∧ e.fire = x.fires ∧ e.tick = tick ∧ e.ok = true)) ∧
        (∀ src fire h, x.inbox = (at_, i, .verdict src fire false) :: rest → x.prov = none → x.dropped = [] → x.held = [h] → h.2.src = src → h.2.fire = fire →
          ∃ t, exec (.combinerVerdict dt k) s = .next t ∧ t.mem = s.mem ∧ t.dev.comb k = { x with inbox := rest, held := [] })) ∧
    ∀ (d : Dev) (e : CombTold), e.ok = true → (d.combTells e).reg (0x4A0000 + 32 * e.k + 0x04) = d.reg (0x4A0000 + 32 * e.k + 0x04) + 1)

/-- A trigger output: the pulse at the head of the queue starts at its tick and is counted, ends at its own, and the code of the pulse whose verdict came
first is sent 18 ticks after it. A pulse in EARLY mode lasts 6 ticks and takes the next number of 16. From 07_triggers.md. Rests also on the model's
own choice or reading: log 51. -/
def Obligations.TriggerOutputsPulse : Prop :=
  ∀ (dt n : Nat) (r : PulseReq) (rest : List PulseReq) (p : PulseSent) (s : State),
    let d := s.after dt
    let x := d.to n
    let cyc := d.clk.cycle
    (x.queue = r :: rest → r.due ≤ cyc → r.early = false →
      exec (.triggerPulse dt n) s = .next (s.onto
        (((d.setTo n { x with queue := rest, active := true, endAt := r.due + r.width }).bump (0x4A1000 + 16 * n)).emit (.pulse n true)))) ∧
    (x.queue = r :: rest → r.due ≤ cyc → x.freeAt ≤ cyc → r.early = true → r.verdict = none →
      exec (.triggerPulse dt n) s = .next (s.onto ((d.setTo n { x with
        queue := rest, active := true, endAt := cyc + 6, freeAt := cyc + 9, num := (x.num + 1) % 16,
        sent := x.sent ++ [{ src := r.src, fire := r.fire, num := x.num, start := cyc, verdict := none, verdictAt := r.verdictAt }] }).emit (.pulse n true)))) ∧
    (x.active = true → x.endAt ≤ cyc → exec (.triggerPulseEnd dt n) s = .next (s.onto ((d.setTo n { x with active := false }).emit (.pulse n false)))) ∧
    (leastBy (fun (y : PulseSent) => y.verdictAt) (x.sent.filter (fun y => y.verdict.isSome)) = some p → p.verdictAt + 18 ≤ cyc → p.start + 6 ≤ cyc → x.codeFreeAt ≤ cyc →
      let y := d.setTo n { x with sent := x.sent.filter (· != p), codeFreeAt := cyc + 8 }
      (p.verdict = some true → exec (.cancelCode dt n) s = .next (s.onto (y.emit (.code n p.num false)))) ∧
      (p.verdict = some false → exec (.cancelCode dt n) s = .next (s.onto ((y.bump (0x4A1000 + 16 * n + 4)).emit (.code n p.num true)))))

/-- A candidate at a LIVE aperture with none pending: a confirmed one that meets FILLING or ARMED is accepted, opens a record and enters POSTFILL; a
provisional one stands beside the state; one that meets COMPLETE or REARM is counted. Its verdict confirms or discards it. From 07_triggers.md;
08_acquisition.md. Rests also on the model's own choice or reading: log 36. -/
def Obligations.CandidatesAtAnAperture : Prop :=
  ∀ (dt a : Nat) (c : Candidate) (at_ : Nat) (rest : List (Nat × TrigMsg)) (s : State),
    let d := s.after dt
    let p := d.ap a
    let x := p.acq
    let y := d.updAcq a (fun z => { z with inbox := rest })
    let more : Prop := ∃ r ∈ x.subs, (r.held.filter (fun e => decide (c.tick ≤ e.stamp))).length < r.post
    a < 1024 → p.state = 3 → p.capture ≠ none → at_ ≤ d.clk.cycle → x.opened = [] →
      (x.inbox = (at_, .cand c) :: rest → x.prov = none →
        (c.prov = false → (x.sub = 1 ∨ x.sub = 2) → more →
          ∃ t, exec (.apertureCandidate dt a) s = .next t ∧ t.mem = s.mem ∧ (t.dev.ap a).acq.sub = 4 ∧ (t.dev.ap a).acq.triggered = x.triggered + 1 ∧
            (t.dev.ap a).acq.recno = x.recno + 1 ∧ (t.dev.ap a).acq.inbox = rest ∧ t.dev.reg (0x4C0000 + 32 * a + 0x08) = d.reg (0x4C0000 + 32 * a + 0x08) + 1 ∧
            ∃ r, (t.dev.ap a).acq.opened = [r] ∧ r.recno = x.recno ∧ r.trigTick = c.tick ∧ r.noTrigger = false) ∧
        (c.prov = true → (x.sub = 1 ∨ x.sub = 2) →
          exec (.apertureCandidate dt a) s = .next (s.onto (y.updAcq a (fun z => { z with prov := some (c, x.sub) })))) ∧
        (c.prov = false → (x.sub = 5 ∨ x.sub = 6 ∧ d.clk.cycle < x.rearmAt + 384) →
          ∃ t, exec (.apertureCandidate dt a) s = .next t ∧ t.mem = s.mem ∧ (t.dev.ap a).acq = { x with inbox := rest } ∧
            t.dev.reg (0x4C0000 + 32 * a + 0x0C) = d.reg (0x4C0000 + 32 * a + 0x0C) + 1)) ∧
      (∀ m ok, x.inbox = (at_, .verdict c.src c.fire ok) :: rest → x.prov = some (c, m) → x.lost = [] → x.held = [] → d.heldCmds = [] → (x.sub = 1 ∨ x.sub = 2) → more →
        ∃ t, exec (.apertureVerdict dt a) s = .next t ∧ t.mem = s.mem ∧ (t.dev.ap a).acq.prov = none ∧ (t.dev.ap a).acq.inbox = rest ∧
          (ok = false → (t.dev.ap a).acq.sub = x.sub ∧ (t.dev.ap a).acq.opened = []) ∧
          (ok = true → (t.dev.ap a).acq.sub = 4 ∧ (t.dev.ap a).acq.triggered = x.triggered + 1))

/-- A new sequence: REARM ends 384 ticks after it began, CAPTURE_ARM begins it at its tick, and CAPTURE_FREEZE at its tick ends the sequence in COMPLETE
with a record that had no trigger. The capture writer puts the oldest finished entry of a sub-ring that the sequence takes at the position of the
current slice, in memory too, and a record whose every sub-ring has its last entry is listed, whole, at the present tick. From 08_acquisition.md.
Rests also on the model's own choice or reading: log 36. -/
def Obligations.SequencesEntriesAndRecords : Prop :=
  (∀ (dt a : Nat) (s : State),
      let d := s.after dt
      let p := d.ap a
      (p.state = 3 → p.acq.sub = 6 → p.acq.rearmAt + 384 ≤ d.clk.cycle → p.capture ≠ none →
        ∃ t, exec (.rearmEnd dt a) s = .next t ∧ t.mem = s.mem ∧ ((t.dev.ap a).acq.sub = 1 ∨ (t.dev.ap a).acq.sub = 2) ∧ (t.dev.ap a).acq.t0 = d.now - (d.clk.cycle - (p.acq.rearmAt + 384)) ∧
          (t.dev.ap a).acq.triggered = 0 ∧ (t.dev.ap a).acq.completed = 0 ∧ (t.dev.ap a).acq.opened = [] ∧ (t.dev.ap a).acq.begun = p.acq.begun + 1 ∧
          (t.dev.ap a).acq.listed = p.acq.listed ∧ ∀ r ∈ (t.dev.ap a).acq.subs, r.p = 0 ∧ r.count = 0 ∧ r.held = []) ∧
      (∀ x, dueSched d d.glob.arms a = some x → p.state = 3 → p.acq.sub = 5 →
        ∃ t, exec (.captureArmEffect dt a) s = .next t ∧ t.mem = s.mem ∧ (t.dev.ap a).acq.sub = 6 ∧ (t.dev.ap a).acq.rearmAt = d.clk.cycle ∧
          (t.dev.ap a).acq.listed = p.acq.listed ∧ ∀ y ∈ t.dev.glob.arms, y.unit ≠ a) ∧
      (∀ x, dueSched d d.glob.freezes a = some x → p.state = 3 → p.capture ≠ none → (p.acq.sub = 1 ∨ p.acq.sub = 2) → p.acq.opened = [] →
        ∃ t, exec (.captureFreezeEffect dt a) s = .next t ∧ (t.dev.ap a).acq.sub = 5 ∧ (t.dev.ap a).acq.opened = [] ∧
          (∃ r, (t.dev.ap a).acq.listed = p.acq.listed.filter (fun o => decide (o.slot ≠ p.acq.slice)) ++ [r] ∧ r.recno = p.acq.recno ∧ r.noTrigger = true ∧ r.cut = 1 ∧ r.trigTick = d.now) ∧
          ∀ y ∈ t.dev.glob.freezes, y.unit ≠ a)) ∧
  (∀ (dt a slot ch i : Nat) (w : List Word) (r : SubRing) (e : RedEntry) (rest : List RedEntry) (s : State),
      let d := s.after dt
      let p := d.ap a
      let addr := r.base + p.acq.slice * r.sliceBytes + r.p * r.entryBytes
      p.state = 3 → p.capture = some w →
        (p.acq.opened = [] → p.acq.sub ≠ 5 → p.acq.sub ≠ 6 → p.acq.subs[i]? = some r →
          (p.acq.subs.zipIdx).find? (fun (x : SubRing × Nat) => decide (x.1.slot = slot ∧ x.1.ch = ch)) = some (r, i) → r.ready = e :: rest → p.acq.t0 ≤ e.stamp →
          r.stage = {} → e.poisoned = false →
          ∃ t, exec (.entryWrite dt a slot ch) s = .next t ∧
            (t.dev.ap a).acq.subs[i]? = some { r with
              ready := rest
              held := { stamp := e.stamp, slice := p.acq.slice, pos := r.p, poisoned := false, ovr := e.ovr, brk := e.brk } ::
                r.held.filter (fun g => !(decide (g.slice = p.acq.slice ∧ g.pos = r.p)))
              p := (r.p + 1) % r.q
              count := r.count + 1 } ∧
            (t.dev.ap a).acq.wrote = true ∧ t.mem.tp = s.mem.tp ∧
            ((∀ b, d.blockLost b = false ∧ d.pcPoisoned b = false) → t.mem.cap = s.mem.cap.writeBytes addr e.bytes)) ∧
        (∀ o, p.acq.opened.find? (fun x => p.acq.recordDone (cpStreaming w && decide (cpPost w = 0)) x) = some o →
          ∃ t x, exec (.recordComplete dt a) s = .next t ∧ (t.dev.ap a).acq.listed = p.acq.listed.filter (fun y => decide (y.slot ≠ p.acq.slice)) ++ [x] ∧ x.recno = o.recno ∧ x.cut = 0 ∧ x.doneTick = d.now ∧ x.slot = p.acq.slice ∧
            (t.dev.ap a).acq.completed = p.acq.completed + 1 ∧ (∀ y ∈ (t.dev.ap a).acq.opened, y.recno ≠ o.recno) ∧
            (p.acq.completed + 1 = cpSegments w → ((t.dev.ap a).acq.sub = 5 ∨ (t.dev.ap a).acq.sub = 6)) ∧
            (p.acq.completed + 1 ≠ cpSegments w → (t.dev.ap a).acq.sub = p.acq.sub)))

/-- A frame comes scrambled, and is descrambled by the 58 bits before it. A good DATA frame of a routed stream on an aligned pad is held for its group;
the fourth good frame in a row aligns a pad, the eighth bad one in a row loses it. The next group of an anchored complex stream on one lane leaves
after its latency: its 163 samples enter the Splitter in order, each at its instant. From 04_ingress.md. Rests also on the model's own choices or
readings: log 39, 115, 118. -/
def Obligations.PslGroupsAreReleased : Prop :=
  (∀ (dt pad : Nat) (wire w : List Word) (s : State),
      let d := s.after dt
      let p := d.pad pad
      let u := descramble p.scr wire
      let ws := u.1
      let sid := fldAt ws 0 31 24
      let x := d.stream sid
      p.mode = 1 → d.rxDead p.rx = false →
        (p.aligned = true → pslValid ws = true → fldAt ws 0 15 12 = 0 → x.rt = some w → rtKind w = 0 → rtDeskew w = 0 →
          rtLane w ≤ pad → pad < rtLane w + rtBond w → rtLane w + fldAt ws 0 23 20 = pad → bitAt ws 0 16 = rtReal w →
          ∃ t, exec (.pslFrame dt pad wire) s = .next t ∧ t.mem = s.mem ∧ t.dev.pad pad = { p with bad := 0, scr := u.2, lastBad := false } ∧
            t.dev.stream sid = { x with lastGood := d.clk.cycle, held := x.held ++
              [{ bpos := fldAt ws 0 23 20, seq := fldAt ws 4 15 0, real := rtReal w, ovr := bitAt ws 0 17, bad := bitAt ws 0 18, time := qAt ws 0x08,
                 arrive := d.clk.cycle - 144, data := (ws.drop 4).take 163 }] }) ∧
        (p.aligned = false → pslValid ws = true → p.good = 3 → fldAt ws 0 15 12 < 2 →
          ∃ t, exec (.pslFrame dt pad wire) s = .next t ∧ t.mem = s.mem ∧
            t.dev.pad pad = { p with aligned := true, everAligned := true, good := 0, bad := 0, scr := u.2, lastBad := false }) ∧
        (p.aligned = true → pslValid ws = false → p.bad = 7 →
          ∃ t, exec (.pslFrame dt pad wire) s = .next t ∧ t.mem = s.mem ∧
            t.dev.pad pad = { p with aligned := false, bad := 0, good := 0, scr := u.2, lastBad := true })) ∧
  (∀ (dt sid : Nat) (w : List Word) (f : PslHeld) (s : State),
      let d := s.after dt
      let x := d.stream sid
      x.rt = some w → x.held = [f] → f.bpos = 0 → f.data.length = 163 → rtKind w = 0 → rtReal w = false → rtSender w = false → rtBond w = 1 →
        x.anchored = true → f.seq = x.seq → x.seq < 65536 → x.groupPos ≤ x.nextPos → f.arrive + 204 + 144 * rtDeskew w ≤ d.clk.cycle →
        ∃ t, exec (.pslGroupRelease dt sid) s = .next t ∧ t.mem = s.mem ∧ (t.dev.stream sid).held = [] ∧ (t.dev.stream sid).seq = (f.seq + 1) % 65536 ∧
          (t.dev.stream sid).groupPos = x.groupPos + 163 ∧
          (t.dev.stream sid).fifo = x.fifo ++ (f.data.zipIdx).map (fun (u : Word × Nat) =>
            { smp := { i := signedOf 16 (u.1.fld 15 0), q := signedOf 16 (u.1.fld 31 16), poison := f.bad, ovr := f.ovr,
                       instant := x.instantOf (rtRate w) (x.groupPos + u.2) },
              pos := x.groupPos + u.2, anchor := false, enter := d.clk.cycle, dest := rtDest w }))

/-- An UP stream without a good frame for 3,000,000 ticks goes DOWN; a position whose due tick has passed is delivered as a poisoned zero, and counted;
the oldest sample in the Splitter goes to the ports, poisoned where the one before it was discarded; a converter's code beyond its range is counted.
JESD204C links: an edge of SYSREF aligns the LEMC of a link that waits for it; a lane that gains alignment counts for its link, one that loses it
takes the link down; a multiblock released in time advances its link and gives its stream as many samples as the multiblock holds. From 04_ingress.md.
Rests also on the model's own choices or readings: log 38, 52, 127. -/
def Obligations.StreamsAndJesdLinks : Prop :=
  ((∀ (dt sid n : Nat) (w : List Word) (e : InSplitter) (rest : List InSplitter) (r0 r1 : AinCode) (s : State),
      let d := s.after dt
      let x := d.stream sid
      (sid < 240 → x.state = 2 → x.lastGood + 3000000 ≤ d.clk.cycle →
        ∃ t, exec (.streamDownTimeout dt sid) s = .next t ∧ t.mem = s.mem ∧ t.dev.stream sid = { x with state := 3, anchored := false, held := [] } ∧
          ∀ k, k ≠ sid → t.dev.stream k = d.stream k) ∧
      (x.rt = some w → rtKind w = 0 → x.state ≠ 0 → x.fifo = [] → x.subSeq = none → (∀ c, (d.chan c).withdrawn = none) →
        let at_ := x.instantOf (rtRate w) x.nextPos
        let y := d.setStream sid { x with nextPos := x.nextPos + 1, outPos := x.nextPos + 1 }
        x.dueAfter w (d.jlink (rtLink w)).lemc at_ ≤ (d.clk.count.toNat : Int) →
          exec (.substituteDue dt sid) s = .next (s.onto
            (((y.setStream sid { y.stream sid with lastSub := some at_ }).bump64 (0x410000 + 32 * sid + 8)).toPorts sid w (rtDest w)
              { i := 0, q := 0, poison := true, ovr := false, instant := at_ }))) ∧
      (sid < 240 → x.rt = some w → x.fifo = e :: rest → x.returning = false → e.anchor = false → e.old = false → e.sub = false → x.outPos ≤ e.pos →
        let y := d.setStream sid { x with fifo := rest }
        (d.clk.cycle < e.enter + 12 → exec (.splitterDelivery dt sid r0 r1) s = .next (s.onto d)) ∧
        (e.enter + 12 ≤ d.clk.cycle → exec (.splitterDelivery dt sid r0 r1) s = .next (s.onto
          ((y.setStream sid { ({ x with fifo := rest } : Stream).counted d.clk.cycle with outPos := e.pos + 1 }).toPorts sid w e.dest e.smp)))) ∧
      (∀ code : Int, n < 4 → (code < -2048 ∨ 2047 < code) → d.sweeping n = false → d.fw.stage = 0x3F →
        ∃ t, exec (.overRangeSample dt n code) s = .next t ∧ t.mem = s.mem ∧ (t.dev.ainOf n).ovrAt = some d.clk.cycle ∧
          t.dev.reg (0x420000 + 32 * n + 8) = d.reg (0x420000 + 32 * n + 8) + 1)) ∧
    ∀ (d : Dev) (sid dest : Nat) (w : List Word) (smp : Sample),
      let x := d.stream sid
      let q := x.queued w d.cyc dest
      dest ≠ 0 → (∀ p ∈ portsOf dest, (d.setStream sid q).portHeld p ≤ 8192 * 3000000) →
        d.toPorts sid w dest smp = (d.setStream sid { q with poisonNext := false, dropped := 0, lastOut := some smp.instant }).portSample sid dest
          { smp with poison := smp.poison || x.poisonNext }) ∧
  (∀ (dt l pad sid : Nat) (w : List Word) (convs : List (List Word)) (s : State),
      let d := s.after dt
      (l < 24 → d.linkRoute l = some w → rtSysref w = 0 → (d.jlink l).lemc = none →
        ∃ t, exec (.sysrefEdge dt) s = .next t ∧ t.mem = s.mem ∧ (t.dev.jlink l).lemc = some d.now ∧ (t.dev.jlink l).blocks = 0) ∧
      ((d.pad pad).mode = 2 → d.rxDead (d.pad pad).rx = false →
        ∃ t, exec (.jesdLaneAligned dt pad) s = .next t ∧ t.mem = s.mem ∧ (t.dev.pad pad).aligned = true) ∧
      ((d.pad pad).mode = 2 → (d.pad pad).aligned = true →
        ∃ t, exec (.jesdLaneAlignmentLoss dt pad) s = .next t ∧ t.mem = s.mem ∧ (t.dev.pad pad).aligned = false ∧ ∀ k ∈ d.linksOfPad pad, (t.dev.jlink k).up = false) ∧
      (∀ base, d.streamsOfLink l = [sid] → (d.stream sid).rt = some w → rtReal w = false → (d.jlink l).lemc = some base → (d.jlink l).up = true →
        base + (d.jlink l).blocks * lemcPeriod w + rtRelease w ≤ d.now →
        ∃ t, exec (.jesdMultiblockRelease dt l .good convs) s = .next t ∧ t.mem = s.mem ∧ (t.dev.jlink l).blocks = (d.jlink l).blocks + 1 ∧
          (t.dev.stream sid).fifo.length = (d.stream sid).fifo.length + jesdCount w ∧ (t.dev.stream sid).lastGood = d.clk.cycle))

/-- A channel's next output is written to staging at its tick: it joins the samples due at the consumers 8 ticks later and the frame under way, and
OUTPUTS counts it. A sample that is due there leaves. Of the frames that wait in a sector, the one of least deadline is read next, from its ring; one
still unread at its deadline is discarded and counted. The spectrum of a frame read in full is delivered at its tick, and its bins leave one by one.
From 05_channelisers.md; 06_prism_transforms.md. Rests also on the model's own choices or readings: log 11, 98, 101, 120. -/
def Obligations.ChannelsAndFrames : Prop :=
  (∀ (dt c : Nat) (o : ChanOut) (rest : List ChanOut) (s : State),
      let d := s.after dt
      let x := d.chan c
      let y := x.stage o d.clk.cycle d.tqAt
      (c < 512 → x.outq = o :: rest → o.due ≤ d.clk.cycle → x.framesNext = [] →
        ∃ t, exec (.channelOutputWrite dt c) s = .next t ∧ t.mem = s.mem ∧ (t.dev.chan c).outq = rest ∧
          (t.dev.chan c).pending = x.pending ++ [{ o with due := d.clk.cycle + 8 }] ∧
          (o.first = true → x.state = 1 → o.start = x.switchAt → (t.dev.chan c).state = 2) ∧
          (t.dev.chan c).frames = y.frames ∧ (t.dev.chan c).done = y.done ∧ (t.dev.chan c).rings = y.rings ∧
          t.dev.reg64 (0x440000 + 32 * c + 0x10) = d.reg64 (0x440000 + 32 * c + 0x10) + 1) ∧
      (x.pending = o :: rest → o.due ≤ d.clk.cycle →
        ∃ t, exec (.timeSampleDelivery dt c) s = .next t ∧ t.mem = s.mem ∧
          t.dev.chan c = { x with pending := rest, since := if o.first then 1 else x.since + 1 })) ∧
  (∀ (dt c sector engine : Nat) (f : Frame) (r : Staging) (x : Spectrum) (fs : List Frame) (xs : List Spectrum) (fails : Bool) (s : State),
      let d := s.after dt
      let y := d.serve sector
      let z := d.serve (c / 64)
      let ch := d.chan c
      ((y.engine engine).role = 0 → (y.engine engine).sector = sector →
        leastBy (fun (p : Nat × Frame) => p.2.c + p.2.a) (y.framesOf sector (·.done) (fun _ => true)) = some (c, f) → (y.chan c).ring f.ring = some r →
          exec (.frameReadStart dt sector engine []) s = .next (s.onto (y.setChan c
            { y.chan c with
              done := (y.chan c).done.filter (fun g => decide (g ≠ f))
              reading := insertAfter Frame.delivery
                { f with samples := (f.read r []).map (·.1), readError := false, left := tfN f.block.words / 8, engine := engine } (y.chan c).reading }))) ∧
      (d.framesOf sector (·.reading) (fun g => decide (g.left ≠ 0)) = [] → d.framesOf sector (·.done) (fun g => decide (g.c + g.a ≤ d.clk.cycle)) = [(c, f)] →
        y = ({ d with pairAt := Tbl.put sector d.clk.cycle d.pairAt } : Dev).lateFrame c f ∧
        (c < 512 → f ∉ (y.chan c).done ∧ y.reg (0x471000 + 16 * (c / 64) + 8) = d.reg (0x471000 + 16 * (c / 64) + 8) + 1 ∧
          y.reg (0x460000 + 32 * c + 8) = d.reg (0x460000 + 32 * c + 8) + 1)) ∧
      (c < 512 → (z.chan c).reading = f :: fs → f.engine < 18 → f.left = 0 → f.c + f.a + engineLatency f.block.words ≤ d.clk.cycle →
        ∃ t, exec (.spectrumDelivery dt c fails) s = .next t ∧ t.mem = s.mem ∧
          t.dev.chan c = { z.chan c with reading := fs, spectra := insertAfter Spectrum.nextTick (spectrumOf c f fails d.clk.cycle) (z.chan c).spectra } ∧
          t.dev.reg64 (0x460000 + 32 * c) = z.reg64 (0x460000 + 32 * c) + 1) ∧
      (ch.spectra = x :: xs → x.d + binTick x.block.words (tfBinLo x.block.words + (x.emitted : Int)) ≤ d.clk.cycle →
        ∃ t, exec (.binEmission dt c) s = .next t ∧ t.mem = s.mem ∧
          t.dev.chan c = { ch with spectra := if x.bins.length ≤ x.emitted + 1 then xs else insertBy Spectrum.nextTick { x with emitted := x.emitted + 1 } xs }))

/-- Slots of the controller, in a slot that nothing has used: a scheduled slot takes the oldest waiting block of the pseudo-channel it drains, a refresh
slot refreshes a rank, a neighbour slot serves the oldest selection or writes back the oldest correction, a leftover slot with nothing to fetch serves
a selection that overflowed, and a rank without commands for PD_IDLE slots powers down. A correction is written back from its queue. None of them
changes memory, and in a slot that is used up none does anything. From 09_capture_memory.md. Rests also on the model's own choices or readings: log
16, 97, 121. -/
def Obligations.ControllerSlots : Prop :=
  ∀ (dt x i l addr : Nat) (w : Nat × Nat) (rest : List Nat) (s : State),
    let d := s.after dt
    let p := d.pc x
    let used (k : SlotKind) : Dev := d.useSlot x k
    let q (k : SlotKind) : Pc := (used k).pc x
    let cyc := d.clk.cycle
    (d.maySlot x .scheduled = true → d.drains x = some l → d.cmc.wbuf.find? (fun (v : Nat × Nat) => decide (d.pcOfBlock v.1 = l)) = some w →
      exec (.scheduledSlot dt x) s = .next (s.onto
        ((({ d with cmc := { d.cmc with wbuf := d.cmc.wbuf.filter (fun (v : Nat × Nat) => decide (v.1 ≠ w.1)) } } : Dev).useSlot x .scheduled).activate x (d.indexOfBlock w.1)))) ∧
    (d.maySlot x .scheduled = false → exec (.scheduledSlot dt x) s = .next (s.onto d)) ∧
    (d.maySlot x .refresh = true → ∃ r, r < 2 ∧ exec (.refreshSlot dt x) s = .next (s.onto
      (({ used .refresh with free := d.free + 1 } : Dev).setPc x { (q .refresh).touch r cyc with refreshed := (p.refreshed + 1) % 65536 }))) ∧
    (d.maySlot x .refresh = false → exec (.refreshSlot dt x) s = .next (s.onto d)) ∧
    (d.maySlot x .neighbour = true →
      (p.nrq = i :: rest → exec (.neighbourRefreshSlot dt x) s = .next (s.onto
        (((used .neighbour).setPc x { (q .neighbour).touch (rankOf i) cyc with nrq := rest }).bump (0x4E0000 + 32 * x + 0x18)))) ∧
      (p.nrq = [] → ∀ v, p.wbq = v → match v with
        | (b, _) :: more => exec (.neighbourRefreshSlot dt x) s = .next (s.onto (((used .neighbour).setPc x { q .neighbour with wbq := more }).activate x (d.indexOfBlock b)))
        | [] => exec (.neighbourRefreshSlot dt x) s = .next (s.onto (used .neighbour)))) ∧
    (d.maySlot x .neighbour = false → exec (.neighbourRefreshSlot dt x) s = .next (s.onto d)) ∧
    (d.maySlot x .leftover = true → (used .leftover).fetchOn x = none → p.nrOver = i :: rest → exec (.leftoverSlot dt ⟨x, []⟩) s = .next (s.onto
      (((used .leftover).setPc x { (q .leftover).touch (rankOf i) cyc with nrOver := rest }).bump (0x4E0000 + 32 * x + 0x18)))) ∧
    (d.maySlot x .leftover = false → exec (.leftoverSlot dt ⟨x, []⟩) s = .next (s.onto d)) ∧
    (d.cmc.pdIdle ≠ 0 → p.used0 + d.cmc.pdIdle * slotTicks d.cmc.rate ≤ cyc → exec (.rankPowerDown dt x 0) s = .next (s.onto (d.setPc x { p with pd0 := true }))) ∧
    (d.cmc.pdIdle ≠ 0 → p.used1 + d.cmc.pdIdle * slotTicks d.cmc.rate ≤ cyc → exec (.rankPowerDown dt x 1) s = .next (s.onto (d.setPc x { p with pd1 := true }))) ∧
    (d.physOf (d.pcOfBlock (addr / 512)) = some x → p.wbq.any (fun (v : Nat × Nat) => decide (v.1 = addr / 512)) = true →
      exec (.ceWriteback dt addr) s = .next (s.onto ((d.dropWriteBack (addr / 512)).activate x (d.indexOfBlock (addr / 512)))))

/-- At a period boundary the settings of the controller take effect, NR_LOG2 within 6 to 12, no trained setting waits any more, and PHASE is the
boundary's count. A stack's temperature sets the refresh rate of its 32 pseudo-channels: hot above 85 °C, not above 83 °C. Training: it begins at an
active or idle spare pseudo-channel that does not train, by cause 2 after a move of 10 °C, and periodically once in each second; it steps through its
four steps, keeping the narrowest eye, repeats a step whose data cannot be used, and ends with a setting that waits for the next period boundary. A
relock starts it anew on every such pseudo-channel at the rate requested. From 09_capture_memory.md. Rests also on the model's own choice or reading:
log 97. -/
def Obligations.SettingsAndTraining : Prop :=
  (∀ (dt stack : Nat) (temp : Int) (s : State),
      let d := s.after dt
      (d.clk.cycle % 9000 = 0 →
        ∃ t, exec (.periodBoundary dt) s = .next t ∧ t.mem = s.mem ∧ t.dev.cmc.pdIdle = d.fld 0x4E2008 11 0 ∧
          t.dev.cmc.nrLog2 = max 6 (min 12 (d.fld 0x4E2008 15 12)) ∧ (∀ x, (t.dev.pc x).setting = none) ∧ t.dev.fld 0x4E201C 13 0 = d.now % 9000) ∧
      (d.clk.cycle % 9000 ≠ 0 → exec (.periodBoundary dt) s = .next (s.onto d)) ∧
      (stack < 6 →
        ∃ t, exec (.stackTemperatureSample dt stack temp) s = .next t ∧ t.mem = s.mem ∧ Tbl.look 0 t.dev.cmc.temps stack = temp ∧
          ∀ x, (t.dev.pc x).hot = if x / 32 = stack then (if 85 < temp then true else if temp ≤ 83 then false else (d.pc x).hot) else (d.pc x).hot)) ∧
  (∀ (dt x w h : Nat) (u : Training) (s : State),
      let d := s.after dt
      let p := d.pc x
      let moved := decide (10 ≤ (Tbl.look 0 d.cmc.temps (x / 32) - p.trainTemp).natAbs)
      let err := d.mc.crossed.any (fun (c : Nat × Nat × Nat) => decide (c.1 = 7 ∧ c.2.1 = x ∧ c.2.2 = 0))
      let sec := d.clk.cycle / 3000000000 + 1
      ((p.role = 0 ∨ p.role = 1) → p.train = none → d.cmc.relock = none →
        (moved = true → exec (.retrainStart dt x) s = .next (s.onto (d.setPc x { p with train := some { cause := 2 } }))) ∧
        (moved = false → err = true → exec (.retrainStart dt x) s = .next (s.onto (d.setPc x { p with train := some { cause := 3 } }))) ∧
        (moved = false → err = false →
          (p.trainSec ≠ sec → exec (.retrainStart dt x) s = .next (s.onto (d.setPc x { p with train := some { cause := 0 }, trainSec := sec }))) ∧
          (p.trainSec = sec → exec (.retrainStart dt x) s = .next (s.onto d)))) ∧
      (p.train = some u → d.cmc.rateReq = none →
        (u.step < 3 → exec (.trainingStepEnd dt x w h true) s = .next (s.onto (d.setPc x
          { p with train := some { u with step := u.step + 1, tries := 0, eyeW := min u.eyeW w, eyeH := min u.eyeH h } }))) ∧
        (u.tries < 3 → exec (.trainingStepEnd dt x w h false) s = .next (s.onto
          ((d.setPc x { p with train := some { u with tries := u.tries + 1 } }).bump (0x4E0000 + 32 * x + 0x0C)))) ∧
        (u.step = 3 → hasMargin d.cmc.rate (min u.eyeW w) (min u.eyeH h) = true →
          ∃ t, exec (.trainingStepEnd dt x w h true) s = .next t ∧ t.mem = s.mem ∧ (t.dev.pc x).train = none ∧
            (t.dev.pc x).setting = some { u with step := 4, tries := 0, eyeW := min u.eyeW w, eyeH := min u.eyeH h } ∧
            (t.dev.pc x).trainTemp = Tbl.look 0 d.cmc.temps (x / 32))) ∧
      (∀ r, d.cmc.relock = some r → d.cmc.rateReq = none →
        ∃ t, exec (.phyRelockDone dt) s = .next t ∧ t.mem = s.mem ∧ t.dev.cmc.rate = r ∧ t.dev.cmc.relock = none ∧
          ∀ y, y < 192 → ((d.pc y).role = 0 ∨ (d.pc y).role = 1) → (t.dev.pc y).train = some { cause := 0 }))

/-- The capture scrubber takes a leftover slot that nothing else wants; it passes a clean block without a change to memory, and a line that its code
cannot correct is counted, poisoned and reads as zeros from then on, the rest unchanged. The Facet scrubber poisons a byte whose stored bits its code
cannot correct, in the regions it serves. A line in which nothing is upset is clean through either code, and one whose mark is left reads as the
poison pattern; a sequencer's trap has firmware rebuild its line, and with marked code sets FAULT. From 10_integrity_sparing.md. Rests also on the
model's own choices or readings: log 44, 97, 119, 121. -/
def Obligations.ScrubbersPoisonWhatTheyCannotCorrect : Prop :=
  ∀ (dt x g line addr mask : Nat) (errs : List Upset) (light : Bool) (data : List Byte) (s : State),
    let d := s.after dt
    let p := d.pc x
    let b := d.cmc.scrubPos * d.cmc.p + p.logical
    let stat := 0x500000 + 32 * d.regionAt (512 * b)
    (x < 192 → p.role = 0 → d.cmc.scrubDone.contains x = false → d.fld 0x510000 9 4 ≠ 0 → d.maySlot x .leftover = true → d.outranksScrub x = false →
      (d.cmc.scrubPeriod = d.clk.cycle / 9000 → d.cmc.scrubCount < min (d.fld 0x510000 9 4) 32) →
      d.cmc.wbuf.any (fun (v : Nat × Nat) => decide (v.1 = b)) = false → (∀ k, k < 8 → d.lineMarked (8 * b + k) = false) →
      exec (.captureScrubRead dt x []) s = .next (s.onto (((d.useSlot x .leftover).activate x d.cmc.scrubPos).scrubAdvance x)) ∧
      (s.mem.wf = true → (∀ e ∈ errs, e.line = 8 * b) → (d.lineData s.mem.cap errs (8 * b)).1 = .uncorrectable →
        ∃ t, exec (.captureScrubRead dt x errs) s = .next t ∧ t.mem.tp = s.mem.tp ∧
          t.dev.cmc.poison.contains (8 * b) = true ∧ t.dev.reg (stat + 0x0C) = d.reg (stat + 0x0C) + 1 ∧
          ∀ a, t.mem.cap.read a = if 512 * b ≤ a ∧ a < 512 * b + 64 then 0 else s.mem.cap.read a)) ∧
    (line < facetLines g → d.fld 0x510000 1 1 ≠ 0 → Tbl.look 0 d.cmc.facetNext (facetBank g (64 * line)) ≤ d.clk.cycle →
      (∀ k, k < 64 → d.facetMarked g (64 * line + k) = false) → s.mem.wf = true → mask ≠ 0 → (facetRead false (d.facetData s.mem g (64 * line)) mask).1 = .uncorrectable →
      ∃ t, exec (.facetScrubRead dt g line [(0, mask)]) s = .next t ∧ t.dev.cmc.facet.contains (g, 64 * line) = true ∧ t.mem.cap = s.mem.cap ∧
        ∀ a, t.mem.tp.read a = if g = 2 ∧ a = 64 * line then 0 else s.mem.tp.read a) ∧
    (lineRead light false data [] = (.clean, data) ∧ lineRead light true data [] = (.poison, List.replicate 64 0)) ∧
    (d.heldCmds = [] →
      (∃ t, exec (.sequencerTrap dt ⟨addr, .whole⟩) s = .next t ∧ t.mem = s.mem ∧ ∀ a, a / 64 = addr / 64 → t.dev.facetMarked 4 a = false) ∧
      (∃ t, exec (.sequencerTrap dt ⟨addr, .code⟩) s = .next t ∧ t.mem = s.mem ∧ t.dev.fw.fault = true))

/-- A density feed that runs: at its sweep every cell decays and those at 0 are gone; at its render, after what comes before it on the tick, the buffer of
its turn is written, line by line, and the render is complete one RENDER_TICKS later, counted. The raster, once the pixels due before are sent: at
vertical blanking the next frame begins, under the new mode and black when one waits, and stops where that disables it; at the lock of the pixel clock
it starts with a black frame 0; at each active line a line of pixels goes out, black or composed of its layers over the background, held back while
some of its pixels are still to be fetched. DisplayPort: a sink that comes up and allows the mode is trained, its EDID in its window; an interrupt of
the sink retrains a link without lock; a sink that is gone leaves no link; the end of training gives the link's state. From 11_density_display.md.
Rests also on the model's own choices or readings: log 33, 35, 37, 124. -/
def Obligations.DensityAndDisplay : Prop :=
  (∀ (dt p a : Nat) (b : Block) (s : State),
      let d := s.after dt
      let x := d.feed p
      let w := b.words
      let v := (d.vblank.renderComplete p).decaySweep p
      let y := v.feed p
      (x.block = some (a, b) → x.running = true →
        (dfHost w = false → dfDecay w ≠ 0 → x.start + x.nextSweep * dfDecayTicks w ≤ d.now → d.cmc.facet = [] →
          exec (.decaySweepStart dt p) s = .next (s.onto (d.setFeed p { x with
            cells := if dfDecay w = 2 then [] else (x.cells.map (fun (c : Nat × Nat) => (c.1, c.2 - ceilDiv c.2 (2 ^ dfShift w)))).filter (fun c => decide (c.2 ≠ 0))
            nextSweep := x.nextSweep + 1 }))) ∧
        (∀ k, x.rendering = some k → x.start + (k + 1) * dfRenderTicks w ≤ d.now → dfAutoFlip w = false →
          exec (.renderComplete dt p) s = .next (s.onto ((d.setFeed p { x with rendering := none }).bump (0x520400 + 64 * p))))) ∧
      (y.block = some (a, b) → y.running = true → v.cmc.facet = [] → dfHost w = false → dfRenderTicks w ≠ 0 → y.rendering = none → y.start + y.nextRender * dfRenderTicks w ≤ v.now →
        (∀ k, v.blockLost k = false ∧ v.pcPoisoned k = false) →
        ∃ t, exec (.renderStart dt p) s = .next t ∧ (t.dev.feed p).rendering = some y.nextRender ∧ (t.dev.feed p).nextRender = y.nextRender + 1 ∧ t.mem.tp = s.mem.tp ∧
          t.mem.cap = (List.range (dfHeight w)).foldl (fun (m : Memory) r =>
            m.writeBytes (y.bufs.getD (y.nextRender % dfNbuf w) 0 + r * dfPitch w) ((t.dev.feed p).lineBytes w r)) s.mem.cap)) ∧
  (∀ (dt : Nat) (m : List Word) (s : State),
      let d := (s.after dt).scan.lineHeld
      let r := d.raster
      let w := r.mode
      let vb := Frac.add r.frameAt (dmLines w (dmVBlank w + dmVActive w))
      let y := r.nextLine
      let at_ := Frac.add r.frameAt (dmLines w (dmVBlank w + y))
      (r.running = true → Frac.le vb (Frac.ofInt d.clk.cycle) = true →
        (r.waiting = none → ∃ t, exec (.verticalBlankingStart dt) s = .next t ∧ t.mem = s.mem ∧
          t.dev.raster = { r with frame := (r.frame + 1) % 2 ^ 32, frameAt := vb, black := false, nextLine := 0, aborted := false, sending := none, underruns := 0 }) ∧
        (r.waiting = some m → dmEnable m = true → ∃ t, exec (.verticalBlankingStart dt) s = .next t ∧ t.mem = s.mem ∧
          t.dev.raster.mode = m ∧ t.dev.raster.waiting = none ∧ t.dev.raster.frame = (r.frame + 1) % 2 ^ 32 ∧ t.dev.raster.black = true ∧ t.dev.raster.nextLine = 0) ∧
        (r.waiting = some m → dmEnable m = false → ∃ t, exec (.verticalBlankingStart dt) s = .next t ∧ t.mem = s.mem ∧
          t.dev.raster = { r with waiting := none, running := false, black := false })) ∧
      ((s.after dt).raster.locking = true → (s.after dt).raster.waiting = some m → ∃ t, exec (.pixelClockLock dt) s = .next t ∧ t.mem = s.mem ∧
        t.dev.raster.running = true ∧ t.dev.raster.locking = false ∧ t.dev.raster.mode = m ∧ t.dev.raster.waiting = none ∧ t.dev.raster.frame = 0 ∧ t.dev.raster.black = true) ∧
      (r.running = true → y < dmVActive w → Frac.le at_ (Frac.ofInt d.clk.cycle) = true → dmLmEn w = false →
        ((r.black = true ∨ r.aborted = true) →
          exec (.activeLineStart dt) s = .next (s.onto ({ d with raster := { r with nextLine := y + 1 } }.emit (.line y (List.replicate (dmHActive w) 0))))) ∧
        (r.black = false → r.aborted = false →
          (d.firstMissing y (dmHActive w) = none →
            let bg := (dmBg w / 2 ^ 16, dmBg w / 2 ^ 8 % 256, dmBg w % 256)
            ∃ t, exec (.activeLineStart dt) s = .next t ∧ t.mem = s.mem ∧ t.dev.raster = { r with nextLine := y + 1, sending := none } ∧
              t.dev.out = d.out ++ [.line y ((List.range (dmHActive w)).map (fun x =>
                linkPixel (dmBpc10 w) (d.overlay 2 x y (d.overlay 1 x y (d.overlay 0 x y bg)))))]) ∧
          (d.firstMissing y (dmHActive w) ≠ none → d.firstMissing y (d.columnsDue at_) = none →
            exec (.activeLineStart dt) s = .next (s.onto { d with raster := { r with nextLine := y + 1, sending := some (y, at_) } }))))) ∧
  (∀ (dt : Nat) (edid dpcd : List Byte) (ok : Bool) (s : State),
      let d := s.after dt
      let r := d.raster
      (sinkAllows dpcd r.mode = true → ∃ t, exec (.hpdRise dt edid dpcd) s = .next t ∧ t.mem = s.mem ∧ t.dev.raster = { r with hpd := true, linkUp := false, training := true } ∧
        ∀ i, i < 128 → t.dev.reg (0x521000 + 4 * i) = (wordsOfBytes (padBytes 512 edid)).getD i 0) ∧
      (r.hpd = true →
        (r.linkUp = true → ∃ t, exec (.irqHpd dt true) s = .next t ∧ t.mem = s.mem ∧ t.dev.raster = r) ∧
        (r.training = false → sinkAllows (bytesOfWords [d.reg 0x521200]) r.mode = true →
          ∃ t, exec (.irqHpd dt false) s = .next t ∧ t.mem = s.mem ∧ t.dev.raster = { r with linkUp := false, training := true }) ∧
        (∃ t, exec (.hpdLoss dt) s = .next t ∧ t.mem = s.mem ∧ t.dev.raster = { r with hpd := false, linkUp := false, training := false })) ∧
      (r.training = true → ∃ t, exec (.dpLinkTrainingEnd dt ok) s = .next t ∧ t.mem = s.mem ∧ t.dev.raster = { r with training := false, linkUp := ok }))

/-- A marker in TIMESTAMP mode stamps an edge of its slope under the block in force at the stamp, pushed 40 ticks later; an edge within the dead time is
counted and does nothing else, and one under no block only moves the level. An entry whose tick has come goes into the queue, and a start without a
stop in time is closed with a timeout. From 13_markers.md. Rests also on the model's own choices or readings: log 95, 125. -/
def Obligations.MarkersStampTheirEdges : Prop :=
  ∀ (dt n sub a : Nat) (falling : Bool) (b : Block) (e : MkEntry) (rest : List MkEntry) (p : MkStamp) (w : List Word) (s : State),
    let d := s.after dt
    let x := d.marker n
    let at_ : Int := (d.now * 256 + sub % 256 : Nat)
    let last := if falling then x.lastFall else x.lastRise
    let limit := p.tick + mbTimeout b.words + 36
    let due := ((d.clk.cycle : Int) + 4 + limit - d.now).toNat
    n < 16 →
      (x.blockAt at_ = some w →
        ((∀ l, last = some l → l + 768 ≤ at_) → x.lastTaken = none → mbMode w = 1 → slopeTakes (mbSlope w) falling = true →
          let st : MkStamp := { at_ := at_ - mbSkew w, falling := falling, tq := d.tqAt ((at_ - mbSkew w) / 256).toNat, cycle := d.clk.cycle }
          ∃ t, exec (.markerEdge dt n falling sub) s = .next t ∧ t.mem = s.mem ∧ (t.dev.marker n).level = !falling ∧ (t.dev.marker n).lastTaken = some at_ ∧
            { due := d.clk.cycle + 40, words := mkWords st 0 false false 0, tick := st.tick, ev := mbEv w } ∈ (t.dev.marker n).entries ∧
            t.dev.reg (0x560000 + 64 * n + 4) = d.reg (0x560000 + 64 * n + 4) + 1) ∧
        (∀ l, last = some l → at_ < l + 768 →
          exec (.markerEdge dt n falling sub) s = .next (s.onto ((d.setMarker n { x with level := !falling }).bumpSat (0x560000 + 64 * n + 8) 15 0)))) ∧
      (x.blockAt at_ = none → exec (.markerEdge dt n falling sub) s = .next (s.onto (d.setMarker n { x with level := !falling }))) ∧
      (x.edges = [] →
        (x.entries = e :: rest → e.due ≤ d.clk.cycle → x.q.dropping = false → x.q.tight = false → x.q.items.length + 4 ≤ 1024 →
          ∃ t, exec (.markerEntryPush dt n) s = .next t ∧ t.mem = s.mem ∧ (t.dev.marker n).entries = rest ∧ (t.dev.marker n).seq = (x.seq + 1) % 2 ^ 16 ∧ (t.dev.marker n).loss = false ∧
            (t.dev.marker n).q.items = x.q.items ++
              [((e.words.getD 0 0 ||| Word.place 15 15 x.loss.toNat ||| Word.place 31 16 x.seq).toNat, false), ((e.words.getD 1 0).toNat, false),
               ((e.words.getD 2 0).toNat, false), ((e.words.getD 3 0).toNat, true)]) ∧
        (x.block = some (a, b) → x.pending = some p → limit ≤ d.now →
          exec (.intervalTimeout dt n) s = .next (s.onto (d.setMarker n (({ x with pending := none } : Marker).wait_
            { due := if due ≤ d.clk.cycle then d.clk.cycle + 4 else due, words := mkWords p 1 false true 0, tick := p.tick, timeout := true,
              ev := mbEv b.words, toEv := mbToEv b.words })))))

/-- A queue's oldest whole packet moves into the staging of the export that drains it; while the request is asserted and the host ring has room the next
packet is written there; a flush timer that has run out requests; a publication covers all that was written, and when its flush read completes TAIL is
what it covers. A block read whose lines are clean goes to the host, and its channel is free again; a block write puts the whole of its data at its
target. From 14_export_streaming.md. Rests also on the model's own choices or readings: log 24, 56, 121, 126. -/
def Obligations.ExportsAndBlockTransfers : Prop :=
  (∀ (dt c : Nat) (w : List Word) (s : State),
      let d := s.after dt
      let x := d.dmaCh c
      let y := d.exportReq c
      let z := y.dmaCh c
      x.words = some w →
        (exKind w = 2 → packetsIn ((d.marker (exUnit w)).q.ready d.clk.cycle) ≠ 0 → d.cmc.facet = [] → (∀ k, d.blockLost k = false ∧ d.pcPoisoned k = false) →
          let q := (d.marker (exUnit w)).q
          let bs := drainBytes false q.lossy (takePacket q.items)
          x.staged - x.stg + bs.length ≤ x.stageSize →
            ∃ t, exec (.queueDrain dt c) s = .next t ∧ (t.dev.marker (exUnit w)).q.items = q.items.drop (takePacket q.items).length ∧ (t.dev.dmaCh c).staged = x.staged + bs.length ∧
              t.mem.tp = s.mem.tp ∧
              t.mem.cap = (bs.zipIdx).foldl (fun (m : Memory) (b : Byte × Nat) => m.writeBytes (x.stageAddr (x.staged + b.2)) [b.1]) s.mem.cap) ∧
        (∀ errs p e, x.swapAt = none → (z.state = 1 ∨ z.state = 4) → z.req = true → y.pcie.busMaster = true → nextPacket errs c w (y, s.mem) = some (p, e) →
          z.written + p.size ≤ z.head + 2 ^ exHostLog w → p.size ≤ 2 ^ exHostLog w - z.written % 2 ^ exHostLog w →
            exec (.packetStart dt ⟨c, errs⟩) s = .next (s.onto ((e.putPacket c w p).exportReq c))) ∧
        (∀ k, d.oldestUnsent c = some k → k + 3000 * exFlush w ≤ d.clk.cycle →
          exec (.flushTimer dt c) s = .next (s.onto ((d.setDma c { x with flush := true }).exportReq c))) ∧
        ((z.state = 1 ∨ z.state = 2 ∨ z.state = 4) → z.pub = none → z.tail < z.written →
          (65536 ≤ z.written - z.pubWritten ∨ z.req = false ∨ z.pubDue = true ∨ z.state = 2 ∨ z.swapAt.isSome = true) → y.pcie.busMaster = true →
          let addr := exBase w + BitVec.ofNat 64 ((z.written - 1) % 2 ^ exHostLog w)
          ∃ t, exec (.publicationStart dt c) s = .next t ∧ t.mem = s.mem ∧ t.dev.out = d.out ++ [.read (1000 + c) addr 1 {}] ∧
            (t.dev.dmaCh c).pub = some { written := z.written, stg := z.stgSent, seq := z.seq, turn := z.turn, addr := addr, since := d.clk.time } ∧ (t.dev.dmaCh c).pubWritten = z.written) ∧
        (∀ p, x.pub = some p → x.swapAt = none →
          ∃ t, exec (.flushReadComplete dt c) s = .next t ∧ t.mem = s.mem ∧ (t.dev.dmaCh c).tail = p.written ∧ (t.dev.dmaCh c).pub = none ∧ (t.dev.dmaCh c).stg = p.stg ∧
            (exRelay w = false → .write (exTail w) (qwords p.written) {} ∈ t.dev.out))) ∧
  (∀ (dt ch : Nat) (j : BlockJob) (data : List Word) (s : State),
      let d := s.after dt
      ch < 64 → d.blocks = [(ch, j)] →
        (j.write = false → 0 < j.length → j.length % 64 = 0 → j.cap % 64 = 0 → (∀ l, d.lineMarked l = false) →
          ∃ t, exec (.blockTransferComplete dt ch data []) s = .next t ∧ t.mem = s.mem ∧ t.dev.blocks = [] ∧
            .write (BitVec.ofNat 64 j.host) (wordsOfBytes ((List.range j.length).map (fun i => s.mem.cap.read (j.cap + i)))) {} ∈ t.dev.out) ∧
        (j.write = true → j.length % 512 = 0 → data.length = j.length / 4 → (∀ b, d.blockLost b = false ∧ d.pcPoisoned b = false) → s.mem.wf = true →
          ∃ t, exec (.blockTransferComplete dt ch data []) s = .next t ∧ t.dev.blocks = [] ∧ t.mem.tp = s.mem.tp ∧
            ∀ a, t.mem.cap.read a = if j.cap ≤ a ∧ a < j.cap + j.length then (bytesOfWords data).getD (a - j.cap) 0 else s.mem.cap.read a))

/-- Relay: the next chunk of a running stream, once published, goes to its drive; a completion with status 0 counts a chunk and rings the drive's CQ; a
command without completion within 2,000 ms is sent again while RETRY allows; a stream whose Flushes are done ends. From 14_export_streaming.md. Rests
also on the model's own choices or readings: log 57, 77. -/
def Obligations.RelayStreamsChunks : Prop :=
  ∀ (dt st slot k : Nat) (b : Nat × Block) (c : NvmeCmd) (s : State),
    let d := s.after dt
    let x := d.relay st
    let w := b.2.words
    let y := d.drive slot
    x.block = some b →
      (∀ slba, x.running = true → (x.next + 1) * 2 ^ rlChunkLog w ≤ (d.dmaCh (rlChan w)).tail → chunkPlace w (d.streamLba w x.next) x.next = some (slot, slba) →
        rlFlushChunks w = 0 → y.state = 2 → y.room = true →
        ∃ t, exec (.relayChunkSubmit dt st) s = .next t ∧ t.mem = s.mem ∧ t.dev.relay st = { x with next := x.next + 1 } ∧
          (t.dev.drive slot).sqTail = (y.sqTail + 1) % (dsSqM1 y.block + 1) ∧
          (t.dev.drive slot).cmds = y.cmds ++ [{ cid := y.sqTail, stream := st, chunk := some x.next, slba := slba, addr := x.base + x.next * 2 ^ rlChunkLog w % x.size, len := 2 ^ rlChunkLog w, tries := 0, cycle := d.clk.cycle }]) ∧
      (slot < 16 → x.stopping = false → y.state ≠ 0 → y.cmds = [c] → c.stream = st → c.chunk = some k →
        ∃ t, exec (.nvmeCompletion dt slot c.cid 0) s = .next t ∧ t.mem = s.mem ∧ (t.dev.drive slot).cmds = [] ∧
          (t.dev.drive slot).cqHead = (if y.cqHead = dsCqM1 y.block then 0 else y.cqHead + 1) ∧
          .write (dsCqDb y.block) [BitVec.ofNat 32 (if y.cqHead = dsCqM1 y.block then 0 else y.cqHead + 1)] {} ∈ t.dev.out ∧
          t.dev.reg (0x5A0000 + 32 * slot + 4) = d.reg (0x5A0000 + 32 * slot + 4) + 1) ∧
      (∀ e, slot < 16 → x.stopping = false → y.cmds = [c] → c.stream = st → y.state ≠ 3 → c.cycle + 6000000000 < d.clk.cycle → (d.dmaCh (rlChan w)).words = some e → c.tries < exRetry e →
        ∃ t, exec (.nvmeCommandTimeout dt slot c.cid) s = .next t ∧ t.mem = s.mem ∧ (t.dev.drive slot).late = c.cid :: y.late ∧
          (t.dev.drive slot).cmds = [{ c with cid := y.sqTail, stream := st, tries := c.tries + 1, cycle := d.clk.cycle }] ∧
          t.dev.reg (0x5A0000 + 32 * slot + 8) = d.reg (0x5A0000 + 32 * slot + 8) + 1) ∧
      (x.stopping = true → x.flushed = true → d.relayBusy st = false →
        ∃ t, exec (.relayDrainComplete dt st) s = .next t ∧ t.mem = s.mem ∧ t.dev.relays = Tbl.drop st d.relays ∧
          ∀ n ∈ rlDrives w, (d.drive n).state = 2 → (t.dev.drive n).state = 1)

/-- The arithmetic and logic instructions issue: the result for dD follows one processor cycle later (two for mul), and the flags are those of R463. From
12_trace_processors.md. Rests also on the model's own choice or reading: log 40. -/
def Obligations.ArithmeticIssues : Prop :=
  ∀ (s : State) (dt n : Nat) (w : Word), s.issues dt n w = true →
    let r := s.tpFinds dt n
    let c := (s.after dt).cyc
    let a : QWord := r.tp.d.getD (iRa w) 0
    let b : QWord := r.tp.d.getD (iRb w) 0
    let k : Nat := if 13 ≤ iFn w then iImm6 w else b.toNat % 64
    let mul : QWord := BitVec.ofInt 64 (signedOf 32 a.toNat * signedOf 32 b.toNat)
    let flags (v : QWord) (cf vf : Bool) (t : Tp) : Tp := { t with z := decide (v = 0), n := v.msb, c := cf, v := vf }
    let owed (lat : Nat) (v : QWord) : Tp := { r.tp with pendD := r.tp.pendD ++ [(c + 2 * lat, iRd w, v)] }
    let left (t : Tp) : Host.Outcome State Fault Refusal := .next (s.tpLeft dt n { r with tp := t })
    (iOp w = 4 →
      (iFn w = 0 → exec (.tpAdd dt n) s =
        left (flags (a + b) (decide (2 ^ 64 ≤ a.toNat + b.toNat)) (decide ((a + b).toInt ≠ a.toInt + b.toInt)) (owed 1 (a + b)))) ∧
      (iFn w = 1 → exec (.tpSub dt n) s = left (flags (a - b) (decide (a.toNat < b.toNat)) (decide ((a - b).toInt ≠ a.toInt - b.toInt)) (owed 1 (a - b)))) ∧
      (iFn w = 2 → exec (.tpAnd dt n) s = left (flags (a &&& b) false false (owed 1 (a &&& b)))) ∧
      (iFn w = 3 → exec (.tpOr dt n) s = left (flags (a ||| b) false false (owed 1 (a ||| b)))) ∧
      (iFn w = 4 → exec (.tpXor dt n) s = left (flags (a ^^^ b) false false (owed 1 (a ^^^ b)))) ∧
      (iFn w = 5 ∨ iFn w = 13 → exec (.tpShl dt n) s = left (flags (a <<< k) false false (owed 1 (a <<< k)))) ∧
      (iFn w = 6 ∨ iFn w = 14 → exec (.tpShr dt n) s = left (flags (a >>> k) false false (owed 1 (a >>> k)))) ∧
      (iFn w = 7 ∨ iFn w = 15 → exec (.tpSar dt n) s = left (flags (a.sshiftRight k) false false (owed 1 (a.sshiftRight k)))) ∧
      (iFn w = 9 → exec (.tpMul dt n) s = left (flags mul false false (owed 2 mul))) ∧
      (iFn w = 10 → exec (.tpCmp dt n) s = left (flags (a - b) (decide (a.toNat < b.toNat)) (decide ((a - b).toInt ≠ a.toInt - b.toInt)) r.tp)) ∧
      (iFn w = 11 → exec (.tpMov dt n) s = left (flags a false false (owed 1 a)))) ∧
    (iOp w = 5 → exec (.tpLi dt n) s = left (owed 1 (BitVec.ofInt 64 (iImm w)))) ∧
    (iOp w = 6 → exec (.tpLih dt n) s = left (owed 1 ((r.tp.d.getD (iRd w) 0) <<< 16 ||| BitVec.ofNat 64 (w.fld 15 0))))

/-- A load reads sign-extended memory at its aligned address for three processor cycles later, or traps with code 2 at a marked byte, as stacc does;
stores saturate to their width and become visible two processor cycles later; a pointer used moves by its increment; the pointer registers are read
and written. A pointer with a length is kept within its buffer by one wrap; without one it moves modulo 2^19. From 12_trace_processors.md. Rests also
on the model's own choice or reading: log 40. -/
def Obligations.LoadsStoresAndPointers : Prop :=
  (∀ (s : State) (dt n : Nat) (w : Word), s.issues dt n w = true →
      let r := s.tpFinds dt n
      let t := r.tp
      let c := (s.after dt).cyc
      let left (t : Tp) : Host.Outcome State Fault Refusal := .next (s.tpLeft dt n { r with tp := t })
      let bytes (k v : Nat) : List Byte := (List.range k).map (fun i => BitVec.ofNat 8 (v / 256 ^ i))
      let size : Nat := 2 ^ (mW w + 1)
      let at_ : Nat := t.p.getD (mPtr w) 0 / size * size
      let v : Int := (t.d.getD (iRd w) 0).toInt
      let lim : Int := 2 ^ (8 * size - 1)
      let clip : Int := if v < -lim then -lim else if lim - 1 < v then lim - 1 else v
      let out (k : Nat) (x : QWord) : Tp := { t with pendD := t.pendD ++ [(c + 2, k, x)] }
      let src : Nat := (t.d.getD (iRa w) 0).toNat % 2 ^ 19
      (iOp w = 8 →
        (tpMarked r.dev n at_ size = none → exec (.tpLd dt n) s =
          left ({ t with pendD := t.pendD ++ [(c + 6, iRd w, BitVec.ofInt 64 (signedOf (8 * size) (tpLoad r.mem n at_ size)))] }.step (mPtr w) (mInc w))) ∧
        (∀ b, tpMarked r.dev n at_ size = some b →
          ∃ u, exec (.tpLd dt n) s = .next u ∧ (u.dev.tp n).state = 3 ∧ (u.dev.tp n).trap = 2 ∧ (u.dev.tp n).faultAddr = b ∧ (u.dev.tp n).pc = t.pc ∧ u.mem = r.mem)) ∧
      (iOp w = 9 → exec (.tpSt dt n) s =
        left ({ t with pendMem := t.pendMem ++ [(c + 4, at_, bytes size (codeOf (8 * size) clip))], sv := t.sv || decide (clip ≠ v) }.step (mPtr w) (mInc w))) ∧
      (iOp w = 0x0A →
        let acc := t.accSlow.getD (aAk w) (0, 0)
        let i := satTo 24 (roundDiv acc.1 (2 ^ aSh w))
        let q := satTo 24 (roundDiv acc.2 (2 ^ aSh w))
        let dest : Nat := t.p.getD (aPtr w) 0 / 8 * 8
        (tpMarked r.dev n dest 8 = none → exec (.tpStacc dt n) s = left ({ t with
          pendMem := t.pendMem ++ [(c + 4, dest, bytes 8 (codeOf 24 i.1 + 2 ^ 24 * codeOf 24 q.1))], sv := t.sv || i.2 || q.2 }.step (aPtr w) (aInc w))) ∧
        (∀ b, tpMarked r.dev n dest 8 = some b →
          ∃ u, exec (.tpStacc dt n) s = .next u ∧ (u.dev.tp n).state = 3 ∧ (u.dev.tp n).trap = 2 ∧ (u.dev.tp n).faultAddr = b ∧ (u.dev.tp n).pc = t.pc ∧ u.mem = r.mem)) ∧
      (iOp w = 0x0C →
        (iFn w = 0 → exec (.tpMovp dt n) s = left { t with p := t.p.set (iRd w % 8) src }) ∧
        (iFn w = 1 → exec (.tpMovb dt n) s = left { t with b := t.b.set (iRd w % 8) src }) ∧
        (iFn w = 2 → exec (.tpMovl dt n) s = left { t with l := t.l.set (iRd w % 8) src }) ∧
        (iFn w = 3 → exec (.tpMvp dt n) s = left (out (iRd w) (BitVec.ofNat 64 (t.p.getD (iRa w % 8) 0)))) ∧
        (iFn w = 4 → exec (.tpMvb dt n) s = left (out (iRd w) (BitVec.ofNat 64 (t.b.getD (iRa w % 8) 0)))) ∧
        (iFn w = 5 → exec (.tpMvl dt n) s = left (out (iRd w) (BitVec.ofNat 64 (t.l.getD (iRa w % 8) 0))))) ∧
      (iOp w = 0x0D → exec (.tpAddp dt n) s = left (t.step (iRd w % 8) (iImm w)))) ∧
  (∀ (t : Tp) (k : Nat) (inc : Int), k < t.p.length →
      let b : Int := t.b.getD k 0
      let l : Int := t.l.getD k 0
      let p : Int := t.p.getD k 0 + inc
      (l = 0 → (t.step k inc).p.getD k 0 = (p % (2 ^ 19 : Int)).toNat) ∧
      (0 < l → b ≤ t.p.getD k 0 → (t.p.getD k 0 : Int) < b + l → -l ≤ inc → inc ≤ l → 0 ≤ b → b + l ≤ 2 ^ 19 →
        b ≤ ((t.step k inc).p.getD k 0 : Int) ∧ ((t.step k inc).p.getD k 0 : Int) < b + l ∧ (((t.step k inc).p.getD k 0 : Int) - p) % l = 0) ∧
      (∀ j, j ≠ k → (t.step k inc).p.getD j 0 = t.p.getD j 0))

/-- The multiply-accumulate instructions issue: cmac4 adds a term of each of four lanes to its accumulator, or traps with code 2 at a marked byte; cmac1,
clra and adda act on one accumulator; mva rounds and saturates a part into a register. An accumulator is the exact sum, each part clamped to 72 bits;
a clamp sets its AV bit, which CLR clears first; the other accumulators keep their values. From 12_trace_processors.md. Rests also on the model's own
choice or reading: log 40. -/
def Obligations.AccumulatorsIssueAndClamp : Prop :=
  (∀ (s : State) (dt n : Nat) (w : Word), s.issues dt n w = true →
      let r := s.tpFinds dt n
      let t := r.tp
      let c := (s.after dt).cyc
      let left (t : Tp) : Host.Outcome State Fault Refusal := .next (s.tpLeft dt n { r with tp := t })
      let ax : Nat := t.p.getD (xPx w) 0 / 32 * 32
      let ay : Nat := t.p.getD (xPy w) 0 / 32 * 32
      let word (a : Nat) : Int × Int := complexOf (tpLoad r.mem n a 8)
      let summed : Tp := [0, 1, 2, 3].foldl (fun (t : Tp) k => t.accAdd c k (macTerm (xMode w) (word (ax + 8 * k)) (word (ay + 8 * k))) (xClr w)) t
      let a := complexOf (t.d.getD (iRa w) 0).toNat
      let b := complexOf (t.d.getD (iRb w) 0).toNat
      let k : Nat := iRd w % 4
      let j : Nat := iRa w % 4
      (iOp w = 0x10 →
        (tpMarked r.dev n ax 32 = none → (xMode w ≠ 2 → tpMarked r.dev n ay 32 = none) →
          exec (.tpCmac4 dt n) s = left (if xMode w ≠ 2 ∧ xPy w ≠ xPx w then (summed.step (xPx w) (mInc w)).step (xPy w) (mInc w) else summed.step (xPx w) (mInc w))) ∧
        (∀ m, tpMarked r.dev n ax 32 = some m →
          ∃ u, exec (.tpCmac4 dt n) s = .next u ∧ (u.dev.tp n).state = 3 ∧ (u.dev.tp n).trap = 2 ∧ (u.dev.tp n).faultAddr = m ∧ (u.dev.tp n).acc = t.acc)) ∧
      (iOp w = 0x11 → exec (.tpCmac1 dt n) s = left (t.accAdd c k (macTerm (iFn w % 4) a b) (decide (4 ≤ iFn w)))) ∧
      (iOp w = 0x12 →
        (iFn w = 0 → exec (.tpClra dt n) s = left { t with acc := t.acc.set k (0, 0), pendAcc := t.pendAcc ++ [(c + 8, k, 0, 0)], av := t.av &&& (15 - 2 ^ k) }) ∧
        (iFn w = 1 →
          let u := t.accAdd c k (t.acc.getD j (0, 0)) false
          exec (.tpAdda dt n) s = left { u with av := if t.av / 2 ^ j % 2 = 1 then u.av ||| 2 ^ k else u.av }) ∧
        (iFn w = 2 ∨ iFn w = 3 →
          let x := t.accSlow.getD j (0, 0)
          let v := satTo 64 (roundDiv (if iFn w = 2 then x.1 else x.2) (2 ^ iImm6 w))
          exec (.tpMva dt n) s = left { t with pendD := t.pendD ++ [(c + 2, iRd w, BitVec.ofInt 64 v.1)], sv := t.sv || v.2 }))) ∧
  (∀ (t : Tp) (c k : Nat) (v : Int × Int) (clr : Bool), k < t.acc.length →
      let old : Int × Int := if clr then (0, 0) else t.acc.getD k (0, 0)
      let u := t.accAdd c k v clr
      let clamp (x : Int) : Int := max (-(2 ^ 71)) (min (2 ^ 71 - 1) x)
      u.acc.getD k (0, 0) = (clamp (old.1 + v.1), clamp (old.2 + v.2)) ∧
      (∀ j, j ≠ k → u.acc.getD j (0, 0) = t.acc.getD j (0, 0)) ∧
      (u.av.testBit k = true ↔ (clamp (old.1 + v.1) ≠ old.1 + v.1 ∨ clamp (old.2 + v.2) ≠ old.2 + v.2 ∨ (clr = false ∧ t.av.testBit k = true))) ∧
      u.accSlow = t.accSlow ∧ u.p = t.p ∧ u.d = t.d ∧ u.pendMem = t.pendMem ∧ u.sv = t.sv)

/-- Branches take effect after two delay slots; rep sets up the body that follows, or skips it where its count is 0; halt stops; wait stops issue unless a
source it names is pending; sig raises EV_TP. From 12_trace_processors.md. Rests also on the model's own choices or readings: log 40, 41. -/
def Obligations.ControlFlowIssues : Prop :=
  ∀ (s : State) (dt n : Nat) (w : Word), s.issues dt n w = true →
    let r := s.tpFinds dt n
    let t := r.tp
    let c := (s.after dt).cyc
    let left (t : Tp) : Host.Outcome State Fault Refusal := .next (s.tpLeft dt n { r with tp := t })
    let goes (target : Int) (rti : Bool) (t : Tp) : Tp := { t with delay := some (3, (target % (2 ^ 19 : Int)).toNat / 4 * 4, rti) }
    let count : Nat := if lUseRc w then (t.d.getD (iRd w) 0).toNat % 2 ^ 32 else lCount w
    let mask : Nat := w.fld 10 0
    (iOp w = 0 → iFn w = 0 → exec (.tpNop dt n) s = left t) ∧
    (iOp w = 0 → iFn w = 1 → t.stopReq = false →
      exec (.tpHalt dt n) s = .next (s.tpLeft dt n { r with dev := r.dev.tpEvent n 2 0 t.pc, tp := { t with state := 1 } })) ∧
    (iOp w = 1 → t.stopReq = false → exec (.tpWait dt n mask) s = left (if (t.source mask).isSome then t else { t with wait := some mask })) ∧
    (iOp w = 2 → exec (.tpSig dt n (w.fld 7 0)) s = .next (s.tpLeft dt n { r with dev := r.dev.tpEvent n 1 (w.fld 7 0) t.pc })) ∧
    (iOp w = 0x18 → exec (.tpBr dt n) s = left (goes (if t.cond (iRd w) then (t.pc : Int) + 4 * iImm w else (t.pc : Int) + 12) false t)) ∧
    (iOp w = 0x19 → exec (.tpJal dt n) s =
      left (goes ((t.pc : Int) + 4 * iImm w) false { t with pendD := t.pendD ++ [(c + 2, iRd w, BitVec.ofNat 64 ((t.pc + 12) % 2 ^ 19))] })) ∧
    (iOp w = 0x1A → exec (.tpJr dt n) s = left (goes ((t.d.getD (iRa w) 0).toNat % 2 ^ 19 : Nat) false t)) ∧
    (iOp w = 0x1B → exec (.tpRti dt n) s = left (goes t.epc true t)) ∧
    (iOp w = 0x1C → exec (.tpRep dt n) s =
      left (if count = 0 then { t with pc := (t.pc + 4 * lLen w) % 2 ^ 19 } else { t with rep := some ((t.pc + 4) % 2 ^ 19, lLen w, count) }))

/-- The queue and control register instructions issue: pop reads a descriptor and frees the slot of the one before, push appends to the result queue while
it has room, qcnt reads the counts, mfc and mtc reach the control registers, rdt reads the timebase. BIND_CLR clears the binding event, and a write of
0 to that bit changes nothing. From 12_trace_processors.md. Rests also on the model's own choices or readings: log 40, 42, 128. -/
def Obligations.QueuesAndControlRegisters : Prop :=
  (∀ (s : State) (dt n : Nat) (w : Word), s.issues dt n w = true →
      let r := s.tpFinds dt n
      let t := r.tp
      let c := (s.after dt).cyc
      let left (t : Tp) : Host.Outcome State Fault Refusal := .next (s.tpLeft dt n { r with tp := t })
      let f : Nat := iRa w
      let x := t.feed f
      let a : QWord := t.d.getD (iRa w) 0
      let room : Nat := match t.binding with | some b => 2 ^ fldAt b 0x08 3 0 | none => 0
      let base : Nat := match t.binding with | some b => tbSlotBase b f | none => 0
      let bit (i : Nat) : Bool := a.toNat.testBit i
      (iOp w = 0x1E →
        (iFn w = 0 → r.dev.cmc.facet = [] → x.q.ready c = [] →
          exec (.tpPop dt n) s = left { t.setFeed f { x with q := { x.q with underrun := true } } with u := true, pendD := t.pendD ++ [(c + 6, iRd w, BitVec.ofNat 64 x.q.last)] }) ∧
        (∀ v e rest, iFn w = 0 → r.dev.cmc.facet = [] → x.q.items = (v, e) :: rest → x.q.ready c ≠ [] →
          exec (.tpPop dt n) s = left { t.setFeed f { x with q := { x.q with items := rest, last := v, tight := false }, held := some ((v % 2 ^ 19 - base) / max (v / 2 ^ 32 % 2 ^ 16 * 32) 1) } with
            u := false, pendD := t.pendD ++ [(c + 6, iRd w, BitVec.ofNat 64 v)] }) ∧
        (iFn w = 1 ∨ iFn w = 2 → t.rq.dropping = false → t.rq.tight = false → t.rq.items.length < room →
          exec (.tpPush dt n) s = left { t with rq := { t.rq with items := t.rq.items ++ [(a.toNat, decide (iFn w = 2))], pushedAt := some c, pushed := t.rq.pushedOn c + 1, tight := false } }) ∧
        (iFn w = 3 → exec (.tpQcntFeed dt n) s = left { t with pendD := t.pendD ++ [(c + 2, iRd w, BitVec.ofNat 64 x.q.packets)] }) ∧
        (iFn w = 4 → exec (.tpQcntResult dt n) s = left { t with pendD := t.pendD ++ [(c + 2, iRd w, BitVec.ofNat 64 (room - t.rq.words))] })) ∧
      (iOp w = 0x1F →
        (iFn w = 0 → exec (.tpMfc dt n) s = left { t with pendD := t.pendD ++ [(c + 2, iRd w, BitVec.ofNat 64 (t.ctrl (iImm6 w)))] }) ∧
        (iFn w = 1 →
          (iImm6 w = 0 → exec (.tpMtc dt n) s =
            left { t with z := bit 0, n := bit 1, c := bit 2, v := bit 3, u := bit 4, ie := bit 5, av := a.toNat / 64 % 16, sv := bit 10 }) ∧
          (iImm6 w = 1 → exec (.tpMtc dt n) s = left { t with epc := a.toNat % 2 ^ 19 }) ∧
          (iImm6 w = 3 → exec (.tpMtc dt n) s = left { t with imask := a.toNat % 2 ^ 11 }) ∧
          (iImm6 w = 5 → exec (.tpMtc dt n) s = left { t with ivec := a.toNat % 2 ^ 19 }) ∧
          (iImm6 w = 6 → exec (.tpMtc dt n) s = left { t with tcmpLo := BitVec.ofNat 32 a.toNat }) ∧
          (iImm6 w = 2 ∨ iImm6 w = 8 → exec (.tpMtc dt n) s = left t) ∧
          (iImm6 w = 7 → exec (.tpTcmpHiWrite dt n) s = left { t with tcmpHi := BitVec.ofNat 32 a.toNat, armed := some (QWord.ofHalves t.tcmpLo (BitVec.ofNat 32 a.toNat)) })) ∧
        (iFn w = 2 → exec (.tpRdt dt n) s = left { t with pendD := t.pendD ++ [(c + 2, iRd w, (s.after dt).clk.count)] }))) ∧
  (∀ (s : State) (dt n : Nat) (w : Word), s.issues dt n w = true → iOp w = 0x1F → iFn w = 1 → iImm6 w = 4 →
      let r := s.tpFinds dt n
      let a : QWord := (((s.after dt).tp n).settle (s.after dt).cyc).d.getD (iRa w) 0
      (a.toNat.testBit 11 = true → exec (.tpBindClr dt n) s = .next (s.tpLeft dt n { r with tp := { r.tp with bindPend := false } })) ∧
      (a.toNat.testBit 11 = false → exec (.tpMtc dt n) s = .next (s.tpLeft dt n r)))

/-- What reaches a processor from outside its program: a waited source ends a wait, an interrupt enters its handler, the timer's source follows the
timebase, a start's tick starts it, and a finished item's descriptor is pushed once its bytes are in its slot. From 12_trace_processors.md. Rests also
on the model's own choice or reading: log 94. -/
def Obligations.ProcessorsTakeEvents : Prop :=
  ∀ (s : State) (dt n f : Nat),
    let d := s.after dt
    let t := (d.tp n).timer d.now
    (∀ mask, t.wait = some mask → t.state = 2 → (t.source mask).isSome = true → t.interrupts = false →
      exec (.waitWake dt n) s = .next (s.onto (d.setTp n { t with wait := none, nextAt := max t.nextAt (d.cyc + 6) }))) ∧
    (∀ i, t.state = 2 → t.nextAt ≤ d.cyc → t.ie = true → t.delay = none → t.rep = none → t.source t.imask = some i → tpTraps n t d s.mem = false →
      exec (.interruptEntry dt n) s =
        .next (s.onto (d.setTp n { t with ecause := i, epc := t.pc, ie := false, pc := t.ivec / 4 * 4, wait := none, nextAt := d.cyc + 6 }))) ∧
    (∀ v, (d.tp n).armed = some v →
      ∃ u, exec (.timerCompare dt n) s = .next u ∧ ((u.dev.tp n).timerPend = true ↔ v.toNat ≤ d.now)) ∧
    (∀ st, (d.tp n).start = some st → st.tick ≤ d.now → ((d.tp n).state = 1 ∨ (d.tp n).state = 3) →
      ∃ u, exec (.tpStartTick dt n) s = .next u ∧ u.mem = s.mem ∧ (u.dev.tp n).state = 2 ∧ (u.dev.tp n).start = none ∧ (u.dev.tp n).nextAt = d.cyc ∧
        (st.resume = false → (u.dev.tp n).pc = st.entry ∧ (u.dev.tp n).ivec = st.ivec ∧ (u.dev.tp n).d = List.replicate 16 0 ∧ (u.dev.tp n).p = List.replicate 8 0) ∧
        (st.resume = true → (u.dev.tp n).pc = (d.tp n).pc ∧ (u.dev.tp n).ivec = (d.tp n).ivec ∧ (u.dev.tp n).p = (d.tp n).p)) ∧
    (∀ b i, (d.tp n).binding = some b →
      ((d.tp n).feed f).items.find? (fun (i : FeedItem) => match i.due with | some c => decide (c ≤ d.cyc) | none => false) = some i →
      ((d.tp n).feed f).q.dropping = false → ((d.tp n).feed f).q.tight = false → ((d.tp n).feed f).q.items.length < 2 ^ tbQLog b f →
      let x := (d.tp n).feed f
      let m := (tpStores n d.cyc (d.tp n) d s.mem).2.2
      let bytes := withLost i.bytes x.lost
      let base := tbSlotBase b f + i.slot * i.bytes.length
      ∃ u, exec (.feedDescriptorPush dt n f) s = .next u ∧ u.mem = { m with tp := m.tp.writeBytes (n * 2 ^ 19 + base) bytes } ∧
        ((u.dev.tp n).feed f).q.items = x.q.items ++ [(descriptor base i x.lost x.seq, true)] ∧ ((u.dev.tp n).feed f).seq = x.seq + 1 ∧ ((u.dev.tp n).feed f).lost = 0)

/-- Each conversion is kept, with the last 100 of the converters' sensors; the third in succession at 125 °C or above switches off every main rail. A
sweep that has measured its last point leaves a result of its converters and its tone stops. The write buffer's records reach flash, and a record that
begins a sector erases what the sector held; a restart of the MC writes record 0x100B, sets LEAF to 4,096 × BLOCKS, holds PSC_SEQ and leaves the rest
as it is; on an edge of CLK_STBY the mirror of the Periscope takes the MC's registers and PSC_SEQ advances, from 0 on the first. An update without
data for 600 s is closed; a trial not ready in 10 s is rolled back to the ACTIVE slot; one without a FAULT for 60 s becomes ACTIVE, and the security
version rises to its SVN. From 16_management_trust.md; 17_power_clocks_bringup.md. Rests also on the model's own choices or readings: log 82, 83, 85,
113. -/
def Obligations.ManagementControllerRuns : Prop :=
  (∀ (dt : Nat) (s : State) (temps : List Int) (ms : List (Nat × Nat)),
      let d := s.after dt
      (d.pwr.standby = true → (∀ t, d.mc.convAt = some t → t + 3000000 ≤ d.clk.time) →
        ∃ t, exec (.sensorConversion dt temps ms) s = .next t ∧ t.dev.mc.temps = takePad 0 48 temps ∧ t.dev.mc.recent = (((takePad 0 48 temps).drop 40).take 4 :: d.mc.recent).take 100 ∧
          (d.mc.trip.on = false → 2 ≤ d.mc.trip.up → d.pwr.tripped = false → 2000 ≤ (hottest (takePad 0 48 temps)).1 →
            t.dev.pwr.tripped = true ∧ t.dev.pwr.enables = 0 ∧ t.dev.mc.state = 4 ∧ t.dev.mc.fault = 0x101 ∧ t.dev.fw.stage = 0xF0 ∧ t.mem = {})) ∧
      (∀ w, d.mc.sweep = some w → w.startAt + 3000 * w.us ≤ d.clk.time →
        ∃ t, exec (.calSweepEnd dt) s = .next t ∧ t.mem = s.mem ∧ t.dev.mc.sweep = none ∧ 7 ∉ t.dev.pwr.synths ∧ t.dev.mc.tokens = d.mc.tokens + 1 ∧
          (∀ n < 4, w.conv.testBit n = true → ∃ r, t.dev.mc.results.find? (fun (p : Nat × SweepResult) => decide (p.1 = n)) = some (n, r) ∧ r.token = d.mc.tokens + 1 ∧ r.usable = w.usable))) ∧
  (∀ (dt : Nat) (s : State),
      let d := s.after dt
      d.pwr.standby = true →
        (∃ t, exec (.logFlush dt) s = .next t ∧ t.mem = s.mem ∧
          ((∀ r ∈ d.mc.buf, r.seq % 1024 ≠ 0) → t.dev.mc.buf = [] ∧ t.dev.mc.log = d.mc.log ++ d.mc.buf) ∧
          (∀ r, d.mc.buf = [r] → r.seq % 1024 = 0 →
            t.dev.mc.log = d.mc.log.filter (fun (x : LogRec) => decide (x.seq / 1024 % 512 ≠ r.seq / 1024 % 512)) ++ [r])) ∧
        (∃ t, exec (.mcWatchdogRestart dt) s = .next t ∧ t.mem = s.mem ∧ t.dev.mc.leaf = 4096 * d.mc.blocks ∧ t.dev.mc.claimed = false ∧ t.dev.rings = d.rings ∧ t.dev.aps = d.aps ∧ t.dev.clk = d.clk ∧
          t.dev.mc.psc.seq = d.mc.psc.seq ∧ t.dev.mc.psc.hold ≠ 0 ∧
          (d.mc.buf.length < 512 → ∃ r ∈ t.dev.mc.buf, r.code = 0x100B ∧ r.arg = 2)) ∧
        ((∀ e, d.mc.psc.edgeAt = some e → e + 120 ≤ d.clk.time) →
          ∃ t, exec (.periscopeRefresh dt) s = .next t ∧ t.mem = s.mem ∧
          t.dev.mc.psc.seq = (if d.mc.psc.begun = false then 0 else if d.mc.psc.hold ≠ 0 then d.mc.psc.seq else (d.mc.psc.seq + 1) % 2 ^ 32) ∧ t.dev.mc.psc.stage = d.fw.stage ∧ t.dev.mc.psc.state = d.mc.state ∧
          t.dev.mc.psc.fault = d.mc.fault ∧ t.dev.mc.psc.rails = d.mc.railGood ∧ t.dev.mc.psc.temps = d.mc.temps)) ∧
  (∀ (dt : Nat) (s : State),
      let d := s.after dt
      (∀ u, d.mc.update = some u → u.at_ + 1800000000000 < d.clk.time → ∃ t, exec (.updateIdleTimeout dt) s = .next t ∧ t.dev.mc.update = none ∧ t.dev.mc.slots = d.mc.slots ∧ t.mem = s.mem) ∧
      (∀ n, d.mc.trial = true → d.mc.pending = some n → d.fw.ready = false → d.fw.stage = 0x32 → d.mc.fwAt + 30000000000 < d.clk.time →
        ∃ t, exec (.trialReadyTimeout dt) s = .next t ∧ t.mem = s.mem ∧ t.dev.mc.pending = none ∧ t.dev.mc.trial = false ∧ t.dev.mc.rolled = some n ∧ t.dev.mc.active = d.mc.active ∧ t.dev.fw.image = d.mc.active ∧
          t.dev.fw.stage = 0x31) ∧
      (∀ n a, d.mc.trial = true → d.mc.pending = some n → d.mc.readyAt = some a → d.fw.fault = false → a ≤ d.mc.fwAt + 30000000000 → a + 180000000000 ≤ d.clk.time →
        ∃ t, exec (.trialSuccess dt) s = .next t ∧ t.mem = s.mem ∧ t.dev.mc.active = n ∧ t.dev.mc.pending = none ∧ t.dev.mc.trial = false ∧ t.dev.mc.svn = max d.mc.svn (imgSvn (d.mc.slotBytes n)) ∧
          t.dev.mc.revoked &&& d.mc.revoked = d.mc.revoked))

/-- Resets that keep the rails: a FAULT held, the failure of a stage, MRST_N. Memories and apertures are gone, and bring-up resumes at stage 0x10; the
third failure in succession ends in recovery mode. Retired units, OTP and the log stay. Standby power: its loss leaves flash and OTP, its return
begins bring-up at stage 0x00 with one more power-up counted. Rails: each enable 1 ms after the one before; a rail late by 10 ms switches all off with
its code; SHDN_N shuts the part down, and its return lets the rails of a fault be switched on again. From 17_power_clocks_bringup.md. Rests also on
the model's own choices or readings: log 78, 79, 86, 88, 91. -/
def Obligations.ResetsAndSupplies : Prop :=
  (∀ (dt : Nat) (s : State),
      let d := s.after dt
      let fresh (t : State) : Prop := t.mem = {} ∧ t.dev.aps = [] ∧ t.dev.rings = [] ∧ t.dev.fw.stage = 0x10 ∧ t.dev.fw.ready = false ∧ t.dev.clk.run = false ∧ t.dev.clk.count = 0 ∧
        t.dev.pwr.enables = 8 ∧ t.dev.mc.update = none ∧ t.dev.spares.retired = d.spares.retired ∧ t.dev.mc.svn = d.mc.svn ∧ t.dev.mc.log = d.mc.log ∧ t.dev.mc.userSets = d.mc.userSets ∧
        t.dev.cmc.p = d.cmc.p
      d.pwr.resettable = true →
        (d.pwr.stopped = false → d.fw.stage = 0x3F → d.mc.trial = false →
          ∃ t, exec (.firmwareFaultRestart dt) s = .next t ∧ fresh t ∧ t.dev.mc.faults = if d.clk.time ≤ d.mc.fwAt + 1803000000000 then d.mc.faults + 1 else 0) ∧
        (∀ a, d.pwr.failAt = some a → a + 3000000000 ≤ d.clk.time → d.mc.faults < 2 → ∃ t, exec (.stageFailureRestart dt) s = .next t ∧ fresh t ∧ t.dev.mc.faults = d.mc.faults + 1) ∧
        (∀ a, d.pwr.failAt = some a → a + 3000000000 ≤ d.clk.time → 2 ≤ d.mc.faults →
          ∃ t, exec (.stageFailureRestart dt) s = .next t ∧ t.dev.fw.recovery = true ∧ t.dev.fw.ready = true ∧ t.dev.fw.stage = 0xE0 ∧ t.dev.mc.state = 2) ∧
        (0x10 ≤ d.fw.stage → ∃ t, exec (.mrstNLow dt) s = .next t ∧ fresh t ∧ t.dev.pwr.mrstLow = true) ∧
        (d.pwr.mrstLow = true → ∃ t, exec (.mrstNRelease dt) s = .next t ∧ t.mem = s.mem ∧ t.dev.pwr.mrstLow = false ∧ t.dev.fw = d.fw ∧ (3 ≤ d.jtag.ir → t.dev.jtag.ir = 0))) ∧
  (∀ (dt : Nat) (s : State) (rcv shdn : Bool),
      let d := s.after dt
      (∃ t, exec (.standbyPowerLoss dt) s = .next t ∧ t.mem = {} ∧ t.dev.pwr.standby = false ∧ t.dev.fw.ready = false ∧ t.dev.rings = [] ∧ t.dev.aps = [] ∧ t.dev.mc.log = d.mc.log ∧ t.dev.mc.slots = d.mc.slots ∧
        t.dev.mc.active = d.mc.active ∧ t.dev.mc.svn = d.mc.svn ∧ t.dev.mc.revoked = d.mc.revoked ∧ t.dev.mc.blocks = d.mc.blocks ∧ t.dev.mc.buf = []) ∧
      (∃ t, exec (.standbyPowerUp dt rcv shdn) s = .next t ∧ t.mem = {} ∧ t.dev.pwr.standby = true ∧ t.dev.fw.stage = 0x00 ∧ t.dev.mc.boots = (d.mc.boots + 1) % 2 ^ 32 ∧ t.dev.mc.rcv = rcv ∧ t.dev.pwr.shdnLow = shdn ∧
        t.dev.pwr.enables = 0 ∧ t.dev.pwr.tripped = false ∧ t.dev.mc.log = d.mc.log) ∧
      (d.mayEnable = true → d.pwr.enables < 8 → (d.pwr.enables = 0 ∨ d.pwr.enableAt + 3000000 ≤ d.clk.time) →
        ∃ t, exec (.railEnable dt) s = .next t ∧ t.mem = s.mem ∧ t.dev.pwr.enables = d.pwr.enables + 1 ∧ t.dev.pwr.enableAt = d.clk.time) ∧
      (d.mayEnable = true → d.pwr.enables ≠ 0 → d.pwr.enableAt + 30000000 < d.clk.time →
        ∃ t, exec (.railWindowTimeout dt) s = .next t ∧ t.mem = {} ∧ t.dev.pwr.enables = 0 ∧ t.dev.pwr.railsLocked = true ∧ t.dev.mc.state = 4 ∧ t.dev.fw.stage = 0xF0 ∧
          t.dev.mc.fault = 0x300 + [0, 1, 4, 3, 5, 5, 5, 2].getD (d.pwr.enables - 1) 0) ∧
      (d.pwr.standby = true → d.pwr.shdnLow = false → d.relays = [] →
        ∃ t, exec (.shdnNLow dt) s = .next t ∧ t.mem = s.mem ∧ t.dev.pwr.shdnLow = true ∧ (t.dev.pwr.shutting = true ↔ d.pwr.enables ≠ 0) ∧
          (∀ a p, (a, p) ∈ d.aps → p.state = 3 → p.live ≠ [] → ∃ h ∈ t.dev.glob.halts, h.unit = a ∧ h.tick = d.now + scopeLead 0 ∧ h.cause = 5)) ∧
      (d.pwr.shutting = true → d.mc.buf = [] →
        ∃ t, exec (.shutdownComplete dt) s = .next t ∧ t.mem = {} ∧ t.dev.pwr.mainOk = false ∧ t.dev.pwr.enables = 0 ∧ t.dev.pwr.shutting = false ∧ t.dev.fw.stage = 0x02 ∧ t.dev.mc.state = 1) ∧
      (d.pwr.shdnLow = true → d.pwr.railsLocked = true → d.pwr.tripped = false →
        ∃ t, exec (.shdnNHigh dt) s = .next t ∧ t.mem = s.mem ∧ t.dev.pwr.shdnLow = false ∧ t.dev.pwr.railsLocked = false ∧ t.dev.fw.stage = 0x02 ∧ t.dev.mc.state = 1))

/-- REFCLK, the MDLL and the synthesisers: presence, loss with what it stops and loses, lock or none in range. Bring-up passes through the stages of R618
in order, each when its own condition holds; a stage that fails leaves FAULT_CODE 0x500 + STAGE and MC_STATE 4. From 17_power_clocks_bringup.md. Rests
also on the model's own choices or readings: log 79, 89. -/
def Obligations.ClocksAndBringup : Prop :=
  (∀ (dt n : Nat) (s : State),
      let d := s.after dt
      d.pwr.enables = 8 →
        exec (.refclkPresent dt) s = .next (s.onto { d with pwr := { d.pwr with refclk := true } }) ∧
        (d.pwr.refclk = true → d.pwr.mdll = true →
          ∃ t, exec (.refclkLost dt) s = .next t ∧ t.mem = {} ∧ t.dev.pwr.refclk = false ∧ t.dev.pwr.stopped = true ∧ t.dev.fw.fault = true ∧ t.dev.mc.fault = 0x401 ∧ t.dev.mc.state = 4 ∧ t.dev.clk.run = false ∧
            t.dev.pwr.enables = 8 ∧ t.dev.fw.stage = 0xF0) ∧
        (d.fw.stage = 0x10 → d.pwr.refclk = true → d.pwr.mrstLow = false → d.pwr.mdll = false →
          exec (.mdllLock dt true) s = .next (s.onto { d with pwr := { d.pwr with mdll := true } }) ∧
          ∃ t, exec (.mdllLock dt false) s = .next t ∧ t.mem = {} ∧ t.dev.mc.fault = 0x402 ∧ t.dev.mc.state = 4 ∧ t.dev.pwr.enables = 0) ∧
        (d.pwr.mdll = true → n < 40 →
          (∃ t, exec (.synthesiserLock dt n true) s = .next t ∧ t.mem = s.mem ∧ n ∈ t.dev.pwr.synths ∧ (∀ k, k ≠ n → (k ∈ t.dev.pwr.synths ↔ k ∈ d.pwr.synths))) ∧
          (∃ t, exec (.synthesiserLock dt n false) s = .next t ∧ t.mem = s.mem ∧ n ∉ t.dev.pwr.synths ∧ (∀ k, k ≠ n → (k ∈ t.dev.pwr.synths ↔ k ∈ d.pwr.synths))))) ∧
  (∀ (dt : Nat) (s : State),
      let d := s.after dt
      let n := d.fw.stage
      let ends (ok : Bool) (p : State → Prop) : Prop := ∃ t, exec (.bringupStageEnd dt ok []) s = .next t ∧ t.mem = s.mem ∧ p t
      d.pwr.standby = true → d.pwr.shutting = false →
        (n = 0x00 → d.pwr.stageAt + 6000000 ≤ d.clk.time → ends true (fun t => t.dev.fw.stage = 0x01)) ∧
        (n = 0x01 → d.pwr.shdnLow = false → ends true (fun t => t.dev.fw.stage = 0x02 ∧ t.dev.mc.state = 1 ∧ t.dev.mc.leaf = 4096 * d.mc.blocks)) ∧
        (n = 0x02 → d.pwr.enables = 8 → ends true (fun t => t.dev.fw.stage = 0x10 ∧ t.dev.mc.railGood = 127)) ∧
        (n = 0x10 → d.pwr.refclk = true → d.pwr.mdll = true → d.pwr.mrstLow = false → ends true (fun t => t.dev.fw.stage = 0x11 ∧ t.dev.clk.run = true ∧ t.dev.clk.count = 0 ∧ t.dev.clk.tq = .free)) ∧
        (n = 0x11 → ends true (fun t => t.dev.fw.stage = 0x12 ∧ t.dev.pwr.mainOk = true)) ∧
        (n = 0x12 → ends true (fun t => t.dev.fw.stage = 0x20)) ∧
        (n = 0x20 → ends true (fun t => t.dev.fw.stage = 0x21)) ∧
        (n = 0x21 → d.pwr.untrained = [] → d.cmc.relock = none → d.cmc.rateReq = none → ends true (fun t => t.dev.fw.stage = 0x22)) ∧
        (n = 0x22 → ends true (fun t => t.dev.fw.stage = 0x30)) ∧
        (n = 0x30 → d.mc.rcv = true → (d.mc.pending = none ∨ d.mc.trials = 0) → ends true (fun t => t.dev.fw.stage = 0xE0 ∧ t.dev.fw.recovery = true ∧ t.dev.fw.ready = true ∧ t.dev.mc.state = 2)) ∧
        (n = 0x31 → ends true (fun t => t.dev.fw.stage = 0x32 ∧ t.dev.mc.fwAt = d.clk.time)) ∧
        (n = 0x32 → ends true (fun t => t.dev.fw.stage = 0x3F ∧ t.dev.fw.ready = true ∧ t.dev.mc.readyAt = some d.clk.time)) ∧
        (n ≠ 0x3F → n ≠ 0xE0 → n ≠ 0xF0 → ends false (fun t => t.dev.fw.stage = 0xF0 ∧ t.dev.mc.fault = 0x500 + n ∧ t.dev.mc.state = 4 ∧ t.dev.pwr.failAt = some d.clk.time)))

/-- Lockstep: once its span has passed, agreement schedules the take-over's launch, a third mismatch abandons it; a receiver that has lost alignment needs
none. An indicator that is evaluated, once a second, has its value and margin kept; the slice that has been calibrated within its limits takes the
next position of the interleave. The JTAG instructions, of which EXTEST, CLAMP and HIGHZ act as BYPASS while MRST_N is high; the SMBus target serves
Block Read alone, and answers an alert read while the alert is low. From 04_ingress.md; 10_integrity_sparing.md; 16_management_trust.md;
18_electrical_package.md. Rests also on the model's own choices or readings: log 45, 55, 58, 59, 92, 116. -/
def Obligations.SparesAndTestPorts : Prop :=
  (∀ (dt k : Nat) (agree : Bool) (x : Takeover) (s : State),
      let d := s.after dt
      (d.spares.running = [x] → x.kind = k → x.launch = none →
        (k = 0 → d.lostPad x.unit = true →
          ∃ t, exec (.spareLockstepEnd dt k agree) s = .next t ∧ t.mem = s.mem ∧ t.dev.spares.running = [{ x with launch := some (d.spareTick x) }]) ∧
        ((k = 0 → d.lostPad x.unit = false) → (k = 7 → 2 ^ 21 ≤ Tbl.look 0 d.cmc.copy (d.pc x.unit).logical) →
          (d.clk.cycle < x.began + d.lockSpan x → exec (.spareLockstepEnd dt k agree) s = .next (s.onto d)) ∧
          (x.began + d.lockSpan x ≤ d.clk.cycle →
            (d.lockstepPassed x agree = true →
              ∃ t, exec (.spareLockstepEnd dt k agree) s = .next t ∧ t.mem = s.mem ∧ t.dev.spares.running = [{ x with launch := some (d.spareTick x) }]) ∧
            (d.lockstepPassed x agree = false →
              (x.mismatches < 2 → ∃ t, exec (.spareLockstepEnd dt k agree) s = .next t ∧ t.mem = s.mem ∧
                t.dev.spares.running = [{ x with mismatches := x.mismatches + 1, differed := true, began := d.clk.cycle }]) ∧
              (2 ≤ x.mismatches → ∃ t, exec (.spareLockstepEnd dt k agree) s = .next t ∧ t.mem = s.mem ∧ t.dev.spares.running = [] ∧
                t.dev.spares.abandoned = d.spares.abandoned + 1))))) ∧
      (∀ u i v, (wearDefault k i).isSome = true → i ≠ 15 → d.heldCmds = [] →
        (d.evaluated k u i = true → exec (.wearEvaluation dt k u i v) s = .next (s.onto d)) ∧
        (d.evaluated k u i = false → d.wearCrossed k i v = false →
          ∃ t, exec (.wearEvaluation dt k u i v) s = .next t ∧ t.mem = s.mem ∧ (k, u, i, v) ∈ t.dev.spares.values ∧ (k, u, i, d.wearMargin k i v) ∈ t.dev.spares.margins ∧
            (k, u, i) ∉ t.dev.mc.crossed ∧ t.dev.spares.running = d.spares.running)) ∧
      (∀ o r offset gain skew bandwidth, k < 4 → (d.ainOf k).out = some o → (d.ainOf k).degraded = false → d.fw.stage = 0x3F → d.mc.readyAt = some r →
        r + ((d.ainOf k).swaps + 1) * 24000000 ≤ d.clk.time → d.spares.running = [] → d.sliceExcess [offset, gain, skew] = none →
        let p := (d.ainOf k).swaps % 64
        ∃ t, exec (.rotationSwap dt k ⟨offset, gain, skew, bandwidth⟩) s = .next t ∧ t.mem = s.mem ∧ (t.dev.ainOf k).swaps = (d.ainOf k).swaps + 1 ∧ Tbl.look p (t.dev.ainOf k).slices p = o ∧
          (t.dev.ainOf k).out = some (Tbl.look p (d.ainOf k).slices p))) ∧
  (∀ (dt v : Nat) (s : State),
      let d := s.after dt
      let loads (i : Instr) (ir bits : Nat) (out : Nat → Prop) (held : Option Nat) : Prop :=
        ∃ t w, exec i s = .next t ∧ out w ∧ t.mem = s.mem ∧ t.dev.jtag.ir = ir ∧ t.dev.out = d.out ++ [.jtag bits w] ∧ t.dev.jtag.boundary = held.getD d.jtag.boundary ∧ t.dev.regs = d.regs
      exec (.trstNLow dt) s = .next (s.onto { d with jtag := { ir := 1, boundary := 0 } }) ∧
      (d.pwr.standby = true →
        loads (.bypass dt) 0 1 (· = 0) none ∧
        loads (.idcode dt) 1 32 (· = 0x175123CB) none ∧
        loads (.samplePreload dt v) 2 64 (fun _ => True) (some v) ∧
        (d.pwr.mrstLow = true → loads (.extest dt v) 3 64 (fun _ => True) (some v) ∧ loads (.clamp dt) 4 1 (· = 0) none ∧ loads (.highz dt) 5 1 (· = 0) none) ∧
        (d.pwr.mrstLow = false → loads (.extest dt v) 0 1 (· = 0) none ∧ loads (.clamp dt) 0 1 (· = 0) none ∧ loads (.highz dt) 0 1 (· = 0) none) ∧
        (let address := 2 * (0x58 + Config.smbAddr.toNat)
          let data := 4 :: bytesOfWord (d.mc.psc.word (4 * (v % 256)))
          exec (.smbusBlockRead dt v) s = .next (s.onto { d with out := d.out ++
            [.smbus (data ++ [pec ([BitVec.ofNat 8 address, BitVec.ofNat 8 v, BitVec.ofNat 8 (address + 1)] ++ data)])] })) ∧
        exec (.smbusAlertResponse dt) s = .next (s.onto { d with out := d.out ++ [.smbus
          (if d.mc.state = 4 ∨ 1600 ≤ (hottest d.mc.temps).1 then [BitVec.ofNat 8 (0x58 + Config.smbAddr.toNat)] else [])] }) ∧
        exec (.smbusWrite dt) s = .next (s.onto { d with out := d.out ++ [.smbus []] })))
end

