-- ==== Sys2Proof/Laws/Memory.lean ====
section
/-!
SUPPORT. Memory: a read after a write, and every operation keeps the canonical form.
-/

namespace Sys2Proof.Machine

theorem Memory.wfFrom_mono {lo lo' : Nat} (m : Memory) (h : lo' ≤ lo) (w : Memory.wfFrom lo m = true) : Memory.wfFrom lo' m = true := by
  cases m with
  | nil => rfl
  | cons c t => simp only [Memory.wfFrom, Bool.and_eq_true, decide_eq_true_eq] at *; exact ⟨⟨by omega, w.1.2⟩, w.2⟩

theorem Memory.write_wfFrom (a : Nat) (v : Byte) (m : Memory) (lo : Nat) (h : lo ≤ a) (w : Memory.wfFrom lo m = true) :
    Memory.wfFrom lo (m.write a v) = true := by
  induction m generalizing lo with
  | nil =>
    simp only [Memory.write]
    split
    · rfl
    · simp_all [Memory.wfFrom]
  | cons c t ih =>
    obtain ⟨b, x⟩ := c
    simp only [Memory.wfFrom, Bool.and_eq_true, decide_eq_true_eq] at w
    simp only [Memory.write]
    split
    · subst_vars
      split
      · exact Memory.wfFrom_mono t (by omega) w.2
      · simp_all [Memory.wfFrom]
    · split
      · split
        · simp_all [Memory.wfFrom]
        · simp only [Memory.wfFrom, Bool.and_eq_true, decide_eq_true_eq]
          exact ⟨⟨h, by assumption⟩, ⟨by omega, w.1.2⟩, w.2⟩
      · simp only [Memory.wfFrom, Bool.and_eq_true, decide_eq_true_eq]
        exact ⟨w.1, ih (b + 1) (by omega) w.2⟩

theorem Memory.write_wf (m : Memory) (a : Nat) (v : Byte) (w : m.wf = true) : (m.write a v).wf = true :=
  Memory.write_wfFrom a v m 0 (by omega) w

theorem Memory.writeBytes_wf (bs : List Byte) (m : Memory) (a : Nat) (w : m.wf = true) : (m.writeBytes a bs).wf = true := by
  induction bs generalizing m a with
  | nil => exact w
  | cons v t ih => exact ih _ _ (Memory.write_wf m a v w)

theorem Memory.filter_wfFrom (p : Host.Cell → Bool) (m : Memory) (lo : Nat) (w : Memory.wfFrom lo m = true) : Memory.wfFrom lo (m.filter p) = true := by
  induction m generalizing lo with
  | nil => rfl
  | cons c t ih =>
    simp only [Memory.wfFrom, Bool.and_eq_true, decide_eq_true_eq] at w
    simp only [List.filter_cons]
    split
    · simp only [Memory.wfFrom, Bool.and_eq_true, decide_eq_true_eq]
      exact ⟨w.1, ih _ w.2⟩
    · exact Memory.wfFrom_mono _ (by omega) (ih _ w.2)

theorem Memory.filter_wf (p : Host.Cell → Bool) (m : Memory) (w : m.wf = true) : Memory.wf (m.filter p) = true := Memory.filter_wfFrom p m 0 w

theorem Memory.clear_wf (m : Memory) (a n : Nat) (w : m.wf = true) : (m.clear a n).wf = true := Memory.filter_wf _ m w

/-- An address below every listed one reads as 0. -/
theorem Memory.read_below (m : Memory) (a lo : Nat) (h : a < lo) (w : Memory.wfFrom lo m = true) : m.read a = 0 := by
  cases m with
  | nil => rfl
  | cons c t =>
    simp only [Memory.wfFrom, Bool.and_eq_true, decide_eq_true_eq] at w
    simp only [Memory.read]
    rw [if_neg (by omega), if_pos (by omega)]

/-- A byte read after one is written: the byte written at its address, what was there elsewhere. -/
theorem Memory.read_write_from (m : Memory) (a b lo : Nat) (v : Byte) (w : Memory.wfFrom lo m = true) :
    (m.write a v).read b = if b = a then v else m.read b := by
  induction m generalizing lo with
  | nil =>
    simp only [Memory.write]
    split
    · simp_all [Memory.read]
    · by_cases hb : b = a
      · subst hb; simp [Memory.read]
      · simp [Memory.read, hb, Ne.symm hb]
  | cons c t ih =>
    obtain ⟨k, x⟩ := c
    simp only [Memory.wfFrom, Bool.and_eq_true, decide_eq_true_eq] at w
    simp only [Memory.write]
    split
    · subst_vars
      split
      · subst_vars
        by_cases hb : b = k
        · subst hb; simp [Memory.read_below t b (b + 1) (by omega) w.2]
        · simp only [hb, if_false, Memory.read, Ne.symm hb]
          split
          · exact Memory.read_below t b (k + 1) (by omega) w.2
          · rfl
      · by_cases hb : b = k
        · subst hb; simp [Memory.read]
        · simp only [hb, if_false, Memory.read, Ne.symm hb]
    · split
      · split
        · subst_vars
          by_cases hb : b = a
          · subst hb; simp only [if_true, Memory.read]; rw [if_neg (by omega), if_pos (by omega)]
          · simp [hb]
        · by_cases hb : b = a
          · subst hb; simp [Memory.read]
          · simp only [hb, if_false, Memory.read, Ne.symm hb]
            split
            · rw [if_neg (by omega), if_pos (by omega)]
            · rfl
      · simp only [Memory.read]
        split
        · rw [if_neg (by omega)]
        · split
          · rw [if_neg (by omega)]
          · exact ih (k + 1) w.2

theorem Memory.read_write (m : Memory) (a b : Nat) (v : Byte) (w : m.wf = true) : (m.write a v).read b = if b = a then v else m.read b :=
  Memory.read_write_from m a b 0 v w

/-- Bytes outside those written read as before. -/
theorem Memory.read_writeBytes_outside (bs : List Byte) (m : Memory) (a b : Nat) (w : m.wf = true) (h : b < a ∨ a + bs.length ≤ b) :
    (m.writeBytes a bs).read b = m.read b := by
  induction bs generalizing m a with
  | nil => rfl
  | cons v t ih =>
    simp only [List.length_cons] at h
    rw [Memory.writeBytes, ih _ _ (Memory.write_wf m a v w) (by omega), Memory.read_write m a b v w, if_neg (by omega)]

/-- The bytes written read as written. -/
theorem Memory.read_writeBytes (bs : List Byte) (m : Memory) (a i : Nat) (w : m.wf = true) (h : i < bs.length) :
    (m.writeBytes a bs).read (a + i) = bs.getD i 0 := by
  induction bs generalizing m a i with
  | nil => simp at h
  | cons v t ih =>
    rw [Memory.writeBytes]
    cases i with
    | zero =>
      rw [Memory.read_writeBytes_outside t _ _ _ (Memory.write_wf m a v w) (by omega), Memory.read_write m a _ v w]
      simp
    | succ j =>
      have := ih (m.write a v) (a + 1) j (Memory.write_wf m a v w) (by simpa using h)
      rw [show a + (j + 1) = a + 1 + j by omega, this]
      simp

theorem Mems.wf_iff (m : Mems) : m.wf = true ↔ m.cap.wf = true ∧ m.tp.wf = true := by
  simp only [Mems.wf, Bool.and_eq_true]

end Sys2Proof.Machine
end

