-- ==== Sys2Proof/Laws/Keep.lean ====
section
/-!
SUPPORT. Every operation that writes a memory keeps both memories canonical, and says which of them it leaves alone.
-/

namespace Sys2Proof.Machine

/-- What every step of a fold keeps, the fold keeps. -/
theorem foldl_keeps {α β : Type} (p : β → Prop) (f : β → α → β) (l : List α) (x : β) (h : p x) (k : ∀ y a, p y → p (f y a)) : p (l.foldl f x) := by
  induction l generalizing x with
  | nil => exact h
  | cons a t ih => exact ih (f x a) (k x a h)

theorem Mems.wf_cap {m : Mems} (w : m.wf = true) : m.cap.wf = true := (Mems.wf_iff m |>.1 w).1
theorem Mems.wf_tp {m : Mems} (w : m.wf = true) : m.tp.wf = true := (Mems.wf_iff m |>.1 w).2
theorem Mems.wf_mk {a b : Memory} (c : a.wf = true) (t : b.wf = true) : Mems.wf { cap := a, tp := b } = true := (Mems.wf_iff _).2 ⟨c, t⟩

/-! ### Capture memory -/

theorem poisonLine_tp (l : Nat) (x : Dev × Mems) : (poisonLine l x).2.tp = x.2.tp := rfl

theorem poisonLine_wf (l : Nat) (x : Dev × Mems) (w : x.2.wf = true) : (poisonLine l x).2.wf = true :=
  Mems.wf_mk (Memory.clear_wf x.2.cap (64 * l) 64 (Mems.wf_cap w)) (Mems.wf_tp w)

theorem capWrite_tp (a : Nat) (bs : List Byte) (x : Dev × Mems) : (capWrite a bs x).2.tp = x.2.tp := by
  simp only [capWrite]; split <;> rfl

theorem capWrite_wf (a : Nat) (bs : List Byte) (x : Dev × Mems) (w : x.2.wf = true) : (capWrite a bs x).2.wf = true := by
  refine (Mems.wf_iff _).2 ⟨?_, by rw [capWrite_tp]; exact Mems.wf_tp w⟩
  simp only [capWrite]
  split
  · refine Memory.writeBytes_wf _ _ _ (foldl_keeps (fun m : Memory => m.wf = true) _ _ _ (Mems.wf_cap w) fun m b h => ?_)
    split
    · exact Memory.clear_wf _ _ _ h
    · exact h
  · refine foldl_keeps (fun m : Memory => m.wf = true) _ _ _ (foldl_keeps (fun m : Memory => m.wf = true) _ _ _ (Mems.wf_cap w) fun m b h => ?_) fun m b h => ?_
    · split
      · exact Memory.clear_wf _ _ _ h
      · exact h
    · split
      · exact h
      · exact Memory.write_wf _ _ _ h

theorem writeBlocks_wf (a n : Nat) (data : List Word) (errs : List Upset) (x : Dev × Mems) (w : x.2.wf = true) :
    (writeBlocks a n data errs x).2.2.2.wf = true := by
  refine foldl_keeps (fun y : Nat × Bool × (Dev × Mems) => y.2.2.2.wf = true) _ _ _ w fun y i h => ?_
  dsimp only
  split
  · exact h
  · split
    · exact h
    · exact capWrite_wf _ _ (_, y.2.2.2) h

theorem writeBlocks_tp (a n : Nat) (data : List Word) (errs : List Upset) (x : Dev × Mems) : (writeBlocks a n data errs x).2.2.2.tp = x.2.tp := by
  refine foldl_keeps (fun y : Nat × Bool × (Dev × Mems) => y.2.2.2.tp = x.2.tp) _ _ _ rfl fun y i h => ?_
  dsimp only
  split
  · exact h
  · split
    · exact h
    · rw [capWrite_tp]; exact h

theorem scrubLine_wf (x : Nat) (errs : List Upset) (y : Dev × Mems) (l : Nat) (w : y.2.wf = true) : (scrubLine x errs y l).2.wf = true := by
  simp only [scrubLine]
  split
  · exact w
  · exact w
  · exact w
  · exact poisonLine_wf _ _ w

theorem scrubLines_wf (x : Nat) (errs : List Upset) (l : List Nat) (y : Dev × Mems) (w : y.2.wf = true) :
    (l.foldl (scrubLine x errs) y).2.wf = true :=
  foldl_keeps (fun z : Dev × Mems => z.2.wf = true) _ _ _ w fun z p h => scrubLine_wf x errs z p h

theorem captureScrub_wf (x : Nat) (errs : List Upset) (y : Dev × Mems) (w : y.2.wf = true) : (captureScrub x errs y).2.wf = true := by
  unfold captureScrub
  dsimp only
  split
  · exact w
  · split
    · exact w
    · split
      · exact w
      · exact scrubLines_wf x errs _ (_, y.2) w

theorem scrubLine_tp (x : Nat) (errs : List Upset) (y : Dev × Mems) (l : Nat) : (scrubLine x errs y l).2.tp = y.2.tp := by
  simp only [scrubLine]
  split <;> rfl

/-! ### Local memories -/

theorem facetByte_wf (g : Nat) (errs : List (Nat × Nat)) (y : Dev × Mems) (a : Nat) (w : y.2.wf = true) : (facetByte g errs y a).2.wf = true := by
  unfold facetByte
  dsimp only
  generalize (if y.1.facetMarked g a then _ else _ : Verdict) = v
  split
  · exact w
  · cases v with
    | uncorrectable =>
      dsimp only
      by_cases h : g = 2
      · rw [if_pos h]; exact Mems.wf_mk (Mems.wf_cap w) (Memory.clear_wf y.2.tp a 1 (Mems.wf_tp w))
      · rw [if_neg h]; exact w
    | _ => exact w

theorem facetBytes_wf (g : Nat) (errs : List (Nat × Nat)) (l : List Nat) (y : Dev × Mems) (w : y.2.wf = true) :
    (l.foldl (facetByte g errs) y).2.wf = true :=
  foldl_keeps (fun z : Dev × Mems => z.2.wf = true) _ _ _ w fun z p h => facetByte_wf g errs z p h

theorem facetScrub_wf (g line : Nat) (errs : List (Nat × Nat)) (y : Dev × Mems) (w : y.2.wf = true) : (facetScrub g line errs y).2.wf = true := by
  unfold facetScrub
  dsimp only
  split
  · exact w
  · have h := facetBytes_wf g errs ((List.range 64).map (64 * line + ·))
      (y.1.updCmc (fun c => { c with facetNext := Tbl.put (facetBank g (64 * line)) (y.1.cyc + 32768) c.facetNext }), y.2) w
    generalize List.foldl _ _ _ = z at h ⊢
    split <;> exact h

theorem tpStores_cap (n c : Nat) (t : Tp) (d : Dev) (m : Mems) : (tpStores n c t d m).2.2.cap = m.cap := rfl

theorem tpStores_wf (n c : Nat) (t : Tp) (d : Dev) (m : Mems) (w : m.wf = true) : (tpStores n c t d m).2.2.wf = true := by
  unfold tpStores
  exact Mems.wf_mk (Mems.wf_cap w) (foldl_keeps (fun m : Memory => m.wf = true) _ _ _ (Mems.wf_tp w) fun _ _ h => Memory.writeBytes_wf _ _ _ h)

theorem feedPush_wf (n f : Nat) (x : Dev × Mems) (w : x.2.wf = true) : (feedPush n f x).2.wf = true := by
  have k := tpStores_wf n x.1.cyc (x.1.tp n) x.1 x.2 w
  have g (a : Nat) (bs : List Byte) : Mems.wf { (tpStores n x.1.cyc (x.1.tp n) x.1 x.2).2.2 with
      tp := (tpStores n x.1.cyc (x.1.tp n) x.1 x.2).2.2.tp.writeBytes a bs } = true :=
    Mems.wf_mk (Mems.wf_cap k) (Memory.writeBytes_wf bs _ a (Mems.wf_tp k))
  unfold feedPush
  dsimp only
  split
  · split <;> exact g _ _
  · exact w

theorem tpLoadImage_wf (n : Nat) (b : List Word) (x : Dev × Mems) (w : x.2.wf = true) : (tpLoadImage n b x).2.wf = true := by
  replace w := tpStores_wf n x.1.cyc (x.1.tp n) x.1 x.2 w
  unfold tpLoadImage
  refine Mems.wf_mk (Mems.wf_cap w) (Memory.writeBytes_wf _ _ _ ?_)
  split
  · exact Memory.filter_wf _ _ (Mems.wf_tp w)
  · exact Mems.wf_tp w

/-- An instruction's issue keeps the memories canonical when its effect does. -/
theorem tpIssue_wf (n : Nat) (sel : Word → Bool) (eff : Nat → Word → TpRes → TpRes) (x : Dev × Mems) (w : x.2.wf = true)
    (h : ∀ c v r, r.mem.wf = true → (eff c v r).mem.wf = true) : (tpIssue n sel eff x).2.wf = true := by
  have k := tpStores_wf n x.1.cyc (((x.1.tp n).timer x.1.now).settle x.1.cyc) x.1 x.2 w
  simp only [tpIssue]
  split
  · exact w
  · split
    · exact k
    · split
      · exact k
      · split
        · exact w
        · split
          · exact k
          · split
            · exact w
            · exact h _ _ _ k

/-- What a processor that issues `w` finds is what its instruction's command acts on: the command whose selector takes `w` leaves what the effect
leaves, unless it traps. -/
theorem tpIssue_issues (s : State) (dt n : Nat) (w : Word) (sel : Word → Bool) (eff : Nat → Word → TpRes → TpRes) (hi : s.issues dt n w = true)
    (hs : sel w = true) (ht : (eff (s.after dt).cyc w (s.tpFinds dt n)).trap = none) :
    onAll dt (fun d m => tpIssue n sel eff (d, m)) s = .next (s.tpLeft dt n (eff (s.after dt).cyc w (s.tpFinds dt n))) := by
  simp only [State.issues, Bool.and_eq_true, decide_eq_true_eq, Bool.not_eq_true', Option.isNone_iff_eq_none] at hi
  obtain ⟨⟨⟨⟨⟨⟨h1, h2, h3, h4⟩, h5⟩, h6⟩, h7⟩, h8⟩, h9⟩ := hi
  have c1 : ¬ (31 < n ∨ (((s.after dt).tp n).timer (s.after dt).now).state ≠ 2 ∨ (((s.after dt).tp n).timer (s.after dt).now).wait.isSome = true ∨
      (s.after dt).cyc < (((s.after dt).tp n).timer (s.after dt).now).nextAt) := by
    rw [h2, h3]; simp; omega
  have key : tpIssue n sel eff (s.after dt, s.mem) =
      ((s.tpLeft dt n (eff (s.after dt).cyc w (s.tpFinds dt n))).dev, (s.tpLeft dt n (eff (s.after dt).cyc w (s.tpFinds dt n))).mem) := by
    unfold tpIssue
    dsimp only
    rw [if_neg c1]
    split
    · rename_i b hb
      have : tpMarked (s.tpFinds dt n).dev n (s.tpFinds dt n).tp.pc 4 = some b := hb
      rw [h6] at this; cases this
    · have e1 : (!iListed (BitVec.ofNat 32 (tpLoad (s.tpFinds dt n).mem n (s.tpFinds dt n).tp.pc 4)) ||
          ((s.tpFinds dt n).tp.heldOff && iPlaced (BitVec.ofNat 32 (tpLoad (s.tpFinds dt n).mem n (s.tpFinds dt n).tp.pc 4)))) = false := by
        rw [h7, h8, h9]; rfl
      have e2 : ¬ (!sel (BitVec.ofNat 32 (tpLoad (s.tpFinds dt n).mem n (s.tpFinds dt n).tp.pc 4))) = true := by rw [h7, hs]; decide
      have e3 : (eff (s.after dt).cyc (BitVec.ofNat 32 (tpLoad (s.tpFinds dt n).mem n (s.tpFinds dt n).tp.pc 4)) (s.tpFinds dt n)).trap = none := by
        rw [h7]; exact ht
      refine (if_neg (fun h => Bool.false_ne_true (e1.symm.trans h))).trans ((if_neg e2).trans ?_)
      rw [← h7]
      split
      · rename_i c a hc
        have : (eff (s.after dt).cyc (BitVec.ofNat 32 (tpLoad (s.tpFinds dt n).mem n (s.tpFinds dt n).tp.pc 4)) (s.tpFinds dt n)).trap = some (c, a) := hc
        rw [e3] at this; cases this
      · exact if_neg (by rw [h5]; decide)
  exact congrArg (fun x : Dev × Mems => Host.Outcome.next (s.ontoAll x)) key

/-! ### Resets -/

theorem mainReset_wf (stage : Nat) (x : Dev × Mems) : (mainReset stage x).2.wf = true := rfl

end Sys2Proof.Machine
end

