-- ==== Sys2Proof/Laws/State.lean ====
section
/-!
SUPPORT. One lemma for each field of the device under each update of one part of it, and for each part read after it is set.
-/

namespace Sys2Proof.Machine

variable (d : Dev)

/-! `Dev.setReg` -/

@[simp] theorem Dev.setReg_clk (a : Nat) (v : Word) : (d.setReg a v).clk = d.clk := rfl
@[simp] theorem Dev.setReg_pcie (a : Nat) (v : Word) : (d.setReg a v).pcie = d.pcie := rfl
@[simp] theorem Dev.setReg_fw (a : Nat) (v : Word) : (d.setReg a v).fw = d.fw := rfl
@[simp] theorem Dev.setReg_regs (a : Nat) (v : Word) : (d.setReg a v).regs = Tbl.put a v d.regs := rfl
@[simp] theorem Dev.setReg_rcNow (a : Nat) (v : Word) : (d.setReg a v).rcNow = d.rcNow := rfl
@[simp] theorem Dev.setReg_shadowHost (a : Nat) (v : Word) : (d.setReg a v).shadowHost = d.shadowHost := rfl
@[simp] theorem Dev.setReg_shadowSeq (a : Nat) (v : Word) : (d.setReg a v).shadowSeq = d.shadowSeq := rfl
@[simp] theorem Dev.setReg_shadowMc (a : Nat) (v : Word) : (d.setReg a v).shadowMc = d.shadowMc := rfl
@[simp] theorem Dev.setReg_rings (a : Nat) (v : Word) : (d.setReg a v).rings = d.rings := rfl
@[simp] theorem Dev.setReg_rrRing (a : Nat) (v : Word) : (d.setReg a v).rrRing = d.rrRing := rfl
@[simp] theorem Dev.setReg_rrUsed (a : Nat) (v : Word) : (d.setReg a v).rrUsed = d.rrUsed := rfl
@[simp] theorem Dev.setReg_ev (a : Nat) (v : Word) : (d.setReg a v).ev = d.ev := rfl
@[simp] theorem Dev.setReg_glob (a : Nat) (v : Word) : (d.setReg a v).glob = d.glob := rfl
@[simp] theorem Dev.setReg_pads (a : Nat) (v : Word) : (d.setReg a v).pads = d.pads := rfl
@[simp] theorem Dev.setReg_streams (a : Nat) (v : Word) : (d.setReg a v).streams = d.streams := rfl
@[simp] theorem Dev.setReg_jesd (a : Nat) (v : Word) : (d.setReg a v).jesd = d.jesd := rfl
@[simp] theorem Dev.setReg_ain (a : Nat) (v : Word) : (d.setReg a v).ain = d.ain := rfl
@[simp] theorem Dev.setReg_chans (a : Nat) (v : Word) : (d.setReg a v).chans = d.chans := rfl
@[simp] theorem Dev.setReg_engines (a : Nat) (v : Word) : (d.setReg a v).engines = d.engines := rfl
@[simp] theorem Dev.setReg_pairAt (a : Nat) (v : Word) : (d.setReg a v).pairAt = d.pairAt := rfl
@[simp] theorem Dev.setReg_le (a : Nat) (v : Word) : (d.setReg a v).le = d.le := rfl
@[simp] theorem Dev.setReg_masks (a : Nat) (v : Word) : (d.setReg a v).masks = d.masks := rfl
@[simp] theorem Dev.setReg_combs (a : Nat) (v : Word) : (d.setReg a v).combs = d.combs := rfl
@[simp] theorem Dev.setReg_combTold (a : Nat) (v : Word) : (d.setReg a v).combTold = d.combTold := rfl
@[simp] theorem Dev.setReg_tos (a : Nat) (v : Word) : (d.setReg a v).tos = d.tos := rfl
@[simp] theorem Dev.setReg_remote (a : Nat) (v : Word) : (d.setReg a v).remote = d.remote := rfl
@[simp] theorem Dev.setReg_aps (a : Nat) (v : Word) : (d.setReg a v).aps = d.aps := rfl
@[simp] theorem Dev.setReg_cmc (a : Nat) (v : Word) : (d.setReg a v).cmc = d.cmc := rfl
@[simp] theorem Dev.setReg_regions (a : Nat) (v : Word) : (d.setReg a v).regions = d.regions := rfl
@[simp] theorem Dev.setReg_spares (a : Nat) (v : Word) : (d.setReg a v).spares = d.spares := rfl
@[simp] theorem Dev.setReg_dma (a : Nat) (v : Word) : (d.setReg a v).dma = d.dma := rfl
@[simp] theorem Dev.setReg_blocks (a : Nat) (v : Word) : (d.setReg a v).blocks = d.blocks := rfl
@[simp] theorem Dev.setReg_drives (a : Nat) (v : Word) : (d.setReg a v).drives = d.drives := rfl
@[simp] theorem Dev.setReg_relays (a : Nat) (v : Word) : (d.setReg a v).relays = d.relays := rfl
@[simp] theorem Dev.setReg_feeds (a : Nat) (v : Word) : (d.setReg a v).feeds = d.feeds := rfl
@[simp] theorem Dev.setReg_layers (a : Nat) (v : Word) : (d.setReg a v).layers = d.layers := rfl
@[simp] theorem Dev.setReg_raster (a : Nat) (v : Word) : (d.setReg a v).raster = d.raster := rfl
@[simp] theorem Dev.setReg_tps (a : Nat) (v : Word) : (d.setReg a v).tps = d.tps := rfl
@[simp] theorem Dev.setReg_markers (a : Nat) (v : Word) : (d.setReg a v).markers = d.markers := rfl
@[simp] theorem Dev.setReg_mc (a : Nat) (v : Word) : (d.setReg a v).mc = d.mc := rfl
@[simp] theorem Dev.setReg_pwr (a : Nat) (v : Word) : (d.setReg a v).pwr = d.pwr := rfl
@[simp] theorem Dev.setReg_jtag (a : Nat) (v : Word) : (d.setReg a v).jtag = d.jtag := rfl
@[simp] theorem Dev.setReg_free (a : Nat) (v : Word) : (d.setReg a v).free = d.free := rfl
@[simp] theorem Dev.setReg_out (a : Nat) (v : Word) : (d.setReg a v).out = d.out := rfl

/-! `Dev.setFld` -/

@[simp] theorem Dev.setFld_clk (a h l v : Nat) : (d.setFld a h l v).clk = d.clk := rfl
@[simp] theorem Dev.setFld_pcie (a h l v : Nat) : (d.setFld a h l v).pcie = d.pcie := rfl
@[simp] theorem Dev.setFld_fw (a h l v : Nat) : (d.setFld a h l v).fw = d.fw := rfl
@[simp] theorem Dev.setFld_regs (a h l v : Nat) : (d.setFld a h l v).regs = Tbl.put a ((d.reg a).setFld h l v) d.regs := rfl
@[simp] theorem Dev.setFld_rcNow (a h l v : Nat) : (d.setFld a h l v).rcNow = d.rcNow := rfl
@[simp] theorem Dev.setFld_shadowHost (a h l v : Nat) : (d.setFld a h l v).shadowHost = d.shadowHost := rfl
@[simp] theorem Dev.setFld_shadowSeq (a h l v : Nat) : (d.setFld a h l v).shadowSeq = d.shadowSeq := rfl
@[simp] theorem Dev.setFld_shadowMc (a h l v : Nat) : (d.setFld a h l v).shadowMc = d.shadowMc := rfl
@[simp] theorem Dev.setFld_rings (a h l v : Nat) : (d.setFld a h l v).rings = d.rings := rfl
@[simp] theorem Dev.setFld_rrRing (a h l v : Nat) : (d.setFld a h l v).rrRing = d.rrRing := rfl
@[simp] theorem Dev.setFld_rrUsed (a h l v : Nat) : (d.setFld a h l v).rrUsed = d.rrUsed := rfl
@[simp] theorem Dev.setFld_ev (a h l v : Nat) : (d.setFld a h l v).ev = d.ev := rfl
@[simp] theorem Dev.setFld_glob (a h l v : Nat) : (d.setFld a h l v).glob = d.glob := rfl
@[simp] theorem Dev.setFld_pads (a h l v : Nat) : (d.setFld a h l v).pads = d.pads := rfl
@[simp] theorem Dev.setFld_streams (a h l v : Nat) : (d.setFld a h l v).streams = d.streams := rfl
@[simp] theorem Dev.setFld_jesd (a h l v : Nat) : (d.setFld a h l v).jesd = d.jesd := rfl
@[simp] theorem Dev.setFld_ain (a h l v : Nat) : (d.setFld a h l v).ain = d.ain := rfl
@[simp] theorem Dev.setFld_chans (a h l v : Nat) : (d.setFld a h l v).chans = d.chans := rfl
@[simp] theorem Dev.setFld_engines (a h l v : Nat) : (d.setFld a h l v).engines = d.engines := rfl
@[simp] theorem Dev.setFld_pairAt (a h l v : Nat) : (d.setFld a h l v).pairAt = d.pairAt := rfl
@[simp] theorem Dev.setFld_le (a h l v : Nat) : (d.setFld a h l v).le = d.le := rfl
@[simp] theorem Dev.setFld_masks (a h l v : Nat) : (d.setFld a h l v).masks = d.masks := rfl
@[simp] theorem Dev.setFld_combs (a h l v : Nat) : (d.setFld a h l v).combs = d.combs := rfl
@[simp] theorem Dev.setFld_combTold (a h l v : Nat) : (d.setFld a h l v).combTold = d.combTold := rfl
@[simp] theorem Dev.setFld_tos (a h l v : Nat) : (d.setFld a h l v).tos = d.tos := rfl
@[simp] theorem Dev.setFld_remote (a h l v : Nat) : (d.setFld a h l v).remote = d.remote := rfl
@[simp] theorem Dev.setFld_aps (a h l v : Nat) : (d.setFld a h l v).aps = d.aps := rfl
@[simp] theorem Dev.setFld_cmc (a h l v : Nat) : (d.setFld a h l v).cmc = d.cmc := rfl
@[simp] theorem Dev.setFld_regions (a h l v : Nat) : (d.setFld a h l v).regions = d.regions := rfl
@[simp] theorem Dev.setFld_spares (a h l v : Nat) : (d.setFld a h l v).spares = d.spares := rfl
@[simp] theorem Dev.setFld_dma (a h l v : Nat) : (d.setFld a h l v).dma = d.dma := rfl
@[simp] theorem Dev.setFld_blocks (a h l v : Nat) : (d.setFld a h l v).blocks = d.blocks := rfl
@[simp] theorem Dev.setFld_drives (a h l v : Nat) : (d.setFld a h l v).drives = d.drives := rfl
@[simp] theorem Dev.setFld_relays (a h l v : Nat) : (d.setFld a h l v).relays = d.relays := rfl
@[simp] theorem Dev.setFld_feeds (a h l v : Nat) : (d.setFld a h l v).feeds = d.feeds := rfl
@[simp] theorem Dev.setFld_layers (a h l v : Nat) : (d.setFld a h l v).layers = d.layers := rfl
@[simp] theorem Dev.setFld_raster (a h l v : Nat) : (d.setFld a h l v).raster = d.raster := rfl
@[simp] theorem Dev.setFld_tps (a h l v : Nat) : (d.setFld a h l v).tps = d.tps := rfl
@[simp] theorem Dev.setFld_markers (a h l v : Nat) : (d.setFld a h l v).markers = d.markers := rfl
@[simp] theorem Dev.setFld_mc (a h l v : Nat) : (d.setFld a h l v).mc = d.mc := rfl
@[simp] theorem Dev.setFld_pwr (a h l v : Nat) : (d.setFld a h l v).pwr = d.pwr := rfl
@[simp] theorem Dev.setFld_jtag (a h l v : Nat) : (d.setFld a h l v).jtag = d.jtag := rfl
@[simp] theorem Dev.setFld_free (a h l v : Nat) : (d.setFld a h l v).free = d.free := rfl
@[simp] theorem Dev.setFld_out (a h l v : Nat) : (d.setFld a h l v).out = d.out := rfl

/-! `Dev.emit` -/

@[simp] theorem Dev.emit_clk (o : Output) : (d.emit o).clk = d.clk := rfl
@[simp] theorem Dev.emit_pcie (o : Output) : (d.emit o).pcie = d.pcie := rfl
@[simp] theorem Dev.emit_fw (o : Output) : (d.emit o).fw = d.fw := rfl
@[simp] theorem Dev.emit_regs (o : Output) : (d.emit o).regs = d.regs := rfl
@[simp] theorem Dev.emit_rcNow (o : Output) : (d.emit o).rcNow = d.rcNow := rfl
@[simp] theorem Dev.emit_shadowHost (o : Output) : (d.emit o).shadowHost = d.shadowHost := rfl
@[simp] theorem Dev.emit_shadowSeq (o : Output) : (d.emit o).shadowSeq = d.shadowSeq := rfl
@[simp] theorem Dev.emit_shadowMc (o : Output) : (d.emit o).shadowMc = d.shadowMc := rfl
@[simp] theorem Dev.emit_rings (o : Output) : (d.emit o).rings = d.rings := rfl
@[simp] theorem Dev.emit_rrRing (o : Output) : (d.emit o).rrRing = d.rrRing := rfl
@[simp] theorem Dev.emit_rrUsed (o : Output) : (d.emit o).rrUsed = d.rrUsed := rfl
@[simp] theorem Dev.emit_ev (o : Output) : (d.emit o).ev = d.ev := rfl
@[simp] theorem Dev.emit_glob (o : Output) : (d.emit o).glob = d.glob := rfl
@[simp] theorem Dev.emit_pads (o : Output) : (d.emit o).pads = d.pads := rfl
@[simp] theorem Dev.emit_streams (o : Output) : (d.emit o).streams = d.streams := rfl
@[simp] theorem Dev.emit_jesd (o : Output) : (d.emit o).jesd = d.jesd := rfl
@[simp] theorem Dev.emit_ain (o : Output) : (d.emit o).ain = d.ain := rfl
@[simp] theorem Dev.emit_chans (o : Output) : (d.emit o).chans = d.chans := rfl
@[simp] theorem Dev.emit_engines (o : Output) : (d.emit o).engines = d.engines := rfl
@[simp] theorem Dev.emit_pairAt (o : Output) : (d.emit o).pairAt = d.pairAt := rfl
@[simp] theorem Dev.emit_le (o : Output) : (d.emit o).le = d.le := rfl
@[simp] theorem Dev.emit_masks (o : Output) : (d.emit o).masks = d.masks := rfl
@[simp] theorem Dev.emit_combs (o : Output) : (d.emit o).combs = d.combs := rfl
@[simp] theorem Dev.emit_combTold (o : Output) : (d.emit o).combTold = d.combTold := rfl
@[simp] theorem Dev.emit_tos (o : Output) : (d.emit o).tos = d.tos := rfl
@[simp] theorem Dev.emit_remote (o : Output) : (d.emit o).remote = d.remote := rfl
@[simp] theorem Dev.emit_aps (o : Output) : (d.emit o).aps = d.aps := rfl
@[simp] theorem Dev.emit_cmc (o : Output) : (d.emit o).cmc = d.cmc := rfl
@[simp] theorem Dev.emit_regions (o : Output) : (d.emit o).regions = d.regions := rfl
@[simp] theorem Dev.emit_spares (o : Output) : (d.emit o).spares = d.spares := rfl
@[simp] theorem Dev.emit_dma (o : Output) : (d.emit o).dma = d.dma := rfl
@[simp] theorem Dev.emit_blocks (o : Output) : (d.emit o).blocks = d.blocks := rfl
@[simp] theorem Dev.emit_drives (o : Output) : (d.emit o).drives = d.drives := rfl
@[simp] theorem Dev.emit_relays (o : Output) : (d.emit o).relays = d.relays := rfl
@[simp] theorem Dev.emit_feeds (o : Output) : (d.emit o).feeds = d.feeds := rfl
@[simp] theorem Dev.emit_layers (o : Output) : (d.emit o).layers = d.layers := rfl
@[simp] theorem Dev.emit_raster (o : Output) : (d.emit o).raster = d.raster := rfl
@[simp] theorem Dev.emit_tps (o : Output) : (d.emit o).tps = d.tps := rfl
@[simp] theorem Dev.emit_markers (o : Output) : (d.emit o).markers = d.markers := rfl
@[simp] theorem Dev.emit_mc (o : Output) : (d.emit o).mc = d.mc := rfl
@[simp] theorem Dev.emit_pwr (o : Output) : (d.emit o).pwr = d.pwr := rfl
@[simp] theorem Dev.emit_jtag (o : Output) : (d.emit o).jtag = d.jtag := rfl
@[simp] theorem Dev.emit_free (o : Output) : (d.emit o).free = d.free := rfl
@[simp] theorem Dev.emit_out (o : Output) : (d.emit o).out = d.out ++ [o] := rfl

/-! `Dev.setRing` -/

@[simp] theorem Dev.setRing_clk (q : Nat) (x : Ring) : (d.setRing q x).clk = d.clk := rfl
@[simp] theorem Dev.setRing_pcie (q : Nat) (x : Ring) : (d.setRing q x).pcie = d.pcie := rfl
@[simp] theorem Dev.setRing_fw (q : Nat) (x : Ring) : (d.setRing q x).fw = d.fw := rfl
@[simp] theorem Dev.setRing_regs (q : Nat) (x : Ring) : (d.setRing q x).regs = d.regs := rfl
@[simp] theorem Dev.setRing_rcNow (q : Nat) (x : Ring) : (d.setRing q x).rcNow = d.rcNow := rfl
@[simp] theorem Dev.setRing_shadowHost (q : Nat) (x : Ring) : (d.setRing q x).shadowHost = d.shadowHost := rfl
@[simp] theorem Dev.setRing_shadowSeq (q : Nat) (x : Ring) : (d.setRing q x).shadowSeq = d.shadowSeq := rfl
@[simp] theorem Dev.setRing_shadowMc (q : Nat) (x : Ring) : (d.setRing q x).shadowMc = d.shadowMc := rfl
@[simp] theorem Dev.setRing_rings (q : Nat) (x : Ring) : (d.setRing q x).rings = Tbl.put q x d.rings := rfl
@[simp] theorem Dev.setRing_rrRing (q : Nat) (x : Ring) : (d.setRing q x).rrRing = d.rrRing := rfl
@[simp] theorem Dev.setRing_rrUsed (q : Nat) (x : Ring) : (d.setRing q x).rrUsed = d.rrUsed := rfl
@[simp] theorem Dev.setRing_ev (q : Nat) (x : Ring) : (d.setRing q x).ev = d.ev := rfl
@[simp] theorem Dev.setRing_glob (q : Nat) (x : Ring) : (d.setRing q x).glob = d.glob := rfl
@[simp] theorem Dev.setRing_pads (q : Nat) (x : Ring) : (d.setRing q x).pads = d.pads := rfl
@[simp] theorem Dev.setRing_streams (q : Nat) (x : Ring) : (d.setRing q x).streams = d.streams := rfl
@[simp] theorem Dev.setRing_jesd (q : Nat) (x : Ring) : (d.setRing q x).jesd = d.jesd := rfl
@[simp] theorem Dev.setRing_ain (q : Nat) (x : Ring) : (d.setRing q x).ain = d.ain := rfl
@[simp] theorem Dev.setRing_chans (q : Nat) (x : Ring) : (d.setRing q x).chans = d.chans := rfl
@[simp] theorem Dev.setRing_engines (q : Nat) (x : Ring) : (d.setRing q x).engines = d.engines := rfl
@[simp] theorem Dev.setRing_pairAt (q : Nat) (x : Ring) : (d.setRing q x).pairAt = d.pairAt := rfl
@[simp] theorem Dev.setRing_le (q : Nat) (x : Ring) : (d.setRing q x).le = d.le := rfl
@[simp] theorem Dev.setRing_masks (q : Nat) (x : Ring) : (d.setRing q x).masks = d.masks := rfl
@[simp] theorem Dev.setRing_combs (q : Nat) (x : Ring) : (d.setRing q x).combs = d.combs := rfl
@[simp] theorem Dev.setRing_combTold (q : Nat) (x : Ring) : (d.setRing q x).combTold = d.combTold := rfl
@[simp] theorem Dev.setRing_tos (q : Nat) (x : Ring) : (d.setRing q x).tos = d.tos := rfl
@[simp] theorem Dev.setRing_remote (q : Nat) (x : Ring) : (d.setRing q x).remote = d.remote := rfl
@[simp] theorem Dev.setRing_aps (q : Nat) (x : Ring) : (d.setRing q x).aps = d.aps := rfl
@[simp] theorem Dev.setRing_cmc (q : Nat) (x : Ring) : (d.setRing q x).cmc = d.cmc := rfl
@[simp] theorem Dev.setRing_regions (q : Nat) (x : Ring) : (d.setRing q x).regions = d.regions := rfl
@[simp] theorem Dev.setRing_spares (q : Nat) (x : Ring) : (d.setRing q x).spares = d.spares := rfl
@[simp] theorem Dev.setRing_dma (q : Nat) (x : Ring) : (d.setRing q x).dma = d.dma := rfl
@[simp] theorem Dev.setRing_blocks (q : Nat) (x : Ring) : (d.setRing q x).blocks = d.blocks := rfl
@[simp] theorem Dev.setRing_drives (q : Nat) (x : Ring) : (d.setRing q x).drives = d.drives := rfl
@[simp] theorem Dev.setRing_relays (q : Nat) (x : Ring) : (d.setRing q x).relays = d.relays := rfl
@[simp] theorem Dev.setRing_feeds (q : Nat) (x : Ring) : (d.setRing q x).feeds = d.feeds := rfl
@[simp] theorem Dev.setRing_layers (q : Nat) (x : Ring) : (d.setRing q x).layers = d.layers := rfl
@[simp] theorem Dev.setRing_raster (q : Nat) (x : Ring) : (d.setRing q x).raster = d.raster := rfl
@[simp] theorem Dev.setRing_tps (q : Nat) (x : Ring) : (d.setRing q x).tps = d.tps := rfl
@[simp] theorem Dev.setRing_markers (q : Nat) (x : Ring) : (d.setRing q x).markers = d.markers := rfl
@[simp] theorem Dev.setRing_mc (q : Nat) (x : Ring) : (d.setRing q x).mc = d.mc := rfl
@[simp] theorem Dev.setRing_pwr (q : Nat) (x : Ring) : (d.setRing q x).pwr = d.pwr := rfl
@[simp] theorem Dev.setRing_jtag (q : Nat) (x : Ring) : (d.setRing q x).jtag = d.jtag := rfl
@[simp] theorem Dev.setRing_free (q : Nat) (x : Ring) : (d.setRing q x).free = d.free := rfl
@[simp] theorem Dev.setRing_out (q : Nat) (x : Ring) : (d.setRing q x).out = d.out := rfl

/-! `Dev.setAp` -/

@[simp] theorem Dev.setAp_clk (a : Nat) (x : Aperture) : (d.setAp a x).clk = d.clk := rfl
@[simp] theorem Dev.setAp_pcie (a : Nat) (x : Aperture) : (d.setAp a x).pcie = d.pcie := rfl
@[simp] theorem Dev.setAp_fw (a : Nat) (x : Aperture) : (d.setAp a x).fw = d.fw := rfl
@[simp] theorem Dev.setAp_regs (a : Nat) (x : Aperture) : (d.setAp a x).regs = d.regs := rfl
@[simp] theorem Dev.setAp_rcNow (a : Nat) (x : Aperture) : (d.setAp a x).rcNow = d.rcNow := rfl
@[simp] theorem Dev.setAp_shadowHost (a : Nat) (x : Aperture) : (d.setAp a x).shadowHost = d.shadowHost := rfl
@[simp] theorem Dev.setAp_shadowSeq (a : Nat) (x : Aperture) : (d.setAp a x).shadowSeq = d.shadowSeq := rfl
@[simp] theorem Dev.setAp_shadowMc (a : Nat) (x : Aperture) : (d.setAp a x).shadowMc = d.shadowMc := rfl
@[simp] theorem Dev.setAp_rings (a : Nat) (x : Aperture) : (d.setAp a x).rings = d.rings := rfl
@[simp] theorem Dev.setAp_rrRing (a : Nat) (x : Aperture) : (d.setAp a x).rrRing = d.rrRing := rfl
@[simp] theorem Dev.setAp_rrUsed (a : Nat) (x : Aperture) : (d.setAp a x).rrUsed = d.rrUsed := rfl
@[simp] theorem Dev.setAp_ev (a : Nat) (x : Aperture) : (d.setAp a x).ev = d.ev := rfl
@[simp] theorem Dev.setAp_glob (a : Nat) (x : Aperture) : (d.setAp a x).glob = d.glob := rfl
@[simp] theorem Dev.setAp_pads (a : Nat) (x : Aperture) : (d.setAp a x).pads = d.pads := rfl
@[simp] theorem Dev.setAp_streams (a : Nat) (x : Aperture) : (d.setAp a x).streams = d.streams := rfl
@[simp] theorem Dev.setAp_jesd (a : Nat) (x : Aperture) : (d.setAp a x).jesd = d.jesd := rfl
@[simp] theorem Dev.setAp_ain (a : Nat) (x : Aperture) : (d.setAp a x).ain = d.ain := rfl
@[simp] theorem Dev.setAp_chans (a : Nat) (x : Aperture) : (d.setAp a x).chans = d.chans := rfl
@[simp] theorem Dev.setAp_engines (a : Nat) (x : Aperture) : (d.setAp a x).engines = d.engines := rfl
@[simp] theorem Dev.setAp_pairAt (a : Nat) (x : Aperture) : (d.setAp a x).pairAt = d.pairAt := rfl
@[simp] theorem Dev.setAp_le (a : Nat) (x : Aperture) : (d.setAp a x).le = d.le := rfl
@[simp] theorem Dev.setAp_masks (a : Nat) (x : Aperture) : (d.setAp a x).masks = d.masks := rfl
@[simp] theorem Dev.setAp_combs (a : Nat) (x : Aperture) : (d.setAp a x).combs = d.combs := rfl
@[simp] theorem Dev.setAp_combTold (a : Nat) (x : Aperture) : (d.setAp a x).combTold = d.combTold := rfl
@[simp] theorem Dev.setAp_tos (a : Nat) (x : Aperture) : (d.setAp a x).tos = d.tos := rfl
@[simp] theorem Dev.setAp_remote (a : Nat) (x : Aperture) : (d.setAp a x).remote = d.remote := rfl
@[simp] theorem Dev.setAp_aps (a : Nat) (x : Aperture) : (d.setAp a x).aps = Tbl.put a x d.aps := rfl
@[simp] theorem Dev.setAp_cmc (a : Nat) (x : Aperture) : (d.setAp a x).cmc = d.cmc := rfl
@[simp] theorem Dev.setAp_regions (a : Nat) (x : Aperture) : (d.setAp a x).regions = d.regions := rfl
@[simp] theorem Dev.setAp_spares (a : Nat) (x : Aperture) : (d.setAp a x).spares = d.spares := rfl
@[simp] theorem Dev.setAp_dma (a : Nat) (x : Aperture) : (d.setAp a x).dma = d.dma := rfl
@[simp] theorem Dev.setAp_blocks (a : Nat) (x : Aperture) : (d.setAp a x).blocks = d.blocks := rfl
@[simp] theorem Dev.setAp_drives (a : Nat) (x : Aperture) : (d.setAp a x).drives = d.drives := rfl
@[simp] theorem Dev.setAp_relays (a : Nat) (x : Aperture) : (d.setAp a x).relays = d.relays := rfl
@[simp] theorem Dev.setAp_feeds (a : Nat) (x : Aperture) : (d.setAp a x).feeds = d.feeds := rfl
@[simp] theorem Dev.setAp_layers (a : Nat) (x : Aperture) : (d.setAp a x).layers = d.layers := rfl
@[simp] theorem Dev.setAp_raster (a : Nat) (x : Aperture) : (d.setAp a x).raster = d.raster := rfl
@[simp] theorem Dev.setAp_tps (a : Nat) (x : Aperture) : (d.setAp a x).tps = d.tps := rfl
@[simp] theorem Dev.setAp_markers (a : Nat) (x : Aperture) : (d.setAp a x).markers = d.markers := rfl
@[simp] theorem Dev.setAp_mc (a : Nat) (x : Aperture) : (d.setAp a x).mc = d.mc := rfl
@[simp] theorem Dev.setAp_pwr (a : Nat) (x : Aperture) : (d.setAp a x).pwr = d.pwr := rfl
@[simp] theorem Dev.setAp_jtag (a : Nat) (x : Aperture) : (d.setAp a x).jtag = d.jtag := rfl
@[simp] theorem Dev.setAp_free (a : Nat) (x : Aperture) : (d.setAp a x).free = d.free := rfl
@[simp] theorem Dev.setAp_out (a : Nat) (x : Aperture) : (d.setAp a x).out = d.out := rfl

/-! `Dev.setTp` -/

@[simp] theorem Dev.setTp_clk (n : Nat) (x : Tp) : (d.setTp n x).clk = d.clk := rfl
@[simp] theorem Dev.setTp_pcie (n : Nat) (x : Tp) : (d.setTp n x).pcie = d.pcie := rfl
@[simp] theorem Dev.setTp_fw (n : Nat) (x : Tp) : (d.setTp n x).fw = d.fw := rfl
@[simp] theorem Dev.setTp_regs (n : Nat) (x : Tp) : (d.setTp n x).regs = d.regs := rfl
@[simp] theorem Dev.setTp_rcNow (n : Nat) (x : Tp) : (d.setTp n x).rcNow = d.rcNow := rfl
@[simp] theorem Dev.setTp_shadowHost (n : Nat) (x : Tp) : (d.setTp n x).shadowHost = d.shadowHost := rfl
@[simp] theorem Dev.setTp_shadowSeq (n : Nat) (x : Tp) : (d.setTp n x).shadowSeq = d.shadowSeq := rfl
@[simp] theorem Dev.setTp_shadowMc (n : Nat) (x : Tp) : (d.setTp n x).shadowMc = d.shadowMc := rfl
@[simp] theorem Dev.setTp_rings (n : Nat) (x : Tp) : (d.setTp n x).rings = d.rings := rfl
@[simp] theorem Dev.setTp_rrRing (n : Nat) (x : Tp) : (d.setTp n x).rrRing = d.rrRing := rfl
@[simp] theorem Dev.setTp_rrUsed (n : Nat) (x : Tp) : (d.setTp n x).rrUsed = d.rrUsed := rfl
@[simp] theorem Dev.setTp_ev (n : Nat) (x : Tp) : (d.setTp n x).ev = d.ev := rfl
@[simp] theorem Dev.setTp_glob (n : Nat) (x : Tp) : (d.setTp n x).glob = d.glob := rfl
@[simp] theorem Dev.setTp_pads (n : Nat) (x : Tp) : (d.setTp n x).pads = d.pads := rfl
@[simp] theorem Dev.setTp_streams (n : Nat) (x : Tp) : (d.setTp n x).streams = d.streams := rfl
@[simp] theorem Dev.setTp_jesd (n : Nat) (x : Tp) : (d.setTp n x).jesd = d.jesd := rfl
@[simp] theorem Dev.setTp_ain (n : Nat) (x : Tp) : (d.setTp n x).ain = d.ain := rfl
@[simp] theorem Dev.setTp_chans (n : Nat) (x : Tp) : (d.setTp n x).chans = d.chans := rfl
@[simp] theorem Dev.setTp_engines (n : Nat) (x : Tp) : (d.setTp n x).engines = d.engines := rfl
@[simp] theorem Dev.setTp_pairAt (n : Nat) (x : Tp) : (d.setTp n x).pairAt = d.pairAt := rfl
@[simp] theorem Dev.setTp_le (n : Nat) (x : Tp) : (d.setTp n x).le = d.le := rfl
@[simp] theorem Dev.setTp_masks (n : Nat) (x : Tp) : (d.setTp n x).masks = d.masks := rfl
@[simp] theorem Dev.setTp_combs (n : Nat) (x : Tp) : (d.setTp n x).combs = d.combs := rfl
@[simp] theorem Dev.setTp_combTold (n : Nat) (x : Tp) : (d.setTp n x).combTold = d.combTold := rfl
@[simp] theorem Dev.setTp_tos (n : Nat) (x : Tp) : (d.setTp n x).tos = d.tos := rfl
@[simp] theorem Dev.setTp_remote (n : Nat) (x : Tp) : (d.setTp n x).remote = d.remote := rfl
@[simp] theorem Dev.setTp_aps (n : Nat) (x : Tp) : (d.setTp n x).aps = d.aps := rfl
@[simp] theorem Dev.setTp_cmc (n : Nat) (x : Tp) : (d.setTp n x).cmc = d.cmc := rfl
@[simp] theorem Dev.setTp_regions (n : Nat) (x : Tp) : (d.setTp n x).regions = d.regions := rfl
@[simp] theorem Dev.setTp_spares (n : Nat) (x : Tp) : (d.setTp n x).spares = d.spares := rfl
@[simp] theorem Dev.setTp_dma (n : Nat) (x : Tp) : (d.setTp n x).dma = d.dma := rfl
@[simp] theorem Dev.setTp_blocks (n : Nat) (x : Tp) : (d.setTp n x).blocks = d.blocks := rfl
@[simp] theorem Dev.setTp_drives (n : Nat) (x : Tp) : (d.setTp n x).drives = d.drives := rfl
@[simp] theorem Dev.setTp_relays (n : Nat) (x : Tp) : (d.setTp n x).relays = d.relays := rfl
@[simp] theorem Dev.setTp_feeds (n : Nat) (x : Tp) : (d.setTp n x).feeds = d.feeds := rfl
@[simp] theorem Dev.setTp_layers (n : Nat) (x : Tp) : (d.setTp n x).layers = d.layers := rfl
@[simp] theorem Dev.setTp_raster (n : Nat) (x : Tp) : (d.setTp n x).raster = d.raster := rfl
@[simp] theorem Dev.setTp_tps (n : Nat) (x : Tp) : (d.setTp n x).tps = Tbl.put n x d.tps := rfl
@[simp] theorem Dev.setTp_markers (n : Nat) (x : Tp) : (d.setTp n x).markers = d.markers := rfl
@[simp] theorem Dev.setTp_mc (n : Nat) (x : Tp) : (d.setTp n x).mc = d.mc := rfl
@[simp] theorem Dev.setTp_pwr (n : Nat) (x : Tp) : (d.setTp n x).pwr = d.pwr := rfl
@[simp] theorem Dev.setTp_jtag (n : Nat) (x : Tp) : (d.setTp n x).jtag = d.jtag := rfl
@[simp] theorem Dev.setTp_free (n : Nat) (x : Tp) : (d.setTp n x).free = d.free := rfl
@[simp] theorem Dev.setTp_out (n : Nat) (x : Tp) : (d.setTp n x).out = d.out := rfl

/-! `Dev.setChan` -/

@[simp] theorem Dev.setChan_clk (c : Nat) (x : Chan) : (d.setChan c x).clk = d.clk := rfl
@[simp] theorem Dev.setChan_pcie (c : Nat) (x : Chan) : (d.setChan c x).pcie = d.pcie := rfl
@[simp] theorem Dev.setChan_fw (c : Nat) (x : Chan) : (d.setChan c x).fw = d.fw := rfl
@[simp] theorem Dev.setChan_regs (c : Nat) (x : Chan) : (d.setChan c x).regs = d.regs := rfl
@[simp] theorem Dev.setChan_rcNow (c : Nat) (x : Chan) : (d.setChan c x).rcNow = d.rcNow := rfl
@[simp] theorem Dev.setChan_shadowHost (c : Nat) (x : Chan) : (d.setChan c x).shadowHost = d.shadowHost := rfl
@[simp] theorem Dev.setChan_shadowSeq (c : Nat) (x : Chan) : (d.setChan c x).shadowSeq = d.shadowSeq := rfl
@[simp] theorem Dev.setChan_shadowMc (c : Nat) (x : Chan) : (d.setChan c x).shadowMc = d.shadowMc := rfl
@[simp] theorem Dev.setChan_rings (c : Nat) (x : Chan) : (d.setChan c x).rings = d.rings := rfl
@[simp] theorem Dev.setChan_rrRing (c : Nat) (x : Chan) : (d.setChan c x).rrRing = d.rrRing := rfl
@[simp] theorem Dev.setChan_rrUsed (c : Nat) (x : Chan) : (d.setChan c x).rrUsed = d.rrUsed := rfl
@[simp] theorem Dev.setChan_ev (c : Nat) (x : Chan) : (d.setChan c x).ev = d.ev := rfl
@[simp] theorem Dev.setChan_glob (c : Nat) (x : Chan) : (d.setChan c x).glob = d.glob := rfl
@[simp] theorem Dev.setChan_pads (c : Nat) (x : Chan) : (d.setChan c x).pads = d.pads := rfl
@[simp] theorem Dev.setChan_streams (c : Nat) (x : Chan) : (d.setChan c x).streams = d.streams := rfl
@[simp] theorem Dev.setChan_jesd (c : Nat) (x : Chan) : (d.setChan c x).jesd = d.jesd := rfl
@[simp] theorem Dev.setChan_ain (c : Nat) (x : Chan) : (d.setChan c x).ain = d.ain := rfl
@[simp] theorem Dev.setChan_chans (c : Nat) (x : Chan) : (d.setChan c x).chans = Tbl.put c x d.chans := rfl
@[simp] theorem Dev.setChan_engines (c : Nat) (x : Chan) : (d.setChan c x).engines = d.engines := rfl
@[simp] theorem Dev.setChan_pairAt (c : Nat) (x : Chan) : (d.setChan c x).pairAt = d.pairAt := rfl
@[simp] theorem Dev.setChan_le (c : Nat) (x : Chan) : (d.setChan c x).le = d.le := rfl
@[simp] theorem Dev.setChan_masks (c : Nat) (x : Chan) : (d.setChan c x).masks = d.masks := rfl
@[simp] theorem Dev.setChan_combs (c : Nat) (x : Chan) : (d.setChan c x).combs = d.combs := rfl
@[simp] theorem Dev.setChan_combTold (c : Nat) (x : Chan) : (d.setChan c x).combTold = d.combTold := rfl
@[simp] theorem Dev.setChan_tos (c : Nat) (x : Chan) : (d.setChan c x).tos = d.tos := rfl
@[simp] theorem Dev.setChan_remote (c : Nat) (x : Chan) : (d.setChan c x).remote = d.remote := rfl
@[simp] theorem Dev.setChan_aps (c : Nat) (x : Chan) : (d.setChan c x).aps = d.aps := rfl
@[simp] theorem Dev.setChan_cmc (c : Nat) (x : Chan) : (d.setChan c x).cmc = d.cmc := rfl
@[simp] theorem Dev.setChan_regions (c : Nat) (x : Chan) : (d.setChan c x).regions = d.regions := rfl
@[simp] theorem Dev.setChan_spares (c : Nat) (x : Chan) : (d.setChan c x).spares = d.spares := rfl
@[simp] theorem Dev.setChan_dma (c : Nat) (x : Chan) : (d.setChan c x).dma = d.dma := rfl
@[simp] theorem Dev.setChan_blocks (c : Nat) (x : Chan) : (d.setChan c x).blocks = d.blocks := rfl
@[simp] theorem Dev.setChan_drives (c : Nat) (x : Chan) : (d.setChan c x).drives = d.drives := rfl
@[simp] theorem Dev.setChan_relays (c : Nat) (x : Chan) : (d.setChan c x).relays = d.relays := rfl
@[simp] theorem Dev.setChan_feeds (c : Nat) (x : Chan) : (d.setChan c x).feeds = d.feeds := rfl
@[simp] theorem Dev.setChan_layers (c : Nat) (x : Chan) : (d.setChan c x).layers = d.layers := rfl
@[simp] theorem Dev.setChan_raster (c : Nat) (x : Chan) : (d.setChan c x).raster = d.raster := rfl
@[simp] theorem Dev.setChan_tps (c : Nat) (x : Chan) : (d.setChan c x).tps = d.tps := rfl
@[simp] theorem Dev.setChan_markers (c : Nat) (x : Chan) : (d.setChan c x).markers = d.markers := rfl
@[simp] theorem Dev.setChan_mc (c : Nat) (x : Chan) : (d.setChan c x).mc = d.mc := rfl
@[simp] theorem Dev.setChan_pwr (c : Nat) (x : Chan) : (d.setChan c x).pwr = d.pwr := rfl
@[simp] theorem Dev.setChan_jtag (c : Nat) (x : Chan) : (d.setChan c x).jtag = d.jtag := rfl
@[simp] theorem Dev.setChan_free (c : Nat) (x : Chan) : (d.setChan c x).free = d.free := rfl
@[simp] theorem Dev.setChan_out (c : Nat) (x : Chan) : (d.setChan c x).out = d.out := rfl

/-! `Dev.setStream` -/

@[simp] theorem Dev.setStream_clk (k : Nat) (x : Stream) : (d.setStream k x).clk = d.clk := rfl
@[simp] theorem Dev.setStream_pcie (k : Nat) (x : Stream) : (d.setStream k x).pcie = d.pcie := rfl
@[simp] theorem Dev.setStream_fw (k : Nat) (x : Stream) : (d.setStream k x).fw = d.fw := rfl
@[simp] theorem Dev.setStream_regs (k : Nat) (x : Stream) : (d.setStream k x).regs = d.regs := rfl
@[simp] theorem Dev.setStream_rcNow (k : Nat) (x : Stream) : (d.setStream k x).rcNow = d.rcNow := rfl
@[simp] theorem Dev.setStream_shadowHost (k : Nat) (x : Stream) : (d.setStream k x).shadowHost = d.shadowHost := rfl
@[simp] theorem Dev.setStream_shadowSeq (k : Nat) (x : Stream) : (d.setStream k x).shadowSeq = d.shadowSeq := rfl
@[simp] theorem Dev.setStream_shadowMc (k : Nat) (x : Stream) : (d.setStream k x).shadowMc = d.shadowMc := rfl
@[simp] theorem Dev.setStream_rings (k : Nat) (x : Stream) : (d.setStream k x).rings = d.rings := rfl
@[simp] theorem Dev.setStream_rrRing (k : Nat) (x : Stream) : (d.setStream k x).rrRing = d.rrRing := rfl
@[simp] theorem Dev.setStream_rrUsed (k : Nat) (x : Stream) : (d.setStream k x).rrUsed = d.rrUsed := rfl
@[simp] theorem Dev.setStream_ev (k : Nat) (x : Stream) : (d.setStream k x).ev = d.ev := rfl
@[simp] theorem Dev.setStream_glob (k : Nat) (x : Stream) : (d.setStream k x).glob = d.glob := rfl
@[simp] theorem Dev.setStream_pads (k : Nat) (x : Stream) : (d.setStream k x).pads = d.pads := rfl
@[simp] theorem Dev.setStream_streams (k : Nat) (x : Stream) : (d.setStream k x).streams = Tbl.put k x d.streams := rfl
@[simp] theorem Dev.setStream_jesd (k : Nat) (x : Stream) : (d.setStream k x).jesd = d.jesd := rfl
@[simp] theorem Dev.setStream_ain (k : Nat) (x : Stream) : (d.setStream k x).ain = d.ain := rfl
@[simp] theorem Dev.setStream_chans (k : Nat) (x : Stream) : (d.setStream k x).chans = d.chans := rfl
@[simp] theorem Dev.setStream_engines (k : Nat) (x : Stream) : (d.setStream k x).engines = d.engines := rfl
@[simp] theorem Dev.setStream_pairAt (k : Nat) (x : Stream) : (d.setStream k x).pairAt = d.pairAt := rfl
@[simp] theorem Dev.setStream_le (k : Nat) (x : Stream) : (d.setStream k x).le = d.le := rfl
@[simp] theorem Dev.setStream_masks (k : Nat) (x : Stream) : (d.setStream k x).masks = d.masks := rfl
@[simp] theorem Dev.setStream_combs (k : Nat) (x : Stream) : (d.setStream k x).combs = d.combs := rfl
@[simp] theorem Dev.setStream_combTold (k : Nat) (x : Stream) : (d.setStream k x).combTold = d.combTold := rfl
@[simp] theorem Dev.setStream_tos (k : Nat) (x : Stream) : (d.setStream k x).tos = d.tos := rfl
@[simp] theorem Dev.setStream_remote (k : Nat) (x : Stream) : (d.setStream k x).remote = d.remote := rfl
@[simp] theorem Dev.setStream_aps (k : Nat) (x : Stream) : (d.setStream k x).aps = d.aps := rfl
@[simp] theorem Dev.setStream_cmc (k : Nat) (x : Stream) : (d.setStream k x).cmc = d.cmc := rfl
@[simp] theorem Dev.setStream_regions (k : Nat) (x : Stream) : (d.setStream k x).regions = d.regions := rfl
@[simp] theorem Dev.setStream_spares (k : Nat) (x : Stream) : (d.setStream k x).spares = d.spares := rfl
@[simp] theorem Dev.setStream_dma (k : Nat) (x : Stream) : (d.setStream k x).dma = d.dma := rfl
@[simp] theorem Dev.setStream_blocks (k : Nat) (x : Stream) : (d.setStream k x).blocks = d.blocks := rfl
@[simp] theorem Dev.setStream_drives (k : Nat) (x : Stream) : (d.setStream k x).drives = d.drives := rfl
@[simp] theorem Dev.setStream_relays (k : Nat) (x : Stream) : (d.setStream k x).relays = d.relays := rfl
@[simp] theorem Dev.setStream_feeds (k : Nat) (x : Stream) : (d.setStream k x).feeds = d.feeds := rfl
@[simp] theorem Dev.setStream_layers (k : Nat) (x : Stream) : (d.setStream k x).layers = d.layers := rfl
@[simp] theorem Dev.setStream_raster (k : Nat) (x : Stream) : (d.setStream k x).raster = d.raster := rfl
@[simp] theorem Dev.setStream_tps (k : Nat) (x : Stream) : (d.setStream k x).tps = d.tps := rfl
@[simp] theorem Dev.setStream_markers (k : Nat) (x : Stream) : (d.setStream k x).markers = d.markers := rfl
@[simp] theorem Dev.setStream_mc (k : Nat) (x : Stream) : (d.setStream k x).mc = d.mc := rfl
@[simp] theorem Dev.setStream_pwr (k : Nat) (x : Stream) : (d.setStream k x).pwr = d.pwr := rfl
@[simp] theorem Dev.setStream_jtag (k : Nat) (x : Stream) : (d.setStream k x).jtag = d.jtag := rfl
@[simp] theorem Dev.setStream_free (k : Nat) (x : Stream) : (d.setStream k x).free = d.free := rfl
@[simp] theorem Dev.setStream_out (k : Nat) (x : Stream) : (d.setStream k x).out = d.out := rfl

/-! `Dev.setDma` -/

@[simp] theorem Dev.setDma_clk (c : Nat) (x : DmaChan) : (d.setDma c x).clk = d.clk := rfl
@[simp] theorem Dev.setDma_pcie (c : Nat) (x : DmaChan) : (d.setDma c x).pcie = d.pcie := rfl
@[simp] theorem Dev.setDma_fw (c : Nat) (x : DmaChan) : (d.setDma c x).fw = d.fw := rfl
@[simp] theorem Dev.setDma_regs (c : Nat) (x : DmaChan) : (d.setDma c x).regs = d.regs := rfl
@[simp] theorem Dev.setDma_rcNow (c : Nat) (x : DmaChan) : (d.setDma c x).rcNow = d.rcNow := rfl
@[simp] theorem Dev.setDma_shadowHost (c : Nat) (x : DmaChan) : (d.setDma c x).shadowHost = d.shadowHost := rfl
@[simp] theorem Dev.setDma_shadowSeq (c : Nat) (x : DmaChan) : (d.setDma c x).shadowSeq = d.shadowSeq := rfl
@[simp] theorem Dev.setDma_shadowMc (c : Nat) (x : DmaChan) : (d.setDma c x).shadowMc = d.shadowMc := rfl
@[simp] theorem Dev.setDma_rings (c : Nat) (x : DmaChan) : (d.setDma c x).rings = d.rings := rfl
@[simp] theorem Dev.setDma_rrRing (c : Nat) (x : DmaChan) : (d.setDma c x).rrRing = d.rrRing := rfl
@[simp] theorem Dev.setDma_rrUsed (c : Nat) (x : DmaChan) : (d.setDma c x).rrUsed = d.rrUsed := rfl
@[simp] theorem Dev.setDma_ev (c : Nat) (x : DmaChan) : (d.setDma c x).ev = d.ev := rfl
@[simp] theorem Dev.setDma_glob (c : Nat) (x : DmaChan) : (d.setDma c x).glob = d.glob := rfl
@[simp] theorem Dev.setDma_pads (c : Nat) (x : DmaChan) : (d.setDma c x).pads = d.pads := rfl
@[simp] theorem Dev.setDma_streams (c : Nat) (x : DmaChan) : (d.setDma c x).streams = d.streams := rfl
@[simp] theorem Dev.setDma_jesd (c : Nat) (x : DmaChan) : (d.setDma c x).jesd = d.jesd := rfl
@[simp] theorem Dev.setDma_ain (c : Nat) (x : DmaChan) : (d.setDma c x).ain = d.ain := rfl
@[simp] theorem Dev.setDma_chans (c : Nat) (x : DmaChan) : (d.setDma c x).chans = d.chans := rfl
@[simp] theorem Dev.setDma_engines (c : Nat) (x : DmaChan) : (d.setDma c x).engines = d.engines := rfl
@[simp] theorem Dev.setDma_pairAt (c : Nat) (x : DmaChan) : (d.setDma c x).pairAt = d.pairAt := rfl
@[simp] theorem Dev.setDma_le (c : Nat) (x : DmaChan) : (d.setDma c x).le = d.le := rfl
@[simp] theorem Dev.setDma_masks (c : Nat) (x : DmaChan) : (d.setDma c x).masks = d.masks := rfl
@[simp] theorem Dev.setDma_combs (c : Nat) (x : DmaChan) : (d.setDma c x).combs = d.combs := rfl
@[simp] theorem Dev.setDma_combTold (c : Nat) (x : DmaChan) : (d.setDma c x).combTold = d.combTold := rfl
@[simp] theorem Dev.setDma_tos (c : Nat) (x : DmaChan) : (d.setDma c x).tos = d.tos := rfl
@[simp] theorem Dev.setDma_remote (c : Nat) (x : DmaChan) : (d.setDma c x).remote = d.remote := rfl
@[simp] theorem Dev.setDma_aps (c : Nat) (x : DmaChan) : (d.setDma c x).aps = d.aps := rfl
@[simp] theorem Dev.setDma_cmc (c : Nat) (x : DmaChan) : (d.setDma c x).cmc = d.cmc := rfl
@[simp] theorem Dev.setDma_regions (c : Nat) (x : DmaChan) : (d.setDma c x).regions = d.regions := rfl
@[simp] theorem Dev.setDma_spares (c : Nat) (x : DmaChan) : (d.setDma c x).spares = d.spares := rfl
@[simp] theorem Dev.setDma_dma (c : Nat) (x : DmaChan) : (d.setDma c x).dma = Tbl.put c x d.dma := rfl
@[simp] theorem Dev.setDma_blocks (c : Nat) (x : DmaChan) : (d.setDma c x).blocks = d.blocks := rfl
@[simp] theorem Dev.setDma_drives (c : Nat) (x : DmaChan) : (d.setDma c x).drives = d.drives := rfl
@[simp] theorem Dev.setDma_relays (c : Nat) (x : DmaChan) : (d.setDma c x).relays = d.relays := rfl
@[simp] theorem Dev.setDma_feeds (c : Nat) (x : DmaChan) : (d.setDma c x).feeds = d.feeds := rfl
@[simp] theorem Dev.setDma_layers (c : Nat) (x : DmaChan) : (d.setDma c x).layers = d.layers := rfl
@[simp] theorem Dev.setDma_raster (c : Nat) (x : DmaChan) : (d.setDma c x).raster = d.raster := rfl
@[simp] theorem Dev.setDma_tps (c : Nat) (x : DmaChan) : (d.setDma c x).tps = d.tps := rfl
@[simp] theorem Dev.setDma_markers (c : Nat) (x : DmaChan) : (d.setDma c x).markers = d.markers := rfl
@[simp] theorem Dev.setDma_mc (c : Nat) (x : DmaChan) : (d.setDma c x).mc = d.mc := rfl
@[simp] theorem Dev.setDma_pwr (c : Nat) (x : DmaChan) : (d.setDma c x).pwr = d.pwr := rfl
@[simp] theorem Dev.setDma_jtag (c : Nat) (x : DmaChan) : (d.setDma c x).jtag = d.jtag := rfl
@[simp] theorem Dev.setDma_free (c : Nat) (x : DmaChan) : (d.setDma c x).free = d.free := rfl
@[simp] theorem Dev.setDma_out (c : Nat) (x : DmaChan) : (d.setDma c x).out = d.out := rfl

/-! `Dev.setMarker` -/

@[simp] theorem Dev.setMarker_clk (n : Nat) (x : Marker) : (d.setMarker n x).clk = d.clk := rfl
@[simp] theorem Dev.setMarker_pcie (n : Nat) (x : Marker) : (d.setMarker n x).pcie = d.pcie := rfl
@[simp] theorem Dev.setMarker_fw (n : Nat) (x : Marker) : (d.setMarker n x).fw = d.fw := rfl
@[simp] theorem Dev.setMarker_regs (n : Nat) (x : Marker) : (d.setMarker n x).regs = d.regs := rfl
@[simp] theorem Dev.setMarker_rcNow (n : Nat) (x : Marker) : (d.setMarker n x).rcNow = d.rcNow := rfl
@[simp] theorem Dev.setMarker_shadowHost (n : Nat) (x : Marker) : (d.setMarker n x).shadowHost = d.shadowHost := rfl
@[simp] theorem Dev.setMarker_shadowSeq (n : Nat) (x : Marker) : (d.setMarker n x).shadowSeq = d.shadowSeq := rfl
@[simp] theorem Dev.setMarker_shadowMc (n : Nat) (x : Marker) : (d.setMarker n x).shadowMc = d.shadowMc := rfl
@[simp] theorem Dev.setMarker_rings (n : Nat) (x : Marker) : (d.setMarker n x).rings = d.rings := rfl
@[simp] theorem Dev.setMarker_rrRing (n : Nat) (x : Marker) : (d.setMarker n x).rrRing = d.rrRing := rfl
@[simp] theorem Dev.setMarker_rrUsed (n : Nat) (x : Marker) : (d.setMarker n x).rrUsed = d.rrUsed := rfl
@[simp] theorem Dev.setMarker_ev (n : Nat) (x : Marker) : (d.setMarker n x).ev = d.ev := rfl
@[simp] theorem Dev.setMarker_glob (n : Nat) (x : Marker) : (d.setMarker n x).glob = d.glob := rfl
@[simp] theorem Dev.setMarker_pads (n : Nat) (x : Marker) : (d.setMarker n x).pads = d.pads := rfl
@[simp] theorem Dev.setMarker_streams (n : Nat) (x : Marker) : (d.setMarker n x).streams = d.streams := rfl
@[simp] theorem Dev.setMarker_jesd (n : Nat) (x : Marker) : (d.setMarker n x).jesd = d.jesd := rfl
@[simp] theorem Dev.setMarker_ain (n : Nat) (x : Marker) : (d.setMarker n x).ain = d.ain := rfl
@[simp] theorem Dev.setMarker_chans (n : Nat) (x : Marker) : (d.setMarker n x).chans = d.chans := rfl
@[simp] theorem Dev.setMarker_engines (n : Nat) (x : Marker) : (d.setMarker n x).engines = d.engines := rfl
@[simp] theorem Dev.setMarker_pairAt (n : Nat) (x : Marker) : (d.setMarker n x).pairAt = d.pairAt := rfl
@[simp] theorem Dev.setMarker_le (n : Nat) (x : Marker) : (d.setMarker n x).le = d.le := rfl
@[simp] theorem Dev.setMarker_masks (n : Nat) (x : Marker) : (d.setMarker n x).masks = d.masks := rfl
@[simp] theorem Dev.setMarker_combs (n : Nat) (x : Marker) : (d.setMarker n x).combs = d.combs := rfl
@[simp] theorem Dev.setMarker_combTold (n : Nat) (x : Marker) : (d.setMarker n x).combTold = d.combTold := rfl
@[simp] theorem Dev.setMarker_tos (n : Nat) (x : Marker) : (d.setMarker n x).tos = d.tos := rfl
@[simp] theorem Dev.setMarker_remote (n : Nat) (x : Marker) : (d.setMarker n x).remote = d.remote := rfl
@[simp] theorem Dev.setMarker_aps (n : Nat) (x : Marker) : (d.setMarker n x).aps = d.aps := rfl
@[simp] theorem Dev.setMarker_cmc (n : Nat) (x : Marker) : (d.setMarker n x).cmc = d.cmc := rfl
@[simp] theorem Dev.setMarker_regions (n : Nat) (x : Marker) : (d.setMarker n x).regions = d.regions := rfl
@[simp] theorem Dev.setMarker_spares (n : Nat) (x : Marker) : (d.setMarker n x).spares = d.spares := rfl
@[simp] theorem Dev.setMarker_dma (n : Nat) (x : Marker) : (d.setMarker n x).dma = d.dma := rfl
@[simp] theorem Dev.setMarker_blocks (n : Nat) (x : Marker) : (d.setMarker n x).blocks = d.blocks := rfl
@[simp] theorem Dev.setMarker_drives (n : Nat) (x : Marker) : (d.setMarker n x).drives = d.drives := rfl
@[simp] theorem Dev.setMarker_relays (n : Nat) (x : Marker) : (d.setMarker n x).relays = d.relays := rfl
@[simp] theorem Dev.setMarker_feeds (n : Nat) (x : Marker) : (d.setMarker n x).feeds = d.feeds := rfl
@[simp] theorem Dev.setMarker_layers (n : Nat) (x : Marker) : (d.setMarker n x).layers = d.layers := rfl
@[simp] theorem Dev.setMarker_raster (n : Nat) (x : Marker) : (d.setMarker n x).raster = d.raster := rfl
@[simp] theorem Dev.setMarker_tps (n : Nat) (x : Marker) : (d.setMarker n x).tps = d.tps := rfl
@[simp] theorem Dev.setMarker_markers (n : Nat) (x : Marker) : (d.setMarker n x).markers = Tbl.put n x d.markers := rfl
@[simp] theorem Dev.setMarker_mc (n : Nat) (x : Marker) : (d.setMarker n x).mc = d.mc := rfl
@[simp] theorem Dev.setMarker_pwr (n : Nat) (x : Marker) : (d.setMarker n x).pwr = d.pwr := rfl
@[simp] theorem Dev.setMarker_jtag (n : Nat) (x : Marker) : (d.setMarker n x).jtag = d.jtag := rfl
@[simp] theorem Dev.setMarker_free (n : Nat) (x : Marker) : (d.setMarker n x).free = d.free := rfl
@[simp] theorem Dev.setMarker_out (n : Nat) (x : Marker) : (d.setMarker n x).out = d.out := rfl

/-! `Dev.setFeed` -/

@[simp] theorem Dev.setFeed_clk (p : Nat) (x : Feed) : (d.setFeed p x).clk = d.clk := rfl
@[simp] theorem Dev.setFeed_pcie (p : Nat) (x : Feed) : (d.setFeed p x).pcie = d.pcie := rfl
@[simp] theorem Dev.setFeed_fw (p : Nat) (x : Feed) : (d.setFeed p x).fw = d.fw := rfl
@[simp] theorem Dev.setFeed_regs (p : Nat) (x : Feed) : (d.setFeed p x).regs = d.regs := rfl
@[simp] theorem Dev.setFeed_rcNow (p : Nat) (x : Feed) : (d.setFeed p x).rcNow = d.rcNow := rfl
@[simp] theorem Dev.setFeed_shadowHost (p : Nat) (x : Feed) : (d.setFeed p x).shadowHost = d.shadowHost := rfl
@[simp] theorem Dev.setFeed_shadowSeq (p : Nat) (x : Feed) : (d.setFeed p x).shadowSeq = d.shadowSeq := rfl
@[simp] theorem Dev.setFeed_shadowMc (p : Nat) (x : Feed) : (d.setFeed p x).shadowMc = d.shadowMc := rfl
@[simp] theorem Dev.setFeed_rings (p : Nat) (x : Feed) : (d.setFeed p x).rings = d.rings := rfl
@[simp] theorem Dev.setFeed_rrRing (p : Nat) (x : Feed) : (d.setFeed p x).rrRing = d.rrRing := rfl
@[simp] theorem Dev.setFeed_rrUsed (p : Nat) (x : Feed) : (d.setFeed p x).rrUsed = d.rrUsed := rfl
@[simp] theorem Dev.setFeed_ev (p : Nat) (x : Feed) : (d.setFeed p x).ev = d.ev := rfl
@[simp] theorem Dev.setFeed_glob (p : Nat) (x : Feed) : (d.setFeed p x).glob = d.glob := rfl
@[simp] theorem Dev.setFeed_pads (p : Nat) (x : Feed) : (d.setFeed p x).pads = d.pads := rfl
@[simp] theorem Dev.setFeed_streams (p : Nat) (x : Feed) : (d.setFeed p x).streams = d.streams := rfl
@[simp] theorem Dev.setFeed_jesd (p : Nat) (x : Feed) : (d.setFeed p x).jesd = d.jesd := rfl
@[simp] theorem Dev.setFeed_ain (p : Nat) (x : Feed) : (d.setFeed p x).ain = d.ain := rfl
@[simp] theorem Dev.setFeed_chans (p : Nat) (x : Feed) : (d.setFeed p x).chans = d.chans := rfl
@[simp] theorem Dev.setFeed_engines (p : Nat) (x : Feed) : (d.setFeed p x).engines = d.engines := rfl
@[simp] theorem Dev.setFeed_pairAt (p : Nat) (x : Feed) : (d.setFeed p x).pairAt = d.pairAt := rfl
@[simp] theorem Dev.setFeed_le (p : Nat) (x : Feed) : (d.setFeed p x).le = d.le := rfl
@[simp] theorem Dev.setFeed_masks (p : Nat) (x : Feed) : (d.setFeed p x).masks = d.masks := rfl
@[simp] theorem Dev.setFeed_combs (p : Nat) (x : Feed) : (d.setFeed p x).combs = d.combs := rfl
@[simp] theorem Dev.setFeed_combTold (p : Nat) (x : Feed) : (d.setFeed p x).combTold = d.combTold := rfl
@[simp] theorem Dev.setFeed_tos (p : Nat) (x : Feed) : (d.setFeed p x).tos = d.tos := rfl
@[simp] theorem Dev.setFeed_remote (p : Nat) (x : Feed) : (d.setFeed p x).remote = d.remote := rfl
@[simp] theorem Dev.setFeed_aps (p : Nat) (x : Feed) : (d.setFeed p x).aps = d.aps := rfl
@[simp] theorem Dev.setFeed_cmc (p : Nat) (x : Feed) : (d.setFeed p x).cmc = d.cmc := rfl
@[simp] theorem Dev.setFeed_regions (p : Nat) (x : Feed) : (d.setFeed p x).regions = d.regions := rfl
@[simp] theorem Dev.setFeed_spares (p : Nat) (x : Feed) : (d.setFeed p x).spares = d.spares := rfl
@[simp] theorem Dev.setFeed_dma (p : Nat) (x : Feed) : (d.setFeed p x).dma = d.dma := rfl
@[simp] theorem Dev.setFeed_blocks (p : Nat) (x : Feed) : (d.setFeed p x).blocks = d.blocks := rfl
@[simp] theorem Dev.setFeed_drives (p : Nat) (x : Feed) : (d.setFeed p x).drives = d.drives := rfl
@[simp] theorem Dev.setFeed_relays (p : Nat) (x : Feed) : (d.setFeed p x).relays = d.relays := rfl
@[simp] theorem Dev.setFeed_feeds (p : Nat) (x : Feed) : (d.setFeed p x).feeds = Tbl.put p x d.feeds := rfl
@[simp] theorem Dev.setFeed_layers (p : Nat) (x : Feed) : (d.setFeed p x).layers = d.layers := rfl
@[simp] theorem Dev.setFeed_raster (p : Nat) (x : Feed) : (d.setFeed p x).raster = d.raster := rfl
@[simp] theorem Dev.setFeed_tps (p : Nat) (x : Feed) : (d.setFeed p x).tps = d.tps := rfl
@[simp] theorem Dev.setFeed_markers (p : Nat) (x : Feed) : (d.setFeed p x).markers = d.markers := rfl
@[simp] theorem Dev.setFeed_mc (p : Nat) (x : Feed) : (d.setFeed p x).mc = d.mc := rfl
@[simp] theorem Dev.setFeed_pwr (p : Nat) (x : Feed) : (d.setFeed p x).pwr = d.pwr := rfl
@[simp] theorem Dev.setFeed_jtag (p : Nat) (x : Feed) : (d.setFeed p x).jtag = d.jtag := rfl
@[simp] theorem Dev.setFeed_free (p : Nat) (x : Feed) : (d.setFeed p x).free = d.free := rfl
@[simp] theorem Dev.setFeed_out (p : Nat) (x : Feed) : (d.setFeed p x).out = d.out := rfl

/-! `Dev.setLayer` -/

@[simp] theorem Dev.setLayer_clk (n : Nat) (x : Layer) : (d.setLayer n x).clk = d.clk := rfl
@[simp] theorem Dev.setLayer_pcie (n : Nat) (x : Layer) : (d.setLayer n x).pcie = d.pcie := rfl
@[simp] theorem Dev.setLayer_fw (n : Nat) (x : Layer) : (d.setLayer n x).fw = d.fw := rfl
@[simp] theorem Dev.setLayer_regs (n : Nat) (x : Layer) : (d.setLayer n x).regs = d.regs := rfl
@[simp] theorem Dev.setLayer_rcNow (n : Nat) (x : Layer) : (d.setLayer n x).rcNow = d.rcNow := rfl
@[simp] theorem Dev.setLayer_shadowHost (n : Nat) (x : Layer) : (d.setLayer n x).shadowHost = d.shadowHost := rfl
@[simp] theorem Dev.setLayer_shadowSeq (n : Nat) (x : Layer) : (d.setLayer n x).shadowSeq = d.shadowSeq := rfl
@[simp] theorem Dev.setLayer_shadowMc (n : Nat) (x : Layer) : (d.setLayer n x).shadowMc = d.shadowMc := rfl
@[simp] theorem Dev.setLayer_rings (n : Nat) (x : Layer) : (d.setLayer n x).rings = d.rings := rfl
@[simp] theorem Dev.setLayer_rrRing (n : Nat) (x : Layer) : (d.setLayer n x).rrRing = d.rrRing := rfl
@[simp] theorem Dev.setLayer_rrUsed (n : Nat) (x : Layer) : (d.setLayer n x).rrUsed = d.rrUsed := rfl
@[simp] theorem Dev.setLayer_ev (n : Nat) (x : Layer) : (d.setLayer n x).ev = d.ev := rfl
@[simp] theorem Dev.setLayer_glob (n : Nat) (x : Layer) : (d.setLayer n x).glob = d.glob := rfl
@[simp] theorem Dev.setLayer_pads (n : Nat) (x : Layer) : (d.setLayer n x).pads = d.pads := rfl
@[simp] theorem Dev.setLayer_streams (n : Nat) (x : Layer) : (d.setLayer n x).streams = d.streams := rfl
@[simp] theorem Dev.setLayer_jesd (n : Nat) (x : Layer) : (d.setLayer n x).jesd = d.jesd := rfl
@[simp] theorem Dev.setLayer_ain (n : Nat) (x : Layer) : (d.setLayer n x).ain = d.ain := rfl
@[simp] theorem Dev.setLayer_chans (n : Nat) (x : Layer) : (d.setLayer n x).chans = d.chans := rfl
@[simp] theorem Dev.setLayer_engines (n : Nat) (x : Layer) : (d.setLayer n x).engines = d.engines := rfl
@[simp] theorem Dev.setLayer_pairAt (n : Nat) (x : Layer) : (d.setLayer n x).pairAt = d.pairAt := rfl
@[simp] theorem Dev.setLayer_le (n : Nat) (x : Layer) : (d.setLayer n x).le = d.le := rfl
@[simp] theorem Dev.setLayer_masks (n : Nat) (x : Layer) : (d.setLayer n x).masks = d.masks := rfl
@[simp] theorem Dev.setLayer_combs (n : Nat) (x : Layer) : (d.setLayer n x).combs = d.combs := rfl
@[simp] theorem Dev.setLayer_combTold (n : Nat) (x : Layer) : (d.setLayer n x).combTold = d.combTold := rfl
@[simp] theorem Dev.setLayer_tos (n : Nat) (x : Layer) : (d.setLayer n x).tos = d.tos := rfl
@[simp] theorem Dev.setLayer_remote (n : Nat) (x : Layer) : (d.setLayer n x).remote = d.remote := rfl
@[simp] theorem Dev.setLayer_aps (n : Nat) (x : Layer) : (d.setLayer n x).aps = d.aps := rfl
@[simp] theorem Dev.setLayer_cmc (n : Nat) (x : Layer) : (d.setLayer n x).cmc = d.cmc := rfl
@[simp] theorem Dev.setLayer_regions (n : Nat) (x : Layer) : (d.setLayer n x).regions = d.regions := rfl
@[simp] theorem Dev.setLayer_spares (n : Nat) (x : Layer) : (d.setLayer n x).spares = d.spares := rfl
@[simp] theorem Dev.setLayer_dma (n : Nat) (x : Layer) : (d.setLayer n x).dma = d.dma := rfl
@[simp] theorem Dev.setLayer_blocks (n : Nat) (x : Layer) : (d.setLayer n x).blocks = d.blocks := rfl
@[simp] theorem Dev.setLayer_drives (n : Nat) (x : Layer) : (d.setLayer n x).drives = d.drives := rfl
@[simp] theorem Dev.setLayer_relays (n : Nat) (x : Layer) : (d.setLayer n x).relays = d.relays := rfl
@[simp] theorem Dev.setLayer_feeds (n : Nat) (x : Layer) : (d.setLayer n x).feeds = d.feeds := rfl
@[simp] theorem Dev.setLayer_layers (n : Nat) (x : Layer) : (d.setLayer n x).layers = Tbl.put n x d.layers := rfl
@[simp] theorem Dev.setLayer_raster (n : Nat) (x : Layer) : (d.setLayer n x).raster = d.raster := rfl
@[simp] theorem Dev.setLayer_tps (n : Nat) (x : Layer) : (d.setLayer n x).tps = d.tps := rfl
@[simp] theorem Dev.setLayer_markers (n : Nat) (x : Layer) : (d.setLayer n x).markers = d.markers := rfl
@[simp] theorem Dev.setLayer_mc (n : Nat) (x : Layer) : (d.setLayer n x).mc = d.mc := rfl
@[simp] theorem Dev.setLayer_pwr (n : Nat) (x : Layer) : (d.setLayer n x).pwr = d.pwr := rfl
@[simp] theorem Dev.setLayer_jtag (n : Nat) (x : Layer) : (d.setLayer n x).jtag = d.jtag := rfl
@[simp] theorem Dev.setLayer_free (n : Nat) (x : Layer) : (d.setLayer n x).free = d.free := rfl
@[simp] theorem Dev.setLayer_out (n : Nat) (x : Layer) : (d.setLayer n x).out = d.out := rfl

/-! `Dev.setPad` -/

@[simp] theorem Dev.setPad_clk (p : Nat) (x : Pad) : (d.setPad p x).clk = d.clk := rfl
@[simp] theorem Dev.setPad_pcie (p : Nat) (x : Pad) : (d.setPad p x).pcie = d.pcie := rfl
@[simp] theorem Dev.setPad_fw (p : Nat) (x : Pad) : (d.setPad p x).fw = d.fw := rfl
@[simp] theorem Dev.setPad_regs (p : Nat) (x : Pad) : (d.setPad p x).regs = d.regs := rfl
@[simp] theorem Dev.setPad_rcNow (p : Nat) (x : Pad) : (d.setPad p x).rcNow = d.rcNow := rfl
@[simp] theorem Dev.setPad_shadowHost (p : Nat) (x : Pad) : (d.setPad p x).shadowHost = d.shadowHost := rfl
@[simp] theorem Dev.setPad_shadowSeq (p : Nat) (x : Pad) : (d.setPad p x).shadowSeq = d.shadowSeq := rfl
@[simp] theorem Dev.setPad_shadowMc (p : Nat) (x : Pad) : (d.setPad p x).shadowMc = d.shadowMc := rfl
@[simp] theorem Dev.setPad_rings (p : Nat) (x : Pad) : (d.setPad p x).rings = d.rings := rfl
@[simp] theorem Dev.setPad_rrRing (p : Nat) (x : Pad) : (d.setPad p x).rrRing = d.rrRing := rfl
@[simp] theorem Dev.setPad_rrUsed (p : Nat) (x : Pad) : (d.setPad p x).rrUsed = d.rrUsed := rfl
@[simp] theorem Dev.setPad_ev (p : Nat) (x : Pad) : (d.setPad p x).ev = d.ev := rfl
@[simp] theorem Dev.setPad_glob (p : Nat) (x : Pad) : (d.setPad p x).glob = d.glob := rfl
@[simp] theorem Dev.setPad_pads (p : Nat) (x : Pad) : (d.setPad p x).pads = Tbl.put p x d.pads := rfl
@[simp] theorem Dev.setPad_streams (p : Nat) (x : Pad) : (d.setPad p x).streams = d.streams := rfl
@[simp] theorem Dev.setPad_jesd (p : Nat) (x : Pad) : (d.setPad p x).jesd = d.jesd := rfl
@[simp] theorem Dev.setPad_ain (p : Nat) (x : Pad) : (d.setPad p x).ain = d.ain := rfl
@[simp] theorem Dev.setPad_chans (p : Nat) (x : Pad) : (d.setPad p x).chans = d.chans := rfl
@[simp] theorem Dev.setPad_engines (p : Nat) (x : Pad) : (d.setPad p x).engines = d.engines := rfl
@[simp] theorem Dev.setPad_pairAt (p : Nat) (x : Pad) : (d.setPad p x).pairAt = d.pairAt := rfl
@[simp] theorem Dev.setPad_le (p : Nat) (x : Pad) : (d.setPad p x).le = d.le := rfl
@[simp] theorem Dev.setPad_masks (p : Nat) (x : Pad) : (d.setPad p x).masks = d.masks := rfl
@[simp] theorem Dev.setPad_combs (p : Nat) (x : Pad) : (d.setPad p x).combs = d.combs := rfl
@[simp] theorem Dev.setPad_combTold (p : Nat) (x : Pad) : (d.setPad p x).combTold = d.combTold := rfl
@[simp] theorem Dev.setPad_tos (p : Nat) (x : Pad) : (d.setPad p x).tos = d.tos := rfl
@[simp] theorem Dev.setPad_remote (p : Nat) (x : Pad) : (d.setPad p x).remote = d.remote := rfl
@[simp] theorem Dev.setPad_aps (p : Nat) (x : Pad) : (d.setPad p x).aps = d.aps := rfl
@[simp] theorem Dev.setPad_cmc (p : Nat) (x : Pad) : (d.setPad p x).cmc = d.cmc := rfl
@[simp] theorem Dev.setPad_regions (p : Nat) (x : Pad) : (d.setPad p x).regions = d.regions := rfl
@[simp] theorem Dev.setPad_spares (p : Nat) (x : Pad) : (d.setPad p x).spares = d.spares := rfl
@[simp] theorem Dev.setPad_dma (p : Nat) (x : Pad) : (d.setPad p x).dma = d.dma := rfl
@[simp] theorem Dev.setPad_blocks (p : Nat) (x : Pad) : (d.setPad p x).blocks = d.blocks := rfl
@[simp] theorem Dev.setPad_drives (p : Nat) (x : Pad) : (d.setPad p x).drives = d.drives := rfl
@[simp] theorem Dev.setPad_relays (p : Nat) (x : Pad) : (d.setPad p x).relays = d.relays := rfl
@[simp] theorem Dev.setPad_feeds (p : Nat) (x : Pad) : (d.setPad p x).feeds = d.feeds := rfl
@[simp] theorem Dev.setPad_layers (p : Nat) (x : Pad) : (d.setPad p x).layers = d.layers := rfl
@[simp] theorem Dev.setPad_raster (p : Nat) (x : Pad) : (d.setPad p x).raster = d.raster := rfl
@[simp] theorem Dev.setPad_tps (p : Nat) (x : Pad) : (d.setPad p x).tps = d.tps := rfl
@[simp] theorem Dev.setPad_markers (p : Nat) (x : Pad) : (d.setPad p x).markers = d.markers := rfl
@[simp] theorem Dev.setPad_mc (p : Nat) (x : Pad) : (d.setPad p x).mc = d.mc := rfl
@[simp] theorem Dev.setPad_pwr (p : Nat) (x : Pad) : (d.setPad p x).pwr = d.pwr := rfl
@[simp] theorem Dev.setPad_jtag (p : Nat) (x : Pad) : (d.setPad p x).jtag = d.jtag := rfl
@[simp] theorem Dev.setPad_free (p : Nat) (x : Pad) : (d.setPad p x).free = d.free := rfl
@[simp] theorem Dev.setPad_out (p : Nat) (x : Pad) : (d.setPad p x).out = d.out := rfl

/-! `Dev.setJlink` -/

@[simp] theorem Dev.setJlink_clk (l : Nat) (x : JesdLink) : (d.setJlink l x).clk = d.clk := rfl
@[simp] theorem Dev.setJlink_pcie (l : Nat) (x : JesdLink) : (d.setJlink l x).pcie = d.pcie := rfl
@[simp] theorem Dev.setJlink_fw (l : Nat) (x : JesdLink) : (d.setJlink l x).fw = d.fw := rfl
@[simp] theorem Dev.setJlink_regs (l : Nat) (x : JesdLink) : (d.setJlink l x).regs = d.regs := rfl
@[simp] theorem Dev.setJlink_rcNow (l : Nat) (x : JesdLink) : (d.setJlink l x).rcNow = d.rcNow := rfl
@[simp] theorem Dev.setJlink_shadowHost (l : Nat) (x : JesdLink) : (d.setJlink l x).shadowHost = d.shadowHost := rfl
@[simp] theorem Dev.setJlink_shadowSeq (l : Nat) (x : JesdLink) : (d.setJlink l x).shadowSeq = d.shadowSeq := rfl
@[simp] theorem Dev.setJlink_shadowMc (l : Nat) (x : JesdLink) : (d.setJlink l x).shadowMc = d.shadowMc := rfl
@[simp] theorem Dev.setJlink_rings (l : Nat) (x : JesdLink) : (d.setJlink l x).rings = d.rings := rfl
@[simp] theorem Dev.setJlink_rrRing (l : Nat) (x : JesdLink) : (d.setJlink l x).rrRing = d.rrRing := rfl
@[simp] theorem Dev.setJlink_rrUsed (l : Nat) (x : JesdLink) : (d.setJlink l x).rrUsed = d.rrUsed := rfl
@[simp] theorem Dev.setJlink_ev (l : Nat) (x : JesdLink) : (d.setJlink l x).ev = d.ev := rfl
@[simp] theorem Dev.setJlink_glob (l : Nat) (x : JesdLink) : (d.setJlink l x).glob = d.glob := rfl
@[simp] theorem Dev.setJlink_pads (l : Nat) (x : JesdLink) : (d.setJlink l x).pads = d.pads := rfl
@[simp] theorem Dev.setJlink_streams (l : Nat) (x : JesdLink) : (d.setJlink l x).streams = d.streams := rfl
@[simp] theorem Dev.setJlink_jesd (l : Nat) (x : JesdLink) : (d.setJlink l x).jesd = Tbl.put l x d.jesd := rfl
@[simp] theorem Dev.setJlink_ain (l : Nat) (x : JesdLink) : (d.setJlink l x).ain = d.ain := rfl
@[simp] theorem Dev.setJlink_chans (l : Nat) (x : JesdLink) : (d.setJlink l x).chans = d.chans := rfl
@[simp] theorem Dev.setJlink_engines (l : Nat) (x : JesdLink) : (d.setJlink l x).engines = d.engines := rfl
@[simp] theorem Dev.setJlink_pairAt (l : Nat) (x : JesdLink) : (d.setJlink l x).pairAt = d.pairAt := rfl
@[simp] theorem Dev.setJlink_le (l : Nat) (x : JesdLink) : (d.setJlink l x).le = d.le := rfl
@[simp] theorem Dev.setJlink_masks (l : Nat) (x : JesdLink) : (d.setJlink l x).masks = d.masks := rfl
@[simp] theorem Dev.setJlink_combs (l : Nat) (x : JesdLink) : (d.setJlink l x).combs = d.combs := rfl
@[simp] theorem Dev.setJlink_combTold (l : Nat) (x : JesdLink) : (d.setJlink l x).combTold = d.combTold := rfl
@[simp] theorem Dev.setJlink_tos (l : Nat) (x : JesdLink) : (d.setJlink l x).tos = d.tos := rfl
@[simp] theorem Dev.setJlink_remote (l : Nat) (x : JesdLink) : (d.setJlink l x).remote = d.remote := rfl
@[simp] theorem Dev.setJlink_aps (l : Nat) (x : JesdLink) : (d.setJlink l x).aps = d.aps := rfl
@[simp] theorem Dev.setJlink_cmc (l : Nat) (x : JesdLink) : (d.setJlink l x).cmc = d.cmc := rfl
@[simp] theorem Dev.setJlink_regions (l : Nat) (x : JesdLink) : (d.setJlink l x).regions = d.regions := rfl
@[simp] theorem Dev.setJlink_spares (l : Nat) (x : JesdLink) : (d.setJlink l x).spares = d.spares := rfl
@[simp] theorem Dev.setJlink_dma (l : Nat) (x : JesdLink) : (d.setJlink l x).dma = d.dma := rfl
@[simp] theorem Dev.setJlink_blocks (l : Nat) (x : JesdLink) : (d.setJlink l x).blocks = d.blocks := rfl
@[simp] theorem Dev.setJlink_drives (l : Nat) (x : JesdLink) : (d.setJlink l x).drives = d.drives := rfl
@[simp] theorem Dev.setJlink_relays (l : Nat) (x : JesdLink) : (d.setJlink l x).relays = d.relays := rfl
@[simp] theorem Dev.setJlink_feeds (l : Nat) (x : JesdLink) : (d.setJlink l x).feeds = d.feeds := rfl
@[simp] theorem Dev.setJlink_layers (l : Nat) (x : JesdLink) : (d.setJlink l x).layers = d.layers := rfl
@[simp] theorem Dev.setJlink_raster (l : Nat) (x : JesdLink) : (d.setJlink l x).raster = d.raster := rfl
@[simp] theorem Dev.setJlink_tps (l : Nat) (x : JesdLink) : (d.setJlink l x).tps = d.tps := rfl
@[simp] theorem Dev.setJlink_markers (l : Nat) (x : JesdLink) : (d.setJlink l x).markers = d.markers := rfl
@[simp] theorem Dev.setJlink_mc (l : Nat) (x : JesdLink) : (d.setJlink l x).mc = d.mc := rfl
@[simp] theorem Dev.setJlink_pwr (l : Nat) (x : JesdLink) : (d.setJlink l x).pwr = d.pwr := rfl
@[simp] theorem Dev.setJlink_jtag (l : Nat) (x : JesdLink) : (d.setJlink l x).jtag = d.jtag := rfl
@[simp] theorem Dev.setJlink_free (l : Nat) (x : JesdLink) : (d.setJlink l x).free = d.free := rfl
@[simp] theorem Dev.setJlink_out (l : Nat) (x : JesdLink) : (d.setJlink l x).out = d.out := rfl

/-! `Dev.setAin` -/

@[simp] theorem Dev.setAin_clk (n : Nat) (x : Ain) : (d.setAin n x).clk = d.clk := rfl
@[simp] theorem Dev.setAin_pcie (n : Nat) (x : Ain) : (d.setAin n x).pcie = d.pcie := rfl
@[simp] theorem Dev.setAin_fw (n : Nat) (x : Ain) : (d.setAin n x).fw = d.fw := rfl
@[simp] theorem Dev.setAin_regs (n : Nat) (x : Ain) : (d.setAin n x).regs = d.regs := rfl
@[simp] theorem Dev.setAin_rcNow (n : Nat) (x : Ain) : (d.setAin n x).rcNow = d.rcNow := rfl
@[simp] theorem Dev.setAin_shadowHost (n : Nat) (x : Ain) : (d.setAin n x).shadowHost = d.shadowHost := rfl
@[simp] theorem Dev.setAin_shadowSeq (n : Nat) (x : Ain) : (d.setAin n x).shadowSeq = d.shadowSeq := rfl
@[simp] theorem Dev.setAin_shadowMc (n : Nat) (x : Ain) : (d.setAin n x).shadowMc = d.shadowMc := rfl
@[simp] theorem Dev.setAin_rings (n : Nat) (x : Ain) : (d.setAin n x).rings = d.rings := rfl
@[simp] theorem Dev.setAin_rrRing (n : Nat) (x : Ain) : (d.setAin n x).rrRing = d.rrRing := rfl
@[simp] theorem Dev.setAin_rrUsed (n : Nat) (x : Ain) : (d.setAin n x).rrUsed = d.rrUsed := rfl
@[simp] theorem Dev.setAin_ev (n : Nat) (x : Ain) : (d.setAin n x).ev = d.ev := rfl
@[simp] theorem Dev.setAin_glob (n : Nat) (x : Ain) : (d.setAin n x).glob = d.glob := rfl
@[simp] theorem Dev.setAin_pads (n : Nat) (x : Ain) : (d.setAin n x).pads = d.pads := rfl
@[simp] theorem Dev.setAin_streams (n : Nat) (x : Ain) : (d.setAin n x).streams = d.streams := rfl
@[simp] theorem Dev.setAin_jesd (n : Nat) (x : Ain) : (d.setAin n x).jesd = d.jesd := rfl
@[simp] theorem Dev.setAin_ain (n : Nat) (x : Ain) : (d.setAin n x).ain = Tbl.put n x d.ain := rfl
@[simp] theorem Dev.setAin_chans (n : Nat) (x : Ain) : (d.setAin n x).chans = d.chans := rfl
@[simp] theorem Dev.setAin_engines (n : Nat) (x : Ain) : (d.setAin n x).engines = d.engines := rfl
@[simp] theorem Dev.setAin_pairAt (n : Nat) (x : Ain) : (d.setAin n x).pairAt = d.pairAt := rfl
@[simp] theorem Dev.setAin_le (n : Nat) (x : Ain) : (d.setAin n x).le = d.le := rfl
@[simp] theorem Dev.setAin_masks (n : Nat) (x : Ain) : (d.setAin n x).masks = d.masks := rfl
@[simp] theorem Dev.setAin_combs (n : Nat) (x : Ain) : (d.setAin n x).combs = d.combs := rfl
@[simp] theorem Dev.setAin_combTold (n : Nat) (x : Ain) : (d.setAin n x).combTold = d.combTold := rfl
@[simp] theorem Dev.setAin_tos (n : Nat) (x : Ain) : (d.setAin n x).tos = d.tos := rfl
@[simp] theorem Dev.setAin_remote (n : Nat) (x : Ain) : (d.setAin n x).remote = d.remote := rfl
@[simp] theorem Dev.setAin_aps (n : Nat) (x : Ain) : (d.setAin n x).aps = d.aps := rfl
@[simp] theorem Dev.setAin_cmc (n : Nat) (x : Ain) : (d.setAin n x).cmc = d.cmc := rfl
@[simp] theorem Dev.setAin_regions (n : Nat) (x : Ain) : (d.setAin n x).regions = d.regions := rfl
@[simp] theorem Dev.setAin_spares (n : Nat) (x : Ain) : (d.setAin n x).spares = d.spares := rfl
@[simp] theorem Dev.setAin_dma (n : Nat) (x : Ain) : (d.setAin n x).dma = d.dma := rfl
@[simp] theorem Dev.setAin_blocks (n : Nat) (x : Ain) : (d.setAin n x).blocks = d.blocks := rfl
@[simp] theorem Dev.setAin_drives (n : Nat) (x : Ain) : (d.setAin n x).drives = d.drives := rfl
@[simp] theorem Dev.setAin_relays (n : Nat) (x : Ain) : (d.setAin n x).relays = d.relays := rfl
@[simp] theorem Dev.setAin_feeds (n : Nat) (x : Ain) : (d.setAin n x).feeds = d.feeds := rfl
@[simp] theorem Dev.setAin_layers (n : Nat) (x : Ain) : (d.setAin n x).layers = d.layers := rfl
@[simp] theorem Dev.setAin_raster (n : Nat) (x : Ain) : (d.setAin n x).raster = d.raster := rfl
@[simp] theorem Dev.setAin_tps (n : Nat) (x : Ain) : (d.setAin n x).tps = d.tps := rfl
@[simp] theorem Dev.setAin_markers (n : Nat) (x : Ain) : (d.setAin n x).markers = d.markers := rfl
@[simp] theorem Dev.setAin_mc (n : Nat) (x : Ain) : (d.setAin n x).mc = d.mc := rfl
@[simp] theorem Dev.setAin_pwr (n : Nat) (x : Ain) : (d.setAin n x).pwr = d.pwr := rfl
@[simp] theorem Dev.setAin_jtag (n : Nat) (x : Ain) : (d.setAin n x).jtag = d.jtag := rfl
@[simp] theorem Dev.setAin_free (n : Nat) (x : Ain) : (d.setAin n x).free = d.free := rfl
@[simp] theorem Dev.setAin_out (n : Nat) (x : Ain) : (d.setAin n x).out = d.out := rfl

/-! `Dev.setRegion` -/

@[simp] theorem Dev.setRegion_clk (g : Nat) (x : RegionCount) : (d.setRegion g x).clk = d.clk := rfl
@[simp] theorem Dev.setRegion_pcie (g : Nat) (x : RegionCount) : (d.setRegion g x).pcie = d.pcie := rfl
@[simp] theorem Dev.setRegion_fw (g : Nat) (x : RegionCount) : (d.setRegion g x).fw = d.fw := rfl
@[simp] theorem Dev.setRegion_regs (g : Nat) (x : RegionCount) : (d.setRegion g x).regs = d.regs := rfl
@[simp] theorem Dev.setRegion_rcNow (g : Nat) (x : RegionCount) : (d.setRegion g x).rcNow = d.rcNow := rfl
@[simp] theorem Dev.setRegion_shadowHost (g : Nat) (x : RegionCount) : (d.setRegion g x).shadowHost = d.shadowHost := rfl
@[simp] theorem Dev.setRegion_shadowSeq (g : Nat) (x : RegionCount) : (d.setRegion g x).shadowSeq = d.shadowSeq := rfl
@[simp] theorem Dev.setRegion_shadowMc (g : Nat) (x : RegionCount) : (d.setRegion g x).shadowMc = d.shadowMc := rfl
@[simp] theorem Dev.setRegion_rings (g : Nat) (x : RegionCount) : (d.setRegion g x).rings = d.rings := rfl
@[simp] theorem Dev.setRegion_rrRing (g : Nat) (x : RegionCount) : (d.setRegion g x).rrRing = d.rrRing := rfl
@[simp] theorem Dev.setRegion_rrUsed (g : Nat) (x : RegionCount) : (d.setRegion g x).rrUsed = d.rrUsed := rfl
@[simp] theorem Dev.setRegion_ev (g : Nat) (x : RegionCount) : (d.setRegion g x).ev = d.ev := rfl
@[simp] theorem Dev.setRegion_glob (g : Nat) (x : RegionCount) : (d.setRegion g x).glob = d.glob := rfl
@[simp] theorem Dev.setRegion_pads (g : Nat) (x : RegionCount) : (d.setRegion g x).pads = d.pads := rfl
@[simp] theorem Dev.setRegion_streams (g : Nat) (x : RegionCount) : (d.setRegion g x).streams = d.streams := rfl
@[simp] theorem Dev.setRegion_jesd (g : Nat) (x : RegionCount) : (d.setRegion g x).jesd = d.jesd := rfl
@[simp] theorem Dev.setRegion_ain (g : Nat) (x : RegionCount) : (d.setRegion g x).ain = d.ain := rfl
@[simp] theorem Dev.setRegion_chans (g : Nat) (x : RegionCount) : (d.setRegion g x).chans = d.chans := rfl
@[simp] theorem Dev.setRegion_engines (g : Nat) (x : RegionCount) : (d.setRegion g x).engines = d.engines := rfl
@[simp] theorem Dev.setRegion_pairAt (g : Nat) (x : RegionCount) : (d.setRegion g x).pairAt = d.pairAt := rfl
@[simp] theorem Dev.setRegion_le (g : Nat) (x : RegionCount) : (d.setRegion g x).le = d.le := rfl
@[simp] theorem Dev.setRegion_masks (g : Nat) (x : RegionCount) : (d.setRegion g x).masks = d.masks := rfl
@[simp] theorem Dev.setRegion_combs (g : Nat) (x : RegionCount) : (d.setRegion g x).combs = d.combs := rfl
@[simp] theorem Dev.setRegion_combTold (g : Nat) (x : RegionCount) : (d.setRegion g x).combTold = d.combTold := rfl
@[simp] theorem Dev.setRegion_tos (g : Nat) (x : RegionCount) : (d.setRegion g x).tos = d.tos := rfl
@[simp] theorem Dev.setRegion_remote (g : Nat) (x : RegionCount) : (d.setRegion g x).remote = d.remote := rfl
@[simp] theorem Dev.setRegion_aps (g : Nat) (x : RegionCount) : (d.setRegion g x).aps = d.aps := rfl
@[simp] theorem Dev.setRegion_cmc (g : Nat) (x : RegionCount) : (d.setRegion g x).cmc = d.cmc := rfl
@[simp] theorem Dev.setRegion_regions (g : Nat) (x : RegionCount) : (d.setRegion g x).regions = Tbl.put g x d.regions := rfl
@[simp] theorem Dev.setRegion_spares (g : Nat) (x : RegionCount) : (d.setRegion g x).spares = d.spares := rfl
@[simp] theorem Dev.setRegion_dma (g : Nat) (x : RegionCount) : (d.setRegion g x).dma = d.dma := rfl
@[simp] theorem Dev.setRegion_blocks (g : Nat) (x : RegionCount) : (d.setRegion g x).blocks = d.blocks := rfl
@[simp] theorem Dev.setRegion_drives (g : Nat) (x : RegionCount) : (d.setRegion g x).drives = d.drives := rfl
@[simp] theorem Dev.setRegion_relays (g : Nat) (x : RegionCount) : (d.setRegion g x).relays = d.relays := rfl
@[simp] theorem Dev.setRegion_feeds (g : Nat) (x : RegionCount) : (d.setRegion g x).feeds = d.feeds := rfl
@[simp] theorem Dev.setRegion_layers (g : Nat) (x : RegionCount) : (d.setRegion g x).layers = d.layers := rfl
@[simp] theorem Dev.setRegion_raster (g : Nat) (x : RegionCount) : (d.setRegion g x).raster = d.raster := rfl
@[simp] theorem Dev.setRegion_tps (g : Nat) (x : RegionCount) : (d.setRegion g x).tps = d.tps := rfl
@[simp] theorem Dev.setRegion_markers (g : Nat) (x : RegionCount) : (d.setRegion g x).markers = d.markers := rfl
@[simp] theorem Dev.setRegion_mc (g : Nat) (x : RegionCount) : (d.setRegion g x).mc = d.mc := rfl
@[simp] theorem Dev.setRegion_pwr (g : Nat) (x : RegionCount) : (d.setRegion g x).pwr = d.pwr := rfl
@[simp] theorem Dev.setRegion_jtag (g : Nat) (x : RegionCount) : (d.setRegion g x).jtag = d.jtag := rfl
@[simp] theorem Dev.setRegion_free (g : Nat) (x : RegionCount) : (d.setRegion g x).free = d.free := rfl
@[simp] theorem Dev.setRegion_out (g : Nat) (x : RegionCount) : (d.setRegion g x).out = d.out := rfl

/-! `Dev.setDrive` -/

@[simp] theorem Dev.setDrive_clk (k : Nat) (x : DriveSlot) : (d.setDrive k x).clk = d.clk := rfl
@[simp] theorem Dev.setDrive_pcie (k : Nat) (x : DriveSlot) : (d.setDrive k x).pcie = d.pcie := rfl
@[simp] theorem Dev.setDrive_fw (k : Nat) (x : DriveSlot) : (d.setDrive k x).fw = d.fw := rfl
@[simp] theorem Dev.setDrive_regs (k : Nat) (x : DriveSlot) : (d.setDrive k x).regs = d.regs := rfl
@[simp] theorem Dev.setDrive_rcNow (k : Nat) (x : DriveSlot) : (d.setDrive k x).rcNow = d.rcNow := rfl
@[simp] theorem Dev.setDrive_shadowHost (k : Nat) (x : DriveSlot) : (d.setDrive k x).shadowHost = d.shadowHost := rfl
@[simp] theorem Dev.setDrive_shadowSeq (k : Nat) (x : DriveSlot) : (d.setDrive k x).shadowSeq = d.shadowSeq := rfl
@[simp] theorem Dev.setDrive_shadowMc (k : Nat) (x : DriveSlot) : (d.setDrive k x).shadowMc = d.shadowMc := rfl
@[simp] theorem Dev.setDrive_rings (k : Nat) (x : DriveSlot) : (d.setDrive k x).rings = d.rings := rfl
@[simp] theorem Dev.setDrive_rrRing (k : Nat) (x : DriveSlot) : (d.setDrive k x).rrRing = d.rrRing := rfl
@[simp] theorem Dev.setDrive_rrUsed (k : Nat) (x : DriveSlot) : (d.setDrive k x).rrUsed = d.rrUsed := rfl
@[simp] theorem Dev.setDrive_ev (k : Nat) (x : DriveSlot) : (d.setDrive k x).ev = d.ev := rfl
@[simp] theorem Dev.setDrive_glob (k : Nat) (x : DriveSlot) : (d.setDrive k x).glob = d.glob := rfl
@[simp] theorem Dev.setDrive_pads (k : Nat) (x : DriveSlot) : (d.setDrive k x).pads = d.pads := rfl
@[simp] theorem Dev.setDrive_streams (k : Nat) (x : DriveSlot) : (d.setDrive k x).streams = d.streams := rfl
@[simp] theorem Dev.setDrive_jesd (k : Nat) (x : DriveSlot) : (d.setDrive k x).jesd = d.jesd := rfl
@[simp] theorem Dev.setDrive_ain (k : Nat) (x : DriveSlot) : (d.setDrive k x).ain = d.ain := rfl
@[simp] theorem Dev.setDrive_chans (k : Nat) (x : DriveSlot) : (d.setDrive k x).chans = d.chans := rfl
@[simp] theorem Dev.setDrive_engines (k : Nat) (x : DriveSlot) : (d.setDrive k x).engines = d.engines := rfl
@[simp] theorem Dev.setDrive_pairAt (k : Nat) (x : DriveSlot) : (d.setDrive k x).pairAt = d.pairAt := rfl
@[simp] theorem Dev.setDrive_le (k : Nat) (x : DriveSlot) : (d.setDrive k x).le = d.le := rfl
@[simp] theorem Dev.setDrive_masks (k : Nat) (x : DriveSlot) : (d.setDrive k x).masks = d.masks := rfl
@[simp] theorem Dev.setDrive_combs (k : Nat) (x : DriveSlot) : (d.setDrive k x).combs = d.combs := rfl
@[simp] theorem Dev.setDrive_combTold (k : Nat) (x : DriveSlot) : (d.setDrive k x).combTold = d.combTold := rfl
@[simp] theorem Dev.setDrive_tos (k : Nat) (x : DriveSlot) : (d.setDrive k x).tos = d.tos := rfl
@[simp] theorem Dev.setDrive_remote (k : Nat) (x : DriveSlot) : (d.setDrive k x).remote = d.remote := rfl
@[simp] theorem Dev.setDrive_aps (k : Nat) (x : DriveSlot) : (d.setDrive k x).aps = d.aps := rfl
@[simp] theorem Dev.setDrive_cmc (k : Nat) (x : DriveSlot) : (d.setDrive k x).cmc = d.cmc := rfl
@[simp] theorem Dev.setDrive_regions (k : Nat) (x : DriveSlot) : (d.setDrive k x).regions = d.regions := rfl
@[simp] theorem Dev.setDrive_spares (k : Nat) (x : DriveSlot) : (d.setDrive k x).spares = d.spares := rfl
@[simp] theorem Dev.setDrive_dma (k : Nat) (x : DriveSlot) : (d.setDrive k x).dma = d.dma := rfl
@[simp] theorem Dev.setDrive_blocks (k : Nat) (x : DriveSlot) : (d.setDrive k x).blocks = d.blocks := rfl
@[simp] theorem Dev.setDrive_drives (k : Nat) (x : DriveSlot) : (d.setDrive k x).drives = Tbl.put k x d.drives := rfl
@[simp] theorem Dev.setDrive_relays (k : Nat) (x : DriveSlot) : (d.setDrive k x).relays = d.relays := rfl
@[simp] theorem Dev.setDrive_feeds (k : Nat) (x : DriveSlot) : (d.setDrive k x).feeds = d.feeds := rfl
@[simp] theorem Dev.setDrive_layers (k : Nat) (x : DriveSlot) : (d.setDrive k x).layers = d.layers := rfl
@[simp] theorem Dev.setDrive_raster (k : Nat) (x : DriveSlot) : (d.setDrive k x).raster = d.raster := rfl
@[simp] theorem Dev.setDrive_tps (k : Nat) (x : DriveSlot) : (d.setDrive k x).tps = d.tps := rfl
@[simp] theorem Dev.setDrive_markers (k : Nat) (x : DriveSlot) : (d.setDrive k x).markers = d.markers := rfl
@[simp] theorem Dev.setDrive_mc (k : Nat) (x : DriveSlot) : (d.setDrive k x).mc = d.mc := rfl
@[simp] theorem Dev.setDrive_pwr (k : Nat) (x : DriveSlot) : (d.setDrive k x).pwr = d.pwr := rfl
@[simp] theorem Dev.setDrive_jtag (k : Nat) (x : DriveSlot) : (d.setDrive k x).jtag = d.jtag := rfl
@[simp] theorem Dev.setDrive_free (k : Nat) (x : DriveSlot) : (d.setDrive k x).free = d.free := rfl
@[simp] theorem Dev.setDrive_out (k : Nat) (x : DriveSlot) : (d.setDrive k x).out = d.out := rfl

/-! `Dev.setRelay` -/

@[simp] theorem Dev.setRelay_clk (k : Nat) (x : RelayStream) : (d.setRelay k x).clk = d.clk := rfl
@[simp] theorem Dev.setRelay_pcie (k : Nat) (x : RelayStream) : (d.setRelay k x).pcie = d.pcie := rfl
@[simp] theorem Dev.setRelay_fw (k : Nat) (x : RelayStream) : (d.setRelay k x).fw = d.fw := rfl
@[simp] theorem Dev.setRelay_regs (k : Nat) (x : RelayStream) : (d.setRelay k x).regs = d.regs := rfl
@[simp] theorem Dev.setRelay_rcNow (k : Nat) (x : RelayStream) : (d.setRelay k x).rcNow = d.rcNow := rfl
@[simp] theorem Dev.setRelay_shadowHost (k : Nat) (x : RelayStream) : (d.setRelay k x).shadowHost = d.shadowHost := rfl
@[simp] theorem Dev.setRelay_shadowSeq (k : Nat) (x : RelayStream) : (d.setRelay k x).shadowSeq = d.shadowSeq := rfl
@[simp] theorem Dev.setRelay_shadowMc (k : Nat) (x : RelayStream) : (d.setRelay k x).shadowMc = d.shadowMc := rfl
@[simp] theorem Dev.setRelay_rings (k : Nat) (x : RelayStream) : (d.setRelay k x).rings = d.rings := rfl
@[simp] theorem Dev.setRelay_rrRing (k : Nat) (x : RelayStream) : (d.setRelay k x).rrRing = d.rrRing := rfl
@[simp] theorem Dev.setRelay_rrUsed (k : Nat) (x : RelayStream) : (d.setRelay k x).rrUsed = d.rrUsed := rfl
@[simp] theorem Dev.setRelay_ev (k : Nat) (x : RelayStream) : (d.setRelay k x).ev = d.ev := rfl
@[simp] theorem Dev.setRelay_glob (k : Nat) (x : RelayStream) : (d.setRelay k x).glob = d.glob := rfl
@[simp] theorem Dev.setRelay_pads (k : Nat) (x : RelayStream) : (d.setRelay k x).pads = d.pads := rfl
@[simp] theorem Dev.setRelay_streams (k : Nat) (x : RelayStream) : (d.setRelay k x).streams = d.streams := rfl
@[simp] theorem Dev.setRelay_jesd (k : Nat) (x : RelayStream) : (d.setRelay k x).jesd = d.jesd := rfl
@[simp] theorem Dev.setRelay_ain (k : Nat) (x : RelayStream) : (d.setRelay k x).ain = d.ain := rfl
@[simp] theorem Dev.setRelay_chans (k : Nat) (x : RelayStream) : (d.setRelay k x).chans = d.chans := rfl
@[simp] theorem Dev.setRelay_engines (k : Nat) (x : RelayStream) : (d.setRelay k x).engines = d.engines := rfl
@[simp] theorem Dev.setRelay_pairAt (k : Nat) (x : RelayStream) : (d.setRelay k x).pairAt = d.pairAt := rfl
@[simp] theorem Dev.setRelay_le (k : Nat) (x : RelayStream) : (d.setRelay k x).le = d.le := rfl
@[simp] theorem Dev.setRelay_masks (k : Nat) (x : RelayStream) : (d.setRelay k x).masks = d.masks := rfl
@[simp] theorem Dev.setRelay_combs (k : Nat) (x : RelayStream) : (d.setRelay k x).combs = d.combs := rfl
@[simp] theorem Dev.setRelay_combTold (k : Nat) (x : RelayStream) : (d.setRelay k x).combTold = d.combTold := rfl
@[simp] theorem Dev.setRelay_tos (k : Nat) (x : RelayStream) : (d.setRelay k x).tos = d.tos := rfl
@[simp] theorem Dev.setRelay_remote (k : Nat) (x : RelayStream) : (d.setRelay k x).remote = d.remote := rfl
@[simp] theorem Dev.setRelay_aps (k : Nat) (x : RelayStream) : (d.setRelay k x).aps = d.aps := rfl
@[simp] theorem Dev.setRelay_cmc (k : Nat) (x : RelayStream) : (d.setRelay k x).cmc = d.cmc := rfl
@[simp] theorem Dev.setRelay_regions (k : Nat) (x : RelayStream) : (d.setRelay k x).regions = d.regions := rfl
@[simp] theorem Dev.setRelay_spares (k : Nat) (x : RelayStream) : (d.setRelay k x).spares = d.spares := rfl
@[simp] theorem Dev.setRelay_dma (k : Nat) (x : RelayStream) : (d.setRelay k x).dma = d.dma := rfl
@[simp] theorem Dev.setRelay_blocks (k : Nat) (x : RelayStream) : (d.setRelay k x).blocks = d.blocks := rfl
@[simp] theorem Dev.setRelay_drives (k : Nat) (x : RelayStream) : (d.setRelay k x).drives = d.drives := rfl
@[simp] theorem Dev.setRelay_relays (k : Nat) (x : RelayStream) : (d.setRelay k x).relays = Tbl.put k x d.relays := rfl
@[simp] theorem Dev.setRelay_feeds (k : Nat) (x : RelayStream) : (d.setRelay k x).feeds = d.feeds := rfl
@[simp] theorem Dev.setRelay_layers (k : Nat) (x : RelayStream) : (d.setRelay k x).layers = d.layers := rfl
@[simp] theorem Dev.setRelay_raster (k : Nat) (x : RelayStream) : (d.setRelay k x).raster = d.raster := rfl
@[simp] theorem Dev.setRelay_tps (k : Nat) (x : RelayStream) : (d.setRelay k x).tps = d.tps := rfl
@[simp] theorem Dev.setRelay_markers (k : Nat) (x : RelayStream) : (d.setRelay k x).markers = d.markers := rfl
@[simp] theorem Dev.setRelay_mc (k : Nat) (x : RelayStream) : (d.setRelay k x).mc = d.mc := rfl
@[simp] theorem Dev.setRelay_pwr (k : Nat) (x : RelayStream) : (d.setRelay k x).pwr = d.pwr := rfl
@[simp] theorem Dev.setRelay_jtag (k : Nat) (x : RelayStream) : (d.setRelay k x).jtag = d.jtag := rfl
@[simp] theorem Dev.setRelay_free (k : Nat) (x : RelayStream) : (d.setRelay k x).free = d.free := rfl
@[simp] theorem Dev.setRelay_out (k : Nat) (x : RelayStream) : (d.setRelay k x).out = d.out := rfl

/-! `Dev.setEngine` -/

@[simp] theorem Dev.setEngine_clk (k : Nat) (x : Engine) : (d.setEngine k x).clk = d.clk := rfl
@[simp] theorem Dev.setEngine_pcie (k : Nat) (x : Engine) : (d.setEngine k x).pcie = d.pcie := rfl
@[simp] theorem Dev.setEngine_fw (k : Nat) (x : Engine) : (d.setEngine k x).fw = d.fw := rfl
@[simp] theorem Dev.setEngine_regs (k : Nat) (x : Engine) : (d.setEngine k x).regs = d.regs := rfl
@[simp] theorem Dev.setEngine_rcNow (k : Nat) (x : Engine) : (d.setEngine k x).rcNow = d.rcNow := rfl
@[simp] theorem Dev.setEngine_shadowHost (k : Nat) (x : Engine) : (d.setEngine k x).shadowHost = d.shadowHost := rfl
@[simp] theorem Dev.setEngine_shadowSeq (k : Nat) (x : Engine) : (d.setEngine k x).shadowSeq = d.shadowSeq := rfl
@[simp] theorem Dev.setEngine_shadowMc (k : Nat) (x : Engine) : (d.setEngine k x).shadowMc = d.shadowMc := rfl
@[simp] theorem Dev.setEngine_rings (k : Nat) (x : Engine) : (d.setEngine k x).rings = d.rings := rfl
@[simp] theorem Dev.setEngine_rrRing (k : Nat) (x : Engine) : (d.setEngine k x).rrRing = d.rrRing := rfl
@[simp] theorem Dev.setEngine_rrUsed (k : Nat) (x : Engine) : (d.setEngine k x).rrUsed = d.rrUsed := rfl
@[simp] theorem Dev.setEngine_ev (k : Nat) (x : Engine) : (d.setEngine k x).ev = d.ev := rfl
@[simp] theorem Dev.setEngine_glob (k : Nat) (x : Engine) : (d.setEngine k x).glob = d.glob := rfl
@[simp] theorem Dev.setEngine_pads (k : Nat) (x : Engine) : (d.setEngine k x).pads = d.pads := rfl
@[simp] theorem Dev.setEngine_streams (k : Nat) (x : Engine) : (d.setEngine k x).streams = d.streams := rfl
@[simp] theorem Dev.setEngine_jesd (k : Nat) (x : Engine) : (d.setEngine k x).jesd = d.jesd := rfl
@[simp] theorem Dev.setEngine_ain (k : Nat) (x : Engine) : (d.setEngine k x).ain = d.ain := rfl
@[simp] theorem Dev.setEngine_chans (k : Nat) (x : Engine) : (d.setEngine k x).chans = d.chans := rfl
@[simp] theorem Dev.setEngine_engines (k : Nat) (x : Engine) : (d.setEngine k x).engines = Tbl.put k x d.engines := rfl
@[simp] theorem Dev.setEngine_pairAt (k : Nat) (x : Engine) : (d.setEngine k x).pairAt = d.pairAt := rfl
@[simp] theorem Dev.setEngine_le (k : Nat) (x : Engine) : (d.setEngine k x).le = d.le := rfl
@[simp] theorem Dev.setEngine_masks (k : Nat) (x : Engine) : (d.setEngine k x).masks = d.masks := rfl
@[simp] theorem Dev.setEngine_combs (k : Nat) (x : Engine) : (d.setEngine k x).combs = d.combs := rfl
@[simp] theorem Dev.setEngine_combTold (k : Nat) (x : Engine) : (d.setEngine k x).combTold = d.combTold := rfl
@[simp] theorem Dev.setEngine_tos (k : Nat) (x : Engine) : (d.setEngine k x).tos = d.tos := rfl
@[simp] theorem Dev.setEngine_remote (k : Nat) (x : Engine) : (d.setEngine k x).remote = d.remote := rfl
@[simp] theorem Dev.setEngine_aps (k : Nat) (x : Engine) : (d.setEngine k x).aps = d.aps := rfl
@[simp] theorem Dev.setEngine_cmc (k : Nat) (x : Engine) : (d.setEngine k x).cmc = d.cmc := rfl
@[simp] theorem Dev.setEngine_regions (k : Nat) (x : Engine) : (d.setEngine k x).regions = d.regions := rfl
@[simp] theorem Dev.setEngine_spares (k : Nat) (x : Engine) : (d.setEngine k x).spares = d.spares := rfl
@[simp] theorem Dev.setEngine_dma (k : Nat) (x : Engine) : (d.setEngine k x).dma = d.dma := rfl
@[simp] theorem Dev.setEngine_blocks (k : Nat) (x : Engine) : (d.setEngine k x).blocks = d.blocks := rfl
@[simp] theorem Dev.setEngine_drives (k : Nat) (x : Engine) : (d.setEngine k x).drives = d.drives := rfl
@[simp] theorem Dev.setEngine_relays (k : Nat) (x : Engine) : (d.setEngine k x).relays = d.relays := rfl
@[simp] theorem Dev.setEngine_feeds (k : Nat) (x : Engine) : (d.setEngine k x).feeds = d.feeds := rfl
@[simp] theorem Dev.setEngine_layers (k : Nat) (x : Engine) : (d.setEngine k x).layers = d.layers := rfl
@[simp] theorem Dev.setEngine_raster (k : Nat) (x : Engine) : (d.setEngine k x).raster = d.raster := rfl
@[simp] theorem Dev.setEngine_tps (k : Nat) (x : Engine) : (d.setEngine k x).tps = d.tps := rfl
@[simp] theorem Dev.setEngine_markers (k : Nat) (x : Engine) : (d.setEngine k x).markers = d.markers := rfl
@[simp] theorem Dev.setEngine_mc (k : Nat) (x : Engine) : (d.setEngine k x).mc = d.mc := rfl
@[simp] theorem Dev.setEngine_pwr (k : Nat) (x : Engine) : (d.setEngine k x).pwr = d.pwr := rfl
@[simp] theorem Dev.setEngine_jtag (k : Nat) (x : Engine) : (d.setEngine k x).jtag = d.jtag := rfl
@[simp] theorem Dev.setEngine_free (k : Nat) (x : Engine) : (d.setEngine k x).free = d.free := rfl
@[simp] theorem Dev.setEngine_out (k : Nat) (x : Engine) : (d.setEngine k x).out = d.out := rfl

/-! `Dev.setComb` -/

@[simp] theorem Dev.setComb_clk (k : Nat) (x : Combiner) : (d.setComb k x).clk = d.clk := rfl
@[simp] theorem Dev.setComb_pcie (k : Nat) (x : Combiner) : (d.setComb k x).pcie = d.pcie := rfl
@[simp] theorem Dev.setComb_fw (k : Nat) (x : Combiner) : (d.setComb k x).fw = d.fw := rfl
@[simp] theorem Dev.setComb_regs (k : Nat) (x : Combiner) : (d.setComb k x).regs = d.regs := rfl
@[simp] theorem Dev.setComb_rcNow (k : Nat) (x : Combiner) : (d.setComb k x).rcNow = d.rcNow := rfl
@[simp] theorem Dev.setComb_shadowHost (k : Nat) (x : Combiner) : (d.setComb k x).shadowHost = d.shadowHost := rfl
@[simp] theorem Dev.setComb_shadowSeq (k : Nat) (x : Combiner) : (d.setComb k x).shadowSeq = d.shadowSeq := rfl
@[simp] theorem Dev.setComb_shadowMc (k : Nat) (x : Combiner) : (d.setComb k x).shadowMc = d.shadowMc := rfl
@[simp] theorem Dev.setComb_rings (k : Nat) (x : Combiner) : (d.setComb k x).rings = d.rings := rfl
@[simp] theorem Dev.setComb_rrRing (k : Nat) (x : Combiner) : (d.setComb k x).rrRing = d.rrRing := rfl
@[simp] theorem Dev.setComb_rrUsed (k : Nat) (x : Combiner) : (d.setComb k x).rrUsed = d.rrUsed := rfl
@[simp] theorem Dev.setComb_ev (k : Nat) (x : Combiner) : (d.setComb k x).ev = d.ev := rfl
@[simp] theorem Dev.setComb_glob (k : Nat) (x : Combiner) : (d.setComb k x).glob = d.glob := rfl
@[simp] theorem Dev.setComb_pads (k : Nat) (x : Combiner) : (d.setComb k x).pads = d.pads := rfl
@[simp] theorem Dev.setComb_streams (k : Nat) (x : Combiner) : (d.setComb k x).streams = d.streams := rfl
@[simp] theorem Dev.setComb_jesd (k : Nat) (x : Combiner) : (d.setComb k x).jesd = d.jesd := rfl
@[simp] theorem Dev.setComb_ain (k : Nat) (x : Combiner) : (d.setComb k x).ain = d.ain := rfl
@[simp] theorem Dev.setComb_chans (k : Nat) (x : Combiner) : (d.setComb k x).chans = d.chans := rfl
@[simp] theorem Dev.setComb_engines (k : Nat) (x : Combiner) : (d.setComb k x).engines = d.engines := rfl
@[simp] theorem Dev.setComb_pairAt (k : Nat) (x : Combiner) : (d.setComb k x).pairAt = d.pairAt := rfl
@[simp] theorem Dev.setComb_le (k : Nat) (x : Combiner) : (d.setComb k x).le = d.le := rfl
@[simp] theorem Dev.setComb_masks (k : Nat) (x : Combiner) : (d.setComb k x).masks = d.masks := rfl
@[simp] theorem Dev.setComb_combs (k : Nat) (x : Combiner) : (d.setComb k x).combs = Tbl.put k x d.combs := rfl
@[simp] theorem Dev.setComb_combTold (k : Nat) (x : Combiner) : (d.setComb k x).combTold = d.combTold := rfl
@[simp] theorem Dev.setComb_tos (k : Nat) (x : Combiner) : (d.setComb k x).tos = d.tos := rfl
@[simp] theorem Dev.setComb_remote (k : Nat) (x : Combiner) : (d.setComb k x).remote = d.remote := rfl
@[simp] theorem Dev.setComb_aps (k : Nat) (x : Combiner) : (d.setComb k x).aps = d.aps := rfl
@[simp] theorem Dev.setComb_cmc (k : Nat) (x : Combiner) : (d.setComb k x).cmc = d.cmc := rfl
@[simp] theorem Dev.setComb_regions (k : Nat) (x : Combiner) : (d.setComb k x).regions = d.regions := rfl
@[simp] theorem Dev.setComb_spares (k : Nat) (x : Combiner) : (d.setComb k x).spares = d.spares := rfl
@[simp] theorem Dev.setComb_dma (k : Nat) (x : Combiner) : (d.setComb k x).dma = d.dma := rfl
@[simp] theorem Dev.setComb_blocks (k : Nat) (x : Combiner) : (d.setComb k x).blocks = d.blocks := rfl
@[simp] theorem Dev.setComb_drives (k : Nat) (x : Combiner) : (d.setComb k x).drives = d.drives := rfl
@[simp] theorem Dev.setComb_relays (k : Nat) (x : Combiner) : (d.setComb k x).relays = d.relays := rfl
@[simp] theorem Dev.setComb_feeds (k : Nat) (x : Combiner) : (d.setComb k x).feeds = d.feeds := rfl
@[simp] theorem Dev.setComb_layers (k : Nat) (x : Combiner) : (d.setComb k x).layers = d.layers := rfl
@[simp] theorem Dev.setComb_raster (k : Nat) (x : Combiner) : (d.setComb k x).raster = d.raster := rfl
@[simp] theorem Dev.setComb_tps (k : Nat) (x : Combiner) : (d.setComb k x).tps = d.tps := rfl
@[simp] theorem Dev.setComb_markers (k : Nat) (x : Combiner) : (d.setComb k x).markers = d.markers := rfl
@[simp] theorem Dev.setComb_mc (k : Nat) (x : Combiner) : (d.setComb k x).mc = d.mc := rfl
@[simp] theorem Dev.setComb_pwr (k : Nat) (x : Combiner) : (d.setComb k x).pwr = d.pwr := rfl
@[simp] theorem Dev.setComb_jtag (k : Nat) (x : Combiner) : (d.setComb k x).jtag = d.jtag := rfl
@[simp] theorem Dev.setComb_free (k : Nat) (x : Combiner) : (d.setComb k x).free = d.free := rfl
@[simp] theorem Dev.setComb_out (k : Nat) (x : Combiner) : (d.setComb k x).out = d.out := rfl

/-! `Dev.setTo` -/

@[simp] theorem Dev.setTo_clk (n : Nat) (x : TrigOut) : (d.setTo n x).clk = d.clk := rfl
@[simp] theorem Dev.setTo_pcie (n : Nat) (x : TrigOut) : (d.setTo n x).pcie = d.pcie := rfl
@[simp] theorem Dev.setTo_fw (n : Nat) (x : TrigOut) : (d.setTo n x).fw = d.fw := rfl
@[simp] theorem Dev.setTo_regs (n : Nat) (x : TrigOut) : (d.setTo n x).regs = d.regs := rfl
@[simp] theorem Dev.setTo_rcNow (n : Nat) (x : TrigOut) : (d.setTo n x).rcNow = d.rcNow := rfl
@[simp] theorem Dev.setTo_shadowHost (n : Nat) (x : TrigOut) : (d.setTo n x).shadowHost = d.shadowHost := rfl
@[simp] theorem Dev.setTo_shadowSeq (n : Nat) (x : TrigOut) : (d.setTo n x).shadowSeq = d.shadowSeq := rfl
@[simp] theorem Dev.setTo_shadowMc (n : Nat) (x : TrigOut) : (d.setTo n x).shadowMc = d.shadowMc := rfl
@[simp] theorem Dev.setTo_rings (n : Nat) (x : TrigOut) : (d.setTo n x).rings = d.rings := rfl
@[simp] theorem Dev.setTo_rrRing (n : Nat) (x : TrigOut) : (d.setTo n x).rrRing = d.rrRing := rfl
@[simp] theorem Dev.setTo_rrUsed (n : Nat) (x : TrigOut) : (d.setTo n x).rrUsed = d.rrUsed := rfl
@[simp] theorem Dev.setTo_ev (n : Nat) (x : TrigOut) : (d.setTo n x).ev = d.ev := rfl
@[simp] theorem Dev.setTo_glob (n : Nat) (x : TrigOut) : (d.setTo n x).glob = d.glob := rfl
@[simp] theorem Dev.setTo_pads (n : Nat) (x : TrigOut) : (d.setTo n x).pads = d.pads := rfl
@[simp] theorem Dev.setTo_streams (n : Nat) (x : TrigOut) : (d.setTo n x).streams = d.streams := rfl
@[simp] theorem Dev.setTo_jesd (n : Nat) (x : TrigOut) : (d.setTo n x).jesd = d.jesd := rfl
@[simp] theorem Dev.setTo_ain (n : Nat) (x : TrigOut) : (d.setTo n x).ain = d.ain := rfl
@[simp] theorem Dev.setTo_chans (n : Nat) (x : TrigOut) : (d.setTo n x).chans = d.chans := rfl
@[simp] theorem Dev.setTo_engines (n : Nat) (x : TrigOut) : (d.setTo n x).engines = d.engines := rfl
@[simp] theorem Dev.setTo_pairAt (n : Nat) (x : TrigOut) : (d.setTo n x).pairAt = d.pairAt := rfl
@[simp] theorem Dev.setTo_le (n : Nat) (x : TrigOut) : (d.setTo n x).le = d.le := rfl
@[simp] theorem Dev.setTo_masks (n : Nat) (x : TrigOut) : (d.setTo n x).masks = d.masks := rfl
@[simp] theorem Dev.setTo_combs (n : Nat) (x : TrigOut) : (d.setTo n x).combs = d.combs := rfl
@[simp] theorem Dev.setTo_combTold (n : Nat) (x : TrigOut) : (d.setTo n x).combTold = d.combTold := rfl
@[simp] theorem Dev.setTo_tos (n : Nat) (x : TrigOut) : (d.setTo n x).tos = Tbl.put n x d.tos := rfl
@[simp] theorem Dev.setTo_remote (n : Nat) (x : TrigOut) : (d.setTo n x).remote = d.remote := rfl
@[simp] theorem Dev.setTo_aps (n : Nat) (x : TrigOut) : (d.setTo n x).aps = d.aps := rfl
@[simp] theorem Dev.setTo_cmc (n : Nat) (x : TrigOut) : (d.setTo n x).cmc = d.cmc := rfl
@[simp] theorem Dev.setTo_regions (n : Nat) (x : TrigOut) : (d.setTo n x).regions = d.regions := rfl
@[simp] theorem Dev.setTo_spares (n : Nat) (x : TrigOut) : (d.setTo n x).spares = d.spares := rfl
@[simp] theorem Dev.setTo_dma (n : Nat) (x : TrigOut) : (d.setTo n x).dma = d.dma := rfl
@[simp] theorem Dev.setTo_blocks (n : Nat) (x : TrigOut) : (d.setTo n x).blocks = d.blocks := rfl
@[simp] theorem Dev.setTo_drives (n : Nat) (x : TrigOut) : (d.setTo n x).drives = d.drives := rfl
@[simp] theorem Dev.setTo_relays (n : Nat) (x : TrigOut) : (d.setTo n x).relays = d.relays := rfl
@[simp] theorem Dev.setTo_feeds (n : Nat) (x : TrigOut) : (d.setTo n x).feeds = d.feeds := rfl
@[simp] theorem Dev.setTo_layers (n : Nat) (x : TrigOut) : (d.setTo n x).layers = d.layers := rfl
@[simp] theorem Dev.setTo_raster (n : Nat) (x : TrigOut) : (d.setTo n x).raster = d.raster := rfl
@[simp] theorem Dev.setTo_tps (n : Nat) (x : TrigOut) : (d.setTo n x).tps = d.tps := rfl
@[simp] theorem Dev.setTo_markers (n : Nat) (x : TrigOut) : (d.setTo n x).markers = d.markers := rfl
@[simp] theorem Dev.setTo_mc (n : Nat) (x : TrigOut) : (d.setTo n x).mc = d.mc := rfl
@[simp] theorem Dev.setTo_pwr (n : Nat) (x : TrigOut) : (d.setTo n x).pwr = d.pwr := rfl
@[simp] theorem Dev.setTo_jtag (n : Nat) (x : TrigOut) : (d.setTo n x).jtag = d.jtag := rfl
@[simp] theorem Dev.setTo_free (n : Nat) (x : TrigOut) : (d.setTo n x).free = d.free := rfl
@[simp] theorem Dev.setTo_out (n : Nat) (x : TrigOut) : (d.setTo n x).out = d.out := rfl

/-! `Dev.setMask` -/

@[simp] theorem Dev.setMask_clk (u : Nat) (x : MaskUnit) : (d.setMask u x).clk = d.clk := rfl
@[simp] theorem Dev.setMask_pcie (u : Nat) (x : MaskUnit) : (d.setMask u x).pcie = d.pcie := rfl
@[simp] theorem Dev.setMask_fw (u : Nat) (x : MaskUnit) : (d.setMask u x).fw = d.fw := rfl
@[simp] theorem Dev.setMask_regs (u : Nat) (x : MaskUnit) : (d.setMask u x).regs = d.regs := rfl
@[simp] theorem Dev.setMask_rcNow (u : Nat) (x : MaskUnit) : (d.setMask u x).rcNow = d.rcNow := rfl
@[simp] theorem Dev.setMask_shadowHost (u : Nat) (x : MaskUnit) : (d.setMask u x).shadowHost = d.shadowHost := rfl
@[simp] theorem Dev.setMask_shadowSeq (u : Nat) (x : MaskUnit) : (d.setMask u x).shadowSeq = d.shadowSeq := rfl
@[simp] theorem Dev.setMask_shadowMc (u : Nat) (x : MaskUnit) : (d.setMask u x).shadowMc = d.shadowMc := rfl
@[simp] theorem Dev.setMask_rings (u : Nat) (x : MaskUnit) : (d.setMask u x).rings = d.rings := rfl
@[simp] theorem Dev.setMask_rrRing (u : Nat) (x : MaskUnit) : (d.setMask u x).rrRing = d.rrRing := rfl
@[simp] theorem Dev.setMask_rrUsed (u : Nat) (x : MaskUnit) : (d.setMask u x).rrUsed = d.rrUsed := rfl
@[simp] theorem Dev.setMask_ev (u : Nat) (x : MaskUnit) : (d.setMask u x).ev = d.ev := rfl
@[simp] theorem Dev.setMask_glob (u : Nat) (x : MaskUnit) : (d.setMask u x).glob = d.glob := rfl
@[simp] theorem Dev.setMask_pads (u : Nat) (x : MaskUnit) : (d.setMask u x).pads = d.pads := rfl
@[simp] theorem Dev.setMask_streams (u : Nat) (x : MaskUnit) : (d.setMask u x).streams = d.streams := rfl
@[simp] theorem Dev.setMask_jesd (u : Nat) (x : MaskUnit) : (d.setMask u x).jesd = d.jesd := rfl
@[simp] theorem Dev.setMask_ain (u : Nat) (x : MaskUnit) : (d.setMask u x).ain = d.ain := rfl
@[simp] theorem Dev.setMask_chans (u : Nat) (x : MaskUnit) : (d.setMask u x).chans = d.chans := rfl
@[simp] theorem Dev.setMask_engines (u : Nat) (x : MaskUnit) : (d.setMask u x).engines = d.engines := rfl
@[simp] theorem Dev.setMask_pairAt (u : Nat) (x : MaskUnit) : (d.setMask u x).pairAt = d.pairAt := rfl
@[simp] theorem Dev.setMask_le (u : Nat) (x : MaskUnit) : (d.setMask u x).le = d.le := rfl
@[simp] theorem Dev.setMask_masks (u : Nat) (x : MaskUnit) : (d.setMask u x).masks = Tbl.put u x d.masks := rfl
@[simp] theorem Dev.setMask_combs (u : Nat) (x : MaskUnit) : (d.setMask u x).combs = d.combs := rfl
@[simp] theorem Dev.setMask_combTold (u : Nat) (x : MaskUnit) : (d.setMask u x).combTold = d.combTold := rfl
@[simp] theorem Dev.setMask_tos (u : Nat) (x : MaskUnit) : (d.setMask u x).tos = d.tos := rfl
@[simp] theorem Dev.setMask_remote (u : Nat) (x : MaskUnit) : (d.setMask u x).remote = d.remote := rfl
@[simp] theorem Dev.setMask_aps (u : Nat) (x : MaskUnit) : (d.setMask u x).aps = d.aps := rfl
@[simp] theorem Dev.setMask_cmc (u : Nat) (x : MaskUnit) : (d.setMask u x).cmc = d.cmc := rfl
@[simp] theorem Dev.setMask_regions (u : Nat) (x : MaskUnit) : (d.setMask u x).regions = d.regions := rfl
@[simp] theorem Dev.setMask_spares (u : Nat) (x : MaskUnit) : (d.setMask u x).spares = d.spares := rfl
@[simp] theorem Dev.setMask_dma (u : Nat) (x : MaskUnit) : (d.setMask u x).dma = d.dma := rfl
@[simp] theorem Dev.setMask_blocks (u : Nat) (x : MaskUnit) : (d.setMask u x).blocks = d.blocks := rfl
@[simp] theorem Dev.setMask_drives (u : Nat) (x : MaskUnit) : (d.setMask u x).drives = d.drives := rfl
@[simp] theorem Dev.setMask_relays (u : Nat) (x : MaskUnit) : (d.setMask u x).relays = d.relays := rfl
@[simp] theorem Dev.setMask_feeds (u : Nat) (x : MaskUnit) : (d.setMask u x).feeds = d.feeds := rfl
@[simp] theorem Dev.setMask_layers (u : Nat) (x : MaskUnit) : (d.setMask u x).layers = d.layers := rfl
@[simp] theorem Dev.setMask_raster (u : Nat) (x : MaskUnit) : (d.setMask u x).raster = d.raster := rfl
@[simp] theorem Dev.setMask_tps (u : Nat) (x : MaskUnit) : (d.setMask u x).tps = d.tps := rfl
@[simp] theorem Dev.setMask_markers (u : Nat) (x : MaskUnit) : (d.setMask u x).markers = d.markers := rfl
@[simp] theorem Dev.setMask_mc (u : Nat) (x : MaskUnit) : (d.setMask u x).mc = d.mc := rfl
@[simp] theorem Dev.setMask_pwr (u : Nat) (x : MaskUnit) : (d.setMask u x).pwr = d.pwr := rfl
@[simp] theorem Dev.setMask_jtag (u : Nat) (x : MaskUnit) : (d.setMask u x).jtag = d.jtag := rfl
@[simp] theorem Dev.setMask_free (u : Nat) (x : MaskUnit) : (d.setMask u x).free = d.free := rfl
@[simp] theorem Dev.setMask_out (u : Nat) (x : MaskUnit) : (d.setMask u x).out = d.out := rfl

/-! `Dev.setLe` -/

@[simp] theorem Dev.setLe_clk (c : Nat) (x : LeUnit) : (d.setLe c x).clk = d.clk := rfl
@[simp] theorem Dev.setLe_pcie (c : Nat) (x : LeUnit) : (d.setLe c x).pcie = d.pcie := rfl
@[simp] theorem Dev.setLe_fw (c : Nat) (x : LeUnit) : (d.setLe c x).fw = d.fw := rfl
@[simp] theorem Dev.setLe_regs (c : Nat) (x : LeUnit) : (d.setLe c x).regs = d.regs := rfl
@[simp] theorem Dev.setLe_rcNow (c : Nat) (x : LeUnit) : (d.setLe c x).rcNow = d.rcNow := rfl
@[simp] theorem Dev.setLe_shadowHost (c : Nat) (x : LeUnit) : (d.setLe c x).shadowHost = d.shadowHost := rfl
@[simp] theorem Dev.setLe_shadowSeq (c : Nat) (x : LeUnit) : (d.setLe c x).shadowSeq = d.shadowSeq := rfl
@[simp] theorem Dev.setLe_shadowMc (c : Nat) (x : LeUnit) : (d.setLe c x).shadowMc = d.shadowMc := rfl
@[simp] theorem Dev.setLe_rings (c : Nat) (x : LeUnit) : (d.setLe c x).rings = d.rings := rfl
@[simp] theorem Dev.setLe_rrRing (c : Nat) (x : LeUnit) : (d.setLe c x).rrRing = d.rrRing := rfl
@[simp] theorem Dev.setLe_rrUsed (c : Nat) (x : LeUnit) : (d.setLe c x).rrUsed = d.rrUsed := rfl
@[simp] theorem Dev.setLe_ev (c : Nat) (x : LeUnit) : (d.setLe c x).ev = d.ev := rfl
@[simp] theorem Dev.setLe_glob (c : Nat) (x : LeUnit) : (d.setLe c x).glob = d.glob := rfl
@[simp] theorem Dev.setLe_pads (c : Nat) (x : LeUnit) : (d.setLe c x).pads = d.pads := rfl
@[simp] theorem Dev.setLe_streams (c : Nat) (x : LeUnit) : (d.setLe c x).streams = d.streams := rfl
@[simp] theorem Dev.setLe_jesd (c : Nat) (x : LeUnit) : (d.setLe c x).jesd = d.jesd := rfl
@[simp] theorem Dev.setLe_ain (c : Nat) (x : LeUnit) : (d.setLe c x).ain = d.ain := rfl
@[simp] theorem Dev.setLe_chans (c : Nat) (x : LeUnit) : (d.setLe c x).chans = d.chans := rfl
@[simp] theorem Dev.setLe_engines (c : Nat) (x : LeUnit) : (d.setLe c x).engines = d.engines := rfl
@[simp] theorem Dev.setLe_pairAt (c : Nat) (x : LeUnit) : (d.setLe c x).pairAt = d.pairAt := rfl
@[simp] theorem Dev.setLe_le (c : Nat) (x : LeUnit) : (d.setLe c x).le = Tbl.put c x d.le := rfl
@[simp] theorem Dev.setLe_masks (c : Nat) (x : LeUnit) : (d.setLe c x).masks = d.masks := rfl
@[simp] theorem Dev.setLe_combs (c : Nat) (x : LeUnit) : (d.setLe c x).combs = d.combs := rfl
@[simp] theorem Dev.setLe_combTold (c : Nat) (x : LeUnit) : (d.setLe c x).combTold = d.combTold := rfl
@[simp] theorem Dev.setLe_tos (c : Nat) (x : LeUnit) : (d.setLe c x).tos = d.tos := rfl
@[simp] theorem Dev.setLe_remote (c : Nat) (x : LeUnit) : (d.setLe c x).remote = d.remote := rfl
@[simp] theorem Dev.setLe_aps (c : Nat) (x : LeUnit) : (d.setLe c x).aps = d.aps := rfl
@[simp] theorem Dev.setLe_cmc (c : Nat) (x : LeUnit) : (d.setLe c x).cmc = d.cmc := rfl
@[simp] theorem Dev.setLe_regions (c : Nat) (x : LeUnit) : (d.setLe c x).regions = d.regions := rfl
@[simp] theorem Dev.setLe_spares (c : Nat) (x : LeUnit) : (d.setLe c x).spares = d.spares := rfl
@[simp] theorem Dev.setLe_dma (c : Nat) (x : LeUnit) : (d.setLe c x).dma = d.dma := rfl
@[simp] theorem Dev.setLe_blocks (c : Nat) (x : LeUnit) : (d.setLe c x).blocks = d.blocks := rfl
@[simp] theorem Dev.setLe_drives (c : Nat) (x : LeUnit) : (d.setLe c x).drives = d.drives := rfl
@[simp] theorem Dev.setLe_relays (c : Nat) (x : LeUnit) : (d.setLe c x).relays = d.relays := rfl
@[simp] theorem Dev.setLe_feeds (c : Nat) (x : LeUnit) : (d.setLe c x).feeds = d.feeds := rfl
@[simp] theorem Dev.setLe_layers (c : Nat) (x : LeUnit) : (d.setLe c x).layers = d.layers := rfl
@[simp] theorem Dev.setLe_raster (c : Nat) (x : LeUnit) : (d.setLe c x).raster = d.raster := rfl
@[simp] theorem Dev.setLe_tps (c : Nat) (x : LeUnit) : (d.setLe c x).tps = d.tps := rfl
@[simp] theorem Dev.setLe_markers (c : Nat) (x : LeUnit) : (d.setLe c x).markers = d.markers := rfl
@[simp] theorem Dev.setLe_mc (c : Nat) (x : LeUnit) : (d.setLe c x).mc = d.mc := rfl
@[simp] theorem Dev.setLe_pwr (c : Nat) (x : LeUnit) : (d.setLe c x).pwr = d.pwr := rfl
@[simp] theorem Dev.setLe_jtag (c : Nat) (x : LeUnit) : (d.setLe c x).jtag = d.jtag := rfl
@[simp] theorem Dev.setLe_free (c : Nat) (x : LeUnit) : (d.setLe c x).free = d.free := rfl
@[simp] theorem Dev.setLe_out (c : Nat) (x : LeUnit) : (d.setLe c x).out = d.out := rfl

/-! `Dev.updMc` -/

@[simp] theorem Dev.updMc_clk (f : Mc → Mc) : (d.updMc f).clk = d.clk := rfl
@[simp] theorem Dev.updMc_pcie (f : Mc → Mc) : (d.updMc f).pcie = d.pcie := rfl
@[simp] theorem Dev.updMc_fw (f : Mc → Mc) : (d.updMc f).fw = d.fw := rfl
@[simp] theorem Dev.updMc_regs (f : Mc → Mc) : (d.updMc f).regs = d.regs := rfl
@[simp] theorem Dev.updMc_rcNow (f : Mc → Mc) : (d.updMc f).rcNow = d.rcNow := rfl
@[simp] theorem Dev.updMc_shadowHost (f : Mc → Mc) : (d.updMc f).shadowHost = d.shadowHost := rfl
@[simp] theorem Dev.updMc_shadowSeq (f : Mc → Mc) : (d.updMc f).shadowSeq = d.shadowSeq := rfl
@[simp] theorem Dev.updMc_shadowMc (f : Mc → Mc) : (d.updMc f).shadowMc = d.shadowMc := rfl
@[simp] theorem Dev.updMc_rings (f : Mc → Mc) : (d.updMc f).rings = d.rings := rfl
@[simp] theorem Dev.updMc_rrRing (f : Mc → Mc) : (d.updMc f).rrRing = d.rrRing := rfl
@[simp] theorem Dev.updMc_rrUsed (f : Mc → Mc) : (d.updMc f).rrUsed = d.rrUsed := rfl
@[simp] theorem Dev.updMc_ev (f : Mc → Mc) : (d.updMc f).ev = d.ev := rfl
@[simp] theorem Dev.updMc_glob (f : Mc → Mc) : (d.updMc f).glob = d.glob := rfl
@[simp] theorem Dev.updMc_pads (f : Mc → Mc) : (d.updMc f).pads = d.pads := rfl
@[simp] theorem Dev.updMc_streams (f : Mc → Mc) : (d.updMc f).streams = d.streams := rfl
@[simp] theorem Dev.updMc_jesd (f : Mc → Mc) : (d.updMc f).jesd = d.jesd := rfl
@[simp] theorem Dev.updMc_ain (f : Mc → Mc) : (d.updMc f).ain = d.ain := rfl
@[simp] theorem Dev.updMc_chans (f : Mc → Mc) : (d.updMc f).chans = d.chans := rfl
@[simp] theorem Dev.updMc_engines (f : Mc → Mc) : (d.updMc f).engines = d.engines := rfl
@[simp] theorem Dev.updMc_pairAt (f : Mc → Mc) : (d.updMc f).pairAt = d.pairAt := rfl
@[simp] theorem Dev.updMc_le (f : Mc → Mc) : (d.updMc f).le = d.le := rfl
@[simp] theorem Dev.updMc_masks (f : Mc → Mc) : (d.updMc f).masks = d.masks := rfl
@[simp] theorem Dev.updMc_combs (f : Mc → Mc) : (d.updMc f).combs = d.combs := rfl
@[simp] theorem Dev.updMc_combTold (f : Mc → Mc) : (d.updMc f).combTold = d.combTold := rfl
@[simp] theorem Dev.updMc_tos (f : Mc → Mc) : (d.updMc f).tos = d.tos := rfl
@[simp] theorem Dev.updMc_remote (f : Mc → Mc) : (d.updMc f).remote = d.remote := rfl
@[simp] theorem Dev.updMc_aps (f : Mc → Mc) : (d.updMc f).aps = d.aps := rfl
@[simp] theorem Dev.updMc_cmc (f : Mc → Mc) : (d.updMc f).cmc = d.cmc := rfl
@[simp] theorem Dev.updMc_regions (f : Mc → Mc) : (d.updMc f).regions = d.regions := rfl
@[simp] theorem Dev.updMc_spares (f : Mc → Mc) : (d.updMc f).spares = d.spares := rfl
@[simp] theorem Dev.updMc_dma (f : Mc → Mc) : (d.updMc f).dma = d.dma := rfl
@[simp] theorem Dev.updMc_blocks (f : Mc → Mc) : (d.updMc f).blocks = d.blocks := rfl
@[simp] theorem Dev.updMc_drives (f : Mc → Mc) : (d.updMc f).drives = d.drives := rfl
@[simp] theorem Dev.updMc_relays (f : Mc → Mc) : (d.updMc f).relays = d.relays := rfl
@[simp] theorem Dev.updMc_feeds (f : Mc → Mc) : (d.updMc f).feeds = d.feeds := rfl
@[simp] theorem Dev.updMc_layers (f : Mc → Mc) : (d.updMc f).layers = d.layers := rfl
@[simp] theorem Dev.updMc_raster (f : Mc → Mc) : (d.updMc f).raster = d.raster := rfl
@[simp] theorem Dev.updMc_tps (f : Mc → Mc) : (d.updMc f).tps = d.tps := rfl
@[simp] theorem Dev.updMc_markers (f : Mc → Mc) : (d.updMc f).markers = d.markers := rfl
@[simp] theorem Dev.updMc_mc (f : Mc → Mc) : (d.updMc f).mc = f d.mc := rfl
@[simp] theorem Dev.updMc_pwr (f : Mc → Mc) : (d.updMc f).pwr = d.pwr := rfl
@[simp] theorem Dev.updMc_jtag (f : Mc → Mc) : (d.updMc f).jtag = d.jtag := rfl
@[simp] theorem Dev.updMc_free (f : Mc → Mc) : (d.updMc f).free = d.free := rfl
@[simp] theorem Dev.updMc_out (f : Mc → Mc) : (d.updMc f).out = d.out := rfl

/-! `Dev.updPwr` -/

@[simp] theorem Dev.updPwr_clk (f : Power → Power) : (d.updPwr f).clk = d.clk := rfl
@[simp] theorem Dev.updPwr_pcie (f : Power → Power) : (d.updPwr f).pcie = d.pcie := rfl
@[simp] theorem Dev.updPwr_fw (f : Power → Power) : (d.updPwr f).fw = d.fw := rfl
@[simp] theorem Dev.updPwr_regs (f : Power → Power) : (d.updPwr f).regs = d.regs := rfl
@[simp] theorem Dev.updPwr_rcNow (f : Power → Power) : (d.updPwr f).rcNow = d.rcNow := rfl
@[simp] theorem Dev.updPwr_shadowHost (f : Power → Power) : (d.updPwr f).shadowHost = d.shadowHost := rfl
@[simp] theorem Dev.updPwr_shadowSeq (f : Power → Power) : (d.updPwr f).shadowSeq = d.shadowSeq := rfl
@[simp] theorem Dev.updPwr_shadowMc (f : Power → Power) : (d.updPwr f).shadowMc = d.shadowMc := rfl
@[simp] theorem Dev.updPwr_rings (f : Power → Power) : (d.updPwr f).rings = d.rings := rfl
@[simp] theorem Dev.updPwr_rrRing (f : Power → Power) : (d.updPwr f).rrRing = d.rrRing := rfl
@[simp] theorem Dev.updPwr_rrUsed (f : Power → Power) : (d.updPwr f).rrUsed = d.rrUsed := rfl
@[simp] theorem Dev.updPwr_ev (f : Power → Power) : (d.updPwr f).ev = d.ev := rfl
@[simp] theorem Dev.updPwr_glob (f : Power → Power) : (d.updPwr f).glob = d.glob := rfl
@[simp] theorem Dev.updPwr_pads (f : Power → Power) : (d.updPwr f).pads = d.pads := rfl
@[simp] theorem Dev.updPwr_streams (f : Power → Power) : (d.updPwr f).streams = d.streams := rfl
@[simp] theorem Dev.updPwr_jesd (f : Power → Power) : (d.updPwr f).jesd = d.jesd := rfl
@[simp] theorem Dev.updPwr_ain (f : Power → Power) : (d.updPwr f).ain = d.ain := rfl
@[simp] theorem Dev.updPwr_chans (f : Power → Power) : (d.updPwr f).chans = d.chans := rfl
@[simp] theorem Dev.updPwr_engines (f : Power → Power) : (d.updPwr f).engines = d.engines := rfl
@[simp] theorem Dev.updPwr_pairAt (f : Power → Power) : (d.updPwr f).pairAt = d.pairAt := rfl
@[simp] theorem Dev.updPwr_le (f : Power → Power) : (d.updPwr f).le = d.le := rfl
@[simp] theorem Dev.updPwr_masks (f : Power → Power) : (d.updPwr f).masks = d.masks := rfl
@[simp] theorem Dev.updPwr_combs (f : Power → Power) : (d.updPwr f).combs = d.combs := rfl
@[simp] theorem Dev.updPwr_combTold (f : Power → Power) : (d.updPwr f).combTold = d.combTold := rfl
@[simp] theorem Dev.updPwr_tos (f : Power → Power) : (d.updPwr f).tos = d.tos := rfl
@[simp] theorem Dev.updPwr_remote (f : Power → Power) : (d.updPwr f).remote = d.remote := rfl
@[simp] theorem Dev.updPwr_aps (f : Power → Power) : (d.updPwr f).aps = d.aps := rfl
@[simp] theorem Dev.updPwr_cmc (f : Power → Power) : (d.updPwr f).cmc = d.cmc := rfl
@[simp] theorem Dev.updPwr_regions (f : Power → Power) : (d.updPwr f).regions = d.regions := rfl
@[simp] theorem Dev.updPwr_spares (f : Power → Power) : (d.updPwr f).spares = d.spares := rfl
@[simp] theorem Dev.updPwr_dma (f : Power → Power) : (d.updPwr f).dma = d.dma := rfl
@[simp] theorem Dev.updPwr_blocks (f : Power → Power) : (d.updPwr f).blocks = d.blocks := rfl
@[simp] theorem Dev.updPwr_drives (f : Power → Power) : (d.updPwr f).drives = d.drives := rfl
@[simp] theorem Dev.updPwr_relays (f : Power → Power) : (d.updPwr f).relays = d.relays := rfl
@[simp] theorem Dev.updPwr_feeds (f : Power → Power) : (d.updPwr f).feeds = d.feeds := rfl
@[simp] theorem Dev.updPwr_layers (f : Power → Power) : (d.updPwr f).layers = d.layers := rfl
@[simp] theorem Dev.updPwr_raster (f : Power → Power) : (d.updPwr f).raster = d.raster := rfl
@[simp] theorem Dev.updPwr_tps (f : Power → Power) : (d.updPwr f).tps = d.tps := rfl
@[simp] theorem Dev.updPwr_markers (f : Power → Power) : (d.updPwr f).markers = d.markers := rfl
@[simp] theorem Dev.updPwr_mc (f : Power → Power) : (d.updPwr f).mc = d.mc := rfl
@[simp] theorem Dev.updPwr_pwr (f : Power → Power) : (d.updPwr f).pwr = f d.pwr := rfl
@[simp] theorem Dev.updPwr_jtag (f : Power → Power) : (d.updPwr f).jtag = d.jtag := rfl
@[simp] theorem Dev.updPwr_free (f : Power → Power) : (d.updPwr f).free = d.free := rfl
@[simp] theorem Dev.updPwr_out (f : Power → Power) : (d.updPwr f).out = d.out := rfl

/-! `Dev.updCmc` -/

@[simp] theorem Dev.updCmc_clk (f : Cmc → Cmc) : (d.updCmc f).clk = d.clk := rfl
@[simp] theorem Dev.updCmc_pcie (f : Cmc → Cmc) : (d.updCmc f).pcie = d.pcie := rfl
@[simp] theorem Dev.updCmc_fw (f : Cmc → Cmc) : (d.updCmc f).fw = d.fw := rfl
@[simp] theorem Dev.updCmc_regs (f : Cmc → Cmc) : (d.updCmc f).regs = d.regs := rfl
@[simp] theorem Dev.updCmc_rcNow (f : Cmc → Cmc) : (d.updCmc f).rcNow = d.rcNow := rfl
@[simp] theorem Dev.updCmc_shadowHost (f : Cmc → Cmc) : (d.updCmc f).shadowHost = d.shadowHost := rfl
@[simp] theorem Dev.updCmc_shadowSeq (f : Cmc → Cmc) : (d.updCmc f).shadowSeq = d.shadowSeq := rfl
@[simp] theorem Dev.updCmc_shadowMc (f : Cmc → Cmc) : (d.updCmc f).shadowMc = d.shadowMc := rfl
@[simp] theorem Dev.updCmc_rings (f : Cmc → Cmc) : (d.updCmc f).rings = d.rings := rfl
@[simp] theorem Dev.updCmc_rrRing (f : Cmc → Cmc) : (d.updCmc f).rrRing = d.rrRing := rfl
@[simp] theorem Dev.updCmc_rrUsed (f : Cmc → Cmc) : (d.updCmc f).rrUsed = d.rrUsed := rfl
@[simp] theorem Dev.updCmc_ev (f : Cmc → Cmc) : (d.updCmc f).ev = d.ev := rfl
@[simp] theorem Dev.updCmc_glob (f : Cmc → Cmc) : (d.updCmc f).glob = d.glob := rfl
@[simp] theorem Dev.updCmc_pads (f : Cmc → Cmc) : (d.updCmc f).pads = d.pads := rfl
@[simp] theorem Dev.updCmc_streams (f : Cmc → Cmc) : (d.updCmc f).streams = d.streams := rfl
@[simp] theorem Dev.updCmc_jesd (f : Cmc → Cmc) : (d.updCmc f).jesd = d.jesd := rfl
@[simp] theorem Dev.updCmc_ain (f : Cmc → Cmc) : (d.updCmc f).ain = d.ain := rfl
@[simp] theorem Dev.updCmc_chans (f : Cmc → Cmc) : (d.updCmc f).chans = d.chans := rfl
@[simp] theorem Dev.updCmc_engines (f : Cmc → Cmc) : (d.updCmc f).engines = d.engines := rfl
@[simp] theorem Dev.updCmc_pairAt (f : Cmc → Cmc) : (d.updCmc f).pairAt = d.pairAt := rfl
@[simp] theorem Dev.updCmc_le (f : Cmc → Cmc) : (d.updCmc f).le = d.le := rfl
@[simp] theorem Dev.updCmc_masks (f : Cmc → Cmc) : (d.updCmc f).masks = d.masks := rfl
@[simp] theorem Dev.updCmc_combs (f : Cmc → Cmc) : (d.updCmc f).combs = d.combs := rfl
@[simp] theorem Dev.updCmc_combTold (f : Cmc → Cmc) : (d.updCmc f).combTold = d.combTold := rfl
@[simp] theorem Dev.updCmc_tos (f : Cmc → Cmc) : (d.updCmc f).tos = d.tos := rfl
@[simp] theorem Dev.updCmc_remote (f : Cmc → Cmc) : (d.updCmc f).remote = d.remote := rfl
@[simp] theorem Dev.updCmc_aps (f : Cmc → Cmc) : (d.updCmc f).aps = d.aps := rfl
@[simp] theorem Dev.updCmc_cmc (f : Cmc → Cmc) : (d.updCmc f).cmc = f d.cmc := rfl
@[simp] theorem Dev.updCmc_regions (f : Cmc → Cmc) : (d.updCmc f).regions = d.regions := rfl
@[simp] theorem Dev.updCmc_spares (f : Cmc → Cmc) : (d.updCmc f).spares = d.spares := rfl
@[simp] theorem Dev.updCmc_dma (f : Cmc → Cmc) : (d.updCmc f).dma = d.dma := rfl
@[simp] theorem Dev.updCmc_blocks (f : Cmc → Cmc) : (d.updCmc f).blocks = d.blocks := rfl
@[simp] theorem Dev.updCmc_drives (f : Cmc → Cmc) : (d.updCmc f).drives = d.drives := rfl
@[simp] theorem Dev.updCmc_relays (f : Cmc → Cmc) : (d.updCmc f).relays = d.relays := rfl
@[simp] theorem Dev.updCmc_feeds (f : Cmc → Cmc) : (d.updCmc f).feeds = d.feeds := rfl
@[simp] theorem Dev.updCmc_layers (f : Cmc → Cmc) : (d.updCmc f).layers = d.layers := rfl
@[simp] theorem Dev.updCmc_raster (f : Cmc → Cmc) : (d.updCmc f).raster = d.raster := rfl
@[simp] theorem Dev.updCmc_tps (f : Cmc → Cmc) : (d.updCmc f).tps = d.tps := rfl
@[simp] theorem Dev.updCmc_markers (f : Cmc → Cmc) : (d.updCmc f).markers = d.markers := rfl
@[simp] theorem Dev.updCmc_mc (f : Cmc → Cmc) : (d.updCmc f).mc = d.mc := rfl
@[simp] theorem Dev.updCmc_pwr (f : Cmc → Cmc) : (d.updCmc f).pwr = d.pwr := rfl
@[simp] theorem Dev.updCmc_jtag (f : Cmc → Cmc) : (d.updCmc f).jtag = d.jtag := rfl
@[simp] theorem Dev.updCmc_free (f : Cmc → Cmc) : (d.updCmc f).free = d.free := rfl
@[simp] theorem Dev.updCmc_out (f : Cmc → Cmc) : (d.updCmc f).out = d.out := rfl

/-! `Dev.updGlob` -/

@[simp] theorem Dev.updGlob_clk (f : Globals → Globals) : (d.updGlob f).clk = d.clk := rfl
@[simp] theorem Dev.updGlob_pcie (f : Globals → Globals) : (d.updGlob f).pcie = d.pcie := rfl
@[simp] theorem Dev.updGlob_fw (f : Globals → Globals) : (d.updGlob f).fw = d.fw := rfl
@[simp] theorem Dev.updGlob_regs (f : Globals → Globals) : (d.updGlob f).regs = d.regs := rfl
@[simp] theorem Dev.updGlob_rcNow (f : Globals → Globals) : (d.updGlob f).rcNow = d.rcNow := rfl
@[simp] theorem Dev.updGlob_shadowHost (f : Globals → Globals) : (d.updGlob f).shadowHost = d.shadowHost := rfl
@[simp] theorem Dev.updGlob_shadowSeq (f : Globals → Globals) : (d.updGlob f).shadowSeq = d.shadowSeq := rfl
@[simp] theorem Dev.updGlob_shadowMc (f : Globals → Globals) : (d.updGlob f).shadowMc = d.shadowMc := rfl
@[simp] theorem Dev.updGlob_rings (f : Globals → Globals) : (d.updGlob f).rings = d.rings := rfl
@[simp] theorem Dev.updGlob_rrRing (f : Globals → Globals) : (d.updGlob f).rrRing = d.rrRing := rfl
@[simp] theorem Dev.updGlob_rrUsed (f : Globals → Globals) : (d.updGlob f).rrUsed = d.rrUsed := rfl
@[simp] theorem Dev.updGlob_ev (f : Globals → Globals) : (d.updGlob f).ev = d.ev := rfl
@[simp] theorem Dev.updGlob_glob (f : Globals → Globals) : (d.updGlob f).glob = f d.glob := rfl
@[simp] theorem Dev.updGlob_pads (f : Globals → Globals) : (d.updGlob f).pads = d.pads := rfl
@[simp] theorem Dev.updGlob_streams (f : Globals → Globals) : (d.updGlob f).streams = d.streams := rfl
@[simp] theorem Dev.updGlob_jesd (f : Globals → Globals) : (d.updGlob f).jesd = d.jesd := rfl
@[simp] theorem Dev.updGlob_ain (f : Globals → Globals) : (d.updGlob f).ain = d.ain := rfl
@[simp] theorem Dev.updGlob_chans (f : Globals → Globals) : (d.updGlob f).chans = d.chans := rfl
@[simp] theorem Dev.updGlob_engines (f : Globals → Globals) : (d.updGlob f).engines = d.engines := rfl
@[simp] theorem Dev.updGlob_pairAt (f : Globals → Globals) : (d.updGlob f).pairAt = d.pairAt := rfl
@[simp] theorem Dev.updGlob_le (f : Globals → Globals) : (d.updGlob f).le = d.le := rfl
@[simp] theorem Dev.updGlob_masks (f : Globals → Globals) : (d.updGlob f).masks = d.masks := rfl
@[simp] theorem Dev.updGlob_combs (f : Globals → Globals) : (d.updGlob f).combs = d.combs := rfl
@[simp] theorem Dev.updGlob_combTold (f : Globals → Globals) : (d.updGlob f).combTold = d.combTold := rfl
@[simp] theorem Dev.updGlob_tos (f : Globals → Globals) : (d.updGlob f).tos = d.tos := rfl
@[simp] theorem Dev.updGlob_remote (f : Globals → Globals) : (d.updGlob f).remote = d.remote := rfl
@[simp] theorem Dev.updGlob_aps (f : Globals → Globals) : (d.updGlob f).aps = d.aps := rfl
@[simp] theorem Dev.updGlob_cmc (f : Globals → Globals) : (d.updGlob f).cmc = d.cmc := rfl
@[simp] theorem Dev.updGlob_regions (f : Globals → Globals) : (d.updGlob f).regions = d.regions := rfl
@[simp] theorem Dev.updGlob_spares (f : Globals → Globals) : (d.updGlob f).spares = d.spares := rfl
@[simp] theorem Dev.updGlob_dma (f : Globals → Globals) : (d.updGlob f).dma = d.dma := rfl
@[simp] theorem Dev.updGlob_blocks (f : Globals → Globals) : (d.updGlob f).blocks = d.blocks := rfl
@[simp] theorem Dev.updGlob_drives (f : Globals → Globals) : (d.updGlob f).drives = d.drives := rfl
@[simp] theorem Dev.updGlob_relays (f : Globals → Globals) : (d.updGlob f).relays = d.relays := rfl
@[simp] theorem Dev.updGlob_feeds (f : Globals → Globals) : (d.updGlob f).feeds = d.feeds := rfl
@[simp] theorem Dev.updGlob_layers (f : Globals → Globals) : (d.updGlob f).layers = d.layers := rfl
@[simp] theorem Dev.updGlob_raster (f : Globals → Globals) : (d.updGlob f).raster = d.raster := rfl
@[simp] theorem Dev.updGlob_tps (f : Globals → Globals) : (d.updGlob f).tps = d.tps := rfl
@[simp] theorem Dev.updGlob_markers (f : Globals → Globals) : (d.updGlob f).markers = d.markers := rfl
@[simp] theorem Dev.updGlob_mc (f : Globals → Globals) : (d.updGlob f).mc = d.mc := rfl
@[simp] theorem Dev.updGlob_pwr (f : Globals → Globals) : (d.updGlob f).pwr = d.pwr := rfl
@[simp] theorem Dev.updGlob_jtag (f : Globals → Globals) : (d.updGlob f).jtag = d.jtag := rfl
@[simp] theorem Dev.updGlob_free (f : Globals → Globals) : (d.updGlob f).free = d.free := rfl
@[simp] theorem Dev.updGlob_out (f : Globals → Globals) : (d.updGlob f).out = d.out := rfl

/-! `Dev.updRaster` -/

@[simp] theorem Dev.updRaster_clk (f : Raster → Raster) : (d.updRaster f).clk = d.clk := rfl
@[simp] theorem Dev.updRaster_pcie (f : Raster → Raster) : (d.updRaster f).pcie = d.pcie := rfl
@[simp] theorem Dev.updRaster_fw (f : Raster → Raster) : (d.updRaster f).fw = d.fw := rfl
@[simp] theorem Dev.updRaster_regs (f : Raster → Raster) : (d.updRaster f).regs = d.regs := rfl
@[simp] theorem Dev.updRaster_rcNow (f : Raster → Raster) : (d.updRaster f).rcNow = d.rcNow := rfl
@[simp] theorem Dev.updRaster_shadowHost (f : Raster → Raster) : (d.updRaster f).shadowHost = d.shadowHost := rfl
@[simp] theorem Dev.updRaster_shadowSeq (f : Raster → Raster) : (d.updRaster f).shadowSeq = d.shadowSeq := rfl
@[simp] theorem Dev.updRaster_shadowMc (f : Raster → Raster) : (d.updRaster f).shadowMc = d.shadowMc := rfl
@[simp] theorem Dev.updRaster_rings (f : Raster → Raster) : (d.updRaster f).rings = d.rings := rfl
@[simp] theorem Dev.updRaster_rrRing (f : Raster → Raster) : (d.updRaster f).rrRing = d.rrRing := rfl
@[simp] theorem Dev.updRaster_rrUsed (f : Raster → Raster) : (d.updRaster f).rrUsed = d.rrUsed := rfl
@[simp] theorem Dev.updRaster_ev (f : Raster → Raster) : (d.updRaster f).ev = d.ev := rfl
@[simp] theorem Dev.updRaster_glob (f : Raster → Raster) : (d.updRaster f).glob = d.glob := rfl
@[simp] theorem Dev.updRaster_pads (f : Raster → Raster) : (d.updRaster f).pads = d.pads := rfl
@[simp] theorem Dev.updRaster_streams (f : Raster → Raster) : (d.updRaster f).streams = d.streams := rfl
@[simp] theorem Dev.updRaster_jesd (f : Raster → Raster) : (d.updRaster f).jesd = d.jesd := rfl
@[simp] theorem Dev.updRaster_ain (f : Raster → Raster) : (d.updRaster f).ain = d.ain := rfl
@[simp] theorem Dev.updRaster_chans (f : Raster → Raster) : (d.updRaster f).chans = d.chans := rfl
@[simp] theorem Dev.updRaster_engines (f : Raster → Raster) : (d.updRaster f).engines = d.engines := rfl
@[simp] theorem Dev.updRaster_pairAt (f : Raster → Raster) : (d.updRaster f).pairAt = d.pairAt := rfl
@[simp] theorem Dev.updRaster_le (f : Raster → Raster) : (d.updRaster f).le = d.le := rfl
@[simp] theorem Dev.updRaster_masks (f : Raster → Raster) : (d.updRaster f).masks = d.masks := rfl
@[simp] theorem Dev.updRaster_combs (f : Raster → Raster) : (d.updRaster f).combs = d.combs := rfl
@[simp] theorem Dev.updRaster_combTold (f : Raster → Raster) : (d.updRaster f).combTold = d.combTold := rfl
@[simp] theorem Dev.updRaster_tos (f : Raster → Raster) : (d.updRaster f).tos = d.tos := rfl
@[simp] theorem Dev.updRaster_remote (f : Raster → Raster) : (d.updRaster f).remote = d.remote := rfl
@[simp] theorem Dev.updRaster_aps (f : Raster → Raster) : (d.updRaster f).aps = d.aps := rfl
@[simp] theorem Dev.updRaster_cmc (f : Raster → Raster) : (d.updRaster f).cmc = d.cmc := rfl
@[simp] theorem Dev.updRaster_regions (f : Raster → Raster) : (d.updRaster f).regions = d.regions := rfl
@[simp] theorem Dev.updRaster_spares (f : Raster → Raster) : (d.updRaster f).spares = d.spares := rfl
@[simp] theorem Dev.updRaster_dma (f : Raster → Raster) : (d.updRaster f).dma = d.dma := rfl
@[simp] theorem Dev.updRaster_blocks (f : Raster → Raster) : (d.updRaster f).blocks = d.blocks := rfl
@[simp] theorem Dev.updRaster_drives (f : Raster → Raster) : (d.updRaster f).drives = d.drives := rfl
@[simp] theorem Dev.updRaster_relays (f : Raster → Raster) : (d.updRaster f).relays = d.relays := rfl
@[simp] theorem Dev.updRaster_feeds (f : Raster → Raster) : (d.updRaster f).feeds = d.feeds := rfl
@[simp] theorem Dev.updRaster_layers (f : Raster → Raster) : (d.updRaster f).layers = d.layers := rfl
@[simp] theorem Dev.updRaster_raster (f : Raster → Raster) : (d.updRaster f).raster = f d.raster := rfl
@[simp] theorem Dev.updRaster_tps (f : Raster → Raster) : (d.updRaster f).tps = d.tps := rfl
@[simp] theorem Dev.updRaster_markers (f : Raster → Raster) : (d.updRaster f).markers = d.markers := rfl
@[simp] theorem Dev.updRaster_mc (f : Raster → Raster) : (d.updRaster f).mc = d.mc := rfl
@[simp] theorem Dev.updRaster_pwr (f : Raster → Raster) : (d.updRaster f).pwr = d.pwr := rfl
@[simp] theorem Dev.updRaster_jtag (f : Raster → Raster) : (d.updRaster f).jtag = d.jtag := rfl
@[simp] theorem Dev.updRaster_free (f : Raster → Raster) : (d.updRaster f).free = d.free := rfl
@[simp] theorem Dev.updRaster_out (f : Raster → Raster) : (d.updRaster f).out = d.out := rfl

/-! `Dev.updSpares` -/

@[simp] theorem Dev.updSpares_clk (f : Spares → Spares) : (d.updSpares f).clk = d.clk := rfl
@[simp] theorem Dev.updSpares_pcie (f : Spares → Spares) : (d.updSpares f).pcie = d.pcie := rfl
@[simp] theorem Dev.updSpares_fw (f : Spares → Spares) : (d.updSpares f).fw = d.fw := rfl
@[simp] theorem Dev.updSpares_regs (f : Spares → Spares) : (d.updSpares f).regs = d.regs := rfl
@[simp] theorem Dev.updSpares_rcNow (f : Spares → Spares) : (d.updSpares f).rcNow = d.rcNow := rfl
@[simp] theorem Dev.updSpares_shadowHost (f : Spares → Spares) : (d.updSpares f).shadowHost = d.shadowHost := rfl
@[simp] theorem Dev.updSpares_shadowSeq (f : Spares → Spares) : (d.updSpares f).shadowSeq = d.shadowSeq := rfl
@[simp] theorem Dev.updSpares_shadowMc (f : Spares → Spares) : (d.updSpares f).shadowMc = d.shadowMc := rfl
@[simp] theorem Dev.updSpares_rings (f : Spares → Spares) : (d.updSpares f).rings = d.rings := rfl
@[simp] theorem Dev.updSpares_rrRing (f : Spares → Spares) : (d.updSpares f).rrRing = d.rrRing := rfl
@[simp] theorem Dev.updSpares_rrUsed (f : Spares → Spares) : (d.updSpares f).rrUsed = d.rrUsed := rfl
@[simp] theorem Dev.updSpares_ev (f : Spares → Spares) : (d.updSpares f).ev = d.ev := rfl
@[simp] theorem Dev.updSpares_glob (f : Spares → Spares) : (d.updSpares f).glob = d.glob := rfl
@[simp] theorem Dev.updSpares_pads (f : Spares → Spares) : (d.updSpares f).pads = d.pads := rfl
@[simp] theorem Dev.updSpares_streams (f : Spares → Spares) : (d.updSpares f).streams = d.streams := rfl
@[simp] theorem Dev.updSpares_jesd (f : Spares → Spares) : (d.updSpares f).jesd = d.jesd := rfl
@[simp] theorem Dev.updSpares_ain (f : Spares → Spares) : (d.updSpares f).ain = d.ain := rfl
@[simp] theorem Dev.updSpares_chans (f : Spares → Spares) : (d.updSpares f).chans = d.chans := rfl
@[simp] theorem Dev.updSpares_engines (f : Spares → Spares) : (d.updSpares f).engines = d.engines := rfl
@[simp] theorem Dev.updSpares_pairAt (f : Spares → Spares) : (d.updSpares f).pairAt = d.pairAt := rfl
@[simp] theorem Dev.updSpares_le (f : Spares → Spares) : (d.updSpares f).le = d.le := rfl
@[simp] theorem Dev.updSpares_masks (f : Spares → Spares) : (d.updSpares f).masks = d.masks := rfl
@[simp] theorem Dev.updSpares_combs (f : Spares → Spares) : (d.updSpares f).combs = d.combs := rfl
@[simp] theorem Dev.updSpares_combTold (f : Spares → Spares) : (d.updSpares f).combTold = d.combTold := rfl
@[simp] theorem Dev.updSpares_tos (f : Spares → Spares) : (d.updSpares f).tos = d.tos := rfl
@[simp] theorem Dev.updSpares_remote (f : Spares → Spares) : (d.updSpares f).remote = d.remote := rfl
@[simp] theorem Dev.updSpares_aps (f : Spares → Spares) : (d.updSpares f).aps = d.aps := rfl
@[simp] theorem Dev.updSpares_cmc (f : Spares → Spares) : (d.updSpares f).cmc = d.cmc := rfl
@[simp] theorem Dev.updSpares_regions (f : Spares → Spares) : (d.updSpares f).regions = d.regions := rfl
@[simp] theorem Dev.updSpares_spares (f : Spares → Spares) : (d.updSpares f).spares = f d.spares := rfl
@[simp] theorem Dev.updSpares_dma (f : Spares → Spares) : (d.updSpares f).dma = d.dma := rfl
@[simp] theorem Dev.updSpares_blocks (f : Spares → Spares) : (d.updSpares f).blocks = d.blocks := rfl
@[simp] theorem Dev.updSpares_drives (f : Spares → Spares) : (d.updSpares f).drives = d.drives := rfl
@[simp] theorem Dev.updSpares_relays (f : Spares → Spares) : (d.updSpares f).relays = d.relays := rfl
@[simp] theorem Dev.updSpares_feeds (f : Spares → Spares) : (d.updSpares f).feeds = d.feeds := rfl
@[simp] theorem Dev.updSpares_layers (f : Spares → Spares) : (d.updSpares f).layers = d.layers := rfl
@[simp] theorem Dev.updSpares_raster (f : Spares → Spares) : (d.updSpares f).raster = d.raster := rfl
@[simp] theorem Dev.updSpares_tps (f : Spares → Spares) : (d.updSpares f).tps = d.tps := rfl
@[simp] theorem Dev.updSpares_markers (f : Spares → Spares) : (d.updSpares f).markers = d.markers := rfl
@[simp] theorem Dev.updSpares_mc (f : Spares → Spares) : (d.updSpares f).mc = d.mc := rfl
@[simp] theorem Dev.updSpares_pwr (f : Spares → Spares) : (d.updSpares f).pwr = d.pwr := rfl
@[simp] theorem Dev.updSpares_jtag (f : Spares → Spares) : (d.updSpares f).jtag = d.jtag := rfl
@[simp] theorem Dev.updSpares_free (f : Spares → Spares) : (d.updSpares f).free = d.free := rfl
@[simp] theorem Dev.updSpares_out (f : Spares → Spares) : (d.updSpares f).out = d.out := rfl

/-! `Dev.setLink` -/

@[simp] theorem Dev.setLink_clk (k : Nat) (l : SyncLink) : (d.setLink k l).clk = d.clk := rfl
@[simp] theorem Dev.setLink_pcie (k : Nat) (l : SyncLink) : (d.setLink k l).pcie = d.pcie := rfl
@[simp] theorem Dev.setLink_fw (k : Nat) (l : SyncLink) : (d.setLink k l).fw = d.fw := rfl
@[simp] theorem Dev.setLink_regs (k : Nat) (l : SyncLink) : (d.setLink k l).regs = d.regs := rfl
@[simp] theorem Dev.setLink_rcNow (k : Nat) (l : SyncLink) : (d.setLink k l).rcNow = d.rcNow := rfl
@[simp] theorem Dev.setLink_shadowHost (k : Nat) (l : SyncLink) : (d.setLink k l).shadowHost = d.shadowHost := rfl
@[simp] theorem Dev.setLink_shadowSeq (k : Nat) (l : SyncLink) : (d.setLink k l).shadowSeq = d.shadowSeq := rfl
@[simp] theorem Dev.setLink_shadowMc (k : Nat) (l : SyncLink) : (d.setLink k l).shadowMc = d.shadowMc := rfl
@[simp] theorem Dev.setLink_rings (k : Nat) (l : SyncLink) : (d.setLink k l).rings = d.rings := rfl
@[simp] theorem Dev.setLink_rrRing (k : Nat) (l : SyncLink) : (d.setLink k l).rrRing = d.rrRing := rfl
@[simp] theorem Dev.setLink_rrUsed (k : Nat) (l : SyncLink) : (d.setLink k l).rrUsed = d.rrUsed := rfl
@[simp] theorem Dev.setLink_ev (k : Nat) (l : SyncLink) : (d.setLink k l).ev = d.ev := rfl
@[simp] theorem Dev.setLink_glob (k : Nat) (l : SyncLink) : (d.setLink k l).glob = { d.glob with links := Tbl.put k l d.glob.links } := rfl
@[simp] theorem Dev.setLink_pads (k : Nat) (l : SyncLink) : (d.setLink k l).pads = d.pads := rfl
@[simp] theorem Dev.setLink_streams (k : Nat) (l : SyncLink) : (d.setLink k l).streams = d.streams := rfl
@[simp] theorem Dev.setLink_jesd (k : Nat) (l : SyncLink) : (d.setLink k l).jesd = d.jesd := rfl
@[simp] theorem Dev.setLink_ain (k : Nat) (l : SyncLink) : (d.setLink k l).ain = d.ain := rfl
@[simp] theorem Dev.setLink_chans (k : Nat) (l : SyncLink) : (d.setLink k l).chans = d.chans := rfl
@[simp] theorem Dev.setLink_engines (k : Nat) (l : SyncLink) : (d.setLink k l).engines = d.engines := rfl
@[simp] theorem Dev.setLink_pairAt (k : Nat) (l : SyncLink) : (d.setLink k l).pairAt = d.pairAt := rfl
@[simp] theorem Dev.setLink_le (k : Nat) (l : SyncLink) : (d.setLink k l).le = d.le := rfl
@[simp] theorem Dev.setLink_masks (k : Nat) (l : SyncLink) : (d.setLink k l).masks = d.masks := rfl
@[simp] theorem Dev.setLink_combs (k : Nat) (l : SyncLink) : (d.setLink k l).combs = d.combs := rfl
@[simp] theorem Dev.setLink_combTold (k : Nat) (l : SyncLink) : (d.setLink k l).combTold = d.combTold := rfl
@[simp] theorem Dev.setLink_tos (k : Nat) (l : SyncLink) : (d.setLink k l).tos = d.tos := rfl
@[simp] theorem Dev.setLink_remote (k : Nat) (l : SyncLink) : (d.setLink k l).remote = d.remote := rfl
@[simp] theorem Dev.setLink_aps (k : Nat) (l : SyncLink) : (d.setLink k l).aps = d.aps := rfl
@[simp] theorem Dev.setLink_cmc (k : Nat) (l : SyncLink) : (d.setLink k l).cmc = d.cmc := rfl
@[simp] theorem Dev.setLink_regions (k : Nat) (l : SyncLink) : (d.setLink k l).regions = d.regions := rfl
@[simp] theorem Dev.setLink_spares (k : Nat) (l : SyncLink) : (d.setLink k l).spares = d.spares := rfl
@[simp] theorem Dev.setLink_dma (k : Nat) (l : SyncLink) : (d.setLink k l).dma = d.dma := rfl
@[simp] theorem Dev.setLink_blocks (k : Nat) (l : SyncLink) : (d.setLink k l).blocks = d.blocks := rfl
@[simp] theorem Dev.setLink_drives (k : Nat) (l : SyncLink) : (d.setLink k l).drives = d.drives := rfl
@[simp] theorem Dev.setLink_relays (k : Nat) (l : SyncLink) : (d.setLink k l).relays = d.relays := rfl
@[simp] theorem Dev.setLink_feeds (k : Nat) (l : SyncLink) : (d.setLink k l).feeds = d.feeds := rfl
@[simp] theorem Dev.setLink_layers (k : Nat) (l : SyncLink) : (d.setLink k l).layers = d.layers := rfl
@[simp] theorem Dev.setLink_raster (k : Nat) (l : SyncLink) : (d.setLink k l).raster = d.raster := rfl
@[simp] theorem Dev.setLink_tps (k : Nat) (l : SyncLink) : (d.setLink k l).tps = d.tps := rfl
@[simp] theorem Dev.setLink_markers (k : Nat) (l : SyncLink) : (d.setLink k l).markers = d.markers := rfl
@[simp] theorem Dev.setLink_mc (k : Nat) (l : SyncLink) : (d.setLink k l).mc = d.mc := rfl
@[simp] theorem Dev.setLink_pwr (k : Nat) (l : SyncLink) : (d.setLink k l).pwr = d.pwr := rfl
@[simp] theorem Dev.setLink_jtag (k : Nat) (l : SyncLink) : (d.setLink k l).jtag = d.jtag := rfl
@[simp] theorem Dev.setLink_free (k : Nat) (l : SyncLink) : (d.setLink k l).free = d.free := rfl
@[simp] theorem Dev.setLink_out (k : Nat) (l : SyncLink) : (d.setLink k l).out = d.out := rfl

/-! `Dev.updAp` -/

@[simp] theorem Dev.updAp_clk (a : Nat) (f : Aperture → Aperture) : (d.updAp a f).clk = d.clk := rfl
@[simp] theorem Dev.updAp_pcie (a : Nat) (f : Aperture → Aperture) : (d.updAp a f).pcie = d.pcie := rfl
@[simp] theorem Dev.updAp_fw (a : Nat) (f : Aperture → Aperture) : (d.updAp a f).fw = d.fw := rfl
@[simp] theorem Dev.updAp_regs (a : Nat) (f : Aperture → Aperture) : (d.updAp a f).regs = d.regs := rfl
@[simp] theorem Dev.updAp_rcNow (a : Nat) (f : Aperture → Aperture) : (d.updAp a f).rcNow = d.rcNow := rfl
@[simp] theorem Dev.updAp_shadowHost (a : Nat) (f : Aperture → Aperture) : (d.updAp a f).shadowHost = d.shadowHost := rfl
@[simp] theorem Dev.updAp_shadowSeq (a : Nat) (f : Aperture → Aperture) : (d.updAp a f).shadowSeq = d.shadowSeq := rfl
@[simp] theorem Dev.updAp_shadowMc (a : Nat) (f : Aperture → Aperture) : (d.updAp a f).shadowMc = d.shadowMc := rfl
@[simp] theorem Dev.updAp_rings (a : Nat) (f : Aperture → Aperture) : (d.updAp a f).rings = d.rings := rfl
@[simp] theorem Dev.updAp_rrRing (a : Nat) (f : Aperture → Aperture) : (d.updAp a f).rrRing = d.rrRing := rfl
@[simp] theorem Dev.updAp_rrUsed (a : Nat) (f : Aperture → Aperture) : (d.updAp a f).rrUsed = d.rrUsed := rfl
@[simp] theorem Dev.updAp_ev (a : Nat) (f : Aperture → Aperture) : (d.updAp a f).ev = d.ev := rfl
@[simp] theorem Dev.updAp_glob (a : Nat) (f : Aperture → Aperture) : (d.updAp a f).glob = d.glob := rfl
@[simp] theorem Dev.updAp_pads (a : Nat) (f : Aperture → Aperture) : (d.updAp a f).pads = d.pads := rfl
@[simp] theorem Dev.updAp_streams (a : Nat) (f : Aperture → Aperture) : (d.updAp a f).streams = d.streams := rfl
@[simp] theorem Dev.updAp_jesd (a : Nat) (f : Aperture → Aperture) : (d.updAp a f).jesd = d.jesd := rfl
@[simp] theorem Dev.updAp_ain (a : Nat) (f : Aperture → Aperture) : (d.updAp a f).ain = d.ain := rfl
@[simp] theorem Dev.updAp_chans (a : Nat) (f : Aperture → Aperture) : (d.updAp a f).chans = d.chans := rfl
@[simp] theorem Dev.updAp_engines (a : Nat) (f : Aperture → Aperture) : (d.updAp a f).engines = d.engines := rfl
@[simp] theorem Dev.updAp_pairAt (a : Nat) (f : Aperture → Aperture) : (d.updAp a f).pairAt = d.pairAt := rfl
@[simp] theorem Dev.updAp_le (a : Nat) (f : Aperture → Aperture) : (d.updAp a f).le = d.le := rfl
@[simp] theorem Dev.updAp_masks (a : Nat) (f : Aperture → Aperture) : (d.updAp a f).masks = d.masks := rfl
@[simp] theorem Dev.updAp_combs (a : Nat) (f : Aperture → Aperture) : (d.updAp a f).combs = d.combs := rfl
@[simp] theorem Dev.updAp_combTold (a : Nat) (f : Aperture → Aperture) : (d.updAp a f).combTold = d.combTold := rfl
@[simp] theorem Dev.updAp_tos (a : Nat) (f : Aperture → Aperture) : (d.updAp a f).tos = d.tos := rfl
@[simp] theorem Dev.updAp_remote (a : Nat) (f : Aperture → Aperture) : (d.updAp a f).remote = d.remote := rfl
@[simp] theorem Dev.updAp_aps (a : Nat) (f : Aperture → Aperture) : (d.updAp a f).aps = Tbl.put a (f (d.ap a)) d.aps := rfl
@[simp] theorem Dev.updAp_cmc (a : Nat) (f : Aperture → Aperture) : (d.updAp a f).cmc = d.cmc := rfl
@[simp] theorem Dev.updAp_regions (a : Nat) (f : Aperture → Aperture) : (d.updAp a f).regions = d.regions := rfl
@[simp] theorem Dev.updAp_spares (a : Nat) (f : Aperture → Aperture) : (d.updAp a f).spares = d.spares := rfl
@[simp] theorem Dev.updAp_dma (a : Nat) (f : Aperture → Aperture) : (d.updAp a f).dma = d.dma := rfl
@[simp] theorem Dev.updAp_blocks (a : Nat) (f : Aperture → Aperture) : (d.updAp a f).blocks = d.blocks := rfl
@[simp] theorem Dev.updAp_drives (a : Nat) (f : Aperture → Aperture) : (d.updAp a f).drives = d.drives := rfl
@[simp] theorem Dev.updAp_relays (a : Nat) (f : Aperture → Aperture) : (d.updAp a f).relays = d.relays := rfl
@[simp] theorem Dev.updAp_feeds (a : Nat) (f : Aperture → Aperture) : (d.updAp a f).feeds = d.feeds := rfl
@[simp] theorem Dev.updAp_layers (a : Nat) (f : Aperture → Aperture) : (d.updAp a f).layers = d.layers := rfl
@[simp] theorem Dev.updAp_raster (a : Nat) (f : Aperture → Aperture) : (d.updAp a f).raster = d.raster := rfl
@[simp] theorem Dev.updAp_tps (a : Nat) (f : Aperture → Aperture) : (d.updAp a f).tps = d.tps := rfl
@[simp] theorem Dev.updAp_markers (a : Nat) (f : Aperture → Aperture) : (d.updAp a f).markers = d.markers := rfl
@[simp] theorem Dev.updAp_mc (a : Nat) (f : Aperture → Aperture) : (d.updAp a f).mc = d.mc := rfl
@[simp] theorem Dev.updAp_pwr (a : Nat) (f : Aperture → Aperture) : (d.updAp a f).pwr = d.pwr := rfl
@[simp] theorem Dev.updAp_jtag (a : Nat) (f : Aperture → Aperture) : (d.updAp a f).jtag = d.jtag := rfl
@[simp] theorem Dev.updAp_free (a : Nat) (f : Aperture → Aperture) : (d.updAp a f).free = d.free := rfl
@[simp] theorem Dev.updAp_out (a : Nat) (f : Aperture → Aperture) : (d.updAp a f).out = d.out := rfl

/-! `Dev.rcDo` -/

@[simp] theorem Dev.rcDo_clk (a : Nat) (o : RcOp) : (d.rcDo a o).clk = d.clk := rfl
@[simp] theorem Dev.rcDo_pcie (a : Nat) (o : RcOp) : (d.rcDo a o).pcie = d.pcie := rfl
@[simp] theorem Dev.rcDo_fw (a : Nat) (o : RcOp) : (d.rcDo a o).fw = d.fw := rfl
@[simp] theorem Dev.rcDo_regs (a : Nat) (o : RcOp) : (d.rcDo a o).regs = Tbl.put a (RcOp.run (d.reg a) (o)) d.regs := rfl
@[simp] theorem Dev.rcDo_rcNow (a : Nat) (o : RcOp) : (d.rcDo a o).rcNow = d.rcNow ++ [{ addr := a, old := d.reg a, op := o }] := rfl
@[simp] theorem Dev.rcDo_shadowHost (a : Nat) (o : RcOp) : (d.rcDo a o).shadowHost = d.shadowHost := rfl
@[simp] theorem Dev.rcDo_shadowSeq (a : Nat) (o : RcOp) : (d.rcDo a o).shadowSeq = d.shadowSeq := rfl
@[simp] theorem Dev.rcDo_shadowMc (a : Nat) (o : RcOp) : (d.rcDo a o).shadowMc = d.shadowMc := rfl
@[simp] theorem Dev.rcDo_rings (a : Nat) (o : RcOp) : (d.rcDo a o).rings = d.rings := rfl
@[simp] theorem Dev.rcDo_rrRing (a : Nat) (o : RcOp) : (d.rcDo a o).rrRing = d.rrRing := rfl
@[simp] theorem Dev.rcDo_rrUsed (a : Nat) (o : RcOp) : (d.rcDo a o).rrUsed = d.rrUsed := rfl
@[simp] theorem Dev.rcDo_ev (a : Nat) (o : RcOp) : (d.rcDo a o).ev = d.ev := rfl
@[simp] theorem Dev.rcDo_glob (a : Nat) (o : RcOp) : (d.rcDo a o).glob = d.glob := rfl
@[simp] theorem Dev.rcDo_pads (a : Nat) (o : RcOp) : (d.rcDo a o).pads = d.pads := rfl
@[simp] theorem Dev.rcDo_streams (a : Nat) (o : RcOp) : (d.rcDo a o).streams = d.streams := rfl
@[simp] theorem Dev.rcDo_jesd (a : Nat) (o : RcOp) : (d.rcDo a o).jesd = d.jesd := rfl
@[simp] theorem Dev.rcDo_ain (a : Nat) (o : RcOp) : (d.rcDo a o).ain = d.ain := rfl
@[simp] theorem Dev.rcDo_chans (a : Nat) (o : RcOp) : (d.rcDo a o).chans = d.chans := rfl
@[simp] theorem Dev.rcDo_engines (a : Nat) (o : RcOp) : (d.rcDo a o).engines = d.engines := rfl
@[simp] theorem Dev.rcDo_pairAt (a : Nat) (o : RcOp) : (d.rcDo a o).pairAt = d.pairAt := rfl
@[simp] theorem Dev.rcDo_le (a : Nat) (o : RcOp) : (d.rcDo a o).le = d.le := rfl
@[simp] theorem Dev.rcDo_masks (a : Nat) (o : RcOp) : (d.rcDo a o).masks = d.masks := rfl
@[simp] theorem Dev.rcDo_combs (a : Nat) (o : RcOp) : (d.rcDo a o).combs = d.combs := rfl
@[simp] theorem Dev.rcDo_combTold (a : Nat) (o : RcOp) : (d.rcDo a o).combTold = d.combTold := rfl
@[simp] theorem Dev.rcDo_tos (a : Nat) (o : RcOp) : (d.rcDo a o).tos = d.tos := rfl
@[simp] theorem Dev.rcDo_remote (a : Nat) (o : RcOp) : (d.rcDo a o).remote = d.remote := rfl
@[simp] theorem Dev.rcDo_aps (a : Nat) (o : RcOp) : (d.rcDo a o).aps = d.aps := rfl
@[simp] theorem Dev.rcDo_cmc (a : Nat) (o : RcOp) : (d.rcDo a o).cmc = d.cmc := rfl
@[simp] theorem Dev.rcDo_regions (a : Nat) (o : RcOp) : (d.rcDo a o).regions = d.regions := rfl
@[simp] theorem Dev.rcDo_spares (a : Nat) (o : RcOp) : (d.rcDo a o).spares = d.spares := rfl
@[simp] theorem Dev.rcDo_dma (a : Nat) (o : RcOp) : (d.rcDo a o).dma = d.dma := rfl
@[simp] theorem Dev.rcDo_blocks (a : Nat) (o : RcOp) : (d.rcDo a o).blocks = d.blocks := rfl
@[simp] theorem Dev.rcDo_drives (a : Nat) (o : RcOp) : (d.rcDo a o).drives = d.drives := rfl
@[simp] theorem Dev.rcDo_relays (a : Nat) (o : RcOp) : (d.rcDo a o).relays = d.relays := rfl
@[simp] theorem Dev.rcDo_feeds (a : Nat) (o : RcOp) : (d.rcDo a o).feeds = d.feeds := rfl
@[simp] theorem Dev.rcDo_layers (a : Nat) (o : RcOp) : (d.rcDo a o).layers = d.layers := rfl
@[simp] theorem Dev.rcDo_raster (a : Nat) (o : RcOp) : (d.rcDo a o).raster = d.raster := rfl
@[simp] theorem Dev.rcDo_tps (a : Nat) (o : RcOp) : (d.rcDo a o).tps = d.tps := rfl
@[simp] theorem Dev.rcDo_markers (a : Nat) (o : RcOp) : (d.rcDo a o).markers = d.markers := rfl
@[simp] theorem Dev.rcDo_mc (a : Nat) (o : RcOp) : (d.rcDo a o).mc = d.mc := rfl
@[simp] theorem Dev.rcDo_pwr (a : Nat) (o : RcOp) : (d.rcDo a o).pwr = d.pwr := rfl
@[simp] theorem Dev.rcDo_jtag (a : Nat) (o : RcOp) : (d.rcDo a o).jtag = d.jtag := rfl
@[simp] theorem Dev.rcDo_free (a : Nat) (o : RcOp) : (d.rcDo a o).free = d.free := rfl
@[simp] theorem Dev.rcDo_out (a : Nat) (o : RcOp) : (d.rcDo a o).out = d.out := rfl

/-! `Dev.bump` -/

@[simp] theorem Dev.bump_clk (a n : Nat) : (d.bump a n).clk = d.clk := rfl
@[simp] theorem Dev.bump_pcie (a n : Nat) : (d.bump a n).pcie = d.pcie := rfl
@[simp] theorem Dev.bump_fw (a n : Nat) : (d.bump a n).fw = d.fw := rfl
@[simp] theorem Dev.bump_regs (a n : Nat) : (d.bump a n).regs = Tbl.put a (RcOp.run (d.reg a) (.count n)) d.regs := rfl
@[simp] theorem Dev.bump_rcNow (a n : Nat) : (d.bump a n).rcNow = d.rcNow ++ [{ addr := a, old := d.reg a, op := .count n }] := rfl
@[simp] theorem Dev.bump_shadowHost (a n : Nat) : (d.bump a n).shadowHost = d.shadowHost := rfl
@[simp] theorem Dev.bump_shadowSeq (a n : Nat) : (d.bump a n).shadowSeq = d.shadowSeq := rfl
@[simp] theorem Dev.bump_shadowMc (a n : Nat) : (d.bump a n).shadowMc = d.shadowMc := rfl
@[simp] theorem Dev.bump_rings (a n : Nat) : (d.bump a n).rings = d.rings := rfl
@[simp] theorem Dev.bump_rrRing (a n : Nat) : (d.bump a n).rrRing = d.rrRing := rfl
@[simp] theorem Dev.bump_rrUsed (a n : Nat) : (d.bump a n).rrUsed = d.rrUsed := rfl
@[simp] theorem Dev.bump_ev (a n : Nat) : (d.bump a n).ev = d.ev := rfl
@[simp] theorem Dev.bump_glob (a n : Nat) : (d.bump a n).glob = d.glob := rfl
@[simp] theorem Dev.bump_pads (a n : Nat) : (d.bump a n).pads = d.pads := rfl
@[simp] theorem Dev.bump_streams (a n : Nat) : (d.bump a n).streams = d.streams := rfl
@[simp] theorem Dev.bump_jesd (a n : Nat) : (d.bump a n).jesd = d.jesd := rfl
@[simp] theorem Dev.bump_ain (a n : Nat) : (d.bump a n).ain = d.ain := rfl
@[simp] theorem Dev.bump_chans (a n : Nat) : (d.bump a n).chans = d.chans := rfl
@[simp] theorem Dev.bump_engines (a n : Nat) : (d.bump a n).engines = d.engines := rfl
@[simp] theorem Dev.bump_pairAt (a n : Nat) : (d.bump a n).pairAt = d.pairAt := rfl
@[simp] theorem Dev.bump_le (a n : Nat) : (d.bump a n).le = d.le := rfl
@[simp] theorem Dev.bump_masks (a n : Nat) : (d.bump a n).masks = d.masks := rfl
@[simp] theorem Dev.bump_combs (a n : Nat) : (d.bump a n).combs = d.combs := rfl
@[simp] theorem Dev.bump_combTold (a n : Nat) : (d.bump a n).combTold = d.combTold := rfl
@[simp] theorem Dev.bump_tos (a n : Nat) : (d.bump a n).tos = d.tos := rfl
@[simp] theorem Dev.bump_remote (a n : Nat) : (d.bump a n).remote = d.remote := rfl
@[simp] theorem Dev.bump_aps (a n : Nat) : (d.bump a n).aps = d.aps := rfl
@[simp] theorem Dev.bump_cmc (a n : Nat) : (d.bump a n).cmc = d.cmc := rfl
@[simp] theorem Dev.bump_regions (a n : Nat) : (d.bump a n).regions = d.regions := rfl
@[simp] theorem Dev.bump_spares (a n : Nat) : (d.bump a n).spares = d.spares := rfl
@[simp] theorem Dev.bump_dma (a n : Nat) : (d.bump a n).dma = d.dma := rfl
@[simp] theorem Dev.bump_blocks (a n : Nat) : (d.bump a n).blocks = d.blocks := rfl
@[simp] theorem Dev.bump_drives (a n : Nat) : (d.bump a n).drives = d.drives := rfl
@[simp] theorem Dev.bump_relays (a n : Nat) : (d.bump a n).relays = d.relays := rfl
@[simp] theorem Dev.bump_feeds (a n : Nat) : (d.bump a n).feeds = d.feeds := rfl
@[simp] theorem Dev.bump_layers (a n : Nat) : (d.bump a n).layers = d.layers := rfl
@[simp] theorem Dev.bump_raster (a n : Nat) : (d.bump a n).raster = d.raster := rfl
@[simp] theorem Dev.bump_tps (a n : Nat) : (d.bump a n).tps = d.tps := rfl
@[simp] theorem Dev.bump_markers (a n : Nat) : (d.bump a n).markers = d.markers := rfl
@[simp] theorem Dev.bump_mc (a n : Nat) : (d.bump a n).mc = d.mc := rfl
@[simp] theorem Dev.bump_pwr (a n : Nat) : (d.bump a n).pwr = d.pwr := rfl
@[simp] theorem Dev.bump_jtag (a n : Nat) : (d.bump a n).jtag = d.jtag := rfl
@[simp] theorem Dev.bump_free (a n : Nat) : (d.bump a n).free = d.free := rfl
@[simp] theorem Dev.bump_out (a n : Nat) : (d.bump a n).out = d.out := rfl

/-! `Dev.bumpSat` -/

@[simp] theorem Dev.bumpSat_clk (a h l n : Nat) : (d.bumpSat a h l n).clk = d.clk := rfl
@[simp] theorem Dev.bumpSat_pcie (a h l n : Nat) : (d.bumpSat a h l n).pcie = d.pcie := rfl
@[simp] theorem Dev.bumpSat_fw (a h l n : Nat) : (d.bumpSat a h l n).fw = d.fw := rfl
@[simp] theorem Dev.bumpSat_regs (a h l n : Nat) : (d.bumpSat a h l n).regs = Tbl.put a (RcOp.run (d.reg a) (.sat h l n)) d.regs := rfl
@[simp] theorem Dev.bumpSat_rcNow (a h l n : Nat) : (d.bumpSat a h l n).rcNow = d.rcNow ++ [{ addr := a, old := d.reg a, op := .sat h l n }] := rfl
@[simp] theorem Dev.bumpSat_shadowHost (a h l n : Nat) : (d.bumpSat a h l n).shadowHost = d.shadowHost := rfl
@[simp] theorem Dev.bumpSat_shadowSeq (a h l n : Nat) : (d.bumpSat a h l n).shadowSeq = d.shadowSeq := rfl
@[simp] theorem Dev.bumpSat_shadowMc (a h l n : Nat) : (d.bumpSat a h l n).shadowMc = d.shadowMc := rfl
@[simp] theorem Dev.bumpSat_rings (a h l n : Nat) : (d.bumpSat a h l n).rings = d.rings := rfl
@[simp] theorem Dev.bumpSat_rrRing (a h l n : Nat) : (d.bumpSat a h l n).rrRing = d.rrRing := rfl
@[simp] theorem Dev.bumpSat_rrUsed (a h l n : Nat) : (d.bumpSat a h l n).rrUsed = d.rrUsed := rfl
@[simp] theorem Dev.bumpSat_ev (a h l n : Nat) : (d.bumpSat a h l n).ev = d.ev := rfl
@[simp] theorem Dev.bumpSat_glob (a h l n : Nat) : (d.bumpSat a h l n).glob = d.glob := rfl
@[simp] theorem Dev.bumpSat_pads (a h l n : Nat) : (d.bumpSat a h l n).pads = d.pads := rfl
@[simp] theorem Dev.bumpSat_streams (a h l n : Nat) : (d.bumpSat a h l n).streams = d.streams := rfl
@[simp] theorem Dev.bumpSat_jesd (a h l n : Nat) : (d.bumpSat a h l n).jesd = d.jesd := rfl
@[simp] theorem Dev.bumpSat_ain (a h l n : Nat) : (d.bumpSat a h l n).ain = d.ain := rfl
@[simp] theorem Dev.bumpSat_chans (a h l n : Nat) : (d.bumpSat a h l n).chans = d.chans := rfl
@[simp] theorem Dev.bumpSat_engines (a h l n : Nat) : (d.bumpSat a h l n).engines = d.engines := rfl
@[simp] theorem Dev.bumpSat_pairAt (a h l n : Nat) : (d.bumpSat a h l n).pairAt = d.pairAt := rfl
@[simp] theorem Dev.bumpSat_le (a h l n : Nat) : (d.bumpSat a h l n).le = d.le := rfl
@[simp] theorem Dev.bumpSat_masks (a h l n : Nat) : (d.bumpSat a h l n).masks = d.masks := rfl
@[simp] theorem Dev.bumpSat_combs (a h l n : Nat) : (d.bumpSat a h l n).combs = d.combs := rfl
@[simp] theorem Dev.bumpSat_combTold (a h l n : Nat) : (d.bumpSat a h l n).combTold = d.combTold := rfl
@[simp] theorem Dev.bumpSat_tos (a h l n : Nat) : (d.bumpSat a h l n).tos = d.tos := rfl
@[simp] theorem Dev.bumpSat_remote (a h l n : Nat) : (d.bumpSat a h l n).remote = d.remote := rfl
@[simp] theorem Dev.bumpSat_aps (a h l n : Nat) : (d.bumpSat a h l n).aps = d.aps := rfl
@[simp] theorem Dev.bumpSat_cmc (a h l n : Nat) : (d.bumpSat a h l n).cmc = d.cmc := rfl
@[simp] theorem Dev.bumpSat_regions (a h l n : Nat) : (d.bumpSat a h l n).regions = d.regions := rfl
@[simp] theorem Dev.bumpSat_spares (a h l n : Nat) : (d.bumpSat a h l n).spares = d.spares := rfl
@[simp] theorem Dev.bumpSat_dma (a h l n : Nat) : (d.bumpSat a h l n).dma = d.dma := rfl
@[simp] theorem Dev.bumpSat_blocks (a h l n : Nat) : (d.bumpSat a h l n).blocks = d.blocks := rfl
@[simp] theorem Dev.bumpSat_drives (a h l n : Nat) : (d.bumpSat a h l n).drives = d.drives := rfl
@[simp] theorem Dev.bumpSat_relays (a h l n : Nat) : (d.bumpSat a h l n).relays = d.relays := rfl
@[simp] theorem Dev.bumpSat_feeds (a h l n : Nat) : (d.bumpSat a h l n).feeds = d.feeds := rfl
@[simp] theorem Dev.bumpSat_layers (a h l n : Nat) : (d.bumpSat a h l n).layers = d.layers := rfl
@[simp] theorem Dev.bumpSat_raster (a h l n : Nat) : (d.bumpSat a h l n).raster = d.raster := rfl
@[simp] theorem Dev.bumpSat_tps (a h l n : Nat) : (d.bumpSat a h l n).tps = d.tps := rfl
@[simp] theorem Dev.bumpSat_markers (a h l n : Nat) : (d.bumpSat a h l n).markers = d.markers := rfl
@[simp] theorem Dev.bumpSat_mc (a h l n : Nat) : (d.bumpSat a h l n).mc = d.mc := rfl
@[simp] theorem Dev.bumpSat_pwr (a h l n : Nat) : (d.bumpSat a h l n).pwr = d.pwr := rfl
@[simp] theorem Dev.bumpSat_jtag (a h l n : Nat) : (d.bumpSat a h l n).jtag = d.jtag := rfl
@[simp] theorem Dev.bumpSat_free (a h l n : Nat) : (d.bumpSat a h l n).free = d.free := rfl
@[simp] theorem Dev.bumpSat_out (a h l n : Nat) : (d.bumpSat a h l n).out = d.out := rfl

/-! `Dev.bumpFld` -/

@[simp] theorem Dev.bumpFld_clk (a h l n : Nat) : (d.bumpFld a h l n).clk = d.clk := rfl
@[simp] theorem Dev.bumpFld_pcie (a h l n : Nat) : (d.bumpFld a h l n).pcie = d.pcie := rfl
@[simp] theorem Dev.bumpFld_fw (a h l n : Nat) : (d.bumpFld a h l n).fw = d.fw := rfl
@[simp] theorem Dev.bumpFld_regs (a h l n : Nat) : (d.bumpFld a h l n).regs = Tbl.put a (RcOp.run (d.reg a) (.wrap h l n)) d.regs := rfl
@[simp] theorem Dev.bumpFld_rcNow (a h l n : Nat) : (d.bumpFld a h l n).rcNow = d.rcNow ++ [{ addr := a, old := d.reg a, op := .wrap h l n }] := rfl
@[simp] theorem Dev.bumpFld_shadowHost (a h l n : Nat) : (d.bumpFld a h l n).shadowHost = d.shadowHost := rfl
@[simp] theorem Dev.bumpFld_shadowSeq (a h l n : Nat) : (d.bumpFld a h l n).shadowSeq = d.shadowSeq := rfl
@[simp] theorem Dev.bumpFld_shadowMc (a h l n : Nat) : (d.bumpFld a h l n).shadowMc = d.shadowMc := rfl
@[simp] theorem Dev.bumpFld_rings (a h l n : Nat) : (d.bumpFld a h l n).rings = d.rings := rfl
@[simp] theorem Dev.bumpFld_rrRing (a h l n : Nat) : (d.bumpFld a h l n).rrRing = d.rrRing := rfl
@[simp] theorem Dev.bumpFld_rrUsed (a h l n : Nat) : (d.bumpFld a h l n).rrUsed = d.rrUsed := rfl
@[simp] theorem Dev.bumpFld_ev (a h l n : Nat) : (d.bumpFld a h l n).ev = d.ev := rfl
@[simp] theorem Dev.bumpFld_glob (a h l n : Nat) : (d.bumpFld a h l n).glob = d.glob := rfl
@[simp] theorem Dev.bumpFld_pads (a h l n : Nat) : (d.bumpFld a h l n).pads = d.pads := rfl
@[simp] theorem Dev.bumpFld_streams (a h l n : Nat) : (d.bumpFld a h l n).streams = d.streams := rfl
@[simp] theorem Dev.bumpFld_jesd (a h l n : Nat) : (d.bumpFld a h l n).jesd = d.jesd := rfl
@[simp] theorem Dev.bumpFld_ain (a h l n : Nat) : (d.bumpFld a h l n).ain = d.ain := rfl
@[simp] theorem Dev.bumpFld_chans (a h l n : Nat) : (d.bumpFld a h l n).chans = d.chans := rfl
@[simp] theorem Dev.bumpFld_engines (a h l n : Nat) : (d.bumpFld a h l n).engines = d.engines := rfl
@[simp] theorem Dev.bumpFld_pairAt (a h l n : Nat) : (d.bumpFld a h l n).pairAt = d.pairAt := rfl
@[simp] theorem Dev.bumpFld_le (a h l n : Nat) : (d.bumpFld a h l n).le = d.le := rfl
@[simp] theorem Dev.bumpFld_masks (a h l n : Nat) : (d.bumpFld a h l n).masks = d.masks := rfl
@[simp] theorem Dev.bumpFld_combs (a h l n : Nat) : (d.bumpFld a h l n).combs = d.combs := rfl
@[simp] theorem Dev.bumpFld_combTold (a h l n : Nat) : (d.bumpFld a h l n).combTold = d.combTold := rfl
@[simp] theorem Dev.bumpFld_tos (a h l n : Nat) : (d.bumpFld a h l n).tos = d.tos := rfl
@[simp] theorem Dev.bumpFld_remote (a h l n : Nat) : (d.bumpFld a h l n).remote = d.remote := rfl
@[simp] theorem Dev.bumpFld_aps (a h l n : Nat) : (d.bumpFld a h l n).aps = d.aps := rfl
@[simp] theorem Dev.bumpFld_cmc (a h l n : Nat) : (d.bumpFld a h l n).cmc = d.cmc := rfl
@[simp] theorem Dev.bumpFld_regions (a h l n : Nat) : (d.bumpFld a h l n).regions = d.regions := rfl
@[simp] theorem Dev.bumpFld_spares (a h l n : Nat) : (d.bumpFld a h l n).spares = d.spares := rfl
@[simp] theorem Dev.bumpFld_dma (a h l n : Nat) : (d.bumpFld a h l n).dma = d.dma := rfl
@[simp] theorem Dev.bumpFld_blocks (a h l n : Nat) : (d.bumpFld a h l n).blocks = d.blocks := rfl
@[simp] theorem Dev.bumpFld_drives (a h l n : Nat) : (d.bumpFld a h l n).drives = d.drives := rfl
@[simp] theorem Dev.bumpFld_relays (a h l n : Nat) : (d.bumpFld a h l n).relays = d.relays := rfl
@[simp] theorem Dev.bumpFld_feeds (a h l n : Nat) : (d.bumpFld a h l n).feeds = d.feeds := rfl
@[simp] theorem Dev.bumpFld_layers (a h l n : Nat) : (d.bumpFld a h l n).layers = d.layers := rfl
@[simp] theorem Dev.bumpFld_raster (a h l n : Nat) : (d.bumpFld a h l n).raster = d.raster := rfl
@[simp] theorem Dev.bumpFld_tps (a h l n : Nat) : (d.bumpFld a h l n).tps = d.tps := rfl
@[simp] theorem Dev.bumpFld_markers (a h l n : Nat) : (d.bumpFld a h l n).markers = d.markers := rfl
@[simp] theorem Dev.bumpFld_mc (a h l n : Nat) : (d.bumpFld a h l n).mc = d.mc := rfl
@[simp] theorem Dev.bumpFld_pwr (a h l n : Nat) : (d.bumpFld a h l n).pwr = d.pwr := rfl
@[simp] theorem Dev.bumpFld_jtag (a h l n : Nat) : (d.bumpFld a h l n).jtag = d.jtag := rfl
@[simp] theorem Dev.bumpFld_free (a h l n : Nat) : (d.bumpFld a h l n).free = d.free := rfl
@[simp] theorem Dev.bumpFld_out (a h l n : Nat) : (d.bumpFld a h l n).out = d.out := rfl

/-! The passing of no time -/

@[simp] theorem Dev.pass_zero : d.pass 0 = d := rfl

/-! States -/

@[simp] theorem State.onto_pending (s : State) : (s.onto d).pending = s.pending := rfl
@[simp] theorem State.onto_mem (s : State) : (s.onto d).mem = s.mem := rfl
@[simp] theorem State.onto_dev (s : State) : (s.onto d).dev = d := rfl
@[simp] theorem State.ontoAll_pending (s : State) (x : Dev × Mems) : (s.ontoAll x).pending = s.pending := rfl
@[simp] theorem State.ontoAll_mem (s : State) (x : Dev × Mems) : (s.ontoAll x).mem = x.2 := rfl
@[simp] theorem State.ontoAll_dev (s : State) (x : Dev × Mems) : (s.ontoAll x).dev = x.1 := rfl

end Sys2Proof.Machine
end

