-- ==== Sys2Proof/Laws/Table.lean ====
section
/-!
SUPPORT. Sparse tables, and each array of the device read after one of its units is set.
-/

namespace Sys2Proof.Machine

theorem Tbl.look_put {α : Type} (dflt v : α) (k n : Nat) (t : Tbl α) :
    Tbl.look dflt (Tbl.put k v t) n = if n = k then v else Tbl.look dflt t n := by
  induction t with
  | nil => by_cases h : n = k <;> simp [Tbl.put, Tbl.look, h, Ne.symm]
  | cons p t ih =>
    obtain ⟨j, w⟩ := p
    simp only [Tbl.put]
    by_cases h : n = k
    · subst h
      by_cases g : j = n
      · simp [g, Tbl.look]
      · by_cases l : n < j <;> simp [g, l, Tbl.look, ih]
    · have h' : ¬ k = n := fun x => h x.symm
      by_cases g : j = k
      · subst g; simp [Tbl.look, h, h']
      · by_cases l : k < j <;> simp [g, l, Tbl.look, ih, h, h']

@[simp] theorem Tbl.look_put_same {α : Type} (dflt v : α) (k : Nat) (t : Tbl α) : Tbl.look dflt (Tbl.put k v t) k = v := by
  simp [Tbl.look_put]

theorem Tbl.look_put_ne {α : Type} (dflt v : α) {k n : Nat} (t : Tbl α) (h : n ≠ k) :
    Tbl.look dflt (Tbl.put k v t) n = Tbl.look dflt t n := by
  simp [Tbl.look_put, h]

variable (d : Dev)

theorem Dev.reg_setReg (a b : Nat) (v : Word) : (d.setReg a v).reg b = if b = a then v else d.reg b := by
  simp only [Dev.reg, Dev.setReg_regs, Tbl.look_put]
@[simp] theorem Dev.reg_setReg_same (a : Nat) (v : Word) : (d.setReg a v).reg a = v := by simp [Dev.reg_setReg]

theorem Dev.ring_setRing (i j : Nat) (x : Ring) : (d.setRing i x).ring j = if j = i then x else d.ring j := by
  simp only [Dev.ring, Dev.setRing, Tbl.look_put]
@[simp] theorem Dev.ring_setRing_same (i : Nat) (x : Ring) : (d.setRing i x).ring i = x := by simp [Dev.ring_setRing]
theorem Dev.ap_setAp (i j : Nat) (x : Aperture) : (d.setAp i x).ap j = if j = i then x else d.ap j := by
  simp only [Dev.ap, Dev.setAp, Tbl.look_put]
@[simp] theorem Dev.ap_setAp_same (i : Nat) (x : Aperture) : (d.setAp i x).ap i = x := by simp [Dev.ap_setAp]
theorem Dev.tp_setTp (i j : Nat) (x : Tp) : (d.setTp i x).tp j = if j = i then x else d.tp j := by
  simp only [Dev.tp, Dev.setTp, Tbl.look_put]
@[simp] theorem Dev.tp_setTp_same (i : Nat) (x : Tp) : (d.setTp i x).tp i = x := by simp [Dev.tp_setTp]
theorem Dev.chan_setChan (i j : Nat) (x : Chan) : (d.setChan i x).chan j = if j = i then x else d.chan j := by
  simp only [Dev.chan, Dev.setChan, Tbl.look_put]
@[simp] theorem Dev.chan_setChan_same (i : Nat) (x : Chan) : (d.setChan i x).chan i = x := by simp [Dev.chan_setChan]
theorem Dev.stream_setStream (i j : Nat) (x : Stream) : (d.setStream i x).stream j = if j = i then x else d.stream j := by
  simp only [Dev.stream, Dev.setStream, Tbl.look_put]
@[simp] theorem Dev.stream_setStream_same (i : Nat) (x : Stream) : (d.setStream i x).stream i = x := by simp [Dev.stream_setStream]
theorem Dev.dmaCh_setDma (i j : Nat) (x : DmaChan) : (d.setDma i x).dmaCh j = if j = i then x else d.dmaCh j := by
  simp only [Dev.dmaCh, Dev.setDma, Tbl.look_put]
@[simp] theorem Dev.dmaCh_setDma_same (i : Nat) (x : DmaChan) : (d.setDma i x).dmaCh i = x := by simp [Dev.dmaCh_setDma]
theorem Dev.marker_setMarker (i j : Nat) (x : Marker) : (d.setMarker i x).marker j = if j = i then x else d.marker j := by
  simp only [Dev.marker, Dev.setMarker, Tbl.look_put]
@[simp] theorem Dev.marker_setMarker_same (i : Nat) (x : Marker) : (d.setMarker i x).marker i = x := by simp [Dev.marker_setMarker]
theorem Dev.feed_setFeed (i j : Nat) (x : Feed) : (d.setFeed i x).feed j = if j = i then x else d.feed j := by
  simp only [Dev.feed, Dev.setFeed, Tbl.look_put]
@[simp] theorem Dev.feed_setFeed_same (i : Nat) (x : Feed) : (d.setFeed i x).feed i = x := by simp [Dev.feed_setFeed]
theorem Dev.layer_setLayer (i j : Nat) (x : Layer) : (d.setLayer i x).layer j = if j = i then x else d.layer j := by
  simp only [Dev.layer, Dev.setLayer, Tbl.look_put]
@[simp] theorem Dev.layer_setLayer_same (i : Nat) (x : Layer) : (d.setLayer i x).layer i = x := by simp [Dev.layer_setLayer]
theorem Dev.pad_setPad (i j : Nat) (x : Pad) : (d.setPad i x).pad j = if j = i then x else d.pad j := by
  simp only [Dev.pad, Dev.setPad, Tbl.look_put]
@[simp] theorem Dev.pad_setPad_same (i : Nat) (x : Pad) : (d.setPad i x).pad i = x := by simp [Dev.pad_setPad]
theorem Dev.region_setRegion (i j : Nat) (x : RegionCount) : (d.setRegion i x).region j = if j = i then x else d.region j := by
  simp only [Dev.region, Dev.setRegion, Tbl.look_put]
@[simp] theorem Dev.region_setRegion_same (i : Nat) (x : RegionCount) : (d.setRegion i x).region i = x := by simp [Dev.region_setRegion]
theorem Dev.drive_setDrive (i j : Nat) (x : DriveSlot) : (d.setDrive i x).drive j = if j = i then x else d.drive j := by
  simp only [Dev.drive, Dev.setDrive, Tbl.look_put]
@[simp] theorem Dev.drive_setDrive_same (i : Nat) (x : DriveSlot) : (d.setDrive i x).drive i = x := by simp [Dev.drive_setDrive]
theorem Dev.relay_setRelay (i j : Nat) (x : RelayStream) : (d.setRelay i x).relay j = if j = i then x else d.relay j := by
  simp only [Dev.relay, Dev.setRelay, Tbl.look_put]
@[simp] theorem Dev.relay_setRelay_same (i : Nat) (x : RelayStream) : (d.setRelay i x).relay i = x := by simp [Dev.relay_setRelay]
theorem Dev.comb_setComb (i j : Nat) (x : Combiner) : (d.setComb i x).comb j = if j = i then x else d.comb j := by
  simp only [Dev.comb, Dev.setComb, Tbl.look_put]
@[simp] theorem Dev.comb_setComb_same (i : Nat) (x : Combiner) : (d.setComb i x).comb i = x := by simp [Dev.comb_setComb]
theorem Dev.to_setTo (i j : Nat) (x : TrigOut) : (d.setTo i x).to j = if j = i then x else d.to j := by
  simp only [Dev.to, Dev.setTo, Tbl.look_put]
@[simp] theorem Dev.to_setTo_same (i : Nat) (x : TrigOut) : (d.setTo i x).to i = x := by simp [Dev.to_setTo]
theorem Dev.mask_setMask (i j : Nat) (x : MaskUnit) : (d.setMask i x).mask j = if j = i then x else d.mask j := by
  simp only [Dev.mask, Dev.setMask, Tbl.look_put]
@[simp] theorem Dev.mask_setMask_same (i : Nat) (x : MaskUnit) : (d.setMask i x).mask i = x := by simp [Dev.mask_setMask]
theorem Dev.leUnit_setLe (i j : Nat) (x : LeUnit) : (d.setLe i x).leUnit j = if j = i then x else d.leUnit j := by
  simp only [Dev.leUnit, Dev.setLe, Tbl.look_put]
@[simp] theorem Dev.leUnit_setLe_same (i : Nat) (x : LeUnit) : (d.setLe i x).leUnit i = x := by simp [Dev.leUnit_setLe]
theorem Dev.link_setLink (i j : Nat) (x : SyncLink) : (d.setLink i x).link j = if j = i then x else d.link j := by
  simp only [Dev.link, Dev.setLink, Tbl.look_put]
@[simp] theorem Dev.link_setLink_same (i : Nat) (x : SyncLink) : (d.setLink i x).link i = x := by simp [Dev.link_setLink]

end Sys2Proof.Machine
end

