-- ==== Sys2Proof/Laws/Mailbox.lean ====
section
/-!
SUPPORT. The mailbox: what taking a command, completing it and checking it do, each said once.
-/

namespace Sys2Proof.Machine

theorem Dev.sameButMailbox_refl (d : Dev) : d.sameButMailbox d := ⟨rfl, fun _ _ => rfl⟩

theorem Dev.sameButMailbox_trans {a b c : Dev} (h : a.sameButMailbox b) (g : b.sameButMailbox c) : a.sameButMailbox c := by
  obtain ⟨h1, h2⟩ := h
  obtain ⟨g1, g2⟩ := g
  exact ⟨by rw [g1, h1], fun x hx => (g2 x hx).trans (h2 x hx)⟩

theorem Dev.sameButMailbox_setRing (d : Dev) (q : Nat) (r : Ring) : d.sameButMailbox (d.setRing q r) := ⟨rfl, fun _ _ => rfl⟩

theorem Dev.sameButMailbox_emit (d : Dev) (o : Output) : d.sameButMailbox (d.emit o) := ⟨rfl, fun _ _ => rfl⟩

theorem Dev.sameButMailbox_sendVector (d : Dev) (v : Nat) : d.sameButMailbox (d.sendVector v) := by
  unfold Dev.sendVector
  split
  · dsimp only; split
    · exact ⟨rfl, fun _ _ => rfl⟩
    · exact Dev.sameButMailbox_emit _ _
  · exact ⟨rfl, fun _ _ => rfl⟩

theorem Dev.sameButMailbox_noteTurnaround (d : Dev) (c : Completion) : d.sameButMailbox (d.noteTurnaround c) := by
  unfold Dev.noteTurnaround
  split
  · refine ⟨rfl, fun x hx => ?_⟩
    unfold Dev.reg Dev.rcDo
    rw [Dev.setReg_regs, Tbl.look_put, if_neg hx]
  · exact ⟨rfl, fun _ _ => rfl⟩

theorem Dev.sameButMailbox_fetchEntry (d : Dev) (q : Nat) : d.sameButMailbox (d.fetchEntry q) := by
  unfold Dev.fetchEntry
  dsimp only
  split
  · exact ⟨rfl, fun _ _ => rfl⟩
  · exact ⟨rfl, fun _ _ => rfl⟩

theorem Dev.sameButMailbox_take (d : Dev) (q : Nat) : d.sameButMailbox (d.take q) := by
  refine Dev.sameButMailbox_trans (Dev.sameButMailbox_fetchEntry d q) ?_
  unfold Dev.take
  dsimp only
  split
  · exact ⟨rfl, fun _ _ => rfl⟩
  · split <;> exact ⟨rfl, fun _ _ => rfl⟩

/-- The entry's read is out before the entry is taken: the ring's head moves on (R72, R73). -/
theorem Dev.take_ring (d : Dev) (q k : Nat) : (d.take q).ring k = if k = q then ((d.fetchEntry q).ring q).taken else (d.fetchEntry q).ring k := by
  unfold Dev.take
  dsimp only
  split
  · exact Dev.ring_setRing _ _ _ _
  · split <;> exact Dev.ring_setRing _ _ _ _

theorem Dev.fetchEntry_ring_ne (d : Dev) {q k : Nat} (h : k ≠ q) : (d.fetchEntry q).ring k = d.ring k := by
  unfold Dev.fetchEntry
  dsimp only
  split
  · rfl
  · exact (Dev.ring_setRing _ _ _ _).trans (if_neg h)

theorem Dev.take_fw (d : Dev) (q : Nat) : (d.take q).fw = d.fw := by
  have := (Dev.sameButMailbox_take d q).1; rw [this]

theorem Dev.sameButMailbox_readBlock (d : Dev) (e : Entry) : d.sameButMailbox (d.readBlock e) := by
  unfold Dev.readBlock
  split <;> exact ⟨rfl, fun _ _ => rfl⟩

theorem Dev.sameButMailbox_writeCompletion (d : Dev) (q : Nat) (c : Completion) : d.sameButMailbox (d.writeCompletion q c) := by
  unfold Dev.writeCompletion
  dsimp only
  have h : d.sameButMailbox (((d.noteTurnaround c).emit (.write ((d.ring q).cqBase + BitVec.ofNat 64 (32 * (d.ring q).cqTail)) (c.dwords (d.ring q).phase) .snooped)).setRing q
      { d.ring q with
        cqTail := if decide ((d.ring q).cqTail + 1 = 2 ^ (d.ring q).cqLog2) then 0 else (d.ring q).cqTail + 1
        phase := if decide ((d.ring q).cqTail + 1 = 2 ^ (d.ring q).cqLog2) then !(d.ring q).phase else (d.ring q).phase
        held := none }) :=
    Dev.sameButMailbox_trans (Dev.sameButMailbox_noteTurnaround d c) (Dev.sameButMailbox_trans (Dev.sameButMailbox_emit _ _) (Dev.sameButMailbox_setRing _ _ _))
  split
  · exact h
  · exact Dev.sameButMailbox_trans h (Dev.sameButMailbox_sendVector _ _)

theorem Dev.sameButMailbox_post (d : Dev) (q : Nat) (c : Completion) : d.sameButMailbox (d.post q c) := by
  unfold Dev.post
  split
  · exact Dev.sameButMailbox_refl d
  · split
    · exact Dev.sameButMailbox_setRing _ _ _
    · exact Dev.sameButMailbox_writeCompletion d q c

theorem Dev.sameButMailbox_reply (f : CmdForm) (d : Dev) (q : Nat) (e : Entry) (w : Answer) : d.sameButMailbox (f.reply d q e w) :=
  Dev.sameButMailbox_post d q _

theorem Dev.sameButMailbox_writeOutE (d : Dev) (e : Entry) (ws : List Word) : d.sameButMailbox (d.writeOutE e ws) := by
  unfold Dev.writeOutE Dev.writeOut
  dsimp only
  split
  · exact Dev.sameButMailbox_refl d
  · exact Dev.sameButMailbox_emit _ _

/-- A mailbox command that is taken passes its checks: what is left is the device as it was taken. -/
theorem checkCmd_takes (f : CmdForm) (q : Nat) (e : Entry) (bad : Dev → List Word → List (Nat × Bool)) (s : State) (dt : Nat)
    (h : s.takes dt f q e bad = true) : checkCmd f q e bad (s.dev.pass dt) = some (true, s.taken dt q e) := by
  simp only [State.takes, Bool.and_eq_true, decide_eq_true_eq, Option.isNone_iff_eq_none, State.after, State.taken] at h
  obtain ⟨⟨⟨⟨h1, h0⟩, h2⟩, h3⟩, h4⟩ := h
  unfold CmdForm.barred at h2
  unfold checkCmd
  rw [if_pos ⟨of_decide_eq_true h1, Or.inl h0⟩]
  dsimp only
  rw [if_neg (by simpa using h0), Dev.take_fw, h3]
  split at h2
  · cases h2
  · rename_i h5
    rw [if_neg h5]
    split at h2
    · cases h2
    · rename_i h6
      rw [if_neg h6]
      dsimp only
      rw [h4]
      rfl

/-- A mailbox command that is taken and passes its checks: its action on the device as it was taken. -/
theorem runCmd_takes (f : CmdForm) (q : Nat) (e : Entry) (bad : Dev → List Word → List (Nat × Bool)) (act : Dev → Dev) (s : State) (dt : Nat)
    (h : s.takes dt f q e bad = true) : runCmd f q e bad act (s.dev.pass dt) = act (s.taken dt q e) := by
  unfold runCmd; rw [checkCmd_takes f q e bad s dt h]

/-- The same for a command that changes the device alone, as `exec` answers it. -/
theorem onDev_takes (f : CmdForm) (q : Nat) (e : Entry) (bad : Dev → List Word → List (Nat × Bool)) (act : Dev → Dev) (s : State) (dt : Nat)
    (h : s.takes dt f q e bad = true) : onDev dt (runCmd f q e bad act) s = .next (s.onto (act (s.taken dt q e))) :=
  congrArg (fun x => Host.Outcome.next (s.onto x)) (runCmd_takes f q e bad act s dt h)

/-- The same for TP_LOAD, which changes memory too. -/
theorem runCmdM_takes (f : CmdForm) (q : Nat) (e : Entry) (bad : Dev → List Word → List (Nat × Bool)) (act : Dev × Mems → Dev × Mems)
    (s : State) (dt : Nat) (h : s.takes dt f q e bad = true) : runCmdM f q e bad act (s.dev.pass dt, s.mem) = act (s.taken dt q e, s.mem) := by
  unfold runCmdM; rw [checkCmd_takes f q e bad s dt h]

end Sys2Proof.Machine
end

