-- ==== Sys2Proof/WellFormed.lean ====
section
/-!
DEFINITION. Well-formed commands: every operand names something the device has, with the length that its row gives it.
-/

namespace Sys2Proof

/-- A command entry: ten dwords of body, and header fields that fit their widths (R77). -/
def Entry.wf (e : Entry) : Bool :=
  decide (e.body.length = 10) && decide (e.cmdId < 65536) && decide (e.target < 65536) && decide (e.timeoutMs < 65536) && decide (e.rsvd < 64) && decide (e.opcode < 256)

/-- A sync word: SEQ, ID and ARG fit their widths (R122). -/
def SyncWord.wf (w : SyncWord) : Bool := decide (w.seq < 256) && decide (w.id < 65536) && decide (w.arg < 4294967296)

/-- Bytes `lo` to `lo + len - 1` lie in one dword. -/
def okBytes (lo len : Nat) : Bool := decide (1 ≤ len) && decide (lo + len ≤ 4)

/-- Bytes `lo` to `lo + len - 1` lie in an access of one or two dwords (R47). -/
def okRead (lo len : Nat) : Bool := decide (1 ≤ len) && decide (lo + len ≤ 8)

/-- A 12-bit converter code. -/
def okCode (c : Int) : Bool := decide (-2048 ≤ c) && decide (c ≤ 2047)

/-- A register write: one or two dwords at an offset divisible by 4 inside the BAR, or one configuration register (R47). -/
def okWrite (sp : RegSpace) (vs : List Word) : Bool :=
  match sp with
  | .bar0 off => decide (off % 4 = 0) && decide (off + 4 * vs.length ≤ 2 ^ 24) && decide (vs.length = 1 ∨ vs.length = 2)
  | .bar4 off => decide (off % 4 = 0) && decide (off + 4 * vs.length ≤ 2 ^ 22) && decide (vs.length = 1 ∨ vs.length = 2)
  | .config _ => decide (vs.length = 1)

/-- Upset bits of a stored line (R361), and of a Facet byte's 13 stored bits (R394). -/
def okUpsets (errs : List Upset) : Bool := errs.all (fun e => decide (e.pos < 72) && decide (e.bits < 256))
def okFacet (errs : List (Nat × Nat)) : Bool := errs.all (fun e => decide (e.2 < 8192))

/-- What a failed read was for names a ring, a channel or a slot that exists. -/
def HostReq.wf : HostReq → Bool
  | .sqEntry q => decide (q < 64)
  | .paramBlock q e => decide (q < 64) && e.wf
  | .flush c => decide (c < 64)
  | .block ch _ => decide (ch = 62 ∨ ch = 63)
  | .relay slot cid => decide (slot < 16) && decide (cid < 65536)

/-- A command is well formed. -/
def Instr.wf : Instr → Bool
  | .nop _ q e => decide (q < 64) && e.wf
  | .describe _ q e => decide (q < 64) && e.wf
  | .ringCreate _ q e => decide (q < 64) && e.wf
  | .ringDelete _ q e => decide (q < 64) && e.wf
  | .eventRingSet _ q e => decide (q < 64) && e.wf
  | .eventRoute _ q e => decide (q < 64) && e.wf
  | .timeRead _ q e => decide (q < 64) && e.wf
  | .timeRefSet _ q e => decide (q < 64) && e.wf
  | .launchAt _ q e => decide (q < 64) && e.wf
  | .launchBind _ q e => decide (q < 64) && e.wf
  | .launchFire _ q e => decide (q < 64) && e.wf
  | .launchCancel _ q e => decide (q < 64) && e.wf
  | .barrier _ q e => decide (q < 64) && e.wf
  | .snapshot _ q e => decide (q < 64) && e.wf
  | .snapshotJoin _ q e => decide (q < 64) && e.wf
  | .snapshotFire _ q e => decide (q < 64) && e.wf
  | .resetAt _ q e => decide (q < 64) && e.wf
  | .broadcast _ q e => decide (q < 64) && e.wf
  | .apertureStage _ q e => decide (q < 64) && e.wf
  | .apertureAdmit _ q e => decide (q < 64) && e.wf
  | .apertureHalt _ q e => decide (q < 64) && e.wf
  | .apertureRelease _ q e => decide (q < 64) && e.wf
  | .apertureQuery _ q e => decide (q < 64) && e.wf
  | .apertureWait _ q e => decide (q < 64) && e.wf
  | .captureArm _ q e => decide (q < 64) && e.wf
  | .captureTrigger _ q e => decide (q < 64) && e.wf
  | .captureFreeze _ q e => decide (q < 64) && e.wf
  | .recordList _ q e => decide (q < 64) && e.wf
  | .blockRead _ q e => decide (q < 64) && e.wf
  | .blockWrite _ q e => decide (q < 64) && e.wf
  | .tpLoad _ q e => decide (q < 64) && e.wf
  | .tpStart _ q e => decide (q < 64) && e.wf
  | .tpResume _ q e => decide (q < 64) && e.wf
  | .tpStop _ q e => decide (q < 64) && e.wf
  | .displayMode _ q e => decide (q < 64) && e.wf
  | .layerSet _ q e => decide (q < 64) && e.wf
  | .layerFlip _ q e => decide (q < 64) && e.wf
  | .relayAttach _ q e => decide (q < 64) && e.wf
  | .relayDetach _ q e => decide (q < 64) && e.wf
  | .calSweep _ q e => decide (q < 64) && e.wf
  | .calApply _ q e => decide (q < 64) && e.wf
  | .sensorRead _ q e => decide (q < 64) && e.wf
  | .logRead _ q e => decide (q < 64) && e.wf
  | .spareStatus _ q e => decide (q < 64) && e.wf
  | .sparePolicy _ q e => decide (q < 64) && e.wf
  | .fwUpdateBegin _ q e => decide (q < 64) && e.wf
  | .fwUpdateData _ q e => decide (q < 64) && e.wf
  | .fwUpdateCommit _ q e => decide (q < 64) && e.wf
  | .attest _ q e => decide (q < 64) && e.wf
  | .identityRead _ q e => decide (q < 64) && e.wf
  | .sqDb _ q _ => decide (q < 64)
  | .cqDb _ q _ => decide (q < 64)
  | .evqDb _ _ => true
  | .ring0Enable _ _ => true
  | .ring0Disable _ _ => true
  | .indDataRead _ lo len => okRead lo len
  | .indDataWrite _ _ => true
  | .lowHalfRead _ _ addr lo len => decide (addr % 4 = 0) && okRead lo len
  | .highHalfRead _ _ addr lo len => decide (addr % 4 = 0) && okRead lo len
  | .rcFieldRead _ addr lo len => decide (addr % 4 = 0) && okRead lo len
  | .bar0PartialWrite _ addr lo len => decide (addr % 4 = 0) && okBytes lo len && decide (len ≠ 4)
  | .registerWrite _ sp vs => okWrite sp vs
  | .bar2Read _ off len errs => decide (1 ≤ len) && decide (off + len ≤ 2 ^ 36) && okUpsets errs
  | .bar2Write _ off => decide (off < 2 ^ 36)
  | .msixVectorUnmask _ v => decide (v < 256)
  | .expHeadWrite _ c _ => decide (c < 64)
  | .expPause _ c => decide (c < 64)
  | .expResume _ c => decide (c < 64)
  | .clearHalt _ c => decide (c < 64)
  | .mkqDataRead _ n k => decide (n < 16) && decide (k < 4)
  | .flr _ => true
  | .d3hotEntry _ => true
  | .busMasterClear _ => true
  | .hotReset _ => true
  | .readyReturn _ => true
  | .hostReadErrorCompletion _ r _ _ => r.wf
  | .hostReadTimeout _ r _ => r.wf
  | .commandTimeout _ q => decide (q < 64)
  | .refInPresent _ => true
  | .refInLost _ => true
  | .ppsEdge _ _ frac => decide (frac < 3000000)
  | .ppsLost _ => true
  | .timebaseLock _ _ _ => true
  | .idle _ k w => decide (k < 16) && w.wf
  | .rangeReq _ k w => decide (k < 16) && w.wf
  | .rangeEcho _ k w => decide (k < 16) && w.wf
  | .fire _ k w => decide (k < 16) && w.wf
  | .cancel _ k w => decide (k < 16) && w.wf
  | .applied _ k w => decide (k < 16) && w.wf
  | .snapFire _ k w => decide (k < 16) && w.wf
  | .resetFire _ k w => decide (k < 16) && w.wf
  | .barrierArrive _ k w => decide (k < 16) && w.wf
  | .barrierWithdraw _ k w => decide (k < 16) && w.wf
  | .barrierRelease _ k w => decide (k < 16) && w.wf
  | .barrierWithdrawn _ k w => decide (k < 16) && w.wf
  | .bcastData _ k w => decide (k < 16) && w.wf
  | .bcastAck _ k w => decide (k < 16) && w.wf
  | .trig _ k w => decide (k < 16) && w.wf
  | .verdict _ k w => decide (k < 16) && w.wf
  | .remoteTrigTimeout _ id _ => decide (id < 65536)
  | .rangingTimer _ k => decide (k < 16)
  | .syncLinkUp _ k _ _ => decide (k < 16)
  | .syncLinkDown _ k _ => decide (k < 16)
  | .launchTick _ id => decide (id < 65536)
  | .snapshotTick _ id => decide (id < 65536)
  | .snapshotOutWrite _ id => decide (id < 65536)
  | .resetTick _ id => decide (id < 65536)
  | .broadcastDelivery _ => true
  | .apertureHaltTick _ a => decide (a < 1024)
  | .captureArmEffect _ a => decide (a < 1024)
  | .captureFreezeEffect _ a => decide (a < 1024)
  | .tpStartTick _ n => decide (n < 32)
  | .pslFrame _ pad words => decide (pad < 96) && decide (words.length = 168)
  | .pslGroupRelease _ s => decide (s < 244)
  | .streamDownTimeout _ s => decide (s < 244)
  | .substituteDue _ s => decide (s < 244)
  | .jesdMultiblockRelease _ link _ _ => decide (link < 24)
  | .sysrefEdge _ => true
  | .jesdLaneAlignmentLoss _ pad => decide (pad < 96)
  | .splitterDelivery _ s r0 r1 => decide (s < 244) && okCode r0.code && okCode r1.code
  | .rotationSwap _ n _ => decide (n < 4)
  | .spareLockstepEnd _ id _ => decide (id < 10)
  | .wearEvaluation _ kind _ _ _ => decide (kind < 10)
  | .channelOutputWrite _ c => decide (c < 512)
  | .frameReadStart _ sector engine errs => decide (sector < 8) && decide (engine < 18) && okFacet errs
  | .spectrumDelivery _ c _ => decide (c < 512)
  | .binEmission _ c => decide (c < 512)
  | .timeSampleDelivery _ c => decide (c < 512)
  | .maskVerdict _ u => decide (u < 256)
  | .combinerEvent _ k => decide (k < 64)
  | .combinerVerdict _ k => decide (k < 64)
  | .apertureCandidate _ a => decide (a < 1024)
  | .apertureVerdict _ a => decide (a < 1024)
  | .triggerPulse _ n => decide (n < 8)
  | .cancelCode _ n => decide (n < 8)
  | .rearmEnd _ a => decide (a < 1024)
  | .entryWrite _ a slot ch => decide (a < 1024) && decide (slot < 4) && decide (ch < 512)
  | .recordComplete _ a => decide (a < 1024)
  | .periodBoundary _ => true
  | .scheduledSlot _ x => decide (x < 192)
  | .refreshSlot _ x => decide (x < 192)
  | .neighbourRefreshSlot _ x => decide (x < 192)
  | .leftoverSlot _ r => decide (r.pc < 192) && okUpsets r.errs
  | .rankPowerDown _ x rank => decide (x < 192) && decide (rank < 2)
  | .stackTemperatureSample _ stack _ => decide (stack < 6)
  | .retrainStart _ x => decide (x < 192)
  | .trainingStepEnd _ x _ _ _ => decide (x < 192)
  | .phyRelockDone _ => true
  | .ceWriteback _ _ => true
  | .captureScrubRead _ x errs => decide (x < 192) && okUpsets errs
  | .facetScrubRead _ g _ errs => decide (g < 5) && okFacet errs
  | .sequencerTrap _ r => (match r.source with | .tables as_ => as_.all (fun a => decide (a ≤ 1023)) | _ => true)
  | .decaySweepStart _ p => decide (p < 8)
  | .renderStart _ p => decide (p < 8)
  | .renderComplete _ p => decide (p < 8)
  | .verticalBlankingStart _ => true
  | .activeLineStart _ => true
  | .pixelClockLock _ => true
  | .hpdRise _ edid dpcd => decide (edid.length ≤ 512) && decide (dpcd.length = 16)
  | .irqHpd _ _ => true
  | .hpdLoss _ => true
  | .dpLinkTrainingEnd _ _ => true
  | .tpNop _ n => decide (n < 32)
  | .tpHalt _ n => decide (n < 32)
  | .tpWait _ n mask => decide (n < 32) && decide (mask < 2048)
  | .waitWake _ n => decide (n < 32)
  | .tpSig _ n code => decide (n < 32) && decide (code < 256)
  | .tpAdd _ n => decide (n < 32)
  | .tpSub _ n => decide (n < 32)
  | .tpAnd _ n => decide (n < 32)
  | .tpOr _ n => decide (n < 32)
  | .tpXor _ n => decide (n < 32)
  | .tpShl _ n => decide (n < 32)
  | .tpShr _ n => decide (n < 32)
  | .tpSar _ n => decide (n < 32)
  | .tpMul _ n => decide (n < 32)
  | .tpCmp _ n => decide (n < 32)
  | .tpMov _ n => decide (n < 32)
  | .tpLi _ n => decide (n < 32)
  | .tpLih _ n => decide (n < 32)
  | .tpLd _ n => decide (n < 32)
  | .tpSt _ n => decide (n < 32)
  | .tpStacc _ n => decide (n < 32)
  | .tpMovp _ n => decide (n < 32)
  | .tpMovb _ n => decide (n < 32)
  | .tpMovl _ n => decide (n < 32)
  | .tpMvp _ n => decide (n < 32)
  | .tpMvb _ n => decide (n < 32)
  | .tpMvl _ n => decide (n < 32)
  | .tpAddp _ n => decide (n < 32)
  | .tpCmac4 _ n => decide (n < 32)
  | .tpCmac1 _ n => decide (n < 32)
  | .tpClra _ n => decide (n < 32)
  | .tpAdda _ n => decide (n < 32)
  | .tpMva _ n => decide (n < 32)
  | .tpBr _ n => decide (n < 32)
  | .tpJal _ n => decide (n < 32)
  | .tpJr _ n => decide (n < 32)
  | .tpRti _ n => decide (n < 32)
  | .tpRep _ n => decide (n < 32)
  | .tpPop _ n => decide (n < 32)
  | .tpPush _ n => decide (n < 32)
  | .tpQcntFeed _ n => decide (n < 32)
  | .tpQcntResult _ n => decide (n < 32)
  | .tpMfc _ n => decide (n < 32)
  | .tpMtc _ n => decide (n < 32)
  | .tpBindClr _ n => decide (n < 32)
  | .tpTcmpHiWrite _ n => decide (n < 32)
  | .tpRdt _ n => decide (n < 32)
  | .interruptEntry _ n => decide (n < 32)
  | .timerCompare _ n => decide (n < 32)
  | .feedDescriptorPush _ n f => decide (n < 32) && decide (f < 8)
  | .markerEdge _ n _ _ => decide (n < 16)
  | .markerEntryPush _ n => decide (n < 16)
  | .intervalTimeout _ n => decide (n < 16)
  | .queueDrain _ c => decide (c < 60)
  | .packetStart _ r => decide (r.chan < 60) && okUpsets r.errs
  | .flushTimer _ c => decide (c < 60)
  | .publicationStart _ c => decide (c < 60)
  | .flushReadComplete _ c => decide (c < 60)
  | .blockTransferComplete _ ch _ errs => decide (ch = 62 ∨ ch = 63) && okUpsets errs
  | .relayChunkSubmit _ st => decide (st < 16)
  | .nvmeCompletion _ slot cid status => decide (slot < 16) && decide (cid < 65536) && decide (status < 65536)
  | .nvmeCommandTimeout _ slot cid => decide (slot < 16) && decide (cid < 65536)
  | .relayDrainComplete _ st => decide (st < 16)
  | .sensorConversion _ temps rails => decide (temps.length = 48) && decide (rails.length = 9)
  | .calSweepEnd _ => true
  | .logFlush _ => true
  | .mcWatchdogRestart _ => true
  | .updateIdleTimeout _ => true
  | .trialReadyTimeout _ => true
  | .trialSuccess _ => true
  | .firmwareFaultRestart _ => true
  | .stageFailureRestart _ => true
  | .standbyPowerUp _ _ _ => true
  | .railEnable _ => true
  | .railWindowTimeout _ => true
  | .shdnNLow _ => true
  | .shutdownComplete _ => true
  | .shdnNHigh _ => true
  | .mrstNLow _ => true
  | .mrstNRelease _ => true
  | .refclkPresent _ => true
  | .refclkLost _ => true
  | .mdllLock _ _ => true
  | .synthesiserLock _ n _ => decide (n < 40)
  | .bringupStageEnd _ _ bad => bad.all (fun p => decide (p.1 < 10))
  | .perstAssert _ => true
  | .perstRelease _ => true
  | .trstNLow _ => true
  | .bypass _ => true
  | .idcode _ => true
  | .samplePreload _ _ => true
  | .extest _ _ => true
  | .clamp _ => true
  | .highz _ => true
  | .smbusBlockRead _ cmd => decide (cmd < 256)
  | .smbusAlertResponse _ => true
  | .jesdLaneAligned _ pad => decide (pad < 96)
  | .syncWordCrcError _ k => decide (k < 16)
  | .syncWordSlot _ k => decide (k < 16)
  | .standbyPowerLoss _ => true
  | .pcieLinkUp _ rate10 width => [25, 50, 80, 160, 320, 640].contains rate10 && [1, 2, 4, 8, 16].contains width
  | .configurationRequest _ => true
  | .periscopeRefresh _ => true
  | .triggerPulseEnd _ n => decide (n < 8)
  | .overRangeSample _ n code => decide (n < 4) && !(okCode code)
  | .smbusWrite _ => true
  | .earlyRead _ addr => decide (addr % 4 = 0)

end Sys2Proof
end

