-- ==== Sys2Proof/Laws/PerInstr.lean ====
section
/-!
SUPPORT. Every command as syntax: a well-formed mailbox command names one of the 64 rings and carries a well-formed entry (R66, R77), said of each command.
-/

namespace Sys2Proof.Laws.Rings

open Sys2Proof.Machine

/-- What the family says of a command. -/
def Statement (i : Instr) : Prop := ∀ r, mailboxRow i = some r → i.wf = true → r.q < 64 ∧ r.e.wf = true

/-- A mailbox command whose row and well-formedness are as written. -/
theorem of_row {i : Instr} {x : MailRow} (h : mailboxRow i = some x) (w : i.wf = (decide (x.q < 64) && x.e.wf)) : Statement i := by
  intro r hr hw
  rw [h] at hr; cases hr
  rw [w, Bool.and_eq_true, decide_eq_true_eq] at hw
  exact hw

/-- A command that is none of the mailbox's. -/
theorem of_none {i : Instr} (h : mailboxRow i = none) : Statement i := by
  intro r hr; rw [h] at hr; cases hr

theorem nop (dt q : Nat) (e : Entry) : Statement (.nop dt q e) := of_row rfl rfl
theorem describe (dt q : Nat) (e : Entry) : Statement (.describe dt q e) := of_row rfl rfl
theorem ringCreate (dt q : Nat) (e : Entry) : Statement (.ringCreate dt q e) := of_row rfl rfl
theorem ringDelete (dt q : Nat) (e : Entry) : Statement (.ringDelete dt q e) := of_row rfl rfl
theorem eventRingSet (dt q : Nat) (e : Entry) : Statement (.eventRingSet dt q e) := of_row rfl rfl
theorem eventRoute (dt q : Nat) (e : Entry) : Statement (.eventRoute dt q e) := of_row rfl rfl
theorem timeRead (dt q : Nat) (e : Entry) : Statement (.timeRead dt q e) := of_row rfl rfl
theorem timeRefSet (dt q : Nat) (e : Entry) : Statement (.timeRefSet dt q e) := of_row rfl rfl
theorem launchAt (dt q : Nat) (e : Entry) : Statement (.launchAt dt q e) := of_row rfl rfl
theorem launchBind (dt q : Nat) (e : Entry) : Statement (.launchBind dt q e) := of_row rfl rfl
theorem launchFire (dt q : Nat) (e : Entry) : Statement (.launchFire dt q e) := of_row rfl rfl
theorem launchCancel (dt q : Nat) (e : Entry) : Statement (.launchCancel dt q e) := of_row rfl rfl
theorem barrier (dt q : Nat) (e : Entry) : Statement (.barrier dt q e) := of_row rfl rfl
theorem snapshot (dt q : Nat) (e : Entry) : Statement (.snapshot dt q e) := of_row rfl rfl
theorem snapshotJoin (dt q : Nat) (e : Entry) : Statement (.snapshotJoin dt q e) := of_row rfl rfl
theorem snapshotFire (dt q : Nat) (e : Entry) : Statement (.snapshotFire dt q e) := of_row rfl rfl
theorem resetAt (dt q : Nat) (e : Entry) : Statement (.resetAt dt q e) := of_row rfl rfl
theorem broadcast (dt q : Nat) (e : Entry) : Statement (.broadcast dt q e) := of_row rfl rfl
theorem apertureStage (dt q : Nat) (e : Entry) : Statement (.apertureStage dt q e) := of_row rfl rfl
theorem apertureAdmit (dt q : Nat) (e : Entry) : Statement (.apertureAdmit dt q e) := of_row rfl rfl
theorem apertureHalt (dt q : Nat) (e : Entry) : Statement (.apertureHalt dt q e) := of_row rfl rfl
theorem apertureRelease (dt q : Nat) (e : Entry) : Statement (.apertureRelease dt q e) := of_row rfl rfl
theorem apertureQuery (dt q : Nat) (e : Entry) : Statement (.apertureQuery dt q e) := of_row rfl rfl
theorem apertureWait (dt q : Nat) (e : Entry) : Statement (.apertureWait dt q e) := of_row rfl rfl
theorem captureArm (dt q : Nat) (e : Entry) : Statement (.captureArm dt q e) := of_row rfl rfl
theorem captureTrigger (dt q : Nat) (e : Entry) : Statement (.captureTrigger dt q e) := of_row rfl rfl
theorem captureFreeze (dt q : Nat) (e : Entry) : Statement (.captureFreeze dt q e) := of_row rfl rfl
theorem recordList (dt q : Nat) (e : Entry) : Statement (.recordList dt q e) := of_row rfl rfl
theorem blockRead (dt q : Nat) (e : Entry) : Statement (.blockRead dt q e) := of_row rfl rfl
theorem blockWrite (dt q : Nat) (e : Entry) : Statement (.blockWrite dt q e) := of_row rfl rfl
theorem tpLoad (dt q : Nat) (e : Entry) : Statement (.tpLoad dt q e) := of_row rfl rfl
theorem tpStart (dt q : Nat) (e : Entry) : Statement (.tpStart dt q e) := of_row rfl rfl
theorem tpResume (dt q : Nat) (e : Entry) : Statement (.tpResume dt q e) := of_row rfl rfl
theorem tpStop (dt q : Nat) (e : Entry) : Statement (.tpStop dt q e) := of_row rfl rfl
theorem displayMode (dt q : Nat) (e : Entry) : Statement (.displayMode dt q e) := of_row rfl rfl
theorem layerSet (dt q : Nat) (e : Entry) : Statement (.layerSet dt q e) := of_row rfl rfl
theorem layerFlip (dt q : Nat) (e : Entry) : Statement (.layerFlip dt q e) := of_row rfl rfl
theorem relayAttach (dt q : Nat) (e : Entry) : Statement (.relayAttach dt q e) := of_row rfl rfl
theorem relayDetach (dt q : Nat) (e : Entry) : Statement (.relayDetach dt q e) := of_row rfl rfl
theorem calSweep (dt q : Nat) (e : Entry) : Statement (.calSweep dt q e) := of_row rfl rfl
theorem calApply (dt q : Nat) (e : Entry) : Statement (.calApply dt q e) := of_row rfl rfl
theorem sensorRead (dt q : Nat) (e : Entry) : Statement (.sensorRead dt q e) := of_row rfl rfl
theorem logRead (dt q : Nat) (e : Entry) : Statement (.logRead dt q e) := of_row rfl rfl
theorem spareStatus (dt q : Nat) (e : Entry) : Statement (.spareStatus dt q e) := of_row rfl rfl
theorem sparePolicy (dt q : Nat) (e : Entry) : Statement (.sparePolicy dt q e) := of_row rfl rfl
theorem fwUpdateBegin (dt q : Nat) (e : Entry) : Statement (.fwUpdateBegin dt q e) := of_row rfl rfl
theorem fwUpdateData (dt q : Nat) (e : Entry) : Statement (.fwUpdateData dt q e) := of_row rfl rfl
theorem fwUpdateCommit (dt q : Nat) (e : Entry) : Statement (.fwUpdateCommit dt q e) := of_row rfl rfl
theorem attest (dt q : Nat) (e : Entry) : Statement (.attest dt q e) := of_row rfl rfl
theorem identityRead (dt q : Nat) (e : Entry) : Statement (.identityRead dt q e) := of_row rfl rfl
theorem sqDb (dt : Nat) (q : Nat) (v : Word) : Statement (.sqDb dt q v) := of_none rfl
theorem cqDb (dt : Nat) (q : Nat) (v : Word) : Statement (.cqDb dt q v) := of_none rfl
theorem evqDb (dt : Nat) (v : Word) : Statement (.evqDb dt v) := of_none rfl
theorem ring0Enable (dt : Nat) (v : Word) : Statement (.ring0Enable dt v) := of_none rfl
theorem ring0Disable (dt : Nat) (v : Word) : Statement (.ring0Disable dt v) := of_none rfl
theorem indDataRead (dt : Nat) (lo len : Nat) : Statement (.indDataRead dt lo len) := of_none rfl
theorem indDataWrite (dt : Nat) (v : Word) : Statement (.indDataWrite dt v) := of_none rfl
theorem lowHalfRead (dt : Nat) (p : Port) (addr lo len : Nat) : Statement (.lowHalfRead dt p addr lo len) := of_none rfl
theorem highHalfRead (dt : Nat) (p : Port) (addr lo len : Nat) : Statement (.highHalfRead dt p addr lo len) := of_none rfl
theorem rcFieldRead (dt : Nat) (addr lo len : Nat) : Statement (.rcFieldRead dt addr lo len) := of_none rfl
theorem bar0PartialWrite (dt : Nat) (addr lo len : Nat) : Statement (.bar0PartialWrite dt addr lo len) := of_none rfl
theorem registerWrite (dt : Nat) (sp : RegSpace) (vs : List Word) : Statement (.registerWrite dt sp vs) := of_none rfl
theorem bar2Read (dt : Nat) (off len : Nat) (errs : List Upset) : Statement (.bar2Read dt off len errs) := of_none rfl
theorem bar2Write (dt : Nat) (off : Nat) : Statement (.bar2Write dt off) := of_none rfl
theorem msixVectorUnmask (dt : Nat) (v : Nat) : Statement (.msixVectorUnmask dt v) := of_none rfl
theorem expHeadWrite (dt : Nat) (c : Nat) (hi : Word) : Statement (.expHeadWrite dt c hi) := of_none rfl
theorem expPause (dt : Nat) (c : Nat) : Statement (.expPause dt c) := of_none rfl
theorem expResume (dt : Nat) (c : Nat) : Statement (.expResume dt c) := of_none rfl
theorem clearHalt (dt : Nat) (c : Nat) : Statement (.clearHalt dt c) := of_none rfl
theorem mkqDataRead (dt : Nat) (n k : Nat) : Statement (.mkqDataRead dt n k) := of_none rfl
theorem flr (dt : Nat) : Statement (.flr dt) := of_none rfl
theorem d3hotEntry (dt : Nat) : Statement (.d3hotEntry dt) := of_none rfl
theorem busMasterClear (dt : Nat) : Statement (.busMasterClear dt) := of_none rfl
theorem hotReset (dt : Nat) : Statement (.hotReset dt) := of_none rfl
theorem readyReturn (dt : Nat) : Statement (.readyReturn dt) := of_none rfl
theorem hostReadErrorCompletion (dt : Nat) (r : HostReq) (kind : ReadFail) (addr : QWord) : Statement (.hostReadErrorCompletion dt r kind addr) := of_none rfl
theorem hostReadTimeout (dt : Nat) (r : HostReq) (addr : QWord) : Statement (.hostReadTimeout dt r addr) := of_none rfl
theorem commandTimeout (dt : Nat) (q : Nat) : Statement (.commandTimeout dt q) := of_none rfl
theorem refInPresent (dt : Nat) : Statement (.refInPresent dt) := of_none rfl
theorem refInLost (dt : Nat) : Statement (.refInLost dt) := of_none rfl
theorem ppsEdge (dt : Nat) (falling : Bool) (frac : Nat) : Statement (.ppsEdge dt falling frac) := of_none rfl
theorem ppsLost (dt : Nat) : Statement (.ppsLost dt) := of_none rfl
theorem timebaseLock (dt : Nat) (loop : Loop) (phase : Int) : Statement (.timebaseLock dt loop phase) := of_none rfl
theorem idle (dt k : Nat) (w : SyncWord) : Statement (.idle dt k w) := of_none rfl
theorem rangeReq (dt k : Nat) (w : SyncWord) : Statement (.rangeReq dt k w) := of_none rfl
theorem rangeEcho (dt k : Nat) (w : SyncWord) : Statement (.rangeEcho dt k w) := of_none rfl
theorem fire (dt k : Nat) (w : SyncWord) : Statement (.fire dt k w) := of_none rfl
theorem cancel (dt k : Nat) (w : SyncWord) : Statement (.cancel dt k w) := of_none rfl
theorem applied (dt k : Nat) (w : SyncWord) : Statement (.applied dt k w) := of_none rfl
theorem snapFire (dt k : Nat) (w : SyncWord) : Statement (.snapFire dt k w) := of_none rfl
theorem resetFire (dt k : Nat) (w : SyncWord) : Statement (.resetFire dt k w) := of_none rfl
theorem barrierArrive (dt k : Nat) (w : SyncWord) : Statement (.barrierArrive dt k w) := of_none rfl
theorem barrierWithdraw (dt k : Nat) (w : SyncWord) : Statement (.barrierWithdraw dt k w) := of_none rfl
theorem barrierRelease (dt k : Nat) (w : SyncWord) : Statement (.barrierRelease dt k w) := of_none rfl
theorem barrierWithdrawn (dt k : Nat) (w : SyncWord) : Statement (.barrierWithdrawn dt k w) := of_none rfl
theorem bcastData (dt k : Nat) (w : SyncWord) : Statement (.bcastData dt k w) := of_none rfl
theorem bcastAck (dt k : Nat) (w : SyncWord) : Statement (.bcastAck dt k w) := of_none rfl
theorem trig (dt k : Nat) (w : SyncWord) : Statement (.trig dt k w) := of_none rfl
theorem verdict (dt k : Nat) (w : SyncWord) : Statement (.verdict dt k w) := of_none rfl
theorem remoteTrigTimeout (dt : Nat) (id fire : Nat) : Statement (.remoteTrigTimeout dt id fire) := of_none rfl
theorem rangingTimer (dt : Nat) (k : Nat) : Statement (.rangingTimer dt k) := of_none rfl
theorem syncLinkUp (dt : Nat) (k delayPs : Nat) (upstream : QWord) : Statement (.syncLinkUp dt k delayPs upstream) := of_none rfl
theorem syncLinkDown (dt : Nat) (k cause : Nat) : Statement (.syncLinkDown dt k cause) := of_none rfl
theorem launchTick (dt : Nat) (id : Nat) : Statement (.launchTick dt id) := of_none rfl
theorem snapshotTick (dt : Nat) (id : Nat) : Statement (.snapshotTick dt id) := of_none rfl
theorem snapshotOutWrite (dt : Nat) (id : Nat) : Statement (.snapshotOutWrite dt id) := of_none rfl
theorem resetTick (dt : Nat) (id : Nat) : Statement (.resetTick dt id) := of_none rfl
theorem broadcastDelivery (dt : Nat) : Statement (.broadcastDelivery dt) := of_none rfl
theorem apertureHaltTick (dt : Nat) (a : Nat) : Statement (.apertureHaltTick dt a) := of_none rfl
theorem captureArmEffect (dt : Nat) (a : Nat) : Statement (.captureArmEffect dt a) := of_none rfl
theorem captureFreezeEffect (dt : Nat) (a : Nat) : Statement (.captureFreezeEffect dt a) := of_none rfl
theorem tpStartTick (dt : Nat) (n : Nat) : Statement (.tpStartTick dt n) := of_none rfl
theorem pslFrame (dt : Nat) (pad : Nat) (words : List Word) : Statement (.pslFrame dt pad words) := of_none rfl
theorem pslGroupRelease (dt : Nat) (s : Nat) : Statement (.pslGroupRelease dt s) := of_none rfl
theorem streamDownTimeout (dt : Nat) (s : Nat) : Statement (.streamDownTimeout dt s) := of_none rfl
theorem substituteDue (dt : Nat) (s : Nat) : Statement (.substituteDue dt s) := of_none rfl
theorem jesdMultiblockRelease (dt : Nat) (link : Nat) (arr : MbArrival) (convs : List (List Word)) : Statement (.jesdMultiblockRelease dt link arr convs) := of_none rfl
theorem sysrefEdge (dt : Nat) : Statement (.sysrefEdge dt) := of_none rfl
theorem jesdLaneAlignmentLoss (dt : Nat) (pad : Nat) : Statement (.jesdLaneAlignmentLoss dt pad) := of_none rfl
theorem splitterDelivery (dt : Nat) (s : Nat) (r0 r1 : AinCode) : Statement (.splitterDelivery dt s r0 r1) := of_none rfl
theorem rotationSwap (dt : Nat) (n : Nat) (res : Residuals) : Statement (.rotationSwap dt n res) := of_none rfl
theorem spareLockstepEnd (dt : Nat) (id : Nat) (agree : Bool) : Statement (.spareLockstepEnd dt id agree) := of_none rfl
theorem wearEvaluation (dt : Nat) (kind unit ind : Nat) (value : Nat) : Statement (.wearEvaluation dt kind unit ind value) := of_none rfl
theorem channelOutputWrite (dt : Nat) (c : Nat) : Statement (.channelOutputWrite dt c) := of_none rfl
theorem frameReadStart (dt : Nat) (sector engine : Nat) (errs : List (Nat × Nat)) : Statement (.frameReadStart dt sector engine errs) := of_none rfl
theorem spectrumDelivery (dt : Nat) (c : Nat) (checkFails : Bool) : Statement (.spectrumDelivery dt c checkFails) := of_none rfl
theorem binEmission (dt : Nat) (c : Nat) : Statement (.binEmission dt c) := of_none rfl
theorem timeSampleDelivery (dt : Nat) (c : Nat) : Statement (.timeSampleDelivery dt c) := of_none rfl
theorem maskVerdict (dt : Nat) (u : Nat) : Statement (.maskVerdict dt u) := of_none rfl
theorem combinerEvent (dt : Nat) (k : Nat) : Statement (.combinerEvent dt k) := of_none rfl
theorem combinerVerdict (dt : Nat) (k : Nat) : Statement (.combinerVerdict dt k) := of_none rfl
theorem apertureCandidate (dt : Nat) (a : Nat) : Statement (.apertureCandidate dt a) := of_none rfl
theorem apertureVerdict (dt : Nat) (a : Nat) : Statement (.apertureVerdict dt a) := of_none rfl
theorem triggerPulse (dt : Nat) (n : Nat) : Statement (.triggerPulse dt n) := of_none rfl
theorem cancelCode (dt : Nat) (n : Nat) : Statement (.cancelCode dt n) := of_none rfl
theorem rearmEnd (dt : Nat) (a : Nat) : Statement (.rearmEnd dt a) := of_none rfl
theorem entryWrite (dt : Nat) (a slot ch : Nat) : Statement (.entryWrite dt a slot ch) := of_none rfl
theorem recordComplete (dt : Nat) (a : Nat) : Statement (.recordComplete dt a) := of_none rfl
theorem periodBoundary (dt : Nat) : Statement (.periodBoundary dt) := of_none rfl
theorem scheduledSlot (dt : Nat) (x : Nat) : Statement (.scheduledSlot dt x) := of_none rfl
theorem refreshSlot (dt : Nat) (x : Nat) : Statement (.refreshSlot dt x) := of_none rfl
theorem neighbourRefreshSlot (dt : Nat) (x : Nat) : Statement (.neighbourRefreshSlot dt x) := of_none rfl
theorem leftoverSlot (dt : Nat) (r : PcRead) : Statement (.leftoverSlot dt r) := of_none rfl
theorem rankPowerDown (dt : Nat) (x rank : Nat) : Statement (.rankPowerDown dt x rank) := of_none rfl
theorem stackTemperatureSample (dt : Nat) (stack : Nat) (t : Int) : Statement (.stackTemperatureSample dt stack t) := of_none rfl
theorem retrainStart (dt : Nat) (x : Nat) : Statement (.retrainStart dt x) := of_none rfl
theorem trainingStepEnd (dt : Nat) (x : Nat) (eyeW eyeH : Nat) (ok : Bool) : Statement (.trainingStepEnd dt x eyeW eyeH ok) := of_none rfl
theorem phyRelockDone (dt : Nat) : Statement (.phyRelockDone dt) := of_none rfl
theorem ceWriteback (dt : Nat) (addr : Nat) : Statement (.ceWriteback dt addr) := of_none rfl
theorem captureScrubRead (dt : Nat) (x : Nat) (errs : List Upset) : Statement (.captureScrubRead dt x errs) := of_none rfl
theorem facetScrubRead (dt : Nat) (g line : Nat) (errs : List (Nat × Nat)) : Statement (.facetScrubRead dt g line errs) := of_none rfl
theorem sequencerTrap (dt : Nat) (r : TrapRead) : Statement (.sequencerTrap dt r) := of_none rfl
theorem decaySweepStart (dt : Nat) (p : Nat) : Statement (.decaySweepStart dt p) := of_none rfl
theorem renderStart (dt : Nat) (p : Nat) : Statement (.renderStart dt p) := of_none rfl
theorem renderComplete (dt : Nat) (p : Nat) : Statement (.renderComplete dt p) := of_none rfl
theorem verticalBlankingStart (dt : Nat) : Statement (.verticalBlankingStart dt) := of_none rfl
theorem activeLineStart (dt : Nat) : Statement (.activeLineStart dt) := of_none rfl
theorem pixelClockLock (dt : Nat) : Statement (.pixelClockLock dt) := of_none rfl
theorem hpdRise (dt : Nat) (edid dpcd : List Byte) : Statement (.hpdRise dt edid dpcd) := of_none rfl
theorem irqHpd (dt : Nat) (locked : Bool) : Statement (.irqHpd dt locked) := of_none rfl
theorem hpdLoss (dt : Nat) : Statement (.hpdLoss dt) := of_none rfl
theorem dpLinkTrainingEnd (dt : Nat) (ok : Bool) : Statement (.dpLinkTrainingEnd dt ok) := of_none rfl
theorem tpNop (dt : Nat) (n : Nat) : Statement (.tpNop dt n) := of_none rfl
theorem tpHalt (dt : Nat) (n : Nat) : Statement (.tpHalt dt n) := of_none rfl
theorem tpWait (dt : Nat) (n mask : Nat) : Statement (.tpWait dt n mask) := of_none rfl
theorem waitWake (dt : Nat) (n : Nat) : Statement (.waitWake dt n) := of_none rfl
theorem tpSig (dt : Nat) (n code : Nat) : Statement (.tpSig dt n code) := of_none rfl
theorem tpAdd (dt : Nat) (n : Nat) : Statement (.tpAdd dt n) := of_none rfl
theorem tpSub (dt : Nat) (n : Nat) : Statement (.tpSub dt n) := of_none rfl
theorem tpAnd (dt : Nat) (n : Nat) : Statement (.tpAnd dt n) := of_none rfl
theorem tpOr (dt : Nat) (n : Nat) : Statement (.tpOr dt n) := of_none rfl
theorem tpXor (dt : Nat) (n : Nat) : Statement (.tpXor dt n) := of_none rfl
theorem tpShl (dt : Nat) (n : Nat) : Statement (.tpShl dt n) := of_none rfl
theorem tpShr (dt : Nat) (n : Nat) : Statement (.tpShr dt n) := of_none rfl
theorem tpSar (dt : Nat) (n : Nat) : Statement (.tpSar dt n) := of_none rfl
theorem tpMul (dt : Nat) (n : Nat) : Statement (.tpMul dt n) := of_none rfl
theorem tpCmp (dt : Nat) (n : Nat) : Statement (.tpCmp dt n) := of_none rfl
theorem tpMov (dt : Nat) (n : Nat) : Statement (.tpMov dt n) := of_none rfl
theorem tpLi (dt : Nat) (n : Nat) : Statement (.tpLi dt n) := of_none rfl
theorem tpLih (dt : Nat) (n : Nat) : Statement (.tpLih dt n) := of_none rfl
theorem tpLd (dt : Nat) (n : Nat) : Statement (.tpLd dt n) := of_none rfl
theorem tpSt (dt : Nat) (n : Nat) : Statement (.tpSt dt n) := of_none rfl
theorem tpStacc (dt : Nat) (n : Nat) : Statement (.tpStacc dt n) := of_none rfl
theorem tpMovp (dt : Nat) (n : Nat) : Statement (.tpMovp dt n) := of_none rfl
theorem tpMovb (dt : Nat) (n : Nat) : Statement (.tpMovb dt n) := of_none rfl
theorem tpMovl (dt : Nat) (n : Nat) : Statement (.tpMovl dt n) := of_none rfl
theorem tpMvp (dt : Nat) (n : Nat) : Statement (.tpMvp dt n) := of_none rfl
theorem tpMvb (dt : Nat) (n : Nat) : Statement (.tpMvb dt n) := of_none rfl
theorem tpMvl (dt : Nat) (n : Nat) : Statement (.tpMvl dt n) := of_none rfl
theorem tpAddp (dt : Nat) (n : Nat) : Statement (.tpAddp dt n) := of_none rfl
theorem tpCmac4 (dt : Nat) (n : Nat) : Statement (.tpCmac4 dt n) := of_none rfl
theorem tpCmac1 (dt : Nat) (n : Nat) : Statement (.tpCmac1 dt n) := of_none rfl
theorem tpClra (dt : Nat) (n : Nat) : Statement (.tpClra dt n) := of_none rfl
theorem tpAdda (dt : Nat) (n : Nat) : Statement (.tpAdda dt n) := of_none rfl
theorem tpMva (dt : Nat) (n : Nat) : Statement (.tpMva dt n) := of_none rfl
theorem tpBr (dt : Nat) (n : Nat) : Statement (.tpBr dt n) := of_none rfl
theorem tpJal (dt : Nat) (n : Nat) : Statement (.tpJal dt n) := of_none rfl
theorem tpJr (dt : Nat) (n : Nat) : Statement (.tpJr dt n) := of_none rfl
theorem tpRti (dt : Nat) (n : Nat) : Statement (.tpRti dt n) := of_none rfl
theorem tpRep (dt : Nat) (n : Nat) : Statement (.tpRep dt n) := of_none rfl
theorem tpPop (dt : Nat) (n : Nat) : Statement (.tpPop dt n) := of_none rfl
theorem tpPush (dt : Nat) (n : Nat) : Statement (.tpPush dt n) := of_none rfl
theorem tpQcntFeed (dt : Nat) (n : Nat) : Statement (.tpQcntFeed dt n) := of_none rfl
theorem tpQcntResult (dt : Nat) (n : Nat) : Statement (.tpQcntResult dt n) := of_none rfl
theorem tpMfc (dt : Nat) (n : Nat) : Statement (.tpMfc dt n) := of_none rfl
theorem tpMtc (dt : Nat) (n : Nat) : Statement (.tpMtc dt n) := of_none rfl
theorem tpBindClr (dt : Nat) (n : Nat) : Statement (.tpBindClr dt n) := of_none rfl
theorem tpTcmpHiWrite (dt : Nat) (n : Nat) : Statement (.tpTcmpHiWrite dt n) := of_none rfl
theorem tpRdt (dt : Nat) (n : Nat) : Statement (.tpRdt dt n) := of_none rfl
theorem interruptEntry (dt : Nat) (n : Nat) : Statement (.interruptEntry dt n) := of_none rfl
theorem timerCompare (dt : Nat) (n : Nat) : Statement (.timerCompare dt n) := of_none rfl
theorem feedDescriptorPush (dt : Nat) (n f : Nat) : Statement (.feedDescriptorPush dt n f) := of_none rfl
theorem markerEdge (dt : Nat) (n : Nat) (falling : Bool) (sub : Nat) : Statement (.markerEdge dt n falling sub) := of_none rfl
theorem markerEntryPush (dt : Nat) (n : Nat) : Statement (.markerEntryPush dt n) := of_none rfl
theorem intervalTimeout (dt : Nat) (n : Nat) : Statement (.intervalTimeout dt n) := of_none rfl
theorem queueDrain (dt : Nat) (c : Nat) : Statement (.queueDrain dt c) := of_none rfl
theorem packetStart (dt : Nat) (r : ChanRead) : Statement (.packetStart dt r) := of_none rfl
theorem flushTimer (dt : Nat) (c : Nat) : Statement (.flushTimer dt c) := of_none rfl
theorem publicationStart (dt : Nat) (c : Nat) : Statement (.publicationStart dt c) := of_none rfl
theorem flushReadComplete (dt : Nat) (c : Nat) : Statement (.flushReadComplete dt c) := of_none rfl
theorem blockTransferComplete (dt : Nat) (ch : Nat) (data : List Word) (errs : List Upset) : Statement (.blockTransferComplete dt ch data errs) := of_none rfl
theorem relayChunkSubmit (dt : Nat) (st : Nat) : Statement (.relayChunkSubmit dt st) := of_none rfl
theorem nvmeCompletion (dt : Nat) (slot cid status : Nat) : Statement (.nvmeCompletion dt slot cid status) := of_none rfl
theorem nvmeCommandTimeout (dt : Nat) (slot cid : Nat) : Statement (.nvmeCommandTimeout dt slot cid) := of_none rfl
theorem relayDrainComplete (dt : Nat) (st : Nat) : Statement (.relayDrainComplete dt st) := of_none rfl
theorem sensorConversion (dt : Nat) (temps : List Int) (rails : List (Nat × Nat)) : Statement (.sensorConversion dt temps rails) := of_none rfl
theorem calSweepEnd (dt : Nat) : Statement (.calSweepEnd dt) := of_none rfl
theorem logFlush (dt : Nat) : Statement (.logFlush dt) := of_none rfl
theorem mcWatchdogRestart (dt : Nat) : Statement (.mcWatchdogRestart dt) := of_none rfl
theorem updateIdleTimeout (dt : Nat) : Statement (.updateIdleTimeout dt) := of_none rfl
theorem trialReadyTimeout (dt : Nat) : Statement (.trialReadyTimeout dt) := of_none rfl
theorem trialSuccess (dt : Nat) : Statement (.trialSuccess dt) := of_none rfl
theorem firmwareFaultRestart (dt : Nat) : Statement (.firmwareFaultRestart dt) := of_none rfl
theorem stageFailureRestart (dt : Nat) : Statement (.stageFailureRestart dt) := of_none rfl
theorem standbyPowerUp (dt : Nat) (rcvLow shdnLow : Bool) : Statement (.standbyPowerUp dt rcvLow shdnLow) := of_none rfl
theorem railEnable (dt : Nat) : Statement (.railEnable dt) := of_none rfl
theorem railWindowTimeout (dt : Nat) : Statement (.railWindowTimeout dt) := of_none rfl
theorem shdnNLow (dt : Nat) : Statement (.shdnNLow dt) := of_none rfl
theorem shutdownComplete (dt : Nat) : Statement (.shutdownComplete dt) := of_none rfl
theorem shdnNHigh (dt : Nat) : Statement (.shdnNHigh dt) := of_none rfl
theorem mrstNLow (dt : Nat) : Statement (.mrstNLow dt) := of_none rfl
theorem mrstNRelease (dt : Nat) : Statement (.mrstNRelease dt) := of_none rfl
theorem refclkPresent (dt : Nat) : Statement (.refclkPresent dt) := of_none rfl
theorem refclkLost (dt : Nat) : Statement (.refclkLost dt) := of_none rfl
theorem mdllLock (dt : Nat) (ok : Bool) : Statement (.mdllLock dt ok) := of_none rfl
theorem synthesiserLock (dt : Nat) (n : Nat) (ok : Bool) : Statement (.synthesiserLock dt n ok) := of_none rfl
theorem bringupStageEnd (dt : Nat) (ok : Bool) (bad : List (Nat × Nat)) : Statement (.bringupStageEnd dt ok bad) := of_none rfl
theorem perstAssert (dt : Nat) : Statement (.perstAssert dt) := of_none rfl
theorem perstRelease (dt : Nat) : Statement (.perstRelease dt) := of_none rfl
theorem trstNLow (dt : Nat) : Statement (.trstNLow dt) := of_none rfl
theorem bypass (dt : Nat) : Statement (.bypass dt) := of_none rfl
theorem idcode (dt : Nat) : Statement (.idcode dt) := of_none rfl
theorem samplePreload (dt : Nat) (v : Nat) : Statement (.samplePreload dt v) := of_none rfl
theorem extest (dt : Nat) (v : Nat) : Statement (.extest dt v) := of_none rfl
theorem clamp (dt : Nat) : Statement (.clamp dt) := of_none rfl
theorem highz (dt : Nat) : Statement (.highz dt) := of_none rfl
theorem smbusBlockRead (dt : Nat) (cmd : Nat) : Statement (.smbusBlockRead dt cmd) := of_none rfl
theorem smbusAlertResponse (dt : Nat) : Statement (.smbusAlertResponse dt) := of_none rfl
theorem jesdLaneAligned (dt : Nat) (pad : Nat) : Statement (.jesdLaneAligned dt pad) := of_none rfl
theorem syncWordCrcError (dt : Nat) (k : Nat) : Statement (.syncWordCrcError dt k) := of_none rfl
theorem syncWordSlot (dt : Nat) (k : Nat) : Statement (.syncWordSlot dt k) := of_none rfl
theorem standbyPowerLoss (dt : Nat) : Statement (.standbyPowerLoss dt) := of_none rfl
theorem pcieLinkUp (dt : Nat) (rate10 width : Nat) : Statement (.pcieLinkUp dt rate10 width) := of_none rfl
theorem configurationRequest (r : CfgRead) : Statement (.configurationRequest r) := of_none rfl
theorem periscopeRefresh (dt : Nat) : Statement (.periscopeRefresh dt) := of_none rfl
theorem triggerPulseEnd (dt : Nat) (n : Nat) : Statement (.triggerPulseEnd dt n) := of_none rfl
theorem overRangeSample (dt : Nat) (n : Nat) (code : Int) : Statement (.overRangeSample dt n code) := of_none rfl
theorem smbusWrite (dt : Nat) : Statement (.smbusWrite dt) := of_none rfl
theorem earlyRead (dt : Nat) (addr : Nat) : Statement (.earlyRead dt addr) := of_none rfl

end Sys2Proof.Laws.Rings
end

