-- ==== Sys2Proof/Tests/Slice0.lean ====
section
/-!
SUPPORT. Tests of the model, one step each, with results worked out from the spec's own tables, and a witness for the hypotheses of every statement
that has any: a state and operands that meet all of them together.
-/

namespace Sys2Proof.Tests

open Sys2Proof Sys2Proof.Machine

/-! ### Small states -/

/-- Standby, main rails, clocks and firmware are up, and the host has brought the function to D0. -/
def live : Dev :=
  { clk := { run := true }
    fw := { ready := true, stage := 0x3F }
    pwr := { enables := 8, mainOk := true, refclk := true, mdll := true }
    pcie := { perst := false, busMaster := true, msixEnable := true } }

/-- A ring of 16 entries with one entry waiting. -/
def ring1 : Ring := { inUse := true, sqTail := 1 }

/-- The same device with one entry waiting on ring 0. -/
def mailed (d : Dev) : Dev := { d with rings := [(0, ring1)] }

/-- The state of a device with nothing in memory. -/
def st (d : Dev) : State := { dev := d }

/-- A body with the first dwords given. -/
def body (ws : List Word) : List Word := takePad 0 10 ws

/-- An entry by pointer whose block is these dwords. -/
def byPointer (ws : List Word) : Entry := { ptr := true, body := body [0, 0, BitVec.ofNat 32 (4 * ws.length)], mem := ws }

/-- The aperture 0 of a device. -/
def withAp (d : Dev) (p : Aperture) : Dev := { d with aps := [(0, p)] }

/-! ### What well-formedness refuses -/

theorem test_wf_accepts : (Instr.nop 0 63 {}).wf = true := by decide
theorem test_wf_ring : (Instr.nop 0 64 {}).wf = false := by decide
theorem test_wf_body : (Instr.nop 0 0 { body := [] }).wf = false := by decide
theorem test_wf_cmdId : (Instr.nop 0 0 { cmdId := 65536 }).wf = false := by decide
theorem test_wf_target : (Instr.nop 0 0 { target := 65536 }).wf = false := by decide
theorem test_wf_timeout : (Instr.nop 0 0 { timeoutMs := 65536 }).wf = false := by decide
theorem test_wf_rsvd : (Instr.nop 0 0 { rsvd := 64 }).wf = false := by decide
theorem test_wf_bytes : (Instr.indDataRead 0 6 3).wf = false ∧ (Instr.indDataRead 0 0 0).wf = false := by decide
theorem test_wf_partial : (Instr.bar0PartialWrite 0 0 0 4).wf = false := by decide
theorem test_wf_aligned : (Instr.earlyRead 0 2).wf = false := by decide
theorem test_wf_write : (Instr.registerWrite 0 (.bar0 2) [0]).wf = false ∧ (Instr.registerWrite 0 (.bar0 0) []).wf = false ∧
    (Instr.registerWrite 0 (.config .power) [0, 0]).wf = false ∧ (Instr.registerWrite 0 (.bar4 0x400000) [0]).wf = false := by decide
theorem test_wf_window : (Instr.bar2Write 0 (2 ^ 36)).wf = false ∧ (Instr.bar2Read 0 0 0 []).wf = false := by decide
theorem test_wf_request : (Instr.hostReadTimeout 0 (.block 61 []) 0).wf = false ∧ (Instr.hostReadTimeout 0 (.relay 16 0) 0).wf = false ∧
    (Instr.hostReadTimeout 0 (.sqEntry 64) 0).wf = false ∧ (Instr.hostReadTimeout 0 (.flush 64) 0).wf = false := by decide
theorem test_wf_link : (Instr.fire 0 16 {}).wf = false := by decide
theorem test_wf_word : (Instr.fire 0 0 { seq := 256 }).wf = false ∧ (Instr.fire 0 0 { id := 65536 }).wf = false ∧
    (Instr.fire 0 0 { arg := 4294967296 }).wf = false := by decide
theorem test_wf_pps : (Instr.ppsEdge 0 false 3000000).wf = false := by decide
theorem test_wf_units : (Instr.pslGroupRelease 0 244).wf = false ∧ (Instr.jesdLaneAligned 0 96).wf = false ∧ (Instr.tpAdd 0 32).wf = false ∧
    (Instr.markerEntryPush 0 16).wf = false ∧ (Instr.packetStart 0 ⟨60, []⟩).wf = false ∧ (Instr.periodBoundary 0).wf = true := by decide
theorem test_wf_frame : (Instr.pslFrame 0 0 []).wf = false := by decide
theorem test_wf_code : (Instr.splitterDelivery 0 0 { code := 2048 } {}).wf = false ∧ (Instr.overRangeSample 0 0 2047).wf = false ∧
    (Instr.overRangeSample 0 0 2048).wf = true := by decide
theorem test_wf_sensors : (Instr.sensorConversion 0 [] []).wf = false := by decide
theorem test_wf_sink : (Instr.hpdRise 0 [] []).wf = false := by decide
theorem test_wf_linkup : (Instr.pcieLinkUp 0 20 16).wf = false ∧ (Instr.pcieLinkUp 0 640 3).wf = false ∧ (Instr.pcieLinkUp 0 25 16).wf = true := by decide
theorem test_wf_stage : (Instr.bringupStageEnd 0 true [(10, 0)]).wf = false := by decide
theorem test_wf_code_byte : (Instr.tpSig 0 0 256).wf = false ∧ (Instr.tpWait 0 0 2048).wf = false ∧ (Instr.smbusBlockRead 0 256).wf = false := by decide
theorem test_wf_blockTransfer : (Instr.blockTransferComplete 0 61 [] []).wf = false ∧ (Instr.nvmeCompletion 0 0 0 65536).wf = false := by decide

/-! ### The table gives no row any bits -/

theorem test_no_word_decodes (nbits w : Nat) : decodeTableWord nbits w = none := rfl
theorem test_fetch_word_places_nothing (s : State) (nbits w : Nat) : s.withFetchWord nbits w = s := rfl

/-! ### One command each, against the spec's tables -/

/-- What a command sends out. -/
def sent (i : Instr) (s : State) : List Output := match exec i s with | .next t => t.dev.out | _ => []

/-- The device after a command. -/
def after (i : Instr) (s : State) : Dev := match exec i s with | .next t => t.dev | _ => {}

/-- R50: dword 0x00 is VENDOR 0x4E52 and PART 0x7512. -/
theorem test_identity : sent (.earlyRead 0 0) (st {}) = [.regRead 0x75124E52] := by decide
/-- R52: the header at 0x100 has CAP_ID 1, CAP_VER 1 and NEXT 0x110; the last has NEXT 0. -/
theorem test_capabilities : sent (.earlyRead 0 0x100) (st {}) = [.regRead 0x01100101] ∧ sent (.earlyRead 0 0x160) (st {}) = [.regRead 0x00000107] := by decide
/-- R640: IDCODE. -/
theorem test_idcode : sent (.idcode 0) (st {}) = [.jtag 32 0x175123CB] := by decide
/-- R79: CMD_ID, SQ_HEAD and PHASE of a completion, and its tick. -/
theorem test_completion : sent (.nop 5 0 { cmdId := 7, noirq := true }) (st (mailed live)) =
    [.read 4000 0 64 .snooped, .write 0 [0x80010007, 0, 0, 0, 0, 0, 5, 0] .snooped] := by decide
/-- R77: a TARGET that names no aperture is EFS_PARAM at offset 0x04 of the entry. -/
theorem test_bad_target : (sent (.apertureQuery 0 0 { opcode := 0x24, target := 1024, noirq := true }) (st (mailed live))).length = 2 ∧
    formQuery.badEntry { target := 1024 } = some 4 := by decide
/-- R107: the count goes with CLK_CORE, real time goes always. -/
theorem test_time : (live.pass 3).clk.count = 3 ∧ (({} : Dev).pass 3).clk.count = 0 ∧ (({} : Dev).pass 3).clk.time = 3 := by decide
/-- R71: a doorbell value at or above the depth sets DB_RANGE. -/
theorem test_db_range : (after (.sqDb 0 0 16) (st { mailed live with ev := { routes := [(1, { record := false })] } })).fld 0x0C 4 4 = 1 := by decide

/-! ### Witnesses: the queue, the memories, the mailbox -/

theorem witness_EmptyQueuePassesOneTick : (st {}).pending = [] ∧ (st {}).dev.clk.run = false ∧ (st live).pending = [] ∧ (st live).dev.clk.run = true := by decide

theorem witness_CommandsKeepQueueAndMemories : reachesMemory (.nop 0 0 {}) = false ∧ ∃ t, exec (.nop 0 0 {}) { st {} with pending := [.idcode 0] } = .next t :=
  ⟨rfl, _, rfl⟩

theorem witness_OnlyPrWritesStop : meetsPr (.nop 0 0 {}) = false ∧ meetsPr (.evqDb 0 0) = true ∧
    ((st live).after 0).fw.ready = true ∧ ((st live).after 0).breaksPr 0x08 0x10 = true := by decide

theorem witness_StepKeepsMemoriesCanonical : State.reset.mem.wf = true ∧ ∃ t, step State.reset = .next t := ⟨by decide, _, rfl⟩

/-- Not served; opcodes listed and not, on a ring that is served; served in recovery mode by firmware's own command; a command of ring 0 on ring 1; a bad
entry; a bad parameter. -/
theorem witness_MailboxChecksInOrder :
    (((st live).after 0).served ≠ some 0) ∧
    (((st (mailed live)).after 0).served = some 0 ∧ 0x11 ∈ listedOpcodes ∧ 0xFF ∉ listedOpcodes) ∧
    (let s := st { mailed live with fw := { live.fw with recovery := true } }; (s.after 0).served = some 0 ∧ (s.after 0).fw.recovery = true ∧ formQuery.recovery = false) ∧
    (let s := st { live with rings := [(1, ring1)] }; (s.after 0).served = some 1 ∧ formRingDelete.ring0 = true ∧ (1 : Nat) ≠ 0) ∧
    (formQuery.badEntry { opcode := 0x24, target := 1024 } = some 4 ∧ formQuery.ring0 = false) ∧
    (let e : Entry := { opcode := 0x24, target := 1023, body := body [1] }
     e.opcode = formQuery.opcode ∧ formQuery.badEntry e = none ∧ firstBad (formQuery.inlineRest e) = some 0 ∧ ((st (mailed live)).after 0).served = some 0) := by decide

theorem witness_TakingAndCompleting :
    (((mailed live).ring 0).inUse = true ∧ ((mailed live).ring 0).cqFull = false ∧ (mailed live).ev.due = []) ∧
    (let d : Dev := { live with rings := [(0, { ring1 with cqTail := 15, cqHead := 1 })] }; (d.ring 0).cqFull = false ∧ (d.ring 0).cqTail + 1 = 2 ^ (d.ring 0).cqLog2) ∧
    (let d : Dev := { live with rings := [(0, { ring1 with cqTail := 15 })] }; (d.ring 0).inUse = true ∧ (d.ring 0).cqFull = true) := by decide

/-- An aperture that is STAGED. -/
def staged : Aperture := { state := 1 }

/-- A block of RING_CREATE: both depths 16, weight 1. -/
def ringBlock : List Word := [0x1000, 0, 0x2000, 0, 0x00010044]

theorem witness_ReportsListsAndRings :
    let s := st (mailed live)
    let r := st { mailed live with rings := [(0, ring1), (63, { inUse := true })] }
    let list : Entry := { opcode := 0x33, body := body [0, 65535] }
    let create : Entry := { opcode := 0x02, target := 63, body := body ringBlock }
    let delete (n : Nat) : Entry := { opcode := 0x03, target := n }
    (s.takes 0 formNop 0 {} noChecks && s.takes 0 formTimeRead 0 { opcode := 0x10 } noChecks && s.takes 0 formSensorRead 0 { opcode := 0x60 } noChecks &&
      s.takes 0 formIdentity 0 { opcode := 0x6C } noChecks && s.takes 0 formSpareStatus 0 { opcode := 0x62 } noChecks &&
      s.takes 0 formQuery 0 { opcode := 0x24, target := 1023 } noChecks && s.takes 0 formDescribe 0 { opcode := 0x01 } noChecks) = true ∧
    (let a := st (mailed (withAp live staged)); a.takes 0 formRecordList 0 list recordListChecks = true ∧ ((a.taken 0 0 list).ap 0).state ≠ 0) ∧
    (s.takes 0 formRecordList 0 list recordListChecks = true ∧ ((s.taken 0 0 list).ap 0).state = 0) ∧
    s.takes 0 formLogRead 0 { opcode := 0x61, body := body [0, 1] } logReadChecks = true ∧
    (s.takes 0 formRingCreate 0 create ringCreateChecks = true ∧ ((s.taken 0 0 create).ring 63).inUse = false) ∧
    (r.takes 0 formRingCreate 0 create ringCreateChecks = true ∧ ((r.taken 0 0 create).ring 63).inUse = true) ∧
    (r.takes 0 formRingDelete 0 (delete 63) noChecks = true ∧ ((r.taken 0 0 (delete 63)).ring 63).inUse = true ∧
      s.takes 0 formRingDelete 0 (delete 1) noChecks = true ∧ ((s.taken 0 0 (delete 1)).ring 1).inUse = false) ∧
    (s.takes 0 formEventRingSet 0 { opcode := 0x04, body := body [0x1000, 0, 0x00010010] } eventRingSetChecks = true ∧ bitAt [0x1000, 0, 0x00010010] 0x08 16 = true ∧
      s.takes 0 formEventRingSet 0 { opcode := 0x04 } eventRingSetChecks = true) ∧
    s.takes 0 formEventRoute 0 { opcode := 0x05, body := body [0x080007FF ||| 0x00010000, 0x3FF] } eventRouteChecks = false ∧
    s.takes 0 formEventRoute 0 { opcode := 0x05, body := body [0x000107FF, 0x3FF] } eventRouteChecks = true := by decide

/-- LOG_READ from a log that holds the record asked for. -/
theorem witness_LogRead : ({ live.mc with buf := [{ seq := 0, boot := 1, sev := 1, src := 1, code := 0x1002, ms := 0, tb := 0 }] } : Mc).records.map (·.seq) = [0] := by decide

/-! ### Witnesses: launches and global operations -/

/-- LAUNCH_AT for aperture 0 with this tick and the dword of modes. -/
def launchEntry (tick mode : Word) : Entry := { opcode := 0x12, target := 1, body := body [tick, 0, mode, 0, 0] }

/-- A device whose aperture 0 may be launched. -/
def admitted : Dev := withAp live { state := 2 }

/-- The top of a system whose one group link is 0. -/
def root : Dev := { live with clk := { run := true, role := 1, groupMask := 1, scopeGroup := true, scopeSystem := true }, glob := { links := [(0, { up := true })] } }

theorem witness_LaunchCommandsTakeEffect :
    (let s := st (mailed admitted)
     let e := launchEntry 0 0x100
     s.launchPasses 0 0 e 0 (s.taken 0 0 e) ∧ (s.taken 0 0 e).leadTick (qAt e.block 0x00) 0 = .ok 150) ∧
    (let s := st (mailed { admitted with clk := root.clk })
     let e := launchEntry 0 0x105
     s.launchPasses 0 0 e 1 (s.taken 0 0 e)) ∧
    (let s := st (mailed { root with aps := admitted.aps })
     let e := launchEntry 0 0x106
     s.launchPasses 0 0 e 2 (s.taken 0 0 e) ∧ (s.taken 0 0 e).leadTick (qAt e.block 0x00) (fldAt e.block 0x08 3 2) = .ok 3000) := by
  refine ⟨⟨⟨?_, ?_, ?_, ?_, ?_, ?_, ?_, ?_, rfl⟩, rfl⟩, ⟨?_, ?_, ?_, ?_, ?_, ?_, ?_, ?_, rfl⟩, ⟨?_, ?_, ?_, ?_, ?_, ?_, ?_, ?_, rfl⟩, rfl⟩ <;> decide

theorem witness_LaunchCancel :
    let l (t : Nat) (o : Bool) : Launch := { id := 1, mode := if o then 2 else 0, tick := some t, apertures := [], origin := o, scope := if o then 1 else 0 }
    let s (t : Nat) (o : Bool) := st (mailed { root with glob := { root.glob with launches := [l t o] } })
    let e (n : Nat) : Entry := { opcode := 0x13, target := n }
    let d (t : Nat) (o : Bool) := (s t o).taken 0 0 (e 1)
    (s 150 false).takes 0 formCancel 0 (e 1) noChecks = true ∧ (d 150 false).settled ((d 150 false).launchApsOf 1) ∧
      (d 150 false).launchOf 1 = some (l 150 false) ∧ (d 150 false).now + 150 ≤ 150 ∧
      (d 3000 true).launchOf 1 = some (l 3000 true) ∧ (d 3000 true).now + scopeLead 1 ≤ 3000 ∧
      ((s 149 false).taken 0 0 (e 2)).launchOf 2 = none ∧ 149 < (d 149 false).now + 150 := by decide

theorem witness_ShortLeadIsRefused :
    let s := st (mailed admitted)
    let e := launchEntry 149 0x100
    s.launchPasses 0 0 e 0 (s.taken 0 0 e) ∧ qAt e.block 0x00 ≠ 0 ∧
      (qAt e.block 0x00).toNat < (s.taken 0 0 e).now + scopeLead (fldAt e.block 0x08 3 2) := by
  refine ⟨⟨?_, ?_, ?_, ?_, ?_, ?_, ?_, ?_, rfl⟩, ?_, ?_⟩ <;> decide

theorem witness_SnapshotAndScopeCommands :
    let s := st (mailed root)
    let snap (mode : Word) : Entry := { opcode := 0x15, target := 1, body := body [0, 0, mode] }
    let bcast : Entry := { opcode := 0x17, body := body [0, 0, 0, 0, 0, 0, 0, 0, 1] }
    let far : Entry := { opcode := 0x14, body := body [2] }
    ((s.takes 0 formSnapshot 0 (snap 0) snapshotChecks = true ∧ fldAt (snap 0).block 0x08 1 0 = 0 ∧ (s.taken 0 0 (snap 0)).glob.snaps = []) ∧
      (s.taken 0 0 (snap 0)).leadTick (qAt (snap 0).block 0x00) 0 = .ok 150) ∧
    (s.takes 0 formSnapshot 0 (snap 5) snapshotChecks = true ∧ fldAt (snap 5).block 0x08 1 0 = 1) ∧
    ((s.takes 0 formSnapshot 0 (snap 6) snapshotChecks = true ∧ fldAt (snap 6).block 0x08 1 0 = 2 ∧ (s.taken 0 0 (snap 6)).scopeReady 1 = true) ∧
      (s.taken 0 0 (snap 6)).leadTick (qAt (snap 6).block 0x00) 1 = .ok 3000) ∧
    (s.takes 0 formReset 0 { opcode := 0x16 } resetChecks = true ∧ s.takes 0 formBarrier 0 { opcode := 0x14 } barrierChecks = true) ∧
    (s.takes 0 formBarrier 0 far barrierChecks = true ∧ (s.taken 0 0 far).scopeReady 2 = true) ∧
    (s.takes 0 formBroadcast 0 bcast broadcastChecks = true ∧ (s.taken 0 0 bcast).isTop 1 = true ∧ (s.taken 0 0 bcast).scopeReady 1 = true) := by
  refine ⟨⟨?_, rfl⟩, ?_, ⟨?_, rfl⟩, ?_, ?_, ?_⟩ <;> decide
/-! ### Witnesses: apertures, capture, trace processors, display, transfers, management -/

/-- A marker block of unit 0 in TIMESTAMP mode, and an export of its queue at 100 GB/s. -/
def markerBlock : Block := { type := 8, unit := 0, words := [0x00200008, 0, 1, 0, 0, 0, 0, 0] }
def exportBlock : Block := { type := 13, unit := 0, words := [0x0030000D, 0, 0x00100002, 100000, 0x1000, 0, 0x2000, 0, 1, 1, 64, 0] }

theorem witness_ApertureCommandsTakeEffect :
    (let s := st (mailed live)
     let e : Entry := { byPointer markerBlock.words with opcode := 0x20 }
     let d := s.taken 0 0 e
     s.takes 0 formStage 0 e noChecks = true ∧ d.settled [0] ∧ parseStage (e.block.length + 1) 0 e.block = .ok [markerBlock] ∧
      d.stageBad 0 [markerBlock] [markerBlock] = none ∧ (d.ap 0).stageable = true ∧ d.ownedBad 0 [markerBlock] = none) ∧
    (let s := st (mailed (withAp live { state := 1, staged := [markerBlock] }))
     let e : Entry := { opcode := 0x21 }
     let d := s.taken 0 0 e
     let p := d.ap 0
     let ps := d.planesWith 0 p.staged
     s.takes 0 formAdmit 0 e noChecks = true ∧ d.settled [0] ∧ d.planeBad ps 0 p.staged = none ∧ d.mc.crit.on = false ∧ p.state = 1 ∧ d.ownedBad 0 p.staged = none ∧
      d.firstFail ps = none) ∧
    (let s := st (mailed (withAp live { state := 4 }))
     let e : Entry := { opcode := 0x23 }
     s.takes 0 formRelease 0 e noChecks = true ∧ ((s.taken 0 0 e).ap 0).state = 4 ∧ ((s.taken 0 0 e).ap 0).launch = none) ∧
    (let s := st (mailed (withAp live { state := 3 }))
     let e : Entry := { opcode := 0x23 }
     let w : Entry := { opcode := 0x25, body := body [3, 0] }
     s.takes 0 formRelease 0 e noChecks = true ∧ ((s.taken 0 0 e).ap 0).state = 3 ∧
      s.takes 0 formWait 0 w waitChecks = true ∧ ((s.taken 0 0 w).ap 0).matchesWait 3 0 = true ∧ ((s.taken 0 0 w).ap 0).matchesWait 4 0 = false) := by
  refine ⟨⟨?_, ?_, rfl, rfl, ?_, rfl⟩, ⟨?_, ?_, rfl, ?_, ?_, rfl, ?_⟩, ?_, ?_⟩ <;> decide

theorem witness_FailedAdmissionHasNoEffect :
    let s := st (mailed (withAp { live with pcie := { live.pcie with rate10 := 25, width := 1 } } { state := 1, staged := [markerBlock, exportBlock] }))
    let e : Entry := { opcode := 0x21 }
    let d := s.taken 0 0 e
    let p := d.ap 0
    let ps := d.planesWith 0 p.staged
    s.takes 0 formAdmit 0 e noChecks = true ∧ d.settled [0] ∧ d.planeBad ps 0 p.staged = none ∧ d.mc.crit.on = false ∧ p.state = 1 ∧ d.ownedBad 0 p.staged = none ∧
      d.firstFail ps = some (8, 99755859375, 0) := by
  refine ⟨?_, ?_, rfl, ?_, ?_, rfl, ?_⟩ <;> decide

/-- Aperture 0 LIVE with its sequence in a sub-state. -/
def inSub (k : Nat) : Dev := withAp live { state := 3, acq := { sub := k } }

theorem witness_CaptureCommandsTakeEffect :
    let s (k : Nat) := st (mailed (inSub k))
    let e (o : Nat) : Entry := { opcode := o }
    let p (k o : Nat) := ((s k).taken 0 0 (e o)).ap 0
    (s 1).takes 0 formHalt 0 (e 0x22) haltChecks = true ∧ (p 1 0x22).acq.prov = none ∧ (p 1 0x22).state = 3 ∧ (p 1 0x22).launch = none ∧
    (s 5).takes 0 formArm 0 (e 0x30) noChecks = true ∧ (p 5 0x30).state = 3 ∧ (p 5 0x30).acq.sub = 5 ∧
    (s 4).takes 0 formFreeze 0 (e 0x32) noChecks = true ∧ (p 4 0x32).acq.prov = none ∧ (p 4 0x32).acq.sub = 4 ∧ (p 4 0x32).state = 3 ∧
    (s 2).takes 0 formTrigger 0 (e 0x31) noChecks = true ∧ (p 2 0x31).acq.prov = none ∧ (p 2 0x31).acq.sub = 2 ∧ (p 2 0x31).state = 3 := by decide

theorem witness_CaptureHaltTick : ((st (mailed (inSub 1))).taken 0 0 { opcode := 0x22 }).leadTick 0 0 = .ok 150 := rfl

/-- Aperture 0 is LIVE and its acquisition has a provisional candidate; a launch of it is pending under identifier 1. -/
theorem witness_CommandsWaitForTheVerdict :
    let c : Candidate := { src := 0, fire := 0, tick := 0, prov := true }
    let s := st (mailed { withAp live { state := 3, acq := { sub := 1, prov := some (c, 1) } } with
      glob := { launches := [{ id := 1, mode := 0, tick := some 150, apertures := [0] }] } })
    let e (o : Nat) : Entry := { opcode := o }
    let one : Entry := { byPointer markerBlock.words with opcode := 0x20 }
    let launch := launchEntry 0 0x100
    let cancel : Entry := { opcode := 0x13, target := 1 }
    ((s.taken 0 0 (e 0x22)).ap 0).acq.prov.isSome = true ∧ s.takes 0 formStage 0 one noChecks = true ∧ s.takes 0 formAdmit 0 (e 0x21) noChecks = true ∧
      s.takes 0 formHalt 0 (e 0x22) haltChecks = true ∧ s.takes 0 formTrigger 0 (e 0x31) noChecks = true ∧ s.takes 0 formFreeze 0 (e 0x32) noChecks = true ∧
    (¬ (s.taken 0 0 launch).settled (launchList launch.block) ∧ s.takes 0 (formLaunch launch) 0 launch (launchChecks launch.ptr) = true) ∧
    (¬ (s.taken 0 0 cancel).settled ((s.taken 0 0 cancel).launchApsOf 1) ∧ s.takes 0 formCancel 0 cancel noChecks = true) := by decide

/-- An image of 32 bytes at address 8 of processor 31, with CLEAR 0. -/
def imageEntry : Entry := { byPointer ([8, 32, 0, 0] ++ List.replicate 8 0x01020304) with opcode := 0x40, target := 31 }

theorem witness_TpCommandsTakeEffect :
    let s (k : Nat) := st (mailed { live with tps := [(31, { state := k })] })
    let start : Entry := { opcode := 0x41, target := 31, body := body [0x80000000] }
    let stop : Entry := { opcode := 0x42, target := 31 }
    (s 1).takes 0 formTpLoad 0 imageEntry (tpLoadChecks 31 imageEntry.inLen) = true ∧ (((s 1).taken 0 0 imageEntry).tp 31).state ≠ 2 ∧ (s 1).mem.wf = true ∧
      (∃ t, exec (.tpLoad 0 0 imageEntry) (s 1) = .next t) ∧ bitAt imageEntry.block 0x08 0 = false ∧
    (s 3).takes 0 formTpStart 0 start tpStartChecks = true ∧ (((s 3).taken 0 0 start).tp 31).state = 3 ∧
      ((s 3).taken 0 0 start).leadTick 0 0 = .ok 150 ∧
    (s 2).takes 0 formTpStop 0 stop noChecks = true ∧ (((s 2).taken 0 0 stop).tp 31).state = 2 := by
  refine ⟨?_, ?_, ?_, ⟨_, rfl⟩, ?_, ?_, ?_, rfl, ?_, ?_⟩ <;> decide

/-- The smallest mode, and the same one enabled on four lanes. -/
def modeOff : List Word := [0x01010280, 0x01E00001, 0x00010101, 25000, 0x20, 0, 0, 0]
def modeOn : List Word := [0x01010280, 0x01E00001, 0x00010101, 25000, 0x21, 0, 0, 0]

/-- A feed of HOST mode with two buffers, its block in a LIVE aperture, and layer 0 set on it. -/
def hostFeed : Block := { type := 11, unit := 0, words := [0x0030000B, 0, 0x11, 0x00100010, 0, 0, 0, 0, 0, 0, 0, 0] }
def layered (run : Bool) : Dev :=
  { withAp live { state := 3 } with feeds := [(0, { block := some (0, hostFeed), running := true })], layers := [(0, { set := some [0, 0, 0] })],
                                     raster := { running := run, mode := modeOn } }

theorem witness_DisplayAndTransferCommands :
    let s (r : Bool) := st (mailed (layered r))
    let mode (m : List Word) : Entry := { opcode := 0x48, body := body m }
    let flip : Entry := { opcode := 0x4A, body := body [1] }
    (s true).takes 0 formDisplayMode 0 (mode modeOff) displayModeChecks = true ∧ ((s true).taken 0 0 (mode modeOff)).raster.running = true ∧
    (s false).takes 0 formDisplayMode 0 (mode modeOn) displayModeChecks = true ∧ ((s false).taken 0 0 (mode modeOn)).raster.running = false ∧ dmEnable (mode modeOn).block = true ∧
    (s true).takes 0 formLayerSet 0 { opcode := 0x49, target := 2 } layerSetChecks = true ∧
    (s true).takes 0 formLayerFlip 0 flip (layerFlipChecks 0) = true ∧ ((s true).taken 0 0 flip).layerFeed 0 = some hostFeed.words ∧
      dfAutoFlip hostFeed.words = false ∧ (((s true).taken 0 0 flip).requestFlip 0 1).raster.running = true ∧
    (s false).takes 0 formLayerFlip 0 flip (layerFlipChecks 0) = true ∧ ((s false).taken 0 0 flip).layerFeed 0 = some hostFeed.words ∧
      (((s false).taken 0 0 flip).requestFlip 0 1).raster.running = false := by decide

/-- The block of RELAY_ATTACH with the least of each field that has a least. -/
def attachBlock : List Word := [0, 0, 0, 0, 0, 0, 0x00010001, 1, 0x00900001, 0]

theorem witness_BlocksAndDrives :
    let s := st (mailed { withAp live { state := 4 } with cmc := { allocs := [{ region := 16, owner := 0, base := 0, size := 512 }] } })
    let r := st (mailed { live with drives := [(15, { state := 1 })] })
    let rd : Entry := { opcode := 0x38, body := body [0, 0, 0, 0, 64] }
    let wr : Entry := { opcode := 0x39, body := body [0, 0, 0, 0, 512] }
    let attach : Entry := { opcode := 0x50, target := 15, body := attachBlock }
    let detach : Entry := { opcode := 0x51, target := 15 }
    s.takes 0 (formBlock false) 0 rd (blockDmaChecks false) = true ∧ (s.taken 0 0 rd).blockBad false 0 64 = none ∧
    s.takes 0 (formBlock true) 0 wr (blockDmaChecks true) = true ∧ (s.taken 0 0 wr).blockBad true 0 512 = none ∧
    s.takes 0 formAttach 0 attach attachChecks = true ∧ ((s.taken 0 0 attach).drive 15).state = 0 ∧
    r.takes 0 formDetach 0 detach noChecks = true ∧ ((r.taken 0 0 detach).drive 15).state ≠ 0 ∧ (r.taken 0 0 detach).relayOn 15 = false := by decide

/-- A CAL_SWEEP in profile 1 over all four converters, and a CAL_APPLY of the factory's set. -/
def sweepEntry : Entry := { opcode := 0x58, body := body [0x4F] }
def applyEntry : Entry := { opcode := 0x59, body := body [0x0F] }

theorem witness_ManagementCommandsTakeEffect :
    let s := st (mailed live)
    let m (u : Update) := st (mailed { live with mc := { update := some u, slots := [{}, { data := some [], valid := false }] } })
    let e : Entry := { byPointer [0, 0, 1, 2] with opcode := 0x69 }
    let begin_ : Entry := { opcode := 0x68, body := body [6920] }
    let commit : Entry := { opcode := 0x6A }
    (s.takes 0 formCalSweep 0 sweepEntry calSweepChecks = true ∧ (s.taken 0 0 sweepEntry).mc.sweep = none ∧ (s.taken 0 0 sweepEntry).convertersLive 15 = false) ∧
    (s.takes 0 formCalApply 0 applyEntry calApplyChecks = true ∧ (s.taken 0 0 applyEntry).leadTick (qAt applyEntry.block 0x08) 0 = .ok 150 ∧ fldAt applyEntry.block 0x00 5 4 ≠ 1) ∧
    (s.takes 0 formSparePolicy 0 { opcode := 0x63 } sparePolicyChecks = true ∧ wearDefault 0 0 = some (true, 12)) ∧
    (s.takes 0 formBegin 0 begin_ beginChecks = true ∧ (s.taken 0 0 begin_).mc.update = none) ∧
    ((m { slot := 1, total := 6920, at_ := 0 }).takes 0 formData 0 e (fun d b => if 1048584 < e.inLen then [] else dataChecks d b) = true ∧ e.inLen ≤ 1048584) ∧
    ((m { slot := 1, total := 0, at_ := 0 }).takes 0 formCommit 0 commit noChecks = true ∧ ((m { slot := 1, total := 0, at_ := 0 }).taken 0 0 commit).mc.received = 0) := by
  refine ⟨⟨?_, ?_, ?_⟩, ⟨?_, rfl, ?_⟩, ⟨?_, ?_⟩, ⟨?_, ?_⟩, ⟨?_, ?_⟩, ?_, ?_⟩ <;> decide

/-- ATTEST with the last leaf used, with one left, and TIME_REF_SET with and without a LIVE aperture. -/
theorem witness_AttestAndTimeRef :
    let a (leaf : Nat) := st (mailed { live with mc := { leaf := leaf, claimed := true, blocks := 256 } })
    let e : Entry := { byPointer (List.replicate 12 0) with opcode := 0x6B, outDw := 3080 }
    let t : Entry := { opcode := 0x11, body := body [0x11] }
    let o : Entry := { opcode := 0x11 }
    (a 1048576).takes 0 formAttest 0 e attestChecks = true ∧ 3080 ≤ e.outLen ∧ ((a 1048576).taken 0 0 e).takeLeaf.1 = none ∧
      ((a 1048575).taken 0 0 e).takeLeaf.1 = some 1048575 ∧ (a 1048575).takes 0 formAttest 0 e attestChecks = true ∧
    (let s := st (mailed live); s.takes 0 formTimeRef 0 t timeRefChecks = true ∧ (s.taken 0 0 t).aps = [] ∧ (s.taken 0 0 t).glob.launches = []) ∧
    (let s := st (mailed (withAp live { state := 3 })); s.takes 0 formTimeRef 0 t timeRefChecks = true ∧
      (s.taken 0 0 t).clk.refChanges t.block = true ∧ (∃ p ∈ (s.taken 0 0 t).aps, p.2.state = 3) ∧
      s.takes 0 formTimeRef 0 o timeRefChecks = true ∧ (s.taken 0 0 o).clk.refChanges o.block = false) := by decide

/-! ### Witnesses: registers, doorbells, the function, failed reads -/

theorem witness_EarlyAccessesAreTurnedAway : ((st {}).after 0).fw.ready = false ∧
    ¬ (0x170 < 0x10 ∨ 0x100 ≤ 0x170 ∧ 0x170 < 0x170 ∨ 0x2000 ≤ 0x170 ∧ 0x170 < 0x2400) ∧ isHighHalf 0x0C = false ∧ isLowHalf 0x0C = false ∧
    isHighHalf 0x23FC = false ∧ isLowHalf 0x23FC = false ∧ ((st {}).after 0).eventsAt 0x23FC = [] := by decide

theorem witness_LowHalfReadFillsTheShadow : ((st live).after 0).fw.ready = true ∧ isLowHalf 0x10 = true ∧ isHighHalf 0x10 = false ∧ mkqAt 0x10 = none ∧
    (((st live).after 0).settleFor 0x10).eventsAt 0x10 = [] ∧ isLowHalf 0x410008 = true ∧ isHighHalf 0x410008 = false := by decide

/-- The host's shadow holds the register's other half, then that of another register. -/
theorem witness_HighHalfReadReturnsTheShadow :
    let d (a : Nat) : Dev := { live with shadowHost := some { addr := a, high := 7 } }
    ((st (d 0x10)).after 0).fw.ready = true ∧ isHighHalf 0x14 = true ∧ mkqAt 0x14 = none ∧ ((st (d 0x10)).after 0).shadow .host = some { addr := 0x10, high := 7 } ∧
      (((st (d 0x10)).after 0).settleFor 0x14).eventsAt 0x14 = [] ∧ ∀ x, ((st (d 0x410008)).after 0).shadow .host = some x → x.addr + 4 ≠ 0x14 := by
  refine ⟨by decide, by decide, by decide, by decide, by decide, ?_⟩
  intro x h
  cases h
  decide

/-- The register at 0x28 with no event of the tick, and with one, which raises the field that a read clears. -/
theorem witness_RcReadClears :
    let x : RcEvent := { addr := 0x28, old := 4, op := .count 1 }
    let d : Dev := { live with rcNow := [x] }
    ((st live).after 0).fw.ready = true ∧ isHighHalf 0x28 = false ∧ isLowHalf 0x28 = false ∧ ((st live).after 0).eventsAt 0x28 = [] ∧
    RegMap.find 0x28 = some (⟨0x00000028, 4, 1, [⟨31, 0, .rc, .const 0⟩]⟩, 0) ∧ d.eventsAt 0x28 = [x] ∧ x.op.span = (31, 0) ∧ x.op.run 0 = 1 := by decide

theorem witness_IndirectAccess :
    let d : Dev := live.setReg 0x18 0x400000
    ((st d).after 0).fw.ready = true ∧ ((st d).after 0).mapped ((st d).after 0).indAddr = true ∧ ((st d).after 0).breaksPr ((st d).after 0).indAddr 0 = false ∧
      ((st live).after 0).mapped ((st live).after 0).indAddr = false ∧ (live.setReg 0x20 1).fld 0x20 0 0 = 1 ∧ live.fld 0x20 0 0 ≠ 1 := by decide

theorem witness_RegisterWritesAndBar2Reads :
    ((st live).after 0).fw.ready = true ∧ ((st live).after 0).breaksPr 0x24 0xFF = false ∧ ((st live).after 0).breaksPr 0xFFC 0 = false ∧ (RegMap.find 0x24).isSome = true ∧
      RegMap.find 0xFFC = none ∧
    (let d := (st live).after 0
     d.windowCapacity < (d.fld 0x24 7 0 * 2 ^ 30 + 193273528320) + 1 ∧ (d.fld 0x24 7 0 * 2 ^ 30 + 193273528319) + 1 ≤ d.windowCapacity ∧
      (193273528319 % 64 + 1 ≤ 64) ∧ d.lineMarked (193273528319 / 64) = false) := by decide

theorem witness_DoorbellsAndRing0 :
    let s (r : Ring) := st { live with rings := [(0, r)] }
    (let r := ((s ring1).after 0).ring 0; ((s ring1).after 0).fw.ready = true ∧ r.inUse = true ∧ ((s ring1).after 0).breaksPr 0x1000 0xF = false ∧ ((s ring1).after 0).breaksPr 0x1004 3 = false ∧
      ((s ring1).after 0).breaksPr 0x1400 2 = false ∧ (15 + 2 ^ r.sqLog2 - r.sqTail) % 2 ^ r.sqLog2 ≤
      (r.sqHead + 2 ^ r.sqLog2 - r.sqTail - 1) % 2 ^ r.sqLog2 ∧ (0xF : Word).fld 11 0 = 15) ∧
    (let r : Ring := { ring1 with cqTail := 3 }; (3 + 2 ^ r.cqLog2 - r.cqHead) % 2 ^ r.cqLog2 ≤ (r.cqTail + 2 ^ r.cqLog2 - r.cqHead) % 2 ^ r.cqLog2 ∧ r.held = none) ∧
    (let r : Ring := { ring1 with cqTail := 15, held := some { cmdId := 0, sqHead := 0, status := 0 } }
     r.cqFull = true ∧ (((s r).after 0).setRing 0 { r with cqHead := 1 }).ring 0 = { r with cqHead := 1 } ∧ ({ r with cqHead := 1 } : Ring).cqFull = false ∧ ((s r).after 0).ev.due = []) ∧
    (let d : Dev := { live with ev := { enabled := true, tail := 2 } }; d.ev.enabled = true ∧ (2 + 2 ^ d.ev.log2 - d.ev.head) % 2 ^ d.ev.log2 ≤
      (d.ev.tail + 2 ^ d.ev.log2 - d.ev.head) % 2 ^ d.ev.log2) ∧
    (ring1.fault = false ∧ 2 ^ ring1.sqLog2 ≤ (16 : Word).fld 11 0) := by decide

theorem witness_Ring0Enable :
    let d := (st live).after 0
    let x := d.storeRw 0x50 0x000100CC
    d.fw.ready = true ∧ d.breaksPr 0x50 0x000100CC = false ∧ d.fld 0x50 16 16 = 0 ∧ (0x000100CC : Word).fld 16 16 = 1 ∧ (d.ring 0).deleting = false ∧
      x.fld 0x50 3 0 = 12 ∧ x.fld 0x50 7 4 = 12 ∧ x.fld 0x40 11 0 = 0 ∧ x.fld 0x48 11 0 = 0 ∧
    (let d := (st ((mailed live).setReg 0x50 0x00010044)).after 0
     d.breaksPr 0x50 0x44 = false ∧ d.fld 0x50 16 16 = 1 ∧ (0x44 : Word).fld 16 16 = 0 ∧ (d.ring 0).inUse = true ∧ (d.ring 0).busy = none ∧ (d.ring 0).held = none) := by decide

/-- A channel that runs an export of KIND 2 without Relay. -/
def exporting (k : Nat) : Dev := { live with dma := [(59, { state := k, live := some (0, exportBlock), tail := 4 })] }

theorem witness_HostDrivesVectorsAndExports :
    (let d : Dev := { live with pcie := { live.pcie with pba := [255] } }; ((st d).after 0).pcie.msixEnable = true ∧ ((st d).after 0).pcie.busMaster = true ∧
      ((st d).after 0).pcie.msixFnMask = false ∧ ((st d).after 0).pcie.pba = [255]) ∧
    (let d := (st (((exporting 1).setReg (dmaReg 59 0x08) 4).setReg 0x18 (BitVec.ofNat 32 (dmaReg 59 0x0C)))).after 0
     d.fw.ready = true ∧ d.indAddr = dmaReg 59 0x0C ∧ (d.dmaCh 59).words = some exportBlock.words ∧ exRelay exportBlock.words = false ∧
      (d.dmaCh 59).head ≤ (QWord.ofHalves ((d.setReg (dmaReg 59 0x0C) 0).reg (dmaReg 59 0x08)) 0).toNat ∧
      (QWord.ofHalves ((d.setReg (dmaReg 59 0x0C) 0).reg (dmaReg 59 0x08)) 0).toNat ≤ (d.dmaCh 59).tail ∧
      (d.dmaCh 59).tail < (QWord.ofHalves ((d.setReg (dmaReg 59 0x0C) 1).reg (dmaReg 59 0x08)) 1).toNat) ∧
    (let d (k : Nat) (v : Word) := (st (((exporting k).setReg 0x18 (BitVec.ofNat 32 (dmaReg 59 0x04))).setReg (dmaReg 59 0x04) v)).after 0
     (d 1 0).indAddr = dmaReg 59 0x04 ∧ (d 1 0).fld (dmaReg 59 0x04) 0 0 = 0 ∧ (d 1 1).fld (dmaReg 59 0x04) 0 0 = 1 ∧
      ((d 1 0).dmaCh 59).state = 1 ∧ ((d 3 0).dmaCh 59).state = 3 ∧ ((d 5 0).dmaCh 59).state = 5) ∧
    (let d := (st (live.setReg 0x18 (BitVec.ofNat 32 (mkReg 15 0x2C)))).after 0
     let y := d.settleFor (mkReg 15 0x2C)
     d.fw.ready = true ∧ d.indAddr = mkReg 15 (0x20 + 4 * 3) ∧ y.eventsAt (mkReg 15 0x2C) = [] ∧ y.markerExported 15 = false ∧ y.cmc.facet = []) := by decide

theorem witness_FunctionAndLink :
    ((st live).after 0).functionUp = true ∧ ((st live).after 0).dma = [] ∧
    (let d := (st { live with pcie := { live.pcie with deletedAt := some 0 } }).after 0
     d.pcie.deletedAt.isSome = true ∧ d.functionUp = true ∧ d.pcie.d3hot = false ∧ d.pcie.busMaster = true ∧ d.fw.stage = 0x3F) ∧
    ¬ ((st live).after 0).pcie.deletedAt.isSome = true ∧ ((st {}).after 0).pcie.perst = true ∧ ((st live).after 0).pcie.perst = false := by decide

/-- A read of an SQ entry and one of a parameter block, after the failures given, since tick 0. -/
theorem witness_FailedReads :
    let r (k : Nat) (blk : Bool) : Ring := { ring1 with readFails := k, readsBlock := blk, readAt := some 0, failLow := some 8 }
    let d (k : Nat) (blk : Bool) (t : Nat) := (st { live with rings := [(0, r k blk)] }).after t
    let e : Entry := { byPointer [0, 0] with opcode := 0x20 }
    let f (k : Nat) (blk : Bool) (t : Nat) := ((d k blk t).fetchEntry 0).readFailed 0 false 64
    let b (k : Nat) (blk : Bool) (t : Nat) := (((d k blk t).fetchEntry 0).readBlock e).readFailed 0 true 64
    (d 0 false 0).served = some 0 ∧ ((f 0 false 0).ring 0).readFails < 4 ∧ ((f 3 false 0).ring 0).readFails = 4 ∧ e.ptr = true ∧ e.opcode ∈ listedOpcodes ∧
      ((b 3 false 0).ring 0).readFails < 4 ∧ ((b 3 true 0).ring 0).readFails = 4 ∧ ((d 0 false 0).ring 0).readsBlock = false ∧ ((d 0 false 0).ring 0).failLow = some 8 ∧
    (d 0 false 0).readSince (.sqEntry 0) = some 0 ∧ 0 + 30000000 < (d 0 false 30000001).clk.time ∧ (d 0 false 30000000).clk.time ≤ 0 + 30000000 := by decide

theorem witness_Timeouts :
    let w (x : Wait) (ms : Nat) (gone : Bool) : Busy :=
      { wait := x, opcode := 0, cmdId := 0, target := 0, noirq := true, timeoutMs := ms, takenAt := 0, sqHead := 1, expired := gone }
    let b (x : Wait) (ms : Nat) (gone : Bool) : Dev := { live with rings := [(0, { ring1 with busy := some (w x ms gone) })] }
    (((st (b (.halt 0) 0 false)).after 0).ring 0).busy = some (w (.halt 0) 0 false) ∧
    (((st (b (.aperture 0 3 0) 1 false)).after 3000000).ring 0).busy = some (w (.aperture 0 3 0) 1 false) ∧
      0 + 1 * 3000000 ≤ ((st (b (.aperture 0 3 0) 1 false)).after 3000000).clk.time ∧ ((st (b (.aperture 0 3 0) 1 false)).after 2999999).clk.time < 0 + 1 * 3000000 ∧
    (live.ring 0).busy = none ∧ ((b (.halt 0) 1 true).ring 0).busy = some (w (.halt 0) 1 true) ∧ (w (.halt 0) 1 true).expired = true := by decide

/-! ### Witnesses: the timebase and the sync lanes -/

/-- A device with this clock. -/
def clocked (c : Clock) : State := st { live with clk := { c with run := true } }

theorem witness_ReferencesComeAndGo :
    (let c := ((clocked { refMode := 1 }).after 0).clk; c.refMode ≠ 0 ∧ c.role ≤ 1 ∧ c.tq ≠ Tq.holdover) ∧
    (let c := ((clocked { refMode := 1, refPresent := true, tq := .holdover }).after 0).clk; c.refMode ≠ 0 ∧ c.tq = Tq.holdover ∧ c.ppsEn = false ∧ c.refPresent = true) ∧
    (let d := (clocked { ppsEn := true, ppsCycle := some 0, tq := .locked }).after 3000003000
     let c := d.clk
     c.ppsEn = true ∧ c.ppsFall = false ∧ c.ppsLoad = none ∧ c.tq ≠ Tq.holdover ∧ d.heldCmds = [] ∧ c.tq = Tq.locked ∧ 2999997000 ≤ c.cycle - 0 ∧ c.cycle - 0 ≤ 3000003000 ∧
       20000 < 3 * (d.ppsPhase 0).natAbs) ∧
    (let d := (clocked { ppsEn := true, tq := .locked }).after 0
     d.clk.ppsCycle = none ∧ d.clk.tq = Tq.locked ∧ 3 * (d.ppsPhase 511).natAbs ≤ 20000) ∧
    (let c := ((clocked { ppsEn := true, ppsPresent := true, ppsCycle := some 0 }).after 3300000000).clk; c.ppsPresent = true ∧ 0 + 3300000000 ≤ c.cycle) ∧
    (let d := (clocked { refMode := 2, refPresent := true }).after 0
     d.refsSet = true ∧ d.refsPresent = true ∧ d.clk.tq ≠ Tq.locked ∧ d.clk.ppsEn = false ∧ d.clk.tq ≠ Tq.slewing ∧ (-999 : Int).natAbs < 1000) ∧
    (let d := (clocked { ppsEn := true, ppsPresent := true, phaseErr := -6666 }).after 0
     d.refsSet = true ∧ d.refsPresent = true ∧ d.clk.ppsEn = true ∧ 3 * d.clk.phaseErr.natAbs ≤ 20000) ∧
    (let d := (clocked { ppsEn := true, ppsLoad := some (9, 5) }).after 5; d.clk.ppsLoad = some (9, 5) ∧ 5 ≤ d.clk.cycle ∧ d.actionsDue = false ∧ d.heldCmds = []) ∧
    (let d := (st { live with clk := { run := true, ppsEn := true, ppsLoad := some (9, 5) }, glob := { resets := [{ id := 1, tick := 5, scope := 0, time := true, acq := false, load := 0, origin := true }] } }).after 5
     d.clk.ppsLoad = some (9, 5) ∧ d.actionsDue = true) := by decide

theorem witness_LoadCancelsScheduledActions :
    let d : Dev := { live with glob := { launches := [{ id := 1, mode := 0, tick := some 9, apertures := [0] }] }, aps := [(0, { state := 2, launch := some 1 })] }
    (∃ l ∈ d.glob.launches, 0 ∈ l.apertures) ∧ (d.ap 0).launch = some 1 := by decide

theorem witness_RepeatedWordIsIgnored :
    let d := (st { live with glob := { links := [(15, { up := true, rxSeen := [255] })] } }).after 0
    let w : SyncWord := { repeated := true, seq := 255 }
    (d.link 15).up = true ∧ w.repeated = true ∧ w.seq % 256 ∈ (d.link 15).rxSeen := by decide

/-- A member of a group whose link is up. -/
def member (g : Globals) : State := st { live with clk := { run := true, role := 3 }, glob := { g with links := [(0, { up := true })] } }

theorem witness_WordsReachAMember :
    let w : SyncWord := { id := 1, tick := 108 }
    let l (m : Nat) (t : Option Nat) : Launch := { id := 1, mode := m, tick := t, apertures := [0] }
    let d (m : Nat) (t : Option Nat) := (member { launches := [l m t] }).after 0
    let parts : List (Nat × Nat × Nat) := [(1, 0, 1), (1, 1, 2), (1, 2, 3)]
    let p := (st { live with clk := { run := true, role := 3 }, glob := { links := [(0, { up := true, parts := parts })] } }).after 0
    (d 1 none).clk.role = 3 ∧ (d 1 none).hears 0 w = true ∧ ((d 1 none).heard 0 w).firedOf 1 = some (l 1 none) ∧ (l 1 none).origin = false ∧
      (d 1 none).now + 108 ≤ w.tick.toNat ∧ ((d 2 (some 108)).heard 0 w).firedOf 1 = some (l 2 (some 108)) ∧
    (let x : Snap := { id := 1, mode := 1, tick := none, fired := false }; (((member { snaps := [x] }).after 0).heard 0 w).snapOf 1 = some x ∧ x.origin = false) ∧
    (((member {}).after 0).heard 0 w).glob.resets = [] ∧ (p.hears 0 w = true ∧ ((p.heard 0 w).link 0).bcastWhole 1 = some (1 + 2 ^ 88 * 2 + 2 ^ 176 * 3)) ∧
      3 * 2 ^ 24 / 2 ^ 24 % 256 = 3 ∧
    ({ w with tick := 107 } : SyncWord).tick.toNat < (d 1 none).now + 108 ∧ ((d 1 none).heard 0 w).glob.applied = [] := by decide

theorem witness_WordsReachTheTop :
    let d (g : Globals) := (st { root with glob := { g with links := [(0, { up := true, reqAt := some 0 })] } }).after 9
    let w : SyncWord := { id := 1, arg := 2 ^ 16 + 1 }
    let c (own : Bool) : BarrierCount := { id := 1, scope := 1, links := [], own := own }
    (d {}).hears 0 w = true ∧ ((d {}).link 0).up = true ∧ ((d {}).link 0).reqAt = some w.tick ∧ (d {}).clk.role = 1 ∧
      w.arg / 2 ^ 16 % 4 = 1 ∧ ((d {}).heard 0 w).glob.barriers = [] ∧ (d {}).groupLinks = [0] ∧
      (((d {}).heard 0 w).link 0).spaced = [] ∧ (((d {}).heard 0 w).link 0).launchQ = [] ∧
    ((d { barriers := [c true] }).heard 0 w).glob.barriers = [c true] ∧ (c true).own = true ∧ ((d { barriers := [c true] }).heard 0 w).glob.releases = [] ∧
    (let b : Bcast := { id := 1, tick := 0, payload := [], scope := 1, waits := [0], count := 0, sender := true }
     ((d { bcasts := [b] }).heard 0 w).glob.bcasts = [b] ∧ 0 ∈ b.waits ∧ b.delivered = false) ∧
    ((member {}).after 0).clk.role = 3 ∧ (((member {}).after 0).link 0).up = true := by decide

theorem witness_RemoteTriggersAndLanes :
    let w : SyncWord := { id := 7 }
    let r (p : List (Nat × Nat × Nat × Nat × Nat)) := st { (member {}).dev with remote := { pending := p } }
    ((r []).after 0).clk.role = 3 ∧ ((r []).after 0).hears 0 w = true ∧ w.prov = false ∧ ((r []).after 0).remote.pending.length < 64 ∧
      (7, 0) ∉ ((r []).after 0).remote.resolved ∧ ((r [(7, 0, 0, 0, 0)]).after 0).remote.pending = [(7, 0, 0, 0, 0)] ∧ w.arg / 2 ^ 10 % 2 = 0 ∧
      0 + 16384 < ((r [(7, 0, 0, 0, 0)]).after 16385).clk.cycle := by decide

theorem witness_LaneSlots :
    let f : SyncOut := { type := 0x10, id := 1 }
    let d (l : SyncLink) (t : Nat) := (st { root with glob := { links := [(0, l)] } }).after t
    ((d { up := true, launchQ := [f, { f with flags := 1 }] } 0).link 0).launchQ = { f with flags := 0, seq := none } :: { f with flags := 1, seq := none } :: [] ∧
      ((d { up := true, launchQ := [f, { f with flags := 1 }] } 0).link 0).spaced = [] ∧
    ((d { up := true } 0).link 0).launchQ = [] ∧ ((d { up := true } 0).link 0).trigQ = [] ∧ ((d { up := true } 0).link 0).otherQ = [] ∧ (d { up := true } 0).glob.applied = [] ∧
    ((d { up := true } 0).link 0).rangedAt = none ∧ ((d { up := true, rangedAt := some 0 } 3000000000).link 0).rangedAt = some 0 ∧
      0 + 3000000000 ≤ (d { up := true, rangedAt := some 0 } 3000000000).cyc ∧ (d { up := true, rangedAt := some 0 } 2999999999).cyc < 0 + 3000000000 ∧
      ((d { up := true, bad := 14 } 0).link 0).bad < 15 ∧
    ((d {} 0).link 0).up = false ∧ (d {} 0).linkUsed 0 = true ∧ ((d {} 0).link 0).meas = [] ∧ (250000 ≤ if (0 : Nat) < 8 then 250000 else 775000) ∧ (d {} 0).heldCmds = [] ∧
      (d {} 0).fromAbove 0 = false ∧
    (let d := (st { live with clk := { run := true, role := 3 } }).after 0; (d.link 0).up = false ∧ d.linkUsed 0 = true ∧ d.fromAbove 0 = true ∧ d.aps = [] ∧ d.actionsDue = false) ∧
    (let d := (st { live with clk := { run := true, role := 3 }, aps := [(0, { state := 3 })] }).after 0; (d.link 0).up = false ∧ d.linkUsed 0 = true ∧ d.fromAbove 0 = true ∧ ∃ p ∈ d.aps, p.2.state = 3) ∧
    (d { up := true } 720).linkUsed 0 = true ∧ ((d { up := true } 720).link 0).up = true ∧ ((d { up := true } 720).link 0).goodAt + 720 ≤ (d { up := true } 720).cyc := by decide
/-! ### Witnesses: scheduled actions, triggers, acquisition -/

theorem witness_LaunchAndHaltTicks :
    let l (m : Nat) : Launch := { id := 1, mode := m, tick := some 5, apertures := [0], fired := decide (m ≠ 0) }
    let s (m : Nat) := st { withAp live { state := 2, launch := some 1 } with glob := { launches := [l m] } }
    let h : Sched := { unit := 0, tick := 5 }
    let z := st { withAp live { state := 3 } with glob := { halts := [h] } }
    ((s 0).after 5).dueLaunch 1 = some (l 0) ∧ (l 0).tick = some 5 ∧ ((s 0).after 5).dueApertures (l 0) = [0] ∧ ((s 2).after 5).dueLaunch 1 = some (l 2) ∧
      ((s 2).after 5).dueApertures (l 2) = [0] ∧ (l 2).mode ≠ 0 ∧ dueSched (z.after 5) (z.after 5).glob.halts 0 = some h ∧ ((z.after 5).ap 0).state = 3 ∧
      (z.after 5).heldCmds = [] := by decide

theorem witness_ScheduledActionsHappen :
    let x (l : Option (List (List Word) × Nat × Nat)) : Snap := { id := 1, mode := 0, tick := some 5, latched := l }
    let b : Busy := { wait := .snapshot 1 0, opcode := 0x15, cmdId := 0, target := 1, noirq := true, timeoutMs := 0, takenAt := 0, sqHead := 1, outLen := 16 }
    let s (l : Option (List (List Word) × Nat × Nat)) := st { live with glob := { snaps := [x l] }, rings := [(0, { ring1 with busy := some b })] }
    ((s none).after 5).glob.snaps = [x none] ∧ (x none).fired = true ∧ 5 ≤ ((s none).after 5).now ∧ ((s none).after 5).ringsOn (.snapshot 1 0) = [0] ∧ ((s none).after 5).launchesBy 5 = false ∧
    (x (some ([], 0, 0))).latched = some ([], 0, 0) ∧ (x none).waits = [] ∧ (x none).applied = none ∧ (((s (some ([], 0, 0))).after 5).ring 0).busy = some b ∧
    (let r : ResetAct := { id := 1, tick := 5, scope := 0, time := true, acq := true, load := 9, origin := true }
     r.tick ≤ ((st { live with glob := { resets := [r] } }).after 5).now ∧ r.fired = true ∧
     ((st { live with glob := { resets := [r] } }).after 5).launchesBy ((st { live with glob := { resets := [r] } }).after 5).now = false ∧ ((st { live with glob := { resets := [r] } }).after 5).snapsBy 5 = false) ∧
    (let b : Bcast := { id := 1, tick := 5, payload := [], scope := 1, waits := [0], count := 0, sender := true }; b.delivered = false ∧ b.waits ≠ [] ∧ b.tick ≤ ((st live).after 5).now) := by decide

/-- A mask block of one point, a hit at one violation; a combiner block of one stage. -/
def maskBlock : Block := { type := 5, unit := 255, words := [0x00400005, 255, 0x00010000, 1, 0x0101] ++ List.replicate 11 0 }
def combBlock : Block := { type := 6, unit := 63, words := [0x00600006, 63, 0, 0, 0, 0, 0, 0, 0x00010001] ++ List.replicate 15 0 }

theorem witness_MasksAndCombiners :
    let f : MaskFrame := { block := maskBlock, seq := 0, stamp := 0, d := 0, channel := 0, n := 64, fch := ⟨1, 1⟩, poison := false, ovr := false, restart := false, viol := 1 }
    let s := st { live with masks := [(255, { block := some maskBlock, frames := [f] })] }
    let c (t : Nat) : Candidate := { src := 0, fire := 0, tick := t, prov := false }
    let x (m : TrigMsg) : Combiner := { block := some combBlock, from_ := 1, inbox := [(0, 0, m)] }
    let k (m : TrigMsg) := (st { live with combs := [(63, x m)] }).after 0
    ((s.after 56).mask 255).frames = [f] ∧ f.d + f.n / 8 + 48 ≤ (s.after 56).clk.cycle ∧ (s.after 55).clk.cycle < f.d + f.n / 8 + 48 ∧
    ((k (.cand (c 0))).comb 63).inbox = [(0, 0, .cand (c 0))] ∧ (c 0).tick < ((k (.cand (c 0))).comb 63).from_ ∧ ((k (.cand (c 0))).comb 63).block = some combBlock ∧
    ((k (.cand (c 1))).comb 63).from_ ≤ (c 1).tick ∧ ((k (.cand (c 1))).comb 63).prov = none ∧ ((({} : CombSeq).take combBlock.words 0 1).2 = some 1) ∧
      ((({} : CombSeq).take combBlock.words 1 1).2 = none) ∧
    (let y : Combiner := { block := some combBlock, held := [(0, c 5)], inbox := [(0, 0, .verdict 0 0 false)] }
     let d := (st { live with combs := [(63, y)] }).after 0
     (d.comb 63).inbox = (0, 0, .verdict 0 0 false) :: [] ∧ (d.comb 63).prov = none ∧ (d.comb 63).dropped = [] ∧ (d.comb 63).held = [(0, c 5)]) := by decide

theorem witness_TriggerOutputsPulse :
    let r (e : Bool) : PulseReq := { src := 0, fire := 0, due := 4, early := e, width := 3, verdict := none, verdictAt := 0 }
    let p (v : Bool) : PulseSent := { src := 0, fire := 0, num := 15, start := 12, verdict := some v, verdictAt := 0 }
    let s (x : TrigOut) := (st { live with tos := [(7, x)] }).after 18
    ((s { queue := [r false] }).to 7).queue = [r false] ∧ (r false).due ≤ (s {}).clk.cycle ∧ ((s { queue := [r true] }).to 7).queue = [r true] ∧
      (r true).verdict = none ∧ ((s { queue := [r true] }).to 7).freeAt ≤ (s {}).clk.cycle ∧ ((s { active := true, endAt := 18 }).to 7).active = true ∧
      ((s { active := true, endAt := 18 }).to 7).endAt ≤ (s {}).clk.cycle ∧
    leastBy (fun (y : PulseSent) => y.verdictAt) (((s { sent := [p true] }).to 7).sent.filter (fun y => y.verdict.isSome)) = some (p true) ∧
    leastBy (fun (y : PulseSent) => y.verdictAt) (((s { sent := [p false] }).to 7).sent.filter (fun y => y.verdict.isSome)) = some (p false) ∧
      (p true).verdictAt + 18 ≤ (s {}).clk.cycle ∧ (p true).start + 6 ≤ (s {}).clk.cycle ∧ ((s { sent := [p true] }).to 7).codeFreeAt ≤ (s {}).clk.cycle := by decide

/-- A capture block of one segment with one tick before and after the trigger, in an aperture that is LIVE. -/
def captureBlock : Block := { type := 9, unit := 0, words := [0x00200009, 0, 0, 0, 1, 1, 0, 0] }
def capturing (x : Acq) : State := st (withAp live { state := 3, live := [captureBlock], acq := x })

/-- A sub-ring of four entries of 64 bytes with one entry ready. -/
def readyEntry : RedEntry := { stamp := 0, bytes := List.replicate 64 1, poisoned := false, ovr := false, brk := false }
def subRing : SubRing := { slot := 0, ch := 511, entryBytes := 64, rate := ⟨1, 1⟩, pre := 1, post := 1, q := 4, base := 512, ready := [readyEntry] }

theorem witness_CandidatesAtAnAperture :
    let c (v : Bool) : Candidate := { src := 1, fire := 2, tick := 3, prov := v }
    let p (x : Acq) := ((capturing x).after 0).ap 0
    let y (k : Nat) (v : Bool) : Acq := { sub := k, subs := [subRing], inbox := [(0, .cand (c v))] }
    (p (y 2 false)).state = 3 ∧ (p (y 2 false)).capture ≠ none ∧ (p (y 2 false)).acq.inbox = (0, .cand (c false)) :: [] ∧ (p (y 2 false)).acq.prov = none ∧
      (p (y 2 false)).acq.opened = [] ∧ (p (y 2 false)).acq.subs = [subRing] ∧ (subRing.held.filter (fun e => decide ((c false).tick ≤ e.stamp))).length < subRing.post ∧
    (p (y 1 true)).acq.inbox = (0, .cand (c true)) :: [] ∧ (p (y 6 false)).acq.sub = 6 ∧ ((capturing (y 6 false)).after 383).clk.cycle < (y 6 false).rearmAt + 384 ∧
      (p (y 5 false)).acq.sub = 5 ∧
    (let x : Acq := { sub := 2, subs := [subRing], prov := some (c true, 2), inbox := [(0, .verdict 1 2 true)] }
     (p x).acq.inbox = (0, .verdict (c true).src (c true).fire true) :: [] ∧ (p x).acq.prov = some (c true, 2) ∧ (p x).acq.lost = [] ∧ (p x).acq.held = [] ∧
      ((capturing x).after 0).heldCmds = []) := by decide

theorem witness_SequencesEntriesAndRecords :
    (let d := (capturing { sub := 6 }).after 384; (d.ap 0).state = 3 ∧ (d.ap 0).acq.sub = 6 ∧ (d.ap 0).acq.rearmAt + 384 ≤ d.clk.cycle ∧ (d.ap 0).capture ≠ none) ∧
    (let x : Sched := { unit := 0, tick := 5 }
     let d := (st { (capturing { sub := 5 }).dev with glob := { arms := [x] } }).after 5
     dueSched d d.glob.arms 0 = some x ∧ (d.ap 0).state = 3 ∧ (d.ap 0).acq.sub = 5) ∧
    (let x : Sched := { unit := 0, tick := 5 }
     let d := (st { (capturing { sub := 1 }).dev with glob := { freezes := [x] } }).after 5
     dueSched d d.glob.freezes 0 = some x ∧ (d.ap 0).capture ≠ none ∧ (d.ap 0).acq.sub = 1 ∧ (d.ap 0).acq.opened = []) ∧
    (let d := (capturing { sub := 1, subs := [subRing] }).after 0
     let p := d.ap 0
     p.acq.subs[0]? = some subRing ∧ (p.acq.subs.zipIdx).find? (fun (x : SubRing × Nat) => decide (x.1.slot = 0 ∧ x.1.ch = 511)) = some (subRing, 0) ∧
      subRing.ready = readyEntry :: [] ∧ p.acq.t0 ≤ readyEntry.stamp ∧ p.acq.sub ≠ 5 ∧ p.acq.sub ≠ 6 ∧ readyEntry.poisoned = false ∧ subRing.stage = {} ∧ p.acq.opened = []) ∧
    (let o : Rec := { recno := 0, segment := 0, seqno := 0, trigTick := 0 }
     let p := ((capturing { sub := 4, opened := [o] }).after 0).ap 0
     p.capture = some captureBlock.words ∧
      p.acq.opened.find? (fun x => p.acq.recordDone (cpStreaming captureBlock.words && decide (cpPost captureBlock.words = 0)) x) = some o ∧
      p.acq.completed + 1 = cpSegments captureBlock.words) := by decide

theorem witness_NothingLost (b : Nat) : ((st live).after 0).blockLost b = false ∧ ((st live).after 0).pcPoisoned b = false := ⟨rfl, rfl⟩

/-! ### Witnesses: from a pad to the bins of a spectrum -/

/-- A route of pad 0 on one lane, and a DATA frame for its stream 0 with a good CRC. -/
def routeBlock : Block := { type := 1, unit := 0, words := [0x00300001, 0, 0, 1000, 1, 0, 0, 0, 0, 0, 0, 0] }
def frameHead : List Word := 0x00000A5C :: List.replicate 166 0
def frameWords : List Word := frameHead ++ [crc32 frameHead]

theorem frame_valid (h : List Word) (c : Word) (hl : h.length = 167) (h0 : fldAt (h ++ [c]) 0x000 11 0 = 0xA5C) (hc : c = crc32 h) :
    pslValid (h ++ [c]) = true := by
  have hd : dwAt (h ++ [c]) 0x29C = c := by simp [dwAt, hl]
  have ht : (h ++ [c]).take 167 = h := by rw [← hl]; exact List.take_left
  simp only [pslValid, ht, hd, h0, ← hc, Bool.and_eq_true, decide_eq_true_eq, List.length_append, hl, List.length_singleton]
  decide

theorem witness_frame_is_good : pslValid frameWords = true := frame_valid frameHead _ rfl (by decide) rfl

/-- What a lane carries for the dwords of a frame, after the 58 bits `h` (R158). -/
def scramble : Nat → List Word → List Word
  | _, [] => []
  | h, w :: t => (w ^^^ BitVec.ofNat 32 (h / 2 ^ 19 ^^^ h)) :: scramble ((h + (w ^^^ BitVec.ofNat 32 (h / 2 ^ 19 ^^^ h)).toNat * 2 ^ 58) / 2 ^ 32) t

/-- The descrambler undoes the scrambler. -/
theorem test_descrambler (ws : List Word) : ∀ h, h < 2 ^ 58 → (descramble h (scramble h ws)).1 = ws := by
  induction ws with
  | nil => intro h _; rfl
  | cons w t ih =>
    intro h hh
    simp only [scramble, descramble]
    rw [ih _ (by have := (w ^^^ BitVec.ofNat 32 (h / 2 ^ 19 ^^^ h)).isLt; omega)]
    congr 1
    generalize hs : w ^^^ BitVec.ofNat 32 (h / 2 ^ 19 ^^^ h) = x
    have hx := x.isLt
    have h1 : (h + x.toNat * 2 ^ 58) / 2 ^ 58 = x.toNat := by omega
    have h2 : BitVec.ofNat 32 ((h + x.toNat * 2 ^ 58) / 2 ^ 19) = BitVec.ofNat 32 (h / 2 ^ 19) := by
      apply BitVec.eq_of_toNat_eq; simp only [BitVec.toNat_ofNat]; omega
    have h3 : BitVec.ofNat 32 (h + x.toNat * 2 ^ 58) = BitVec.ofNat 32 h := by
      apply BitVec.eq_of_toNat_eq; simp only [BitVec.toNat_ofNat]; omega
    rw [h1, BitVec.ofNat_xor, BitVec.ofNat_xor, h2, h3, BitVec.ofNat_toNat, BitVec.setWidth_eq, ← hs, BitVec.ofNat_xor]
    simp [BitVec.xor_assoc]

/-- The words of a good frame come out of the descrambler of a pad whose lane carried zeros. -/
theorem witness_frame_on_the_wire : (descramble 0 (scramble 0 frameWords)).1 = frameWords := test_descrambler _ 0 (by decide)

theorem witness_PslGroupsAreReleased :
    let d (p : Pad) (x : Stream) := (st { live with pads := [(0, p)], streams := [(0, x)] }).after 204
    let f : PslHeld := { bpos := 0, seq := 0, real := false, ovr := false, bad := false, time := 0, arrive := 0, data := List.replicate 163 1 }
    let x : Stream := { route := some (0, routeBlock), anchored := true, held := [f] }
    ((d { mode := 1, aligned := true } x).pad 0).mode = 1 ∧ (d {} x).rxDead 0 = false ∧ ((d { mode := 1, aligned := true } x).pad 0).aligned = true ∧ fldAt frameWords 0 31 24 = 0 ∧
      fldAt frameWords 0 15 12 = 0 ∧ x.rt = some routeBlock.words ∧ rtKind routeBlock.words = 0 ∧ rtDeskew routeBlock.words = 0 ∧ rtLane routeBlock.words = 0 ∧
      rtBond routeBlock.words = 1 ∧ fldAt frameWords 0 23 20 = 0 ∧ bitAt frameWords 0 16 = rtReal routeBlock.words ∧
    ((d { mode := 1, good := 3 } x).pad 0).good = 3 ∧ ((d { mode := 1, good := 3 } x).pad 0).aligned = false ∧ ((d { mode := 1, aligned := true, bad := 7 } x).pad 0).bad = 7 ∧
      (descramble 0 []).1 = [] ∧ pslValid [] = false ∧
    ((d {} x).stream 0).held = [f] ∧ f.data.length = 163 ∧ rtReal routeBlock.words = false ∧ rtSender routeBlock.words = false ∧ f.seq = x.seq ∧ x.seq < 65536 ∧
      x.groupPos ≤ x.nextPos ∧ f.arrive + 204 + 144 * rtDeskew routeBlock.words ≤ (d {} x).clk.cycle := by decide +kernel

/-- A route of JESD204C link 23 with one lane at pad 95. -/
def jesdBlock : Block := { type := 1, unit := 0, words := [0x00300001, 0, 0x01700001, 1000, 1, 0, 0, 0x0017C010, 0x01000060, 31680, 0, 0] }

theorem witness_Streams :
    let d (x : Stream) (t : Nat) := (st { live with streams := [(239, x)] }).after t
    let r : Stream := { route := some (0, routeBlock), state := 2 }
    let smp : Sample := { i := 0, q := 0, poison := false, ovr := false, instant := ⟨0, 1⟩ }
    let e : InSplitter := { smp := smp, pos := 0, anchor := false }
    let q := r.queued routeBlock.words 12 1
    ((d r 3000000).stream 239).state = 2 ∧ ((d r 3000000).stream 239).lastGood + 3000000 ≤ (d r 3000000).clk.cycle ∧
    ((d r 144).stream 239).fifo = [] ∧ r.rt = some routeBlock.words ∧ rtKind routeBlock.words = 0 ∧ r.subSeq = none ∧
      r.dueAfter routeBlock.words ((d r 144).jlink (rtLink routeBlock.words)).lemc (r.instantOf (rtRate routeBlock.words) r.nextPos) ≤ ((d r 144).clk.count.toNat : Int) ∧
    ((d { r with fifo := [e] } 12).stream 239).fifo = e :: [] ∧ r.returning = false ∧ e.anchor = false ∧ e.old = false ∧ e.sub = false ∧ r.outPos ≤ e.pos ∧
      e.enter + 12 ≤ (d r 12).clk.cycle ∧ (d r 11).clk.cycle < e.enter + 12 ∧
    (1 ≠ 0 ∧ ∀ p ∈ portsOf 1, ((d r 12).setStream 239 q).portHeld p ≤ 8192 * 3000000) ∧
    (d r 0).sweeping 3 = false ∧ (d r 0).fw.stage = 0x3F := by decide +kernel

theorem witness_NothingWithdrawn (c : Nat) : (((st live).after 144).chan c).withdrawn = none := rfl

theorem witness_JesdLinks :
    let y : Stream := { route := some (0, jesdBlock) }
    let d (l : JesdLink) (t : Nat) := (st { live with streams := [(0, y)], jesd := [(23, l)], pads := [(95, { mode := 2, aligned := true })] }).after t
    (d {} 0).linkRoute 23 = some jesdBlock.words ∧ rtSysref jesdBlock.words = 0 ∧ ((d {} 0).jlink 23).lemc = none ∧ ((d {} 0).pad 95).mode = 2 ∧ ((d {} 0).pad 95).aligned = true ∧
      (d {} 0).rxDead 0 = false ∧
      (d { up := true, lemc := some 0 } 96).streamsOfLink 23 = [0] ∧ rtReal jesdBlock.words = false ∧ ((d { up := true, lemc := some 0 } 96).jlink 23).up = true ∧
      0 + 0 * lemcPeriod jesdBlock.words + rtRelease jesdBlock.words ≤ (d { up := true, lemc := some 0 } 96).now := by decide +kernel

/-- A transform block of 64 points. -/
def xformBlock : Block := { type := 3, unit := 511, words := [0x00180003, 511, 6, 0, 1, 0] }

theorem witness_ChannelsAndFrames :
    let o : ChanOut := { i := 1, q := 0, poison := false, ovr := false, instant := ⟨0, 1⟩, due := 4, first := true }
    let d (x : Chan) (t : Nat) := (st { live with chans := [(511, x)] }).after t
    let f : Frame := { k := 0, block := xformBlock, stamp := 0, tq := 0, c := 0, a := 8, restart := false, engine := 17 }
    let r : Staging := { no := 0, n := 64, hop := 64 }
    let x : Spectrum := { channel := 511, block := xformBlock, stamp := 0, seq := 0, bfe := 0, poison := false, ovr := false, restart := false, tq := 0, poisonSrc := 0, d := 0, bins := [(0, 0)] }
    ((d { outq := [o], state := 1 } 4).chan 511).outq = o :: [] ∧ o.due ≤ (d {} 4).clk.cycle ∧ ((d { outq := [o], state := 1 } 4).chan 511).framesNext = [] ∧
      ((d { outq := [o], state := 1 } 4).chan 511).state = 1 ∧ o.start = ((d { outq := [o], state := 1 } 4).chan 511).switchAt ∧
    ((d { pending := [o] } 4).chan 511).pending = o :: [] ∧
    (let y := (d { done := [f], rings := [r] } 4).serve 7
     (y.engine 15).role = 0 ∧ (y.engine 15).sector = 7 ∧ leastBy (fun (p : Nat × Frame) => p.2.c + p.2.a) (y.framesOf 7 (·.done) (fun _ => true)) = some (511, f) ∧
       (y.chan 511).ring f.ring = some r) ∧
    ((d { done := [f] } 8).framesOf 7 (·.reading) (fun g => decide (g.left ≠ 0)) = [] ∧
      (d { done := [f] } 8).framesOf 7 (·.done) (fun g => decide (g.c + g.a ≤ (d { done := [f] } 8).clk.cycle)) = [(511, f)]) ∧
    (((d { reading := [f] } 64).serve 7).chan 511).reading = f :: [] ∧ f.engine < 18 ∧ f.left = 0 ∧ f.c + f.a + engineLatency f.block.words ≤ (d {} 64).clk.cycle ∧
    ((d { spectra := [x] } 4).chan 511).spectra = x :: [] ∧ x.d + binTick x.block.words (tfBinLo x.block.words + (x.emitted : Int)) ≤ (d {} 4).clk.cycle := by decide +kernel
/-! ### Witnesses: the controller, the scrubbers, display, markers, exports, Relay -/

theorem witness_ControllerSlots :
    let d (c : Cmc) (t : Nat) := (st { live with cmc := c }).after t
    let p : Pc := { role := 0, logical := 179, nrq := [1], nrOver := [2] }
    let w : Pc := { role := 0, logical := 179, wbq := [(179, 0)] }
    let full : Pc := { role := 0, logical := 179, slots := { slot := some 0 } }
    (d { wbuf := [(179, 0)] } 0).maySlot 189 .scheduled = true ∧ (d { wbuf := [(179, 0)] } 0).drains 189 = some 179 ∧
      (d { wbuf := [(179, 0)] } 0).cmc.wbuf.find? (fun (v : Nat × Nat) => decide ((d { wbuf := [(179, 0)] } 0).pcOfBlock v.1 = 179)) = some (179, 0) ∧
    [SlotKind.scheduled, .refresh, .neighbour, .leftover].all (fun k => (d { pcs := [(191, p)] } 0).maySlot 191 k && !(d { pcs := [(191, full)] } 0).maySlot 191 k) = true ∧
    ((d { pcs := [(191, p)] } 0).pc 191).nrq = 1 :: [] ∧ ((d { pcs := [(191, p)] } 0).pc 191).nrOver = 2 :: [] ∧
      ((d { pcs := [(191, p)] } 0).useSlot 191 .leftover).fetchOn 191 = none ∧
      ((d { pcs := [(191, w)] } 0).pc 191).nrq = [] ∧ ((d { pcs := [(191, w)] } 0).pc 191).wbq = (179, 0) :: [] ∧
    (d {} 999).cmc.pdIdle ≠ 0 ∧ ((d {} 5000).pc 0).used0 + (d {} 999).cmc.pdIdle * slotTicks (d {} 999).cmc.rate ≤ (d {} 5000).clk.cycle ∧
      ((d {} 5000).pc 0).used1 + (d {} 999).cmc.pdIdle * slotTicks (d {} 999).cmc.rate ≤ (d {} 5000).clk.cycle ∧
    (let d := d { pcs := [(189, w)] } 0
     d.physOf (d.pcOfBlock (512 * 179 / 512)) = some 189 ∧ (d.pc 189).wbq.any (fun (v : Nat × Nat) => decide (v.1 = 512 * 179 / 512)) = true) := by decide

theorem witness_SettingsAndTraining :
    let d (c : Cmc) (t : Nat) := (st { live with cmc := c }).after t
    let u (k n : Nat) : Training := { cause := 0, step := k, tries := n }
    let p (v : Training) : Cmc := { pcs := [(191, { role := 1, logical := 0xFF, train := some v })] }
    let e : Cmc := { pcs := [(191, { role := 1, logical := 0xFF, trainSec := 1 })] }
    (d {} 9000).clk.cycle % 9000 = 0 ∧ (d {} 8999).clk.cycle % 9000 ≠ 0 ∧ ((d {} 0).pc 191).role = 1 ∧ ((d {} 0).pc 0).role = 0 ∧ ((d {} 0).pc 191).train = none ∧
      (d {} 0).cmc.relock = none ∧ (d {} 0).cmc.rateReq = none ∧
    (10 ≤ (Tbl.look 0 (d { temps := [(5, -10)] } 0).cmc.temps (191 / 32) - ((d { temps := [(5, -10)] } 0).pc 191).trainTemp).natAbs) ∧
      ((st { live with mc := { crossed := [(7, 191, 0)] } }).after 0).mc.crossed.any (fun (c : Nat × Nat × Nat) => decide (c.1 = 7 ∧ c.2.1 = 191 ∧ c.2.2 = 0)) = true ∧
      ((d {} 0).pc 191).trainSec ≠ (d {} 0).clk.cycle / 3000000000 + 1 ∧ ((d e 0).pc 191).trainSec = (d e 0).clk.cycle / 3000000000 + 1 ∧
    ((d (p (u 2 0)) 0).pc 191).train = some (u 2 0) ∧ ((d (p (u 0 2)) 0).pc 191).train = some (u 0 2) ∧
      ((d (p (u 3 0)) 0).pc 191).train = some (u 3 0) ∧ hasMargin 0 1500 30 = true ∧ (d { relock := some 2 } 0).cmc.relock = some 2 := by decide

/-- Five bytes of a line are more than the strong code corrects, and two bits of a Facet byte are. -/
theorem witness_ScrubbersPoison :
    let d := (st (live.setReg 0x510000 0x13)).after 0
    let b := d.cmc.scrubPos * d.cmc.p + (d.pc 189).logical
    let errs : List Upset := [0, 1, 2, 3, 4].map (fun i => { line := 8 * b, pos := i, bits := 1 })
    (d.pc 189).role = 0 ∧ d.cmc.scrubDone.contains 189 = false ∧ d.fld 0x510000 9 4 ≠ 0 ∧ d.maySlot 189 .leftover = true ∧ d.outranksScrub 189 = false ∧
      d.cmc.scrubCount < min (d.fld 0x510000 9 4) 32 ∧ d.cmc.wbuf = [] ∧ (∀ k, k < 8 → d.lineMarked (8 * b + k) = false) ∧ (st live).mem.wf = true ∧
      (∀ e ∈ errs, e.line = 8 * b) ∧ (d.lineData [] errs (8 * b)).1 = .uncorrectable ∧
    facetLines 4 - 1 < facetLines 4 ∧ d.fld 0x510000 1 1 ≠ 0 ∧ Tbl.look 0 d.cmc.facetNext (facetBank 4 (64 * (facetLines 4 - 1))) ≤ d.clk.cycle ∧
      (facetRead false (d.facetData {} 2 0) 3).1 = .uncorrectable ∧ d.heldCmds = [] := by decide +kernel

theorem witness_FacetScrub (k : Nat) : ((st live).after 0).facetMarked 4 (64 * (facetLines 4 - 1) + k) = false := rfl

/-- R394: each single upset of a byte's 13 stored bits is corrected, and its poison pattern is known. -/
theorem test_facet_code :
    [0, 0xA5, 0xFF].all (fun v => (List.range 13).all (fun i => decide (facetRead false v (2 ^ i) = (.corrected, v)))) = true ∧
      (facetDecode false (facetPoison false)).1 = .poison ∧ (facetRead true 0xA5 1).1 = .uncorrectable := by decide +kernel

/-- R397: four bytes of a line are corrected under the strong code, one under the light code. -/
theorem test_line_code :
    let data : List Byte := (List.range 64).map (fun i => BitVec.ofNat 8 (7 * i + 1))
    lineRead false false data [(0, 255), (31, 1), (63, 128), (71, 9)] = (.corrected, data) ∧ lineRead true false data [(40, 17)] = (.corrected, data) := by decide +kernel

/-- A density block with decay by a shift and a render every millisecond. -/
def densityBlock : Block := { type := 11, unit := 7, words := [0x0470000B, 7, 0x00010508, 0x00100010, 1, 1, 1, 1, 300000, 3000000, 0, 0, 1] ++ List.replicate 15 0 ++ List.replicate 256 0 }

theorem witness_Density :
    let d (x : Feed) (t : Nat) := (st { live with feeds := [(7, x)] }).after t
    let x : Feed := { block := some (0, densityBlock), running := true }
    ((d x 300000).feed 7).block = some (0, densityBlock) ∧ ((d x 300000).feed 7).running = true ∧ dfHost densityBlock.words = false ∧ dfDecay densityBlock.words ≠ 0 ∧
      x.start + x.nextSweep * dfDecayTicks densityBlock.words ≤ (((d x 300000).vblank.renderComplete 7)).now ∧ ((d x 300000).vblank.renderComplete 7).cmc.facet = [] ∧
    ((d { x with rendering := some 0 } 3000000).feed 7).rendering = some 0 ∧
      x.start + (0 + 1) * dfRenderTicks densityBlock.words ≤ (d { x with rendering := some 0 } 3000000).now ∧ dfAutoFlip densityBlock.words = false ∧
    (let v := ((d x 0).vblank.renderComplete 7).decaySweep 7
     let y := v.feed 7
     y.block = some (0, densityBlock) ∧ y.running = true ∧ v.cmc.facet = [] ∧ dfRenderTicks densityBlock.words ≠ 0 ∧ y.rendering = none ∧
       y.start + y.nextRender * dfRenderTicks densityBlock.words ≤ v.now) := by decide +kernel

/-- A raster without layers, and one whose layer 0 shows a feed of which nothing has been fetched at the tick the line begins. -/
theorem witness_Display :
    let d (r : Raster) (t : Nat) := ((st { live with raster := r }).after t).scan.lineHeld
    let r : Raster := { running := true, mode := modeOn }
    let q : Raster := { r with frameAt := Frac.sub (Frac.ofInt 100) (dmLines modeOn (dmVBlank modeOn + 0)) }
    let h := ((st { layered true with raster := q, layers := [(0, { set := some [1, 0, 0], current := 0, stopped := false })] }).after 100).scan.lineHeld
    let at_ := Frac.add q.frameAt (dmLines modeOn (dmVBlank modeOn + 0))
    Frac.le (Frac.add r.frameAt (dmLines r.mode (dmVBlank r.mode + dmVActive r.mode))) (Frac.ofInt (d r 100000000).clk.cycle) = true ∧ (d r 0).raster.waiting = none ∧
       (d { r with waiting := some modeOn } 0).raster.waiting = some modeOn ∧ dmEnable modeOn = true ∧ dmEnable modeOff = false ∧
       (d { locking := true, waiting := some modeOn } 0).raster.locking = true ∧ (d { locking := true, waiting := some modeOn } 0).raster.waiting = some modeOn ∧
       479 < dmVActive r.mode ∧ dmLmEn r.mode = false ∧ Frac.le (Frac.add r.frameAt (dmLines r.mode (dmVBlank r.mode + 479))) (Frac.ofInt (d r 100000000).clk.cycle) = true ∧
       (d r 0).raster.black = false ∧ (d r 0).raster.aborted = false ∧ (d { r with black := true } 0).raster.black = true ∧ (d r 0).firstMissing 479 (dmHActive modeOn) = none ∧
       (h.raster.nextLine = 0 ∧ Frac.le at_ (Frac.ofInt h.clk.cycle) = true ∧ h.firstMissing 0 (dmHActive modeOn) ≠ none ∧ h.firstMissing 0 (h.columnsDue at_) = none) ∧
       sinkAllows [0, 0x06, 4] modeOn = true ∧ (d { r with hpd := true } 0).raster.hpd = true ∧ (d { r with hpd := true, linkUp := true } 0).raster.linkUp = true ∧
       (let e := (st { live with raster := { r with hpd := true }, regs := [(0x521200, 0x040600)] }).after 0
        e.raster.hpd = true ∧ e.raster.training = false ∧ sinkAllows (bytesOfWords [e.reg 0x521200]) e.raster.mode = true) ∧ (d { r with training := true } 0).raster.training = true := by decide +kernel

theorem witness_MarkersStampTheirEdges :
    let d (x : Marker) (t : Nat) := (st { live with markers := [(15, x)] }).after t
    let x : Marker := { block := some (0, markerBlock), running := true }
    let e : MkEntry := { due := 4, words := [0, 0, 0, 0], tick := 0 }
    let p : MkStamp := { at_ := 0, falling := false, tq := 0, cycle := 0 }
    ((d x 3).marker 15).blockAt (((d x 3).now * 256 + 0 % 256 : Nat) : Int) = some markerBlock.words ∧ ((d { x with lastRise := some 0 } 3).marker 15).lastRise = some 0 ∧
      (0 : Int) + 768 ≤ (((d x 3).now * 256 + 0 % 256 : Nat) : Int) ∧ x.lastTaken = none ∧ mbMode markerBlock.words = 1 ∧ slopeTakes (mbSlope markerBlock.words) false = true ∧
      (((d x 2).now * 256 + 255 % 256 : Nat) : Int) < 0 + 768 ∧ ((d {} 3).marker 15).blockAt 768 = none ∧
    ((d { x with entries := [e] } 4).marker 15).entries = e :: [] ∧ ((d { x with entries := [e] } 4).marker 15).edges = [] ∧ e.due ≤ (d x 4).clk.cycle ∧
      x.q.dropping = false ∧ x.q.tight = false ∧ x.q.items.length + 4 ≤ 1024 ∧
    ((d { x with pending := some p } 36).marker 15).pending = some p ∧ p.tick + mbTimeout markerBlock.words + 36 ≤ (d x 36).now := by decide

/-- Channel 59 exports a marker's queue, with bytes in its staging. -/
def draining (x : DmaChan) : State := st { live with dma := [(59, { x with state := 1, live := some (0, exportBlock), stageSize := 65536 })] }

theorem witness_Exports :
    let d (x : DmaChan) := (draining x).after 3000
    let q : Dev := { (draining {}).dev with markers := [(0, { q := { items := [(1, true)] } })] }
    exKind exportBlock.words = 2 ∧ ((st q).after 0).dmaCh 59 = { state := 1, live := some (0, exportBlock), stageSize := 65536 } ∧
      packetsIn ((((st q).after 0).marker (exUnit exportBlock.words)).q.ready ((st q).after 0).clk.cycle) ≠ 0 ∧ ((st q).after 0).cmc.facet = [] ∧
      0 - 0 + (drainBytes false false (takePacket [(1, true)])).length ≤ 65536 ∧
    (let x : DmaChan := { staged := 64, req := true, flush := true }
     let y := (d x).exportReq 59
     let z := y.dmaCh 59
     ((d x).dmaCh 59).swapAt = none ∧ z.state = 1 ∧ z.req = true ∧ y.pcie.busMaster = true ∧ ((nextPacket [] 59 exportBlock.words (y, {})).map (fun p =>
       decide (z.written + p.1.size ≤ z.head + 2 ^ exHostLog exportBlock.words ∧ p.1.size ≤ 2 ^ exHostLog exportBlock.words - z.written % 2 ^ exHostLog exportBlock.words))) = some true) ∧
    (d { staged := 64, drains := [(64, 0)] }).oldestUnsent 59 = some 0 ∧ 0 + 3000 * exFlush exportBlock.words ≤ (d {}).clk.cycle ∧
    (let z := ((d { written := 64 }).exportReq 59).dmaCh 59; z.state = 1 ∧ z.pub = none ∧ z.tail < z.written ∧ z.req = false) ∧
    (let p : Publication := { written := 64, stg := 64, seq := 1, turn := 0, addr := 0 }; ((d { pub := some p }).dmaCh 59).pub = some p ∧ ((d { pub := some p }).dmaCh 59).swapAt = none ∧
      exRelay exportBlock.words = false) := by decide +kernel

theorem witness_NothingLostThere (b : Nat) :
    let q : Dev := { (draining {}).dev with markers := [(0, { q := { items := [(1, true)] } })] }
    let x : Feed := { block := some (0, densityBlock), running := true }
    let v := ((((st { live with feeds := [(7, x)] }).after 0).vblank.renderComplete 7)).decaySweep 7
    (((st q).after 0).blockLost b = false ∧ ((st q).after 0).pcPoisoned b = false) ∧ v.blockLost b = false ∧ v.pcPoisoned b = false := ⟨⟨rfl, rfl⟩, rfl, rfl⟩

theorem witness_BlockTransfers :
    let s (w : Bool) (n : Nat) := st { live with blocks := [(63, { ring := 0, write := w, cap := 0, host := 0, length := n })] }
    ((s false 64).after 0).blocks = [(63, { ring := 0, write := false, cap := 0, host := 0, length := 64 })] ∧
    ((s true 512).after 0).blocks = [(63, { ring := 0, write := true, cap := 0, host := 0, length := 512 })] ∧ (List.replicate 128 (0 : Word)).length = 512 / 4 ∧
    (s true 512).mem.wf = true := by decide +kernel

theorem witness_NoLineMarked (l : Nat) : ((st live).after 0).lineMarked l = false := rfl

/-- A Relay block: channel 59, chunks of 4 KiB, drive slot 15. -/
def relayBlock : Block := { type := 14, unit := 15, words := [0x0020000E, 15, 0x8000003B, 12, 0, 0, 1, 0] }

theorem witness_RelayStreamsChunks :
    let c : NvmeCmd := { cid := 0, stream := 15, chunk := some 0, slba := 0 }
    let s (x : RelayStream) (cs : List NvmeCmd) (t : Nat) := (st { live with
      dma := [(59, { live := some (0, { exportBlock with words := exportBlock.words.set 2 0x0010000A }), tail := 4096 })]
      relays := [(15, { x with block := some (0, relayBlock) })], drives := [(15, { state := 2, block := attachBlock, cmds := cs })] }).after t
    ((s { running := true } [] 0).relay 15).block = some (0, relayBlock) ∧ ((s { running := true } [] 0).relay 15).running = true ∧
      (0 + 1) * 2 ^ rlChunkLog relayBlock.words ≤ ((s { running := true } [] 0).dmaCh (rlChan relayBlock.words)).tail ∧
      chunkPlace relayBlock.words ((s {} [] 0).streamLba relayBlock.words 0) 0 = some (15, 0) ∧ rlFlushChunks relayBlock.words = 0 ∧ ((s {} [] 0).drive 15).state = 2 ∧
      ((s {} [] 0).drive 15).room = true ∧
    ((s {} [c] 0).relay 15).stopping = false ∧ ((s {} [c] 0).drive 15).cmds = [c] ∧ c.stream = 15 ∧ c.chunk = some 0 ∧
    ((s {} [c] 6000000001).drive 15).state ≠ 3 ∧ c.cycle + 6000000000 < (s {} [c] 6000000001).clk.cycle ∧ (((s {} [c] 0).dmaCh (rlChan relayBlock.words)).words.map (fun e => decide (c.tries < exRetry e))) = some true ∧
    ((s { stopping := true, flushed := true } [] 0).relay 15).stopping = true ∧ ((s { stopping := true, flushed := true } [] 0).relay 15).flushed = true ∧
      (s { stopping := true, flushed := true } [] 0).relayBusy 15 = false := by decide

/-! ### Witnesses: trace processors -/

/-- Processor 31 runs, with one word of its program at address 0. -/
def program (w : Word) : State := { mem := { tp := Memory.writeBytes [] (31 * 2 ^ 19) (bytesOfWord w) }, dev := { live with tps := [(31, { state := 2 })] } }

/-- The word of OP and FN, with the other fields as given. -/
def instr (op fn : Nat) (rest : Word := 0) : Word := Word.place 31 26 op ||| Word.place 13 8 fn ||| rest

theorem witness_ArithmeticIssues :
    [0, 1, 2, 3, 4, 5, 6, 7, 9, 10, 11, 13, 14, 15].all (fun f => (program (instr 4 f)).issues 0 31 (instr 4 f) && decide (iOp (instr 4 f) = 4 ∧ iFn (instr 4 f) = f)) = true ∧
    [5, 6].all (fun o => (program (instr o 0)).issues 0 31 (instr o 0) && decide (iOp (instr o 0) = o)) = true := by decide +kernel

theorem witness_LoadsStoresAndPointers :
    [0x08, 0x09, 0x0A, 0x0D].all (fun o => (program (instr o 0)).issues 0 31 (instr o 0) && decide (iOp (instr o 0) = o)) = true ∧
    (List.range 6).all (fun f => (program (instr 0x0C f)).issues 0 31 (instr 0x0C f) && decide (iOp (instr 0x0C f) = 0x0C ∧ iFn (instr 0x0C f) = f)) = true ∧
    tpMarked ((program (instr 8 0)).tpFinds 0 31).dev 31 0 2 = none ∧ tpMarked ((program (instr 0x0A 0)).tpFinds 0 31).dev 31 0 8 = none ∧
    (let t : Tp := { p := [10, 0, 0, 0, 0, 0, 0, 0], b := [8, 0, 0, 0, 0, 0, 0, 0], l := [4, 0, 0, 0, 0, 0, 0, 0] }
     (t.b.getD 0 0 : Int) ≤ t.p.getD 0 0 ∧ (t.p.getD 0 0 : Int) < (t.b.getD 0 0 : Int) + t.l.getD 0 0 ∧ (0 : Int) < t.l.getD 0 0 ∧ ((t.step 0 4).p.getD 0 0, (t.step 0 (-3)).p.getD 0 0) = (10, 11) ∧
       t.l.getD 7 0 = 0) := by decide +kernel

/-- A load and a stacc at a marked byte. -/
theorem witness_MarkedLoad :
    let s (w : Word) : State := { program w with dev :=
      { (program w).dev with tps := [(31, { state := 2, p := [0, 64, 0, 0, 0, 0, 0, 0] })], cmc := { facet := [(2, 31 * 2 ^ 19 + 64)] } } }
    let ld := instr 8 0 (Word.place 21 19 1)
    let stacc := instr 0x0A 0 (Word.place 23 21 1)
    (s ld).issues 0 31 ld = true ∧ tpMarked ((s ld).tpFinds 0 31).dev 31 64 2 = some 64 ∧
      (s stacc).issues 0 31 stacc = true ∧ aPtr stacc = 1 ∧ tpMarked ((s stacc).tpFinds 0 31).dev 31 64 8 = some 64 := by decide +kernel

theorem witness_AccumulatorsIssueAndClamp :
    (program (instr 0x10 0)).issues 0 31 (instr 0x10 0) = true ∧ tpMarked ((program (instr 0x10 0)).tpFinds 0 31).dev 31 0 32 = none ∧
    (program (instr 0x11 0)).issues 0 31 (instr 0x11 0) = true ∧ iOp (instr 0x11 0) = 0x11 ∧
    (List.range 4).all (fun f => (program (instr 0x12 f)).issues 0 31 (instr 0x12 f) && decide (iOp (instr 0x12 f) = 0x12 ∧ iFn (instr 0x12 f) = f)) = true ∧
    3 < ({} : Tp).acc.length := by decide +kernel

theorem witness_ControlFlowIssues :
    [0, 1].all (fun f => (program (instr 0 f)).issues 0 31 (instr 0 f) && decide (iOp (instr 0 f) = 0 ∧ iFn (instr 0 f) = f)) = true ∧
    [1, 2, 0x18, 0x19, 0x1A, 0x1B].all (fun o => (program (instr o 0)).issues 0 31 (instr o 0) && decide (iOp (instr o 0) = o)) = true ∧
    (program (instr 0x1C 0 (Word.place 20 9 1))).issues 0 31 (instr 0x1C 0 (Word.place 20 9 1)) = true ∧
    (program (instr 0x1C 0 (Word.place 21 21 1))).issues 0 31 (instr 0x1C 0 (Word.place 21 21 1)) = true ∧
    ((program (instr 0 1)).tpFinds 0 31).tp.stopReq = false := by decide +kernel

theorem witness_QueuesAndControlRegisters :
    (List.range 5).all (fun f => (program (instr 0x1E f)).issues 0 31 (instr 0x1E f) && decide (iOp (instr 0x1E f) = 0x1E ∧ iFn (instr 0x1E f) = f)) = true ∧
    [0, 2].all (fun f => (program (instr 0x1F f)).issues 0 31 (instr 0x1F f) && decide (iFn (instr 0x1F f) = f)) = true ∧
    (List.range 9).all (fun k => (program (instr 0x1F 1 (Word.place 5 0 k))).issues 0 31 (instr 0x1F 1 (Word.place 5 0 k)) &&
      decide (iOp (instr 0x1F 1 (Word.place 5 0 k)) = 0x1F ∧ iFn (instr 0x1F 1 (Word.place 5 0 k)) = 1 ∧ iImm6 (instr 0x1F 1 (Word.place 5 0 k)) = k)) = true := by decide +kernel

/-- A pop from a feed that holds a descriptor, and a push into a result queue of 16 words. -/
theorem witness_PopAndPush :
    let b : Block := { type := 12, unit := 31, words := [0x0098000C, 31, 4] ++ List.replicate 35 0 }
    let f : TFeed := { q := { items := [(5, true)], pushedAt := some 0 } }
    let s (w : Word) : State := { program w with dev := ({ (program w).dev with tps := [(31, { state := 2, bind := some (0, b), feeds := [(0, f)] })] } : Dev).pass 1 }
    (s (instr 0x1E 0)).issues 0 31 (instr 0x1E 0) = true ∧ (((s (instr 0x1E 0)).tpFinds 0 31).tp.feed 0).q.items = [(5, true)] ∧
      ((s (instr 0x1E 0)).tpFinds 0 31).dev.cmc.facet = [] ∧ (((s (instr 0x1E 0)).tpFinds 0 31).tp.feed 0).q.ready ((s (instr 0x1E 0)).after 0).cyc ≠ [] ∧
      (((s (instr 0x1E 0)).tpFinds 0 31).tp.feed 1).q.ready ((s (instr 0x1E 0)).after 0).cyc = [] ∧
    (s (instr 0x1E 1)).issues 0 31 (instr 0x1E 1) = true ∧ ((s (instr 0x1E 1)).tpFinds 0 31).tp.rq.dropping = false ∧ ((s (instr 0x1E 1)).tpFinds 0 31).tp.rq.tight = false ∧ 0 < 2 ^ fldAt b.words 0x08 3 0 ∧
      ((s (instr 0x1E 1)).tpFinds 0 31).tp.binding = some b.words := by decide +kernel

theorem witness_ProcessorsTakeEvents :
    let s (t : Tp) (k : Nat) := (st { live with tps := [(31, t)] }).after k
    let w : Tp := { state := 2, wait := some 0x400, bindPend := true }
    let i : Tp := { state := 2, ie := true, imask := 0x400, bindPend := true }
    let st : TpStart := { tick := 5, entry := 8, ivec := 16, resume := false }
    (((s w 0).tp 31).timer 0).wait = some 0x400 ∧ ((((s w 0).tp 31).timer 0).source 0x400).isSome = true ∧ (((s w 0).tp 31).timer 0).interrupts = false ∧
    (((s i 0).tp 31).timer 0).ie = true ∧ (((s i 0).tp 31).timer 0).delay = none ∧ (((s i 0).tp 31).timer 0).rep = none ∧ (((s i 0).tp 31).timer 0).source 0x400 = some 10 ∧
      (((s i 0).tp 31).timer 0).nextAt ≤ (s i 0).cyc ∧ tpTraps 31 (((s i 0).tp 31).timer 0) (s i 0) {} = false ∧
    ((s { armed := some 0 } 0).tp 31).armed = some 0 ∧
    ((s { state := 3, start := some st } 5).tp 31).start = some st ∧ st.tick ≤ (s {} 5).now ∧ ((s { state := 3, start := some st } 5).tp 31).state = 3 := by decide

theorem witness_FeedDescriptorPush :
    let b : Block := { type := 12, unit := 31, words := [0x0098000C, 31, 4] ++ List.replicate 35 0 }
    let i : FeedItem := { slot := 0, due := some 3, stamp := 0, bytes := List.replicate 32 0 }
    let d := (st { live with tps := [(31, { state := 1, bind := some (0, b), feeds := [(7, { items := [i] })] })] }).after 3
    (d.tp 31).binding = some b.words ∧ ((d.tp 31).feed 7).items.find? (fun (i : FeedItem) => match i.due with | some c => decide (c ≤ d.cyc) | none => false) = some i ∧
      ((d.tp 31).feed 7).q.dropping = false ∧ ((d.tp 31).feed 7).q.tight = false ∧ ((d.tp 31).feed 7).q.items.length < 2 ^ tbQLog b.words 7 := by decide +kernel

/-! ### Witnesses: the management controller, resets, clocks, spares, ports -/

theorem witness_ManagementControllerRuns :
    let s (m : Mc) (t : Nat) := (st { live with mc := m }).after t
    let w : Sweep := { conv := 15, points := 2, us := 1, startAt := 0, usable := true, sums := [] }
    let r (n : Nat) : LogRec := { seq := n, boot := 1, sev := 1, src := 1, code := 0x1002, ms := 0, tb := 0 }
    let u : Update := { slot := 1, total := 8, at_ := 0 }
    (s {} 0).pwr.standby = true ∧ (s {} 0).mc.convAt = none ∧ (s { trip := { up := 2 } } 0).mc.trip.on = false ∧ 2 ≤ (s { trip := { up := 2 } } 0).mc.trip.up ∧ (s {} 0).pwr.tripped = false ∧
      2000 ≤ (hottest (takePad 0 48 [2000])).1 ∧
    (s { sweep := some w } 3000).mc.sweep = some w ∧ w.startAt + 3000 * w.us ≤ (s { sweep := some w } 3000).clk.time ∧ w.conv.testBit 3 = true ∧
    (∀ x ∈ (s { buf := [r 1023] } 0).mc.buf, x.seq % 1024 ≠ 0) ∧ (s { buf := [r 1024] } 0).mc.buf = [r 1024] ∧ (r 1024).seq % 1024 = 0 ∧
      (s { buf := [r 1023] } 0).mc.buf.length < 512 ∧ (s {} 0).mc.psc.edgeAt = none ∧ (s { psc := { edgeAt := some 0 } } 120).mc.psc.edgeAt = some 0 ∧
      0 + 120 ≤ (s { psc := { edgeAt := some 0 } } 120).clk.time ∧
    (s { update := some u } 1800000000001).mc.update = some u ∧ u.at_ + 1800000000000 < (s { update := some u } 1800000000001).clk.time ∧
    (let d := (st { live with fw := { stage := 0x32 }, mc := { trial := true, pending := some 1 } }).after 30000000001
     d.mc.trial = true ∧ d.mc.pending = some 1 ∧ d.fw.ready = false ∧ d.fw.stage = 0x32 ∧ d.mc.fwAt + 30000000000 < d.clk.time) ∧
    (let d := (st { live with mc := { trial := true, pending := some 1, readyAt := some 0 } }).after 180000000000
     d.mc.readyAt = some 0 ∧ d.fw.fault = false ∧ 0 ≤ d.mc.fwAt + 30000000000 ∧ 0 + 180000000000 ≤ d.clk.time) := by decide +kernel

theorem witness_ResetsAndSupplies :
    let s (p : Power) (t : Nat) := (st { live with pwr := p }).after t
    (s { enables := 8 } 0).pwr.resettable = true ∧ (s { enables := 8 } 0).pwr.stopped = false ∧ (s {} 0).fw.stage = 0x3F ∧ (s {} 0).mc.trial = false ∧
    (s { enables := 8, failAt := some 0 } 3000000000).pwr.resettable = true ∧ (s { failAt := some 0 } 3000000000).pwr.failAt = some 0 ∧
      0 + 3000000000 ≤ (s { failAt := some 0 } 3000000000).clk.time ∧ (s {} 0).mc.faults < 2 ∧ 2 ≤ ((st { live with mc := { faults := 2 } }).after 0).mc.faults ∧
    0x10 ≤ (s {} 0).fw.stage ∧ (s { enables := 8, mrstLow := true } 0).pwr.mrstLow = true ∧ 3 ≤ ((st { live with jtag := { ir := 3 } }).after 0).jtag.ir ∧
    (let e (n t : Nat) := (st { fw := { stage := 2 }, pwr := { enables := n } }).after t
     (e 0 0).mayEnable = true ∧ (e 0 0).pwr.enables = 0 ∧ (e 7 3000000).mayEnable = true ∧ (e 7 3000000).pwr.enables < 8 ∧
       (e 7 3000000).pwr.enableAt + 3000000 ≤ (e 7 3000000).clk.time ∧ (e 8 30000001).mayEnable = true ∧ (e 8 30000001).pwr.enables ≠ 0 ∧
       (e 8 30000001).pwr.enableAt + 30000000 < (e 8 30000001).clk.time) ∧
    (s {} 0).pwr.shdnLow = false ∧ (s {} 0).relays = [] ∧ (s { shutting := true } 0).pwr.shutting = true ∧ (s {} 0).mc.buf = [] ∧
    (s { shdnLow := true, railsLocked := true } 0).pwr.shdnLow = true ∧ (s { shdnLow := true, railsLocked := true } 0).pwr.railsLocked = true ∧
      (s { shdnLow := true, railsLocked := true } 0).pwr.tripped = false := by decide

theorem witness_ClocksAndBringup :
    let s (n : Nat) := (st { fw := { stage := n }, pwr := { enables := 8, refclk := true } }).after 0
    let c (n : Nat) := (st { live with fw := { stage := n } }).after 0
    (s 0x10).pwr.enables = 8 ∧ (c 0x3F).pwr.refclk = true ∧ (c 0x3F).pwr.mdll = true ∧ (s 0x10).fw.stage = 0x10 ∧ (s 0x10).pwr.mrstLow = false ∧ (s 0x10).pwr.mdll = false ∧
    (s 0x00).pwr.standby = true ∧ (s 0x00).pwr.shutting = false ∧ (s 0x00).pwr.stageAt + 6000000 ≤ ((s 0x00).pass 6000000).clk.time ∧ (s 0x01).pwr.shdnLow = false ∧ (s 0x02).pwr.enables = 8 ∧ (c 0x10).pwr.mdll = true ∧ (c 0x21).pwr.untrained = [] ∧ (c 0x21).cmc.relock = none ∧
      (c 0x21).cmc.rateReq = none ∧ (c 0x32).fw.stage ≠ 0x3F ∧
    (let d := (st { live with fw := { stage := 0x30 }, mc := { rcv := true } }).after 0; d.mc.rcv = true ∧ d.mc.pending = none ∧ d.fw.stage = 0x30) := by decide

theorem witness_Spares :
    let x (k m : Nat) : Takeover := { kind := k, unit := 0, spare := 1, mismatches := m }
    let d (k m t : Nat) := (st { live with spares := { running := [x k m] } }).after t
    let lost := (st { live with pads := [(0, { mode := 1, everAligned := true })], spares := { running := [x 0 0] } }).after 0
    let c := (st { live with spares := { running := [x 7 0] }, cmc := { copy := [(0, 2 ^ 21)] } }).after 0
    (d 1 1 0).spares.running = [x 1 1] ∧ (x 1 1).launch = none ∧ (x 1 1).mismatches < 2 ∧ (d 1 2 0).spares.running = [x 1 2] ∧ 2 ≤ (x 1 2).mismatches ∧
    lost.spares.running = [x 0 0] ∧ lost.lostPad 0 = true ∧ (d 0 0 0).lostPad 0 = false ∧ 2 ^ 21 ≤ Tbl.look 0 c.cmc.copy (c.pc 0).logical ∧
    (d 1 1 0).clk.cycle < (x 1 1).began + (d 1 1 0).lockSpan (x 1 1) ∧ (x 1 1).began + (d 1 1 32768).lockSpan (x 1 1) ≤ (d 1 1 32768).clk.cycle ∧
      (d 1 1 32768).lockstepPassed (x 1 1) true = true ∧ (d 1 1 32768).lockstepPassed (x 1 1) false = false ∧
    (wearDefault 1 2).isSome = true ∧ ((st live).after 0).evaluated 1 0 2 = false ∧
      ((st { live with spares := { evalAt := [(1, 0, 2, 0)] } }).after 2999999999).evaluated 1 0 2 = true ∧ ((st live).after 0).heldCmds = [] ∧ ((st live).after 0).wearCrossed 1 2 150 = false ∧
    (let r := (st { live with mc := { readyAt := some 0 } }).after 24000000
     (r.ainOf 3).out = some 64 ∧ (r.ainOf 3).degraded = false ∧ r.fw.stage = 0x3F ∧ r.mc.readyAt = some 0 ∧ 0 + ((r.ainOf 3).swaps + 1) * 24000000 ≤ r.clk.time ∧
       r.spares.running = [] ∧ r.sliceExcess [0, 0, 0] = none) := by decide +kernel

theorem witness_TestPorts :
    ((st live).after 0).pwr.standby = true ∧ ((st live).after 0).pwr.mrstLow = false ∧ ((st { live with pwr := { live.pwr with mrstLow := true } }).after 0).pwr.mrstLow = true := by decide

end Sys2Proof.Tests
end

section
/-!
PROOF. R21, a launch whose lead is too short: what LAUNCH_AT does up to the lead check of R134, and its answer where that check fails.
-/

namespace Sys2Proof.Machine

/-- A tick other than 0 that comes before the earliest the scope allows has the answer of EFS_LEAD (R134). -/
theorem Dev.leadTick_short (d : Dev) {tick : QWord} {scope : Nat} (hne : tick ≠ 0) (hshort : tick.toNat < d.now + scopeLead scope) :
    d.leadTick tick scope = .error { status := efsLead, result0 := tick, result1 := BitVec.ofNat 64 (d.now + scopeLead scope) } := by
  simp only [Dev.leadTick, if_neg hne, if_pos hshort]

/-- A command on apertures whose acquisitions are settled is not held (R81). -/
theorem Dev.orHeld_settled {d : Dev} {as_ : List Nat} (h : d.settled as_) (q opcode : Nat) (e : Entry) (c : HeldCmd) (run : Dev → Dev) :
    d.orHeld q opcode e as_ c run = run d := by
  simp [Dev.orHeld, h]

/-- An identifier under which nothing is pending stands in no command's way (R138). -/
theorem Dev.idClash_of_not_pending {d : Dev} {id : Nat} (h : d.glob.launches.all (fun l => decide (l.id ≠ id)) = true) (mode : Nat) :
    idClash mode ((d.glob.launches.filter (fun (l : Launch) => decide (l.id = id))).map (fun (l : Launch) => l.mode)) = false := by
  have hnone : d.glob.launches.filter (fun (l : Launch) => decide (l.id = id)) = [] := by
    simpa [List.filter_eq_nil_iff] using h
  simp [hnone, idClash]

/-- AT and FIRE are one command: the entry's MODE decides what it does (R133). -/
theorem exec_launchAt_or_launchFire {dt q : Nat} {e : Entry} {i : Instr} (h : i = .launchAt dt q e ∨ i = .launchFire dt q e) (s : State) :
    exec i s = onDev dt (Dev.takeLaunch q e) s := by
  rcases h with rfl | rfl <;> rfl

/-- LAUNCH_AT that is taken, passes its parameters and is not held goes on from the device as it was taken. -/
theorem onDev_takeLaunch {s : State} {dt q : Nat} {e : Entry} {mode : Nat} {placed : Dev} (h : s.launchPasses dt q e mode placed) :
    onDev dt (Dev.takeLaunch q e) s = .next (s.onto ((s.taken dt q e).launchCmd q e)) := by
  obtain ⟨htakes, hsettled, -⟩ := h
  calc onDev dt (Dev.takeLaunch q e) s
      = .next (s.onto ((s.taken dt q e).orHeld q 0x12 e (launchList e.block) (.launch e) (fun d => d.launchCmd q e))) :=
        onDev_takes (formLaunch e) q e (launchChecks e.ptr) _ s dt htakes
    _ = .next (s.onto ((s.taken dt q e).launchCmd q e)) := by rw [Dev.orHeld_settled hsettled]

/-- AT or FIRE that passes every check before its tick ends at the lead check where that one fails: it answers on the device as it was taken, so that no
aperture is placed again and no launch is pending by it (R134). -/
theorem Dev.launchCmd_leadTick_error {s : State} {dt q : Nat} {e : Entry} {mode : Nat} {placed : Dev} {w : Answer}
    (h : s.launchPasses dt q e mode placed) (hbind : mode ≠ 1)
    (hlead : (s.taken dt q e).leadTick (qAt e.block 0x00) (fldAt e.block 0x08 3 2) = .error w) :
    (s.taken dt q e).launchCmd q e = (formLaunch e).reply (s.taken dt q e) q e w := by
  obtain ⟨-, -, rfl, hold, hids, hroom, hscope, hstates, hplaced⟩ := h
  have hready : ¬ (decide (fldAt e.block 0x08 1 0 = 2) && !((s.taken dt q e).scopeReady (fldAt e.block 0x08 3 2))) = true := by
    simpa using hscope
  simp only [Dev.launchCmd, Dev.idClash_of_not_pending hids, hold, Nat.not_le.mpr hroom, if_neg hready, hstates, hplaced, if_neg hbind, hlead,
    decide_false, Bool.and_false, Bool.false_eq_true, if_false]

/-- Settles O11: where the lead check fails its answer is all that the command does, and an answer changes the mailbox alone. -/
theorem shortLeadIsRefused : Obligations.ShortLeadIsRefused := by
  intro dt q e s placed mode d least hpasses hmode hne hshort
  have hlead := d.leadTick_short hne hshort
  have hanswer := Dev.launchCmd_leadTick_error hpasses (by omega) hlead
  refine ⟨_, fun i hi => ?_, rfl, Dev.sameButMailbox_reply _ _ _ _ _⟩
  rw [exec_launchAt_or_launchFire hi, onDev_takeLaunch hpasses, hanswer]

end Sys2Proof.Machine
end

section
/-!
PROOF. R59, R60, R63 and R64, the access paths of the register file: what a read does on each path, which accesses READY 0 turns away, and what an access
of IND_DATA does.
-/

namespace Sys2Proof.Machine

/-! ### HOST_STATUS and the shadows -/

theorem Dev.reg_hostStatus (d : Dev) (b : Nat) : (d.hostStatus b).reg 0x0C = (d.reg 0x0C).setFld b b 1 :=
  Dev.reg_setReg_same _ _ _

theorem Dev.shadow_setShadow (d : Dev) (p o : Port) (x : Shadow) : (d.setShadow p x).shadow o = if o = p then some x else d.shadow o := by
  cases p <;> cases o <;> rfl

@[simp] theorem Dev.shadow_emit (d : Dev) (o : Output) (p : Port) : (d.emit o).shadow p = d.shadow p := by
  cases p <;> rfl

/-- What a read clears are register fields and a region's mark: the shadows stay (R11, R59). -/
@[simp] theorem Dev.shadow_clearRead (d : Dev) (addr lo len : Nat) (p : Port) : (d.clearRead addr lo len).shadow p = d.shadow p := by
  unfold Dev.clearRead
  split
  · dsimp only
    split
    · rfl
    · split <;> cases p <;> rfl
  · rfl

/-! ### The value of a read, and the shadow it uses or fills (R59, R60) -/

theorem Dev.readValue_low {d : Dev} {m : Mems} {p : Port} {addr : Nat} (hq : mkqAt addr = none) (hhigh : isHighHalf addr = false)
    (hlow : isLowHalf addr = true) :
    d.readValue m p addr = ((d.view m addr).1, (d.view m addr).2.setShadow p { addr := addr, high := (d.view m (addr + 4)).1 }) := by
  simp [Dev.readValue, hq, hhigh, hlow]

theorem Dev.readValue_fst_of_not_high {d : Dev} {m : Mems} {p : Port} {addr : Nat} (hq : mkqAt addr = none) (hhigh : isHighHalf addr = false) :
    (d.readValue m p addr).1 = (d.view m addr).1 := by
  simp only [Dev.readValue, hq, hhigh, Bool.false_eq_true, if_false]
  split <;> rfl

theorem Dev.readValue_high_of_shadow {d : Dev} {m : Mems} {p : Port} {addr : Nat} {x : Shadow} (hq : mkqAt addr = none)
    (hhigh : isHighHalf addr = true) (hx : d.shadow p = some x) (haddr : x.addr + 4 = addr) : d.readValue m p addr = (x.high, d) := by
  simp only [Dev.readValue, hq, hhigh, hx, haddr, if_true]

theorem Dev.readValue_high_of_miss {d : Dev} {m : Mems} {p : Port} {addr : Nat} (hq : mkqAt addr = none) (hhigh : isHighHalf addr = true)
    (hmiss : ∀ x, d.shadow p = some x → x.addr + 4 ≠ addr) : d.readValue m p addr = ((d.view m addr).1, d.hostStatus 3) := by
  cases hs : d.shadow p with
  | none => simp only [Dev.readValue, hq, hhigh, hs, if_true, hsShadowMiss]
  | some x => simp only [Dev.readValue, hq, hhigh, hs, if_neg (hmiss x hs), if_true, hsShadowMiss]

/-- A read with no event of its own tick at the register returns the value that `readValue` gives, then clears (R12). -/
theorem Dev.readReg_of_no_event {d : Dev} {m : Mems} {p : Port} {addr : Nat} (lo len : Nat) (h : (d.settleFor addr).eventsAt addr = []) :
    d.readReg m p addr lo len =
      (((d.settleFor addr).readValue m p addr).2.clearRead addr lo len).emit (.regRead (bytesOf ((d.settleFor addr).readValue m p addr).1 lo len)) := by
  simp [Dev.readReg, Dev.before, h]

/-! ### Host reads and writes of BAR0 -/

theorem answersEarly_iff (off : Nat) : answersEarly off = true ↔ off < 0x10 ∨ 0x100 ≤ off ∧ off < 0x170 ∨ 0x2000 ≤ off ∧ off < 0x2400 := by
  simp [answersEarly, or_assoc]

theorem Dev.hostRead_whole (d : Dev) (m : Mems) (off : Nat) : d.hostRead m off 0 4 = d.hostReadDword m off 0 4 := rfl

theorem Dev.hostReadDword_early {d : Dev} {m : Mems} {off lo len : Nat} (hready : d.fw.ready = false) (hoff : answersEarly off = false) :
    d.hostReadDword m off lo len = (d.hostStatus 1).emit (.regRead 0) := by
  simp [Dev.hostReadDword, hready, hoff, hsEarly]

theorem Dev.hostReadDword_reg {d : Dev} {m : Mems} {off lo len : Nat} (hready : d.fw.ready = true ∨ answersEarly off = true) (hoff : off < 0x400000)
    (hind : off ≠ 0x1C) : d.hostReadDword m off lo len = d.readReg m .host off lo len := by
  have hanswers : (!d.fw.ready && !answersEarly off) = false := by rcases hready with h | h <;> simp [h]
  simp [Dev.hostReadDword, hanswers, Nat.not_le.mpr hoff, hind]

theorem Dev.hostReadDword_indData {d : Dev} {m : Mems} {lo len : Nat} (hready : d.fw.ready = true) : d.hostReadDword m 0x1C lo len = d.indRead m lo len := by
  simp [Dev.hostReadDword, hready]

theorem Dev.writeDword_early {d : Dev} {off : Nat} (v : Word) (hready : d.fw.ready = false) (hoff : answersEarly off = false) :
    d.writeDword off v = .ok (d.hostStatus 1) := by
  simp [Dev.writeDword, hready, hoff, hsEarly]

theorem Dev.writeDword_indData {d : Dev} (v : Word) (hready : d.fw.ready = true) : d.writeDword 0x1C v = d.indWrite v := by
  simp [Dev.writeDword, hready]

/-- A write that changes no PR field is answered with the device it leaves (R13). -/
theorem onWrite_ok {dt : Nat} {f : Dev → Except Nat Dev} {s : State} {t : Dev} (h : f (s.after dt) = .ok t) : onWrite dt f s = .next (s.onto t) := by
  have h' : f (s.dev.pass dt) = .ok t := h
  simp only [onWrite, h', State.onto]

theorem exec_earlyRead (dt addr : Nat) (s : State) : exec (.earlyRead dt addr) s = .next (s.onto ((s.after dt).hostReadDword s.mem addr 0 4)) := rfl

theorem exec_indDataRead_whole (dt : Nat) (s : State) : exec (.indDataRead dt 0 4) s = .next (s.onto ((s.after dt).hostReadDword s.mem 0x1C 0 4)) := rfl

theorem exec_registerWrite_dword {dt off : Nat} {v : Word} {s : State} {t : Dev} (h : (s.after dt).writeDword off v = .ok t) :
    exec (.registerWrite dt (.bar0 off) [v]) s = .next (s.onto t) := by
  refine onWrite_ok (f := fun d => d.registerWrite (.bar0 off) [v]) ?_
  simp only [Dev.registerWrite, Dev.writeDwords, h]

theorem exec_indDataWrite {dt : Nat} {v : Word} {s : State} {t : Dev} (h : (s.after dt).writeDword 0x1C v = .ok t) :
    exec (.indDataWrite dt v) s = .next (s.onto t) :=
  onWrite_ok (f := fun d => d.writeDword 0x1C v) h

/-! ### Reads on the three paths (R59) -/

/-- A whole read reaches the register on every path; the host's does once READY is 1, of a BAR0 offset that is listed and is not IND_DATA. -/
theorem Dev.pathRead_whole {d : Dev} {m : Mems} {p : Port} {addr : Nat} (h : p = .host → d.fw.ready = true ∧ addr < 0x400000 ∧ addr ≠ 0x1C) :
    d.pathRead m p addr 0 4 = d.readReg m p addr 0 4 := by
  cases p with
  | host =>
    obtain ⟨hready, hoff, hind⟩ := h rfl
    exact (d.hostRead_whole m addr).trans (Dev.hostReadDword_reg (.inl hready) hoff hind)
  | sequencer => rfl
  | mc => rfl

theorem exec_lowHalfRead_whole {dt addr : Nat} {p : Port} {s : State} (h : p = .host → (s.after dt).fw.ready = true ∧ addr < 0x400000 ∧ addr ≠ 0x1C) :
    exec (.lowHalfRead dt p addr 0 4) s = .next (s.onto ((s.after dt).readReg s.mem p addr 0 4)) :=
  congrArg (fun d => Host.Outcome.next (s.onto d)) (Dev.pathRead_whole h)

theorem exec_highHalfRead_whole {dt addr : Nat} {p : Port} {s : State} (h : p = .host → (s.after dt).fw.ready = true ∧ addr < 0x400000 ∧ addr ≠ 0x1C) :
    exec (.highHalfRead dt p addr 0 4) s = .next (s.onto ((s.after dt).readReg s.mem p addr 0 4)) :=
  congrArg (fun d => Host.Outcome.next (s.onto d)) (Dev.pathRead_whole h)

/-! ### The statements of R59 and R60 -/

/-- Settles O20: the read leaves what `readValue_low` gives, and neither the clear nor the answer touches a shadow. -/
theorem lowHalfReadFillsTheShadow : Obligations.LowHalfReadFillsTheShadow := by
  intro dt addr p s d v hhost hlow hhigh hq hev
  refine ⟨_, exec_lowHalfRead_whole hhost, rfl, ?_⟩
  rw [State.onto_dev, Dev.readReg_of_no_event 0 4 hev, Dev.readValue_low hq hhigh hlow]
  refine ⟨?_, fun o ho => ?_, ?_⟩
  · simp [Dev.shadow_setShadow, d]
  · simp [Dev.shadow_setShadow, ho, v, d]
  · simp [v, d]

/-- Settles O21: the two cases of `readValue` at a high half, the shadow of this register or none. -/
theorem highHalfReadReturnsTheShadow : Obligations.HighHalfReadReturnsTheShadow := by
  intro dt addr p s d hhost hhigh hq hev
  refine ⟨fun x hx haddr => ?_, fun hmiss => ?_, d.reg_hostStatus 3⟩
  · rw [exec_highHalfRead_whole hhost, Dev.readReg_of_no_event 0 4 hev, Dev.readValue_high_of_shadow hq hhigh hx haddr]
  · rw [exec_highHalfRead_whole hhost, Dev.readReg_of_no_event 0 4 hev, Dev.readValue_high_of_miss hq hhigh hmiss]

/-! ### The statement of R64 -/

theorem bar0_of_answersEarly {addr : Nat} (h : answersEarly addr = true) : addr < 0x400000 ∧ addr ≠ 0x1C := by
  rw [answersEarly_iff] at h
  omega

/-- The marker queues lie outside BAR0's own offsets. -/
theorem mkqAt_of_bar0 {addr : Nat} (h : addr < 0x400000) : mkqAt addr = none := if_neg (by omega)

/-- The units that are settled before they are read lie outside BAR0's own offsets. -/
theorem Dev.settleFor_of_bar0 (d : Dev) {addr : Nat} (h : addr < 0x400000) : d.settleFor addr = d := by
  rw [Dev.settleFor, if_neg (by omega), if_neg (by omega), if_neg (by omega)]

/-- Settles O19: outside the listed offsets an access ends at EARLY; inside them a read is the read of one register. -/
theorem earlyAccessesAreTurnedAway : Obligations.EarlyAccessesAreTurnedAway := by
  intro dt addr v s d answers early hready
  refine ⟨fun hout => ?_, fun hin => ?_⟩
  · have hoff : answersEarly addr = false := Bool.eq_false_iff.mpr (fun h => hout ((answersEarly_iff addr).mp h))
    exact ⟨by rw [exec_earlyRead, Dev.hostReadDword_early hready hoff], exec_registerWrite_dword (Dev.writeDword_early v hready hoff), d.reg_hostStatus 1⟩
  · have hoff : answersEarly addr = true := (answersEarly_iff addr).mpr hin
    obtain ⟨hlt, hind⟩ := bar0_of_answersEarly hoff
    have hsettle := d.settleFor_of_bar0 hlt
    refine ⟨by rw [exec_earlyRead, Dev.hostReadDword_reg (.inr hoff) hlt hind], fun hhigh hev => ?_⟩
    rw [Dev.readReg_of_no_event 0 4 (by rw [hsettle, hev]), hsettle, Dev.readValue_fst_of_not_high (mkqAt_of_bar0 hlt) hhigh]
    simp

/-! ### The statement of R63 -/

theorem Dev.indRead_mapped {d : Dev} {m : Mems} {lo len : Nat} (h : d.mapped d.indAddr = true) :
    d.indRead m lo len = (d.readReg m .host d.indAddr lo len).autoInc := by
  simp only [Dev.indRead, h, if_true]

theorem Dev.indRead_unmapped {d : Dev} {m : Mems} {lo len : Nat} (h : d.mapped d.indAddr = false) :
    d.indRead m lo len = ((d.hostStatus 5).emit (.regRead 0)).autoInc := by
  simp only [Dev.indRead, h, Bool.false_eq_true, if_false, hsIndFault]

theorem Dev.indWrite_mapped {d : Dev} {v : Word} (h : d.mapped d.indAddr = true) (hpr : d.breaksPr d.indAddr v = false) :
    d.indWrite v = .ok (d.writeInd d.indAddr v).autoInc := by
  simp [Dev.indWrite, h, hpr]

theorem Dev.indWrite_unmapped {d : Dev} {v : Word} (h : d.mapped d.indAddr = false) : d.indWrite v = .ok (d.hostStatus 5).autoInc := by
  simp [Dev.indWrite, h, hsIndFault]

/-- Settles O23: IND_DATA is the mapped register's read or write, or IND_FAULT, and the increment follows each of them. -/
theorem indirectAccess : Obligations.IndirectAccess := by
  intro dt v s d a faulted hready
  have hread : exec (.indDataRead dt 0 4) s = .next (s.onto (d.indRead s.mem 0 4)) := by
    rw [exec_indDataRead_whole, Dev.hostReadDword_indData hready]
  have hwrite {t : Dev} (h : d.indWrite v = .ok t) : exec (.indDataWrite dt v) s = .next (s.onto t) :=
    exec_indDataWrite ((Dev.writeDword_indData v hready).trans h)
  refine ⟨fun hmap => ?_, fun hmap hpr => hwrite (Dev.indWrite_mapped hmap hpr), fun hmap => ?_, fun x => ⟨fun h => if_pos h, fun h => if_neg h⟩⟩
  · rw [hread, Dev.indRead_mapped hmap]
  · exact ⟨by rw [hread, Dev.indRead_unmapped hmap], hwrite (Dev.indWrite_unmapped hmap), d.reg_hostStatus 5⟩

end Sys2Proof.Machine
end

section
/-!
PROOF. Every operation on device and memories keeps both memories canonical (R41, R455), in the order of the model's definitions; a step is one of them.
-/

namespace Sys2Proof.Machine

/-- What every step of a fold over device and memories keeps canonical, the fold keeps canonical. -/
theorem foldl_wf {α : Type} (f : Dev × Mems → α → Dev × Mems) (l : List α) (x : Dev × Mems) (w : x.2.wf = true)
    (k : ∀ y a, y.2.wf = true → (f y a).2.wf = true) : (l.foldl f x).2.wf = true :=
  foldl_keeps (fun y : Dev × Mems => y.2.wf = true) f l x w k

/-! ### Capture: records, entries, restarts and freezes -/

theorem closeRecord_wf (a : Nat) (r : Rec) (cut before : Nat) (x : Dev × Mems) (w : x.2.wf = true) : (closeRecord a r cut before x).2.wf = true := by
  unfold closeRecord
  extract_lets d p
  split
  · exact w
  · exact capWrite_wf _ _ (_, x.2) w

theorem closeRecords_wf (a cut : Nat) (rs : List Rec) (x : Dev × Mems) (w : x.2.wf = true) :
    (rs.foldl (fun y r => closeRecord a r cut y.1.now y) x).2.wf = true :=
  foldl_wf _ rs x w fun y r h => closeRecord_wf a r cut y.1.now y h

theorem completeDue_wf (a : Nat) (x : Dev × Mems) (w : x.2.wf = true) : (completeDue a x).2.wf = true := by
  unfold completeDue
  extract_lets p
  split
  · exact w
  · split
    · exact w
    · extract_lets y
      split <;> exact closeRecord_wf a _ 0 _ x w

theorem completeDue_twice_wf (a : Nat) (x : Dev × Mems) (w : x.2.wf = true) : (completeDue a (completeDue a x)).2.wf = true :=
  completeDue_wf a _ (completeDue_wf a x w)

theorem completeFull_wf (a : Nat) (x : Dev × Mems) (w : x.2.wf = true) : (completeFull a x).2.wf = true := by
  unfold completeFull
  split
  · exact completeDue_twice_wf a x w
  · exact w

theorem cutRecords_wf (a cut : Nat) (x : Dev × Mems) (w : x.2.wf = true) : (cutRecords a cut x).2.wf = true :=
  closeRecords_wf a cut _ _ (completeDue_twice_wf a x w)

theorem settleSub_wf (a : Nat) (x : Dev × Mems) (w : x.2.wf = true) : (settleSub a x).2.wf = true := by
  unfold settleSub
  extract_lets p
  split
  · exact w
  · split
    · exact completeDue_twice_wf a x w
    · exact w

theorem restartAcq_wf (a : Nat) (x : Dev × Mems) (w : x.2.wf = true) : (restartAcq a x).2.wf = true := by
  unfold restartAcq
  exact cutRecords_wf a 3 x w

theorem freezeEffect_wf (a : Nat) (x : Dev × Mems) (w : x.2.wf = true) : (freezeEffect a x).2.wf = true := by
  unfold freezeEffect
  extract_lets p d y z y'
  have hy : y.2.wf = true := closeRecords_wf a 1 _ (d, x.2) w
  have hz : z.2.wf = true := completeDue_twice_wf a x w
  clear_value y z
  have hy' : y'.2.wf = true := closeRecords_wf a 1 _ z hz
  clear_value y'
  split
  · exact w
  · split
    · exact hy
    · split
      · split
        · exact hz
        · exact hy'
      · exact w

theorem writeEntry_wf (a i : Nat) (r : SubRing) (e : RedEntry) (x : Dev × Mems) (w : x.2.wf = true) : (writeEntry a i r e x).2.wf = true := by
  unfold writeEntry
  extract_lets d p
  split
  · exact w
  · exact capWrite_wf _ _ (_, x.2) w

theorem entryWrite_wf (a slot ch : Nat) (x : Dev × Mems) (w : x.2.wf = true) : (entryWrite a slot ch x).2.wf = true := by
  have h := completeDue_wf a (x.1.rearmOver a, x.2) w
  unfold entryWrite
  extract_lets p y q
  split
  · exact w
  · split
    · exact h
    · split
      · exact h
      · split
        · exact h
        · exact completeFull_wf a _ (writeEntry_wf a _ _ _ _ h)

theorem haltAperture_wf (a cause t : Nat) (x : Dev × Mems) (w : x.2.wf = true) : (haltAperture a cause t x).2.wf = true := by
  unfold haltAperture
  split
  · exact w
  · exact cutRecords_wf a 2 x w

theorem haltApertures_wf (cause : Nat) (as_ : List Nat) (t : Dev × Mems → Nat) (x : Dev × Mems) (w : x.2.wf = true) :
    (as_.foldl (fun y a => haltAperture a cause (t y) y) x).2.wf = true :=
  foldl_wf _ as_ x w fun y a h => haltAperture_wf a cause (t y) y h

theorem apertureHaltTick_wf (a : Nat) (x : Dev × Mems) (w : x.2.wf = true) : (apertureHaltTick a x).2.wf = true := by
  unfold apertureHaltTick
  split
  · exact haltAperture_wf a _ _ x w
  · exact w

/-! ### Density, leftover slots -/

theorem renderStart_wf (p : Nat) (x : Dev × Mems) (w : x.2.wf = true) : (renderStart p x).2.wf = true := by
  unfold renderStart
  extract_lets d f
  split
  · extract_lets
    split
    · exact foldl_wf _ _ (_, x.2) w fun y r h => capWrite_wf _ _ y h
    · exact w
  · exact w

theorem copyLine_wf (errs : List Upset) (y : Dev × Mems) (line : Nat) (w : y.2.wf = true) : (copyLine errs y line).2.wf = true := by
  unfold copyLine
  split
  · exact w
  · exact poisonLine_wf line y w
  · exact w

theorem leftoverSlot_wf (x : Nat) (errs : List Upset) (z : Dev × Mems) (w : z.2.wf = true) : (leftoverSlot x errs z).2.wf = true := by
  unfold leftoverSlot
  extract_lets d y p serves want fetch
  clear_value serves want
  split
  · split <;> exact w
  · exact w
  · split
    · split
      · split
        · exact foldl_wf _ _ (_, z.2) w fun y l h => copyLine_wf errs y l h
        · exact w
      · exact w
    · exact w

/-! ### Exports -/

theorem moveStage_wf (c : Nat) (y : Dev × Mems) (w : y.2.wf = true) : (moveStage c y).2.wf = true := by
  unfold moveStage
  extract_lets x
  split
  · exact w
  · exact capWrite_wf _ _ (_, y.2) w

theorem exportSwap_wf (c : Nat) (y : Dev × Mems) (w : y.2.wf = true) : (exportSwap c y).2.wf = true := by
  unfold exportSwap
  extract_lets x
  split
  · split
    · exact moveStage_wf c y w
    · exact w
  · exact w

theorem packetStart_wf (c : Nat) (errs : List Upset) (y : Dev × Mems) (w : y.2.wf = true) : (packetStart c errs y).2.wf = true := by
  have h := exportSwap_wf c y w
  unfold packetStart
  extract_lets z d x
  split
  · exact h
  · split
    · exact h
    · split
      · exact h
      · extract_lets size left
        split
        · split <;> exact h
        · split <;> exact h

theorem queueDrain_wf (c : Nat) (y : Dev × Mems) (w : y.2.wf = true) : (queueDrain c y).2.wf = true := by
  unfold queueDrain
  extract_lets d x
  split
  · exact w
  · extract_lets u wide q p bs
    split
    · exact w
    · split
      · exact w
      · exact foldl_wf _ _ (_, y.2) w fun z b h => capWrite_wf _ _ z h

theorem flushReadComplete_wf (c : Nat) (y : Dev × Mems) (w : y.2.wf = true) : (flushReadComplete c y).2.wf = true := by
  unfold flushReadComplete
  extract_lets d x
  split
  · exact exportSwap_wf c (_, y.2) w
  · exact w

/-! ### Launches, resets and loads -/

theorem launchExport_wf (t c : Nat) (x : Dev × Mems) (w : x.2.wf = true) : (launchExport t c x).2.wf = true := by
  unfold launchExport
  extract_lets e
  split
  · exact exportSwap_wf c (_, x.2) w
  · exact w

theorem launchUnits_wf (t : Nat) (r : Relaunch) (x : Dev × Mems) (w : x.2.wf = true) : (launchUnits t r x).2.wf = true :=
  foldl_wf (fun y (b : Block) => launchExport t b.unit y) _ (_, x.2) w fun y b h => launchExport_wf t b.unit y h

theorem launchApertures_wf (t : Nat) (as_ : List Nat) (x : Dev × Mems) (w : x.2.wf = true) : (launchApertures t as_ x).2.wf = true := by
  unfold launchApertures
  extract_lets rs x₁ d₁ d₂ d₃ y z d₄ d₅ d₆ x₂ l d₇ d₈ others x₃ x₄
  have h₁ : x₁.2.wf = true := foldl_wf _ rs x w fun y r h => by
    split
    · exact cutRecords_wf r.a 3 y h
    · exact h
  have h₂ : x₂.2.wf = true := foldl_wf _ rs (_, x₁.2) h₁ fun y r h => launchUnits_wf t r y h
  have h₃ : x₃.2.wf = true := foldl_wf _ others (_, x₂.2) h₂ fun y a h => cutRecords_wf a 3 y h
  exact haltApertures_wf 4 _ (fun _ => t) x₃ h₃

theorem launchDue_wf (id : Nat) (x : Dev × Mems) (w : x.2.wf = true) : (launchDue id x).2.wf = true := by
  unfold launchDue
  split
  · exact w
  · extract_lets t apps y z
    have hy : y.2.wf = true := by
      unfold y
      exact launchApertures_wf t apps x w
    have hz : z.2.wf = true := by
      unfold z
      clear_value y
      split
      · exact w
      · exact hy
    exact hz

theorem launchNow_wf (id : Nat) (x : Dev × Mems) (w : x.2.wf = true) : (launchNow id x).2.wf = true := by
  have h := launchDue_wf id x w
  unfold launchNow
  generalize launchDue id x = y at h ⊢
  split
  · exact w
  · extract_lets
    split <;> exact h

theorem resetRestarts_wf (x : Dev × Mems) (w : x.2.wf = true) : (resetRestarts x).2.wf = true :=
  foldl_wf _ _ x w fun _ _ h => foldl_wf _ _ _ h fun y a g => restartAcq_wf a y g

theorem resetTick_wf (id : Nat) (x : Dev × Mems) (w : x.2.wf = true) : (resetTick id x).2.wf = true := by
  have h := resetRestarts_wf x w
  unfold resetTick
  split
  · exact w
  · extract_lets y
    split
    · exact h
    · split <;> exact h

theorem settleDue_wf (x : Dev × Mems) (w : x.2.wf = true) : (settleDue x).2.wf = true := by
  unfold settleDue
  split
  · exact foldl_wf _ _ (_, _) (foldl_wf _ _ x w fun y id h => launchNow_wf id y h) fun y id h => resetTick_wf id y h
  · exact w

/-! ### Spares and capacity -/

theorem noSpare_wf (kind unit cause : Nat) (x : Dev × Mems) (w : x.2.wf = true) : (noSpare kind unit cause x).2.wf = true := by
  unfold noSpare
  extract_lets d halt
  have hHalt (as_ : List Nat) (d : Dev) : (as_.foldl halt (d, x.2)).2.wf = true := haltApertures_wf 5 as_ (fun y => y.1.now) (d, x.2) w
  split
  · split <;> exact w
  · exact w
  · exact w
  · split
    · exact hHalt _ _
    · exact w
  · split
    · exact hHalt _ _
    · exact w
  · exact hHalt _ _
  · exact w
  · exact w
  · exact w

theorem replaceUnit_wf (kind unit cause value : Nat) (x : Dev × Mems) (w : x.2.wf = true) : (replaceUnit kind unit cause value x).1.2.wf = true := by
  unfold replaceUnit
  extract_lets lane k u
  split
  · exact w
  · split
    · split <;> exact w
    · exact noSpare_wf k u cause x w

theorem capacityLaunch_wf (r : Retire) (t : Nat) (x : Dev × Mems) (w : x.2.wf = true) : (capacityLaunch r t x).2.wf = true := by
  unfold capacityLaunch
  extract_lets d₁ d₂ inState order ps d₃ d₄ un d₅ m x₁ d₆ lv x₂ on x₃
  have h₀ : Mems.wf { m with cap := [] } = true := Mems.wf_mk rfl (Mems.wf_tp w)
  have h₁ : x₁.2.wf = true := haltApertures_wf 5 un (fun _ => t) (d₅, { m with cap := [] }) h₀
  clear_value x₁ d₆ lv
  have h₂ : x₂.2.wf = true := haltApertures_wf 4 lv.2.2 (fun _ => t) (lv.1, x₁.2) h₁
  clear_value x₂ on
  exact foldl_wf _ on x₂ h₂ fun y a h => cutRecords_wf a 3 y h

theorem retireLaunch_wf (x : Dev × Mems) (w : x.2.wf = true) : (retireLaunch x).2.wf = true := by
  unfold retireLaunch
  split
  · split
    · split
      · exact w
      · extract_lets
        split
        · exact w
        · exact capacityLaunch_wf _ _ (_, x.2) w
    · exact w
  · exact w

theorem wearEvaluation_wf (kind unit ind value : Nat) (x : Dev × Mems) (w : x.2.wf = true) : (wearEvaluation kind unit ind value x).2.wf = true := by
  unfold wearEvaluation
  extract_lets key d d' y
  split
  · split
    · exact w
    · split
      · exact w
      · exact replaceUnit_wf kind unit 2 value (_, x.2) w
  · split
    · exact w
    · split
      · exact w
      · split
        · exact w
        · split
          · exact w
          · split
            · exact w
            · split
              · exact w
              · split <;> exact replaceUnit_wf kind unit 1 value (_, x.2) w

theorem rotationSwap_wf (n offset gain skew bandwidth : Nat) (x : Dev × Mems) (w : x.2.wf = true) :
    (rotationSwap n offset gain skew bandwidth x).2.wf = true := by
  unfold rotationSwap
  extract_lets a early
  split
  · exact w
  · extract_lets
    split
    · exact w
    · split
      · exact w
      · split
        · exact w
        · extract_lets
          split <;> exact replaceUnit_wf 1 _ 1 _ (_, x.2) w

theorem sequencerTrap_wf (addr : Nat) (source : TrapSource) (x : Dev × Mems) (w : x.2.wf = true) : (sequencerTrap addr source x).2.wf = true := by
  unfold sequencerTrap
  extract_lets d
  split
  · exact w
  · exact w
  · exact haltApertures_wf 5 _ (fun y => y.1.now) (_, x.2) w

/-! ### Block commands and failed reads -/

theorem blockComplete_wf (ch : Nat) (data : List Word) (errs : List Upset) (x : Dev × Mems) (w : x.2.wf = true) :
    (blockComplete ch data errs x).2.wf = true := by
  unfold blockComplete
  split
  · exact w
  · split
    · exact w
    · split
      · extract_lets y
        split <;> exact writeBlocks_wf _ _ data errs x w
      · extract_lets
        split <;> exact w

theorem blockFailed_wf (ch kind : Nat) (data : List Word) (addr : QWord) (x : Dev × Mems) (w : x.2.wf = true) :
    (blockFailed ch kind data addr x).2.wf = true := by
  unfold blockFailed
  split
  · exact w
  · split
    · exact w
    · extract_lets d low d' y
      split
      · exact w
      · change y.2.2.2.wf = true
        unfold y
        split
        · exact writeBlocks_wf _ _ data [] (d, x.2) w
        · exact w

theorem hostReadFailed_wf (r : HostReq) (kind : Nat) (addr : QWord) (x : Dev × Mems) (w : x.2.wf = true) : (hostReadFailed r kind addr x).2.wf = true := by
  cases r with
  | block ch data => exact blockFailed_wf ch kind data addr x w
  | _ => exact w

/-! ### Supplies, clocks, temperatures and bring-up -/

theorem railFault_wf (fwFault : Bool) (code : Nat) (x : Dev × Mems) : (railFault fwFault code x).2.wf = true := mainReset_wf 0xF0 x

theorem thermal_wf (x : Dev × Mems) (w : x.2.wf = true) : (thermal x).2.wf = true := by
  unfold thermal
  extract_lets
  split
  · exact mainReset_wf 0xF0 x
  · exact w

theorem sensorConversion_wf (temps : List Int) (ms : List (Nat × Nat)) (x : Dev × Mems) (w : x.2.wf = true) : (sensorConversion temps ms x).2.wf = true := by
  unfold sensorConversion
  split
  · exact w
  · extract_lets ts ms' d y d' d'' d''' z
    split
    · exact railFault_wf true _ z
    · exact thermal_wf (_, x.2) w

theorem firmwareLaunches_wf (x : Dev × Mems) (w : x.2.wf = true) : (firmwareLaunches x).2.wf = true := retireLaunch_wf (_, x.2) w

theorem launchTick_wf (id : Nat) (x : Dev × Mems) (w : x.2.wf = true) : (launchTick id x).2.wf = true := by
  unfold launchTick
  split
  · exact firmwareLaunches_wf x w
  · exact launchNow_wf id x w

theorem replaceNow_wf (kind unit : Nat) (x : Dev × Mems) (w : x.2.wf = true) : (replaceNow kind unit x).2.wf = true := by
  unfold replaceNow
  extract_lets lane k u
  split
  · exact w
  · split
    · exact w
    · exact noSpare_wf k u 3 x w

theorem replaceUnits_wf (kind : Nat) (us : List Nat) (x : Dev × Mems) (w : x.2.wf = true) : (us.foldl (fun y u => replaceNow kind u y) x).2.wf = true :=
  foldl_wf _ us x w fun y u h => replaceNow_wf kind u y h

theorem stageDone_wf (bad : List (Nat × Nat)) (x : Dev × Mems) (w : x.2.wf = true) : (stageDone bad x).2.wf = true := by
  unfold stageDone
  extract_lets d banks y₁ d₁ dec d₂ d₃ f y₂ y₃ y₄
  have h₁ : y₁.2.wf = true := replaceUnits_wf 6 banks x w
  have h₃ : y₃.2.wf = true := replaceUnits_wf 9 _ x w
  have h₄ : y₄.2.wf = true := foldl_wf _ _ x w fun y p h => replaceNow_wf p.1 p.2 y h
  clear_value y₁ y₃ y₄ d₁ d₃ f y₂
  split
  · split <;> exact w
  · split <;> exact w
  · split <;> exact w
  · split <;> exact w
  · exact w
  · exact w
  · exact h₁
  · split <;> exact w
  · exact w
  · exact w
  · exact h₃
  · exact h₄
  · exact w

theorem stageEnd_wf (ok : Bool) (bad : List (Nat × Nat)) (x : Dev × Mems) (w : x.2.wf = true) : (stageEnd ok bad x).2.wf = true := by
  unfold stageEnd
  extract_lets n
  split
  · exact w
  · split
    · exact stageDone_wf bad x w
    · exact w

theorem restartAt10_wf (x : Dev × Mems) : (restartAt10 x).2.wf = true := mainReset_wf 0x10 x

theorem firmwareFault_wf (x : Dev × Mems) (w : x.2.wf = true) : (firmwareFault x).2.wf = true := by
  unfold firmwareFault
  extract_lets
  split
  · exact w
  · split
    · exact w
    · exact restartAt10_wf x

theorem stageRestart_wf (x : Dev × Mems) (w : x.2.wf = true) : (stageRestart x).2.wf = true := by
  unfold stageRestart
  split
  · exact w
  · split
    · exact w
    · extract_lets
      split
      · exact w
      · exact restartAt10_wf x

theorem mrstLow_wf (x : Dev × Mems) (w : x.2.wf = true) : (mrstLow x).2.wf = true := by
  unfold mrstLow
  extract_lets act y
  change y.2.wf = true
  unfold y
  split
  · exact restartAt10_wf x
  · exact w

theorem powerOff_wf (x : Dev × Mems) : (powerOff x).2.wf = true := mainReset_wf 0x00 x

theorem powerUp_wf (rcvLow shdnLow : Bool) (x : Dev × Mems) : (powerUp rcvLow shdnLow x).2.wf = true := powerOff_wf x

theorem railTimeout_wf (x : Dev × Mems) (w : x.2.wf = true) : (railTimeout x).2.wf = true := by
  unfold railTimeout
  extract_lets
  split
  · exact w
  · exact railFault_wf false _ x

theorem shutdownDone_wf (x : Dev × Mems) (w : x.2.wf = true) : (shutdownDone x).2.wf = true := by
  unfold shutdownDone
  split
  · exact w
  · exact mainReset_wf 0x02 x

theorem refclkLost_wf (x : Dev × Mems) (w : x.2.wf = true) : (refclkLost x).2.wf = true := by
  unfold refclkLost
  extract_lets
  split
  · exact w
  · exact mainReset_wf 0xF0 x

theorem mdllLock_wf (ok : Bool) (x : Dev × Mems) (w : x.2.wf = true) : (mdllLock ok x).2.wf = true := by
  unfold mdllLock
  split
  · exact w
  · split
    · exact w
    · exact railFault_wf false 0x402 x

end Sys2Proof.Machine
end

section
/-!
PROOF. What a command's answer can be: the device alone, device and memories, or the fault of a PR field; and what a step keeps.
-/

namespace Sys2Proof.Machine

/-! ### The four kinds of answer -/

theorem onDev_next {dt : Nat} {f : Dev → Dev} {s t : State} (h : onDev dt f s = .next t) : t = s.onto (f (s.after dt)) :=
  (Host.Outcome.next.inj h).symm

theorem onAll_next {dt : Nat} {f : Dev → Mems → Dev × Mems} {s t : State} (h : onAll dt f s = .next t) : t = s.ontoAll (f (s.after dt) s.mem) :=
  (Host.Outcome.next.inj h).symm

theorem onWrite_next {dt : Nat} {f : Dev → Except Nat Dev} {s t : State} (h : onWrite dt f s = .next t) : ∃ d, t = s.onto d := by
  unfold onWrite at h
  split at h
  · exact ⟨_, (Host.Outcome.next.inj h).symm⟩
  · cases h

theorem onWrite_mem {dt : Nat} {f : Dev → Except Nat Dev} {s t : State} (h : onWrite dt f s = .next t) : t.mem = s.mem := by
  obtain ⟨d, rfl⟩ := onWrite_next h
  rfl

/-- What an answered state keeps of the memories is read off the state answered. -/
theorem wf_of_answer {u t : State} (h : (.next u : Host.Outcome State Fault Refusal) = .next t) (w : u.mem.wf = true) : t.mem.wf = true :=
  Host.Outcome.next.inj h ▸ w

theorem mem_of_answer {u t : State} {m : Mems} (h : (.next u : Host.Outcome State Fault Refusal) = .next t) (hm : u.mem = m) : t.mem = m :=
  Host.Outcome.next.inj h ▸ hm

/-- The commands that are writes of a register: those that can meet a PR field, and the four that are writes of the registers of an output channel. -/
def writesRegister : Instr → Bool
  | .expHeadWrite .. | .expPause .. | .expResume .. | .clearHalt .. => true
  | i => meetsPr i

theorem exec_of_writesRegister {i : Instr} (hi : writesRegister i = true) : ∃ dt f, ∀ s, exec i s = onWrite dt f s := by
  cases i
  case sqDb dt q v => exact ⟨dt, fun d => if q < 64 then d.writeDword (0x1000 + 16 * q) v else .ok d, fun _ => rfl⟩
  case cqDb dt q v => exact ⟨dt, fun d => if q < 64 then d.writeDword (0x1004 + 16 * q) v else .ok d, fun _ => rfl⟩
  case evqDb dt v => exact ⟨dt, fun d => d.writeDword 0x1400 v, fun _ => rfl⟩
  case ring0Enable dt v => exact ⟨dt, fun d => d.writeDword 0x50 v, fun _ => rfl⟩
  case ring0Disable dt v => exact ⟨dt, fun d => d.writeDword 0x50 v, fun _ => rfl⟩
  case indDataWrite dt v => exact ⟨dt, fun d => d.writeDword 0x1C v, fun _ => rfl⟩
  case registerWrite dt sp vs => exact ⟨dt, fun d => d.registerWrite sp vs, fun _ => rfl⟩
  case expHeadWrite dt c v => exact ⟨dt, fun d => d.indWriteOf (dmaReg c 0x0C) v, fun _ => rfl⟩
  case expPause dt c => exact ⟨dt, fun d => d.indWriteOf (dmaReg c 0x04) (d.expCtrlWith c 1 0), fun _ => rfl⟩
  case expResume dt c => exact ⟨dt, fun d => d.indWriteOf (dmaReg c 0x04) (d.expCtrlWith c 0 0), fun _ => rfl⟩
  case clearHalt dt c => exact ⟨dt, fun d => d.indWriteOf (dmaReg c 0x04) (d.expCtrlWith c (d.fld (dmaReg c 0x04) 0 0) 1), fun _ => rfl⟩
  all_goals exact Bool.noConfusion (hi : false = true)

/-- Every command but a write of a register answers a next state, whose queue is as it was. -/
theorem exec_answers {i : Instr} (hi : writesRegister i = false) (s : State) : ∃ t, exec i s = .next t ∧ t.pending = s.pending := by
  cases i
  all_goals first | exact Bool.noConfusion (hi : true = false) | exact ⟨_, rfl, rfl⟩

/-- The commands whose meaning is given the memories: those that reach them, and three whose consequence may close a record (R325, R350). -/
def givenMemory : Instr → Bool
  | .apertureVerdict .. | .rotationSwap .. | .sequencerTrap .. => true
  | i => reachesMemory i

/-- A command that is not given the memories leaves them as they were. -/
theorem exec_mem_of_not_givenMemory {i : Instr} {s t : State} (hi : givenMemory i = false) (h : exec i s = .next t) : t.mem = s.mem := by
  by_cases hw : writesRegister i = true
  · obtain ⟨dt, f, he⟩ := exec_of_writesRegister hw
    exact onWrite_mem ((he s).symm.trans h)
  · cases i
    all_goals first | exact Bool.noConfusion (hi : true = false) | exact absurd rfl hw | exact mem_of_answer h rfl

/-! ### A command's meaning keeps the memories canonical -/

/-- An instruction whose effect leaves the memories alone. -/
theorem tpIssue_wf_of_mem {n : Nat} {sel : Word → Bool} {eff : Nat → Word → TpRes → TpRes} (h : ∀ c v r, (eff c v r).mem = r.mem) {x : Dev × Mems}
    (w : x.2.wf = true) : (tpIssue n sel eff x).2.wf = true :=
  tpIssue_wf n sel eff x w fun c v r hr => (h c v r).symm ▸ hr

theorem tpLd_mem (n c : Nat) (v : Word) (r : TpRes) : (tpLd n c v r).mem = r.mem := by
  unfold tpLd
  extract_lets
  split <;> rfl

theorem tpStacc_mem (n c : Nat) (v : Word) (r : TpRes) : (tpStacc n c v r).mem = r.mem := by
  unfold tpStacc
  extract_lets
  split <;> rfl

theorem tpCmac4_mem (n c : Nat) (v : Word) (r : TpRes) : (tpCmac4 n c v r).mem = r.mem := by
  unfold tpCmac4
  extract_lets _ _ _ _ bad
  clear_value bad
  cases bad <;> rfl

theorem tpPush_mem (n c : Nat) (v : Word) (r : TpRes) : (tpPush n c v r).mem = r.mem := by
  unfold tpPush
  extract_lets
  split
  · rfl
  · split <;> rfl

theorem TpRes.feedRead_mem (r : TpRes) (n f : Nat) : (r.feedRead n f).mem = r.mem := by
  unfold TpRes.feedRead
  refine foldl_keeps (fun (r' : TpRes) => r'.mem = r.mem) _ _ _ rfl fun r' _ h => ?_
  dsimp only
  split <;> exact h

theorem tpPopRead_mem (n c : Nat) (v : Word) (r : TpRes) : (tpPopRead n c v r).mem = r.mem := r.feedRead_mem n _

theorem runCmdM_wf {f : CmdForm} {q : Nat} {e : Entry} {bad : Dev → List Word → List (Nat × Bool)} {act : Dev × Mems → Dev × Mems}
    (hact : ∀ y, y.2.wf = true → (act y).2.wf = true) (x : Dev × Mems) (w : x.2.wf = true) : (runCmdM f q e bad act x).2.wf = true := by
  unfold runCmdM
  split
  · exact hact (_, x.2) w
  · exact w
  · exact w

theorem tpLoad_wf {dt q : Nat} {e : Entry} {s t : State} (w : s.mem.wf = true) (h : exec (.tpLoad dt q e) s = .next t) : t.mem.wf = true := by
  refine wf_of_answer h (runCmdM_wf (fun y hy => ?_) (s.after dt, s.mem) w)
  dsimp only
  split
  · exact hy
  · exact tpLoadImage_wf e.target e.block y hy

theorem apertureCandidate_wf {dt a : Nat} {s t : State} (w : s.mem.wf = true) (h : exec (.apertureCandidate dt a) s = .next t) : t.mem.wf = true := by
  refine wf_of_answer h ?_
  dsimp only
  split
  · split
    · exact w
    · refine completeFull_wf a (_, _) ?_
      dsimp only
      split
      · exact settleSub_wf a (_, s.mem) w
      · exact w
  · exact w

theorem apertureVerdict_wf {dt a : Nat} {s t : State} (w : s.mem.wf = true) (h : exec (.apertureVerdict dt a) s = .next t) : t.mem.wf = true := by
  refine wf_of_answer h ?_
  dsimp only
  split
  · split
    · exact w
    · exact completeFull_wf a (_, s.mem) w
  · exact w

theorem captureFreezeEffect_wf {dt a : Nat} {s t : State} (w : s.mem.wf = true) (h : exec (.captureFreezeEffect dt a) s = .next t) :
    t.mem.wf = true := by
  refine wf_of_answer h ?_
  dsimp only
  split
  · exact freezeEffect_wf a (_, s.mem) w
  · exact w

theorem hostReadTimeout_wf {dt : Nat} {r : HostReq} {addr : QWord} {s t : State} (w : s.mem.wf = true) (h : exec (.hostReadTimeout dt r addr) s = .next t) :
    t.mem.wf = true := by
  refine wf_of_answer h ?_
  dsimp only
  split
  · split
    · exact hostReadFailed_wf r 3 addr (_, s.mem) w
    · exact w
  · exact w

theorem leftoverSlot_answer_wf {dt : Nat} {r : PcRead} {s t : State} (w : s.mem.wf = true) (h : exec (.leftoverSlot dt r) s = .next t) :
    t.mem.wf = true := by
  refine wf_of_answer h ?_
  dsimp only
  split
  · exact leftoverSlot_wf r.pc r.errs (_, s.mem) w
  · exact w

theorem recordComplete_wf {dt a : Nat} {s t : State} (w : s.mem.wf = true) (h : exec (.recordComplete dt a) s = .next t) : t.mem.wf = true := by
  refine wf_of_answer h ?_
  dsimp only
  split
  · exact completeDue_wf a (_, s.mem) w
  · exact w

/-- A load at an edge or over a link lets what is due act first (R143). -/
theorem settled_before_load_wf (loads : Bool) (x : Dev × Mems) (w : x.2.wf = true) : (if loads then settleDue x else x).2.wf = true := by
  split
  · exact settleDue_wf x w
  · exact w

/-- Every command that is given the memories leaves them canonical. -/
theorem exec_wf_of_givenMemory {i : Instr} {s t : State} (hi : givenMemory i = true) (w : s.mem.wf = true) (h : exec i s = .next t) :
    t.mem.wf = true := by
  cases i
  case tpAdd | tpSub | tpAnd | tpOr | tpXor | tpShl | tpShr | tpSar | tpMul | tpCmp | tpMov | tpLi | tpLih | tpSt | tpMovp | tpMovb | tpMovl | tpMvp |
      tpMvb | tpMvl | tpAddp | tpCmac1 | tpClra | tpAdda | tpMva | tpBr | tpJal | tpJr | tpRti | tpRep | tpQcntFeed | tpQcntResult | tpMfc | tpMtc |
      tpBindClr | tpTcmpHiWrite | tpNop | tpHalt | tpWait | tpSig | tpRdt =>
    exact wf_of_answer h (tpIssue_wf_of_mem (x := (_, s.mem)) (by exact fun _ _ _ => rfl) w)
  case tpLd => exact wf_of_answer h (tpIssue_wf_of_mem (tpLd_mem _) (x := (_, s.mem)) w)
  case tpStacc => exact wf_of_answer h (tpIssue_wf_of_mem (tpStacc_mem _) (x := (_, s.mem)) w)
  case tpCmac4 => exact wf_of_answer h (tpIssue_wf_of_mem (tpCmac4_mem _) (x := (_, s.mem)) w)
  case tpPop => exact wf_of_answer h (tpIssue_wf_of_mem (tpPopRead_mem _) (x := (_, s.mem)) w)
  case tpPush => exact wf_of_answer h (tpIssue_wf_of_mem (tpPush_mem _) (x := (_, s.mem)) w)
  case tpLoad => exact tpLoad_wf w h
  case feedDescriptorPush => exact wf_of_answer h (feedPush_wf _ _ (_, s.mem) w)
  case apertureCandidate => exact apertureCandidate_wf w h
  case apertureVerdict => exact apertureVerdict_wf w h
  case captureFreezeEffect => exact captureFreezeEffect_wf w h
  case recordComplete => exact recordComplete_wf w h
  case entryWrite => exact wf_of_answer h (entryWrite_wf _ _ _ (_, s.mem) w)
  case apertureHaltTick => exact wf_of_answer h (apertureHaltTick_wf _ (_, s.mem) w)
  case renderStart => exact wf_of_answer h (renderStart_wf _ (_, s.mem) w)
  case leftoverSlot => exact leftoverSlot_answer_wf w h
  case captureScrubRead => exact wf_of_answer h (captureScrub_wf _ _ (_, s.mem) w)
  case facetScrubRead => exact wf_of_answer h (facetScrub_wf _ _ _ (_, s.mem) w)
  case packetStart => exact wf_of_answer h (packetStart_wf _ _ (_, s.mem) w)
  case queueDrain => exact wf_of_answer h (queueDrain_wf _ (_, s.mem) w)
  case flushReadComplete => exact wf_of_answer h (flushReadComplete_wf _ (_, s.mem) w)
  case blockTransferComplete => exact wf_of_answer h (blockComplete_wf _ _ _ (_, s.mem) w)
  case hostReadErrorCompletion => exact wf_of_answer h (hostReadFailed_wf _ _ _ (_, s.mem) w)
  case hostReadTimeout => exact hostReadTimeout_wf w h
  case ppsEdge => exact wf_of_answer h (settled_before_load_wf _ (_, s.mem) w)
  case syncLinkUp => exact wf_of_answer h (settled_before_load_wf _ (_, s.mem) w)
  case launchTick => exact wf_of_answer h (launchTick_wf _ (_, s.mem) w)
  case resetTick => exact wf_of_answer h (resetTick_wf _ (_, s.mem) w)
  case wearEvaluation => exact wf_of_answer h (wearEvaluation_wf _ _ _ _ (_, s.mem) w)
  case rotationSwap => exact wf_of_answer h (rotationSwap_wf _ _ _ _ _ (_, s.mem) w)
  case sequencerTrap => exact wf_of_answer h (sequencerTrap_wf _ _ (_, s.mem) w)
  case sensorConversion => exact wf_of_answer h (sensorConversion_wf _ _ (_, s.mem) w)
  case bringupStageEnd => exact wf_of_answer h (stageEnd_wf _ _ (_, s.mem) w)
  case firmwareFaultRestart => exact wf_of_answer h (firmwareFault_wf (_, s.mem) w)
  case stageFailureRestart => exact wf_of_answer h (stageRestart_wf (_, s.mem) w)
  case mrstNLow => exact wf_of_answer h (mrstLow_wf (_, s.mem) w)
  case standbyPowerLoss => exact wf_of_answer h (powerOff_wf (s.dev, s.mem))
  case standbyPowerUp dt rcvLow shdnLow => exact wf_of_answer h (powerUp_wf rcvLow shdnLow (s.dev, s.mem))
  case railWindowTimeout => exact wf_of_answer h (railTimeout_wf (_, s.mem) w)
  case shutdownComplete => exact wf_of_answer h (shutdownDone_wf (_, s.mem) w)
  case refclkLost => exact wf_of_answer h (refclkLost_wf (_, s.mem) w)
  case mdllLock => exact wf_of_answer h (mdllLock_wf _ (_, s.mem) w)
  all_goals exact Bool.noConfusion (hi : false = true)

theorem exec_wf {i : Instr} {s t : State} (w : s.mem.wf = true) (h : exec i s = .next t) : t.mem.wf = true := by
  by_cases hi : givenMemory i = true
  · exact exec_wf_of_givenMemory hi w h
  · exact (exec_mem_of_not_givenMemory (Bool.eq_false_iff.mpr hi) h).symm ▸ w

/-! ### The statements -/

/-- Settles O1: the second clause of the step. -/
theorem stepRunsFrontCommand : Obligations.StepRunsFrontCommand := fun _ _ _ => rfl

/-- Settles O5: a step passes a tick, which leaves the memories alone, or is a command's meaning. -/
theorem stepKeepsMemoriesCanonical : Obligations.StepKeepsMemoriesCanonical := by
  intro s t w h
  unfold step at h
  split at h
  next => exact (onDev_next h) ▸ w
  next rest _ => exact exec_wf (s := { s with pending := rest }) w h

end Sys2Proof.Machine
end

section
/-!
PROOF. The clocks at the end of a tick: what the tick's end does leaves them alone (R106, R107); the reset state.
-/

namespace Sys2Proof.Machine

theorem foldl_clk {α : Type} {f : Dev → α → Dev} (h : ∀ d a, (f d a).clk = d.clk) (l : List α) (d : Dev) : (l.foldl f d).clk = d.clk :=
  foldl_keeps (fun y : Dev => y.clk = d.clk) f l d rfl fun y a hy => (h y a).trans hy

/-! ### Events -/

@[simp] theorem Dev.sendVector_clk (d : Dev) (v : Nat) : (d.sendVector v).clk = d.clk := by
  unfold Dev.sendVector
  split
  · dsimp only
    split <;> rfl
  · rfl

@[simp] theorem Dev.logRecord_clk (d : Dev) (r : LogRec) : (d.logRecord r).clk = d.clk := by
  unfold Dev.logRecord
  dsimp only
  split <;> rfl

@[simp] theorem Dev.logEvent_clk (d : Dev) (e : Event) : (d.logEvent e).clk = d.clk := by
  unfold Dev.logEvent
  split
  · rfl
  · simp

@[simp] theorem Dev.produce_clk (d : Dev) (e : Event) : (d.produce e).clk = d.clk := by
  unfold Dev.produce
  dsimp only
  split
  · simp
  · split <;> simp

@[simp] theorem Dev.raiseAt_clk (d : Dev) (id sev unit arg : Nat) (data tb : QWord) : (d.raiseAt id sev unit arg data tb).clk = d.clk :=
  d.produce_clk _

@[simp] theorem Dev.raise_clk (d : Dev) (id unit arg data : Nat) : (d.raise id unit arg data).clk = d.clk := d.raiseAt_clk _ _ _ _ _ _

@[simp] theorem Dev.writeRecord_clk (d : Dev) (e : Event) : (d.writeRecord e).clk = d.clk := by
  unfold Dev.writeRecord
  dsimp only
  split <;> split <;> simp

@[simp] theorem Dev.keepRecord_clk (d : Dev) (e : Event) : (d.keepRecord e).clk = d.clk := by
  unfold Dev.keepRecord
  split <;> rfl

@[simp] theorem Dev.writeDue_clk (d : Dev) (x : EvRoute × Event) : (d.writeDue x).clk = d.clk := by
  unfold Dev.writeDue
  dsimp only
  split
  · split <;> simp
  · simp

@[simp] theorem Dev.flushEvents_clk (d : Dev) : d.flushEvents.clk = d.clk := foldl_clk (fun d x => d.writeDue_clk x) _ _

/-! ### Rings and commands -/

theorem Dev.sameButMailbox_clk {a b : Dev} (h : a.sameButMailbox b) : b.clk = a.clk := by
  rw [h.1]

@[simp] theorem Dev.writeCompletion_clk (d : Dev) (q : Nat) (c : Completion) : (d.writeCompletion q c).clk = d.clk :=
  Dev.sameButMailbox_clk (Dev.sameButMailbox_writeCompletion d q c)

@[simp] theorem Dev.post_clk (d : Dev) (q : Nat) (c : Completion) : (d.post q c).clk = d.clk := Dev.sameButMailbox_clk (Dev.sameButMailbox_post d q c)

@[simp] theorem Dev.fetchEntry_clk (d : Dev) (q : Nat) : (d.fetchEntry q).clk = d.clk := Dev.sameButMailbox_clk (Dev.sameButMailbox_fetchEntry d q)

@[simp] theorem Dev.faultRing_clk (d : Dev) (q arg : Nat) (data : QWord) : (d.faultRing q arg data).clk = d.clk := by
  unfold Dev.faultRing
  dsimp only
  split <;> simp

@[simp] theorem Dev.sampleRing0_clk (d : Dev) : d.sampleRing0.clk = d.clk := by
  unfold Dev.sampleRing0
  dsimp only
  split <;> simp

@[simp] theorem Dev.dropRing_clk (d : Dev) (q : Nat) : (d.dropRing q).clk = d.clk := by
  unfold Dev.dropRing
  dsimp only
  split
  · split <;> simp
  · rfl

@[simp] theorem Dev.ringSettled_clk (d : Dev) (q : Nat) : (d.ringSettled q).clk = d.clk := by
  unfold Dev.ringSettled
  dsimp only
  split
  · refine (foldl_clk (fun d k => ?_) _ _).trans (d.dropRing_clk q)
    split <;> simp
  · rfl

@[simp] theorem Dev.finishRing_clk (d : Dev) (q : Nat) (w : Answer) : (d.finishRing q w).clk = d.clk := by
  unfold Dev.finishRing
  split <;> simp

@[simp] theorem Dev.finish_clk (d : Dev) (w : Wait) (a : Answer) : (d.finish w a).clk = d.clk := foldl_clk (fun d q => d.finishRing_clk q a) _ _

/-! ### Queues -/

@[simp] theorem Dev.queueLoss_clk (d : Dev) (k total : Nat) (q : Queue) : (d.queueLoss k total q).2.clk = d.clk := by
  unfold Dev.queueLoss
  extract_lets quiet n
  clear_value quiet
  cases quiet <;> simp

@[simp] theorem Dev.resultLoss_clk (d : Dev) (n : Nat) (q : Queue) : (d.resultLoss n q).2.clk = d.clk := by
  simp [Dev.resultLoss]

@[simp] theorem Dev.feedLoss_clk (d : Dev) (n f : Nat) (q : Queue) : (d.feedLoss n f q).clk = d.clk := by
  simp [Dev.feedLoss]

@[simp] theorem Dev.markerLoss_clk (d : Dev) (n : Nat) (q : Queue) : (d.markerLoss n q).clk = d.clk := by
  simp [Dev.markerLoss]

@[simp] theorem Dev.settleTp_clk (d : Dev) (n : Nat) : (d.settleTp n).clk = d.clk := by
  unfold Dev.settleTp
  dsimp only
  refine (foldl_clk (fun d p => ?_) _ _).trans ?_
  · split <;> simp
  · split <;> simp

@[simp] theorem Dev.settleQueues_clk (d : Dev) : d.settleQueues.clk = d.clk := by
  unfold Dev.settleQueues
  extract_lets e
  have he : e.clk = d.clk := foldl_clk (fun (d : Dev) (p : Nat × Tp) => d.settleTp_clk p.1) _ _
  refine (foldl_clk (fun (d : Dev) (p : Nat × Marker) => ?_) _ _).trans he
  dsimp only
  split
  · exact Dev.markerLoss_clk _ _ _
  · rfl

/-! ### Commands whose time is over, and barriers -/

@[simp] theorem Dev.startBlock_clk (d : Dev) (ch : Nat) (j : BlockJob) : (d.startBlock ch j).clk = d.clk := by
  unfold Dev.startBlock
  dsimp only
  split
  · rfl
  · split <;> rfl

@[simp] theorem Dev.nextBlock_clk (d : Dev) (ch : Nat) : (d.nextBlock ch).clk = d.clk := by
  unfold Dev.nextBlock
  split
  · dsimp only
    rw [Dev.startBlock_clk]
    split
    · split <;> rfl
    · rfl
  · rfl

@[simp] theorem Dev.dropBlock_clk (d : Dev) (ch : Nat) : (d.dropBlock ch).clk = d.clk := by
  unfold Dev.dropBlock
  dsimp only
  split <;> simp

@[simp] theorem Dev.queueWords_clk (d : Dev) (ks : List Nat) (w : SyncOut) : (d.queueWords ks w).clk = d.clk :=
  foldl_clk (fun d k => d.setLink_clk k _) _ _

@[simp] theorem Dev.queueUp_clk (d : Dev) (w : SyncOut) : (d.queueUp w).clk = d.clk := by
  unfold Dev.queueUp
  split <;> simp

@[simp] theorem Dev.withdrawBarrier_clk (d : Dev) (id scope : Nat) : (d.withdrawBarrier id scope).2.clk = d.clk := by
  unfold Dev.withdrawBarrier
  dsimp only
  split
  · rfl
  · exact Dev.queueUp_clk _ _

@[simp] theorem Dev.expireRing_clk (d : Dev) (q : Nat) : (d.expireRing q).clk = d.clk := by
  unfold Dev.expireRing
  split
  · rfl
  · split
    · rfl
    · split
      · split
        · rfl
        · dsimp only
          split <;> simp
      · simp
      · simp
      · simp

@[simp] theorem Dev.expire_clk (d : Dev) : d.expire.clk = d.clk := foldl_clk (fun (d : Dev) (p : Nat × Ring) => d.expireRing_clk p.1) _ _

@[simp] theorem Dev.postHeld_clk (d : Dev) : d.postHeld.clk = d.clk := by
  refine foldl_clk (fun d p => ?_) _ _
  split
  · split <;> simp
  · rfl

@[simp] theorem Dev.fetchNext_clk (d : Dev) : d.fetchNext.clk = d.clk := by
  unfold Dev.fetchNext
  split <;> simp

@[simp] theorem Dev.endTick_clk (d : Dev) : d.endTick.clk = d.clk := by
  change d.settleQueues.flushEvents.postHeld.expire.fetchNext.clk = d.clk
  simp

@[simp] theorem Dev.releaseDue_clk (d : Dev) : d.releaseDue.clk = d.clk :=
  foldl_clk (fun d _ => (Dev.finish_clk _ _ _).trans (d.finish_clk _ _)) _ _

@[simp] theorem Dev.combRecord_clk (d : Dev) (k arg tick : Nat) : (d.combRecord k arg tick).clk = d.clk := d.raiseAt_clk _ _ _ _ _ _

@[simp] theorem Dev.combOverflow_clk (d : Dev) (k cause : Nat) (tell : Bool) (fire tick : Nat) : (d.combOverflow k cause tell fire tick).clk = d.clk := by
  unfold Dev.combOverflow
  dsimp only
  split <;> split <;> simp

@[simp] theorem Dev.combTells_clk (d : Dev) (t : CombTold) : (d.combTells t).clk = d.clk := by
  unfold Dev.combTells
  extract_lets d₁ d₂ d₃
  have h₁ : d₁.clk = d.clk := by
    unfold d₁
    split <;> rfl
  have h₂ : d₂.clk = d₁.clk := by
    unfold d₂
    split <;> simp
  have h₃ : d₃.clk = d₂.clk := by
    unfold d₃
    split
    · rfl
    · split <;> rfl
  split
  · exact (Dev.combOverflow_clk _ _ _ _ _ _).trans (h₃.trans (h₂.trans h₁))
  · exact h₃.trans (h₂.trans h₁)

@[simp] theorem Dev.toldDue_clk (d : Dev) : d.toldDue.clk = d.clk := foldl_clk (fun d t => d.combTells_clk t) _ _

/-! ### The passing of time -/

theorem Dev.advance_clk (d : Dev) (n : Nat) : (d.advance n).clk = d.clk.pass n := by
  unfold Dev.advance
  simp

/-- One tick is one step: nothing stops between. -/
theorem Dev.pass_one (d : Dev) : d.pass 1 = d.advance 1 := by
  have hnone (l : List Nat) : (l.filter (fun n => decide (0 < n ∧ n < 1))).eraseDups = [] := by
    have : l.filter (fun n => decide (0 < n ∧ n < 1)) = [] := List.filter_eq_nil_iff.mpr fun n _ => by simp; omega
    rw [this]
    rfl
  have hsteps : d.passSteps 1 = [1] := by
    unfold Dev.passSteps
    dsimp only
    rw [hnone]
    rfl
  simp [Dev.pass, hsteps]

/-- Settles O2: on an empty queue the step is the passing of one tick, which the clock counts while CLK_CORE runs. -/
theorem emptyQueuePassesOneTick : Obligations.EmptyQueuePassesOneTick := by
  intro s h
  have hclk : (s.after 1).clk = s.dev.clk.pass 1 := by
    rw [State.after, Dev.pass_one, Dev.advance_clk]
  refine ⟨?_, ?_, fun hrun => ?_, fun hrun => ?_⟩
  · unfold step
    rw [h]
    rfl
  · rw [hclk, Clock.pass]
    split <;> rfl
  · rw [hclk, Clock.pass, if_pos hrun]
    rfl
  · rw [hclk, Clock.pass, hrun]
    rfl

/-- Settles O6: the defaults of the state's fields. -/
theorem resetIsStandbyPowerUp : Obligations.ResetIsStandbyPowerUp :=
  ⟨⟨rfl, rfl, rfl, rfl, rfl, rfl, rfl, rfl, rfl, rfl⟩, rfl, rfl, rfl⟩

end Sys2Proof.Machine
end

section
/-!
PROOF. R13: a row of the host that is not counted among the register writes can meet a PR field, for nothing bounds the channel that it names.
-/

namespace Sys2Proof.Machine

/-- READY, with IND_ADDR at the reserved dword 0x5C000C, all of whose bits are marked PR. -/
def atReservedDword : State := { dev := { fw := { ready := true }, regs := [(0x18, 0x5C000C)] } }

theorem breaksPr_reservedDword : atReservedDword.dev.breaksPr 0x5C000C 1 = true := by decide

/-- EXP_HEAD_WRITE of channel 4096, which no part has, is a write of that dword. -/
theorem exec_expHeadWrite_reservedDword : exec (.expHeadWrite 0 4096 1) atReservedDword = .fault (.undefinedPrWrite 0x5C000C) := by
  have hnames : atReservedDword.dev.indNames (dmaReg 4096 0x0C) = true := by decide
  have hwrite : atReservedDword.dev.indWriteOf (dmaReg 4096 0x0C) 1 = .error 0x5C000C := by
    rw [Dev.indWriteOf, if_pos hnames, Dev.writeDword_indData _ rfl, Dev.indWrite]
    have hmapped : atReservedDword.dev.mapped 0x5C000C = true := by decide
    have haddr : atReservedDword.dev.indAddr = 0x5C000C := by decide
    simp only [haddr, hmapped, breaksPr_reservedDword, Bool.not_true, Bool.false_eq_true, if_false, if_true]
  change onWrite 0 (fun d => d.indWriteOf (dmaReg 4096 0x0C) 1) atReservedDword = _
  simp only [onWrite, Dev.pass_zero, hwrite]

/-- Refutes O4: EXP_HEAD_WRITE is none of the seven kinds of write, and stops here. -/
theorem not_onlyPrWritesStop : ¬ Obligations.OnlyPrWritesStop := by
  intro h
  obtain ⟨t, ht⟩ := (h.1 (.expHeadWrite 0 4096 1) atReservedDword).1 rfl
  rw [exec_expHeadWrite_reservedDword] at ht
  cases ht

end Sys2Proof.Machine
end

section
/-!
PROOF. R335 and R338: a record whose sub-rings have their last entries completes as a verdict reaches its aperture, and its header goes to capture memory; so a
command that is not counted among those that reach the memories changes a byte.
-/

namespace Sys2Proof.Machine

/-- A record of streaming capture with one descriptor, of one entry. -/
def openedRecord : Rec :=
  { recno := 0, segment := 0, seqno := 0, trigTick := 0, streaming := true,
    descs := [{ slot := 0, ch := 0, sliceA := 0, posA := 0, countA := 1, countB := 0, base := 0, sliceEntries := 1, entryBytes := 4, firstStamp := 0,
                prePresent := 0, poisoned := 0, ovrs := 0, short := false, brk := false }] }

/-- A sub-ring that needs no entry after the trigger. -/
def filledSubRing : SubRing := { slot := 0, ch := 0, entryBytes := 4, rate := ⟨1, 1⟩, pre := 1, post := 0, q := 1, base := 512 }

/-- Aperture 0 is LIVE and captures two segments: its first record is open, with nothing left to write, and a verdict has come. -/
def capturing : State :=
  { dev := { aps := [(0, { state := 3, live := [{ type := 0x09, unit := 0, words := [0, 0, 0, 1] }],
                           acq := { sub := 4, opened := [openedRecord], subs := [filledSubRing], inbox := [(0, .verdict 0 0 false)] } })] } }

/-- The oldest of an aperture's inbox is a verdict whose tick has come: it is met, and records may complete. -/
theorem exec_apertureVerdict_meets {s : State} {dt a t src fire : Nat} {ok : Bool} {rest : List (Nat × TrigMsg)}
    (hi : ((s.after dt).ap a).acq.inbox = (t, .verdict src fire ok) :: rest) (ht : ¬ (s.after dt).cyc < t) : exec (.apertureVerdict dt a) s =
      .next (s.ontoAll (completeFull a (((s.after dt).updAcq a (fun x => { x with inbox := rest })).meetVerdict a src fire ok, s.mem))) := by
  have hrow : exec (.apertureVerdict dt a) s = .next (s.ontoAll (match ((s.after dt).ap a).acq.inbox with
      | (t, .verdict src fire ok) :: rest =>
        if (s.after dt).cyc < t then (s.after dt, s.mem)
        else completeFull a (((s.after dt).updAcq a (fun x => { x with inbox := rest })).meetVerdict a src fire ok, s.mem)
      | _ => (s.after dt, s.mem))) := rfl
  rw [hrow, hi]
  exact congrArg (fun x => Host.Outcome.next (s.ontoAll x)) (if_neg ht)

/-- What the verdict leaves: the record completes. -/
def afterVerdict : Dev × Mems :=
  completeFull 0 ((capturing.dev.updAcq 0 (fun x => { x with inbox := [] })).meetVerdict 0 0 0 false, capturing.mem)

theorem exec_apertureVerdict_capturing : exec (.apertureVerdict 0 0) capturing = .next (capturing.ontoAll afterVerdict) :=
  exec_apertureVerdict_meets (s := capturing) (dt := 0) (t := 0) rfl (Nat.not_lt_zero _)

theorem capturing_header : capturing.mem.cap.read 7 = 0 := by decide +kernel

/-- The header gives STREAMING in its byte 7. -/
theorem afterVerdict_header : afterVerdict.2.cap.read 7 = 2 := by decide +kernel

/-- Refutes O3: APERTURE_VERDICT lets the record complete. -/
theorem not_commandsKeepQueueAndMemories : ¬ Obligations.CommandsKeepQueueAndMemories := by
  intro h
  obtain ⟨-, hkept⟩ := h.2 (.apertureVerdict 0 0) capturing (capturing.ontoAll afterVerdict) rfl exec_apertureVerdict_capturing
  have hzero : afterVerdict.2.cap.read 7 = capturing.mem.cap.read 7 := by
    rw [← State.ontoAll_mem capturing afterVerdict]
    exact (hkept 7).1
  exact absurd (afterVerdict_header.symm.trans (hzero.trans capturing_header)) (by decide)

end Sys2Proof.Machine
end


section
/-!
PROOF. The order of R85's checks for every mailbox command.
-/

namespace Sys2Proof.Machine

/-- What `checkCmd` answers for the command of a row, `dt` ticks on. -/
def MailRow.check (r : MailRow) (s : State) : Option (Bool × Dev) := checkCmd r.form r.q r.e r.bad (s.after r.dt)

/-- A command of a row runs `checkCmd` with the row's form and checks, on the device alone or, for TP_LOAD, with the memories. -/
theorem exec_of_mailboxRow {i : Instr} {r : MailRow} (h : mailboxRow i = some r) :
    (∃ act, exec i = onDev r.dt (runCmd r.form r.q r.e r.bad act)) ∨
      ∃ act, exec i = onAll r.dt (fun d m => runCmdM r.form r.q r.e r.bad act (d, m)) := by
  cases i with
  | tpLoad dt q e => cases h; exact Or.inr ⟨_, rfl⟩
  | nop dt q e | describe dt q e | ringCreate dt q e | ringDelete dt q e | eventRingSet dt q e | eventRoute dt q e | timeRead dt q e
  | timeRefSet dt q e | launchAt dt q e | launchBind dt q e | launchFire dt q e | launchCancel dt q e | barrier dt q e | snapshot dt q e
  | snapshotJoin dt q e | snapshotFire dt q e | resetAt dt q e | broadcast dt q e | apertureStage dt q e | apertureAdmit dt q e
  | apertureHalt dt q e | apertureRelease dt q e | apertureQuery dt q e | apertureWait dt q e | captureArm dt q e | captureTrigger dt q e
  | captureFreeze dt q e | recordList dt q e | blockRead dt q e | blockWrite dt q e | tpStart dt q e | tpResume dt q e | tpStop dt q e
  | displayMode dt q e | layerSet dt q e | layerFlip dt q e | relayAttach dt q e | relayDetach dt q e | calSweep dt q e | calApply dt q e
  | sensorRead dt q e | logRead dt q e | spareStatus dt q e | sparePolicy dt q e | fwUpdateBegin dt q e | fwUpdateData dt q e
  | fwUpdateCommit dt q e | attest dt q e | identityRead dt q e => cases h; exact Or.inl ⟨_, rfl⟩
  | _ => cases h

/-- A command that is not taken leaves the device as time left it. -/
theorem exec_of_check_none {i : Instr} {r : MailRow} (h : mailboxRow i = some r) {s : State} (hc : r.check s = none) :
    exec i s = .next (s.onto (s.after r.dt)) := by
  obtain ⟨act, he⟩ | ⟨act, he⟩ := exec_of_mailboxRow h
  · have hr : runCmd r.form r.q r.e r.bad act (s.after r.dt) = s.after r.dt := by
      unfold runCmd; rw [show checkCmd r.form r.q r.e r.bad (s.after r.dt) = none from hc]
    rw [he]; exact congrArg (fun x => Host.Outcome.next (s.onto x)) hr
  · have hr : runCmdM r.form r.q r.e r.bad act (s.after r.dt, s.mem) = (s.after r.dt, s.mem) := by
      unfold runCmdM; rw [show checkCmd r.form r.q r.e r.bad (s.after r.dt) = none from hc]
    rw [he]; exact congrArg (fun x => Host.Outcome.next (s.ontoAll x)) hr

/-- A command that fails a check leaves the device that has answered it. -/
theorem exec_of_check_failed {i : Instr} {r : MailRow} (h : mailboxRow i = some r) {s : State} {d : Dev} (hc : r.check s = some (false, d)) :
    exec i s = .next (s.onto d) := by
  obtain ⟨act, he⟩ | ⟨act, he⟩ := exec_of_mailboxRow h
  · have hr : runCmd r.form r.q r.e r.bad act (s.after r.dt) = d := by
      unfold runCmd; rw [show checkCmd r.form r.q r.e r.bad (s.after r.dt) = some (false, d) from hc]
    rw [he]; exact congrArg (fun x => Host.Outcome.next (s.onto x)) hr
  · have hr : runCmdM r.form r.q r.e r.bad act (s.after r.dt, s.mem) = (d, s.mem) := by
      unfold runCmdM; rw [show checkCmd r.form r.q r.e r.bad (s.after r.dt) = some (false, d) from hc]
    rw [he]; exact congrArg (fun x => Host.Outcome.next (s.ontoAll x)) hr

/-! ### `checkCmd`, one equation per check -/

section
variable {f : CmdForm} {q : Nat} {e : Entry} {bad : Dev → List Word → List (Nat × Bool)} {d : Dev}

theorem checkCmd_not_served (h : d.served ≠ some q) : checkCmd f q e bad d = none :=
  if_neg (fun hs => h hs.1)

theorem checkCmd_other_opcode (ho : e.opcode ≠ f.opcode) (hl : e.opcode ∈ listedOpcodes) : checkCmd f q e bad d = none :=
  if_neg (fun hs => hs.2.elim ho (fun hn => hn hl))

theorem checkCmd_unlisted (hs : d.served = some q) (ho : e.opcode ≠ f.opcode) (hl : e.opcode ∉ listedOpcodes) :
    checkCmd f q e bad d = some (false, (d.take q).answer q e { status := efsOpcode }) := by
  unfold checkCmd
  rw [if_pos ⟨hs, Or.inr hl⟩]
  exact if_pos ho

/-- Past the opcode: the mode, the ring, the entry and the parameters, in this order. -/
theorem checkCmd_own_opcode (hs : d.served = some q) (ho : e.opcode = f.opcode) :
    checkCmd f q e bad d =
      if d.fw.recovery && !f.recovery then some (false, f.reply (d.take q) q e { status := efsOpcode })
      else if f.ring0 && decide (q ≠ 0) then some (false, f.reply (d.take q) q e { status := efsAccess })
      else match f.badEntry e with
        | some off => some (false, f.reply (d.take q) q e (paramError 1 off))
        | none =>
          match firstBad (f.inlineRest e ++ bad ((d.take q).readBlock e) e.block) with
          | some off => some (false, f.reply ((d.take q).readBlock e) q e (paramError 0 off))
          | none => some (true, (d.take q).readBlock e) := by
  unfold checkCmd
  rw [if_pos ⟨hs, Or.inl ho⟩]
  dsimp only
  rw [if_neg (not_not.mpr ho), Dev.take_fw] <;> rfl

theorem checkCmd_recovery (hs : d.served = some q) (ho : e.opcode = f.opcode) (hr : d.fw.recovery = true) (hf : f.recovery = false) :
    checkCmd f q e bad d = some (false, f.reply (d.take q) q e { status := efsOpcode }) := by
  rw [checkCmd_own_opcode hs ho, if_pos (by simp [hr, hf])]

theorem checkCmd_ring0 (hs : d.served = some q) (ho : e.opcode = f.opcode) (hm : d.fw.recovery = true → f.recovery = true)
    (hf : f.ring0 = true) (hq : q ≠ 0) : checkCmd f q e bad d = some (false, f.reply (d.take q) q e { status := efsAccess }) := by
  rw [checkCmd_own_opcode hs ho, if_neg (by simpa using hm), if_pos (by simp [hf, hq])]

/-- In its mode and on its ring: the entry, then the parameters. -/
theorem checkCmd_allowed (hs : d.served = some q) (ho : e.opcode = f.opcode) (hm : d.fw.recovery = true → f.recovery = true)
    (hq : f.ring0 = true → q = 0) :
    checkCmd f q e bad d =
      match f.badEntry e with
      | some off => some (false, f.reply (d.take q) q e (paramError 1 off))
      | none =>
        match firstBad (f.inlineRest e ++ bad ((d.take q).readBlock e) e.block) with
        | some off => some (false, f.reply ((d.take q).readBlock e) q e (paramError 0 off))
        | none => some (true, (d.take q).readBlock e) := by
  rw [checkCmd_own_opcode hs ho, if_neg (by simpa using hm), if_neg (by simpa using hq)]

end

/-- Settles O7: `exec` of a row is `checkCmd` of its form, and each branch of the statement is one check of `checkCmd`. -/
theorem mailboxChecksInOrder : Obligations.MailboxChecksInOrder := by
  unfold Obligations.MailboxChecksInOrder
  intro i r s h
  refine ⟨fun hs => exec_of_check_none h (checkCmd_not_served hs),
    fun hs ho => ⟨fun hl => exec_of_check_none h (checkCmd_other_opcode ho hl), fun hl => exec_of_check_failed h (checkCmd_unlisted hs ho hl)⟩,
    fun hs ho => ⟨fun hr hf => exec_of_check_failed h (checkCmd_recovery hs ho hr hf),
      fun hm => ⟨fun hf hq => exec_of_check_failed h (checkCmd_ring0 hs ho hm hf hq), fun hq => ⟨fun off hb => ?_, fun hb off hp => ?_⟩⟩⟩⟩
  · refine exec_of_check_failed h ((checkCmd_allowed hs ho hm hq).trans ?_)
    rw [hb]; rfl
  · refine exec_of_check_failed h ((checkCmd_allowed hs ho hm hq).trans ?_)
    rw [hb]
    change (match firstBad (r.form.inlineRest r.e ++ r.bad (s.taken r.dt r.q r.e) r.e.block) with
      | some off => _
      | none => _) = _
    rw [hp]; rfl

end Sys2Proof.Machine
end

section
/-!
PROOF. Taking an entry and completing a command: the ring that they move, and nothing outside the mailbox.
-/

namespace Sys2Proof.Machine

/-- That an entry's read is out is no part of the ring as the entry is taken. -/
theorem Dev.fetchEntry_ring_taken (d : Dev) (q : Nat) : ((d.fetchEntry q).ring q).taken = (d.ring q).taken := by
  unfold Dev.fetchEntry
  dsimp only
  split
  · rfl
  · exact congrArg Ring.taken (Dev.ring_setRing_same d q _) |>.trans rfl

theorem Dev.fetchEntry_out (d : Dev) (q : Nat) : (d.fetchEntry q).out = d.out ++
    (if (d.ring q).readAt.isSome then [] else [.read (4000 + q) ((d.ring q).sqBase + BitVec.ofNat 64 (64 * (d.ring q).sqHead)) 64 .snooped]) := by
  unfold Dev.fetchEntry
  dsimp only
  split
  · exact (List.append_nil _).symm
  · rfl

theorem Dev.take_out (d : Dev) (q : Nat) : (d.take q).out = (d.fetchEntry q).out := by
  unfold Dev.take
  dsimp only
  split
  · rfl
  · split <;> rfl

theorem Dev.noteTurnaround_rings (d : Dev) (c : Completion) : (d.noteTurnaround c).rings = d.rings := by
  unfold Dev.noteTurnaround; split <;> rfl

theorem Dev.noteTurnaround_out (d : Dev) (c : Completion) : (d.noteTurnaround c).out = d.out := by
  unfold Dev.noteTurnaround; split <;> rfl

/-- A completion on a ring in use with room, when no event record goes first, is written. -/
theorem Dev.post_written {d : Dev} {q : Nat} {c : Completion} (hu : (d.ring q).inUse = true) (hf : (d.ring q).cqFull = false)
    (he : d.ev.due = []) : d.post q c = d.writeCompletion q c := by
  simp [Dev.post, hu, hf, he]

/-- A completion on a ring whose CQ is full is held. -/
theorem Dev.post_held {d : Dev} {q : Nat} {c : Completion} (hu : (d.ring q).inUse = true) (hf : (d.ring q).cqFull = true) :
    d.post q c = d.setRing q { d.ring q with held := some c } := by
  simp [Dev.post, hu, hf]

theorem Dev.writeCompletion_out {d : Dev} {q : Nat} {c : Completion} (hn : c.noirq = true) : (d.writeCompletion q c).out =
    d.out ++ [.write ((d.ring q).cqBase + BitVec.ofNat 64 (32 * (d.ring q).cqTail)) (c.dwords (d.ring q).phase) .snooped] := by
  simp [Dev.writeCompletion, hn, Dev.noteTurnaround_out]

/-- Without its vector a completion written moves the tail of its own ring alone. -/
theorem Dev.writeCompletion_ring {d : Dev} {q : Nat} {c : Completion} (hn : c.noirq = true) (k : Nat) : (d.writeCompletion q c).ring k =
    if k = q then
      { d.ring q with
        cqTail := if decide ((d.ring q).cqTail + 1 = 2 ^ (d.ring q).cqLog2) then 0 else (d.ring q).cqTail + 1
        phase := if decide ((d.ring q).cqTail + 1 = 2 ^ (d.ring q).cqLog2) then !(d.ring q).phase else (d.ring q).phase
        held := none }
    else d.ring k := by
  unfold Dev.writeCompletion
  simp only [hn, if_true, Dev.ring_setRing]
  congr 1
  exact congrArg (Tbl.look _ · k) (Dev.noteTurnaround_rings d c)

/-- The ring that is served has a waiting command. -/
theorem Dev.waiting_of_served {d : Dev} {q : Nat} (h : d.served = some q) : d.waiting q = true := by
  unfold Dev.served at h
  split at h
  case isTrue h0 => exact Option.some.inj h ▸ h0
  · split at h
    case isTrue h1 =>
      simp only [Bool.and_eq_true] at h1
      exact Option.some.inj h ▸ h1.1.2
    · exact List.find?_some (p := fun q => d.waiting q) h

/-- A ring with a completion held has no command to take. -/
theorem Dev.waiting_of_held {d : Dev} {q : Nat} (h : (d.ring q).held.isSome = true) : d.waiting q = false := by
  have hn : (d.ring q).held.isNone = false := by simpa using h
  simp [Dev.waiting, hn]

/-- Settles O8: the lemmas above about `Dev.take`, `Dev.writeCompletion` and `Dev.served`. -/
theorem takingAndCompleting : Obligations.TakingAndCompleting := by
  unfold Obligations.TakingAndCompleting
  refine ⟨fun d q => ?_, fun d q c hu hf he hn => ?_, fun d q c hu hf => ?_⟩
  · have hring : (d.take q).ring q = (d.ring q).taken := by
      rw [Dev.take_ring, if_pos rfl, Dev.fetchEntry_ring_taken]
    refine ⟨congrArg Ring.sqHead hring, hring, fun k hk => ?_, Dev.sameButMailbox_take d q, ?_⟩
    · rw [Dev.take_ring, if_neg hk, Dev.fetchEntry_ring_ne d hk]
    · rw [Dev.take_out, Dev.fetchEntry_out]
  · simp only [Dev.post_written hu hf he, Dev.writeCompletion_ring hn, if_true]
    refine ⟨Dev.writeCompletion_out hn, fun h => ?_, fun h => ?_, Dev.sameButMailbox_writeCompletion d q c, fun k hk => if_neg hk⟩
    · simp [h]
    · simp [h]
  · have hheld : ((d.post q c).ring q).held = some c := by rw [Dev.post_held hu hf, Dev.ring_setRing_same]
    have hwait : (d.post q c).waiting q = false := Dev.waiting_of_held (by rw [hheld]; rfl)
    refine ⟨by rw [Dev.post_held hu hf]; rfl, hheld, hwait, fun hs => ?_⟩
    rw [Dev.waiting_of_served hs] at hwait
    cases hwait

end Sys2Proof.Machine
end

section
/-!
PROOF. APERTURE_ADMIT whose sums fail, and the commands that load, start and stop trace processors.
-/

namespace Sys2Proof.Machine

/-- What `Dev.sameButMailbox` says of an aperture: it is the same. -/
theorem Dev.sameButMailbox_ap {a b : Dev} (h : a.sameButMailbox b) (k : Nat) : b.ap k = a.ap k := by
  obtain ⟨hb, -⟩ := h; rw [hb]; rfl

/-- A plane that is well formed and owned, whose aperture may be admitted, and whose first failing sum is `x`: the command only answers. -/
theorem Dev.admitCmd_firstFail {d : Dev} (q : Nat) {e : Entry} {x : Nat × Nat × Nat}
    (hp : d.planeBad (d.planesWith e.target (d.ap e.target).staged) e.target (d.ap e.target).staged = none) (hc : d.mc.crit.on = false)
    (hs : (d.ap e.target).state = 1 ∨ 3 ≤ (d.ap e.target).state ∧ (d.ap e.target).changeStaged = true)
    (ho : d.ownedBad e.target (d.ap e.target).staged = none) (hx : d.firstFail (d.planesWith e.target (d.ap e.target).staged) = some x) :
    d.admitCmd q e = formAdmit.reply d q e (admitError x) := by
  have hst : (!(decide ((d.ap e.target).state = 1) || (decide (3 ≤ (d.ap e.target).state) && (d.ap e.target).changeStaged))) = false := by
    obtain h | ⟨h, hch⟩ := hs
    · simp [h]
    · simp [h, hch]
  simp [Dev.admitCmd, hp, hc, hst, ho, hx]

/-- Settles O14: past its checks the command answers with the failing sum, and an answer changes the mailbox alone. -/
theorem failedAdmissionHasNoEffect : Obligations.FailedAdmissionHasNoEffect := by
  unfold Obligations.FailedAdmissionHasNoEffect
  intro dt q e s x d a p ps ht hset hp hc hs ho hx
  have hsame := Dev.sameButMailbox_reply formAdmit d q e (admitError x)
  refine ⟨_, (onDev_takes formAdmit q e noChecks _ s dt ht).trans ?_, rfl, hsame, congrArg Aperture.state (Dev.sameButMailbox_ap hsame a), rfl⟩
  rw [Dev.orHeld_settled hset, Dev.admitCmd_firstFail q hp hc hs ho hx]

/-! ### TP_LOAD, TP_START, TP_STOP -/

/-- TP_LOAD that passes its checks, of a processor that does not run. -/
theorem exec_tpLoad_takes {s : State} {dt q : Nat} {e : Entry} (h : s.takes dt formTpLoad q e (tpLoadChecks e.target e.inLen) = true)
    (hr : ((s.taken dt q e).tp e.target).state ≠ 2) :
    exec (.tpLoad dt q e) s = .next (s.ontoAll (formTpLoad.reply (tpLoadImage e.target e.block (s.taken dt q e, s.mem)).1 q e {},
      (tpLoadImage e.target e.block (s.taken dt q e, s.mem)).2)) := by
  have hrun := runCmdM_takes formTpLoad q e (tpLoadChecks e.target e.inLen) (fun x =>
    let t := x.1.tp e.target
    if t.state = 2 then (formTpLoad.reply x.1 q e { status := efsState, result0 := BitVec.ofNat 64 t.state }, x.2)
    else
      let y := tpLoadImage e.target e.block x
      (formTpLoad.reply y.1 q e {}, y.2)) s dt h
  exact congrArg (fun x => Host.Outcome.next (s.ontoAll x)) (hrun.trans (if_neg hr))

/-- TP_START of a stopped or trapped processor whose tick keeps its lead schedules the start and waits. -/
theorem Dev.tpStart_scheduled {d : Dev} (q : Nat) {e : Entry} {t : Nat} (hs : (d.tp e.target).state = 1 ∨ (d.tp e.target).state = 3)
    (ht : d.leadTick (qAt e.block 0x08) 0 = .ok t) :
    d.tpStart q e = (d.setTp e.target { d.tp e.target with start := some {
      tick := t, entry := fldAt e.block 0x00 18 0, ivec := fldAt e.block 0x04 18 0, resume := bitAt e.block 0x00 31 } }).hold q 0x41 e (.tpStart e.target) := by
  unfold Dev.leadTick at ht
  unfold Dev.tpStart
  dsimp only at ht ⊢
  rw [if_neg (by omega)]
  split at ht
  case isTrue h0 => cases ht; simp [h0]
  case isFalse h0 =>
    split at ht
    · cases ht
    · rename_i h1
      cases ht
      rw [if_neg (by simp [h1]), if_neg h0]

/-- TP_LOAD leaves local memory as the due stores left it, cleared where the block asks, with the image written over it. -/
theorem tpLoadImage_tp (n : Nat) (b : List Word) (d : Dev) (m : Mems) :
    ∃ areas, (tpLoadImage n b (d, m)).2.tp =
      Memory.writeBytes (if bitAt b 0x08 0 then clearLocal (tpStores n d.cyc (d.tp n) d m).2.2.tp n areas else (tpStores n d.cyc (d.tp n) d m).2.2.tp)
        (n * tpMask + fldAt b 0x00 18 0) ((bytesOfWords (b.drop 4)).take (fldAt b 0x04 19 0)) := ⟨_, rfl⟩

theorem tpLoadImage_cap (n : Nat) (b : List Word) (d : Dev) (m : Mems) : (tpLoadImage n b (d, m)).2.cap = m.cap := rfl

/-- Settles O16: each command past its checks by the lemmas above, and the bytes of TP_LOAD by what `Memory.writeBytes` does. -/
theorem tpCommandsTakeEffect : Obligations.TpCommandsTakeEffect := by
  unfold Obligations.TpCommandsTakeEffect
  refine ⟨fun dt q e s => ⟨fun h hr => exec_tpLoad_takes h hr, fun h hs t ht => ⟨?_, ?_⟩, fun h hs => ?_⟩, ?_⟩
  · exact (onDev_takes formTpStart q e tpStartChecks _ s dt h).trans (by rw [Dev.tpStart_scheduled q hs ht])
  · exact (onDev_takes formTpStart q e tpStartChecks _ s dt h).trans (by rw [Dev.tpStart_scheduled q hs ht])
  · refine (onDev_takes formTpStop q e noChecks _ s dt h).trans ?_
    dsimp only
    rw [if_neg (not_not.mpr hs)]
  · intro dt q e s t n at_ image d stored w h hr he
    rw [exec_tpLoad_takes h hr] at he
    cases he
    obtain ⟨areas, htp⟩ := tpLoadImage_tp e.target e.block (s.taken dt q e) s.mem
    have hst := Mems.wf_tp (tpStores_wf e.target d.cyc (d.tp e.target) d s.mem w)
    refine ⟨fun i hi => ?_, tpLoadImage_cap e.target e.block (s.taken dt q e) s.mem, fun hclear a ha => ?_⟩
    · refine (congrArg (Memory.read · _) htp).trans (Memory.read_writeBytes _ _ _ _ ?_ hi)
      split
      · exact Memory.filter_wf _ _ hst
      · exact hst
    · rw [hclear] at htp
      exact (congrArg (Memory.read · a) htp).trans (Memory.read_writeBytes_outside _ _ _ _ hst ha)

end Sys2Proof.Machine
end

section
/-!
PROOF. R642 and R87: reads of host memory that fail, and commands whose time is over.
-/

namespace Sys2Proof.Machine

theorem Dev.readBlock_clk (d : Dev) (e : Entry) : (d.readBlock e).clk = d.clk := by
  rw [(Dev.sameButMailbox_readBlock d e).1]

/-- Sending the read of an entry notes its time and changes nothing else of the ring. -/
theorem Dev.fetchEntry_ring (d : Dev) (q : Nat) : ∃ at_, (d.fetchEntry q).ring q = { d.ring q with readAt := at_ } := by
  unfold Dev.fetchEntry
  dsimp only
  split
  · exact ⟨(d.ring q).readAt, rfl⟩
  · exact ⟨some d.clk.time, Dev.ring_setRing_same d q _⟩

/-- A further failed read of an entry: one more is counted, and the lowest address kept. -/
theorem Dev.readFailed_ring_entry (d : Dev) (q : Nat) (addr : QWord) (h : (d.ring q).readsBlock = false) :
    ((d.readFailed q false addr).ring q).readFails = (d.ring q).readFails + 1 ∧
      ∀ a, (d.ring q).failLow = some a → ((d.readFailed q false addr).ring q).failLow = some (if a ≤ addr then a else addr) := by
  unfold Dev.readFailed
  simp only [h, if_true, Dev.ring_setRing_same]
  exact ⟨trivial, fun a ha => by simp [ha]⟩

/-! ### The two rows of a failed read -/

/-- The failure of a read is met by its error completion, and by its timeout once 10 ms are over. -/
theorem exec_hostReadFails {s : State} {dt : Nat} (i : HostReq) (kind : ReadFail) (addr : QWord) (f : Dev)
    (h : ∀ k, hostReadFailed i k addr (s.after dt, s.mem) = (f, s.mem)) :
    exec (.hostReadErrorCompletion dt i kind addr) s = .next (s.onto f) ∧
      ∀ t0, (s.after dt).readSince i = some t0 →
        (t0 + 30000000 < (s.after dt).clk.time → exec (.hostReadTimeout dt i addr) s = .next (s.onto f)) ∧
        ((s.after dt).clk.time ≤ t0 + 30000000 → exec (.hostReadTimeout dt i addr) s = .next (s.onto (s.after dt))) := by
  have hexec : exec (.hostReadTimeout dt i addr) s = .next (s.ontoAll (match (s.after dt).readSince i with
    | some t => if t + 30000000 < (s.after dt).clk.time then hostReadFailed i 3 addr (s.after dt, s.mem) else (s.after dt, s.mem)
    | none => (s.after dt, s.mem))) := rfl
  refine ⟨congrArg (fun x => Host.Outcome.next (s.ontoAll x)) (h _), fun t0 ht => ⟨fun hlate => ?_, fun hearly => ?_⟩⟩
  · rw [hexec, ht]
    exact congrArg (fun x => Host.Outcome.next (s.ontoAll x)) ((if_pos hlate).trans (h 3))
  · rw [hexec, ht]
    exact congrArg (fun x => Host.Outcome.next (s.ontoAll x)) (if_neg (Nat.not_lt.mpr hearly))

section
variable {d : Dev} {q : Nat} (hs : d.served = some q)
include hs

theorem Dev.entryFailed_again {addr : QWord} (h : (((d.fetchEntry q).readFailed q false addr).ring q).readFails < 4) :
    d.entryFailed q addr = (((d.fetchEntry q).readFailed q false addr).setRing q
      { ((d.fetchEntry q).readFailed q false addr).ring q with readAt := none }).fetchEntry q := by
  unfold Dev.entryFailed
  rw [if_neg (not_not.mpr hs)]
  exact if_pos h

theorem Dev.entryFailed_fourth {addr : QWord} (h : (((d.fetchEntry q).readFailed q false addr).ring q).readFails = 4) :
    d.entryFailed q addr =
      let f := (d.fetchEntry q).readFailed q false addr
      (f.faultRing q 2 ((f.ring q).sqBase + BitVec.ofNat 64 (64 * (f.ring q).sqHead))).hostmemEvent q 1 0xFF ((f.ring q).failLow.getD addr) := by
  unfold Dev.entryFailed
  rw [if_neg (not_not.mpr hs)]
  exact if_neg (Nat.not_lt.mpr (Nat.le_of_eq h.symm))

variable {e : Entry} (hp : e.ptr = true) (ho : e.opcode ∈ listedOpcodes)
include hp ho

theorem Dev.paramFailed_again {addr : QWord} (h : ((((d.fetchEntry q).readBlock e).readFailed q true addr).ring q).readFails < 4) :
    d.paramFailed q e addr = (((d.fetchEntry q).readBlock e).readFailed q true addr).setRing q
      { (((d.fetchEntry q).readBlock e).readFailed q true addr).ring q with readAt := some d.clk.time } := by
  have hclk : (((d.fetchEntry q).readBlock e).readFailed q true addr).clk = d.clk := by
    calc (((d.fetchEntry q).readBlock e).readFailed q true addr).clk
        = ((d.fetchEntry q).readBlock e).clk := rfl
      _ = (d.fetchEntry q).clk := Dev.readBlock_clk _ e
      _ = d.clk := Dev.fetchEntry_clk d q
  unfold Dev.paramFailed
  rw [if_neg (by simp [hs, hp, ho])]
  dsimp only
  rw [if_pos h, hclk]

theorem Dev.paramFailed_fourth {addr : QWord} (h : ((((d.fetchEntry q).readBlock e).readFailed q true addr).ring q).readFails = 4) :
    d.paramFailed q e addr =
      let b := ((d.fetchEntry q).readBlock e).readFailed q true addr
      let low := (b.ring q).failLow.getD addr
      ((b.take q).hostmemEvent q 2 e.opcode low).answer q e
        { status := efsHostmem, result1 := low, ap := if targetsAperture e.opcode && decide (e.target ≤ 1023) then some e.target else none } := by
  unfold Dev.paramFailed
  rw [if_neg (by simp [hs, hp, ho])]
  exact if_neg (Nat.not_lt.mpr (Nat.le_of_eq h.symm))

end

/-! ### Timeouts -/

section
variable {d : Dev} {q : Nat} {b : Busy} (hb : (d.ring q).busy = some b)
include hb

theorem Dev.commandTimeout_early (h : b.timeoutMs = 0 ∨ d.clk.time < b.takenAt + b.timeoutMs * 3000000) : d.commandTimeout q = d := by
  unfold Dev.commandTimeout; rw [hb]; exact if_pos h

theorem Dev.commandTimeout_due (h : b.timeoutMs ≠ 0) (ht : b.takenAt + b.timeoutMs * 3000000 ≤ d.clk.time) :
    d.commandTimeout q = d.setRing q { d.ring q with busy := some { b with expired := true } } := by
  unfold Dev.commandTimeout; rw [hb]; exact if_neg (by omega)

theorem Dev.expireRing_unexpired (h : b.expired = false) : d.expireRing q = d := by
  unfold Dev.expireRing; rw [hb]; simp [h]

/-- A command that waits for an aperture's state, a halt, an arming or a freeze ends with EFS_TIMEOUT. -/
theorem Dev.expireRing_aperture (h : b.expired = true)
    (hw : ∃ a, b.wait = .halt a ∨ b.wait = .arm a ∨ b.wait = .freeze a ∨ ∃ st sub, b.wait = .aperture a st sub) :
    d.expireRing q = d.finishRing q { status := efsTimeout, ap := b.ap } := by
  unfold Dev.expireRing
  rw [hb]
  dsimp only
  rw [h]
  obtain ⟨a, hw | hw | hw | ⟨st, sub, hw⟩⟩ := hw <;> rw [hw] <;> rfl

end

/-- Settles O28: the rows of a failed read by its purpose and number, and the two ends of a command's time. -/
theorem failedReadsAndTimeouts : Obligations.FailedReadsAndTimeouts := by
  unfold Obligations.FailedReadsAndTimeouts
  refine ⟨fun dt q e kind addr s => fun hs => ⟨fun h => ?_, fun h => ?_, fun hp ho => ⟨fun h => ?_, fun h => ?_⟩, fun hr => ?_⟩,
    fun dt q b s hb => ⟨fun h => ?_, fun h ht => ?_⟩, fun d q => ⟨fun hn => ?_, fun b hb h => ?_, fun b hb h hw => ?_⟩⟩
  · exact exec_hostReadFails _ kind addr _ (fun _ => congrArg (·, s.mem) (Dev.entryFailed_again hs h))
  · exact exec_hostReadFails _ kind addr _ (fun _ => congrArg (·, s.mem) (Dev.entryFailed_fourth hs h))
  · exact exec_hostReadFails _ kind addr _ (fun _ => congrArg (·, s.mem) (Dev.paramFailed_again hs hp ho h))
  · exact exec_hostReadFails _ kind addr _ (fun _ => congrArg (·, s.mem) (Dev.paramFailed_fourth hs hp ho h))
  · obtain ⟨at_, hg⟩ := Dev.fetchEntry_ring (s.after dt) q
    have hent := Dev.readFailed_ring_entry ((s.after dt).fetchEntry q) q addr (by rw [hg]; exact hr)
    rw [hg] at hent
    exact hent
  · exact congrArg (fun x => Host.Outcome.next (s.onto x)) (Dev.commandTimeout_early hb h)
  · exact congrArg (fun x => Host.Outcome.next (s.onto x)) (Dev.commandTimeout_due hb h ht)
  · unfold Dev.expireRing; rw [hn]
  · exact Dev.expireRing_unexpired hb h
  · exact Dev.expireRing_aperture hb h hw

end Sys2Proof.Machine
end

section
/-!
PROOF. What reports of the device leave alone: an event, a log record and a completion change the rings, the event unit, the log's write buffer, registers, what
is sent and the pending bits of MSI-X, and nothing else.
-/

namespace Sys2Proof.Machine

/-- Two devices agree outside what reporting changes. -/
def Dev.sameButReports (a b : Dev) : Prop :=
  b = { a with
    rings := b.rings, rrRing := b.rrRing, rrUsed := b.rrUsed, ev := b.ev, regs := b.regs, rcNow := b.rcNow, out := b.out
    pcie := { a.pcie with pba := b.pcie.pba }
    mc := { a.mc with buf := b.mc.buf, dropped := b.mc.dropped, logSeq := b.mc.logSeq } }

namespace Dev.sameButReports

theorem refl (d : Dev) : d.sameButReports d := rfl

theorem trans {a b c : Dev} (h : a.sameButReports b) (g : b.sameButReports c) : a.sameButReports c := by
  unfold Dev.sameButReports at h g ⊢
  rw [g, h]

theorem foldl {α : Type} {f : Dev → α → Dev} (h : ∀ (d : Dev) x, d.sameButReports (f d x)) (l : List α) (d : Dev) : d.sameButReports (l.foldl f d) :=
  foldl_keeps (fun y : Dev => d.sameButReports y) f l d (refl d) fun y x hy => hy.trans (h y x)

theorem ofMailbox {a b : Dev} (h : a.sameButMailbox b) : a.sameButReports b := by
  obtain ⟨h, -⟩ := h
  unfold Dev.sameButReports
  rw [h]

variable {a b : Dev} (h : a.sameButReports b)
include h

theorem clk : b.clk = a.clk := by unfold Dev.sameButReports at h; rw [h]
theorem fw : b.fw = a.fw := by unfold Dev.sameButReports at h; rw [h]
theorem glob : b.glob = a.glob := by unfold Dev.sameButReports at h; rw [h]
theorem aps : b.aps = a.aps := by unfold Dev.sameButReports at h; rw [h]
theorem ap (k : Nat) : b.ap k = a.ap k := by unfold Dev.ap; rw [h.aps]

end Dev.sameButReports

theorem Dev.sameButReports_setReg (d : Dev) (x : Nat) (v : Word) : d.sameButReports (d.setReg x v) := rfl
theorem Dev.sameButReports_setFld (d : Dev) (x hi lo v : Nat) : d.sameButReports (d.setFld x hi lo v) := rfl
theorem Dev.sameButReports_rcDo (d : Dev) (x : Nat) (o : RcOp) : d.sameButReports (d.rcDo x o) := rfl
theorem Dev.sameButReports_setRing (d : Dev) (q : Nat) (r : Ring) : d.sameButReports (d.setRing q r) := rfl
theorem Dev.sameButReports_emit (d : Dev) (o : Output) : d.sameButReports (d.emit o) := rfl

theorem Dev.sameButReports_post (d : Dev) (q : Nat) (c : Completion) : d.sameButReports (d.post q c) := .ofMailbox (d.sameButMailbox_post q c)

theorem Dev.sameButReports_logRecord (d : Dev) (r : LogRec) : d.sameButReports (d.logRecord r) := by
  unfold Dev.logRecord
  dsimp only
  split <;> rfl

theorem Dev.sameButReports_produce (d : Dev) (e : Event) : d.sameButReports (d.produce e) := by
  have hlog : d.sameButReports (d.logEvent e) := by
    unfold Dev.logEvent
    split
    · exact .refl d
    · exact d.sameButReports_logRecord _
  unfold Dev.produce
  dsimp only
  split
  · exact hlog.trans rfl
  · split
    · exact hlog.trans (.ofMailbox (Dev.sameButMailbox_sendVector _ _))
    · exact hlog

theorem Dev.sameButReports_raiseAt (d : Dev) (id sev unit arg : Nat) (data tb : QWord) : d.sameButReports (d.raiseAt id sev unit arg data tb) :=
  d.sameButReports_produce _

theorem Dev.sameButReports_raise (d : Dev) (id unit arg data : Nat) : d.sameButReports (d.raise id unit arg data) := d.sameButReports_produce _

theorem Dev.sameButReports_faultRing (d : Dev) (q arg : Nat) (data : QWord) : d.sameButReports (d.faultRing q arg data) := by
  unfold Dev.faultRing
  dsimp only
  split
  · exact Dev.sameButReports.trans (b := (d.setRing q _).setFld 0x54 1 1 1) rfl (Dev.sameButReports_raiseAt _ _ _ _ _ _ _)
  · exact Dev.sameButReports.trans (b := d.setRing q _) rfl (Dev.sameButReports_raiseAt _ _ _ _ _ _ _)

theorem Dev.sameButReports_sampleRing0 (d : Dev) : d.sameButReports d.sampleRing0 := by
  unfold Dev.sampleRing0
  dsimp only
  split
  · rfl
  · exact d.sameButReports_faultRing 0 3 0

theorem Dev.sameButReports_dropRing (d : Dev) (q : Nat) : d.sameButReports (d.dropRing q) := by
  unfold Dev.dropRing
  dsimp only
  split
  · split
    · exact Dev.sameButReports.trans (b := (({ d with rings := Tbl.drop q d.rings } : Dev).setFld 0x54 0 0 0).setFld 0x54 1 1 0) rfl
        (Dev.sameButReports_sampleRing0 _)
    · rfl
  · rfl

theorem Dev.sameButReports_ringSettled (d : Dev) (q : Nat) : d.sameButReports (d.ringSettled q) := by
  unfold Dev.ringSettled
  dsimp only
  split
  · refine (d.sameButReports_dropRing q).trans (.foldl (fun d k => ?_) _ _)
    split
    · exact Dev.sameButReports.trans (b := d.setRing k _) rfl (Dev.sameButReports_post _ _ _)
    · exact .refl d
  · exact .refl d

theorem Dev.sameButReports_finishRing (d : Dev) (q : Nat) (w : Answer) : d.sameButReports (d.finishRing q w) := by
  unfold Dev.finishRing
  split
  · exact (Dev.sameButReports.trans (b := d.setRing q _) rfl (Dev.sameButReports_post _ _ _)).trans (Dev.sameButReports_ringSettled _ _)
  · exact .refl d

theorem Dev.sameButReports_finish (d : Dev) (w : Wait) (a : Answer) : d.sameButReports (d.finish w a) :=
  .foldl (fun d q => d.sameButReports_finishRing q a) _ _

theorem Dev.sameButReports_cancelAction (d : Dev) (id tick : Nat) (ws : List Wait) : d.sameButReports (d.cancelAction id tick ws) :=
  (d.sameButReports_raise _ _ _ _).trans (.foldl (fun d w => d.sameButReports_finish w _) _ _)

end Sys2Proof.Machine
end

section
/-!
PROOF. What the edges of marker inputs leave alone: they change the markers and their counters.
-/

namespace Sys2Proof.Machine

/-- Two devices agree outside the markers and the registers. -/
def Dev.sameButMarkers (a b : Dev) : Prop := b = { a with markers := b.markers, regs := b.regs, rcNow := b.rcNow }

namespace Dev.sameButMarkers

theorem refl (d : Dev) : d.sameButMarkers d := rfl

theorem trans {a b c : Dev} (h : a.sameButMarkers b) (g : b.sameButMarkers c) : a.sameButMarkers c := by
  unfold Dev.sameButMarkers at h g ⊢
  rw [g, h]

theorem foldl {α : Type} {f : Dev → α → Dev} (h : ∀ (d : Dev) x, d.sameButMarkers (f d x)) (l : List α) (d : Dev) : d.sameButMarkers (l.foldl f d) :=
  foldl_keeps (fun y : Dev => d.sameButMarkers y) f l d (refl d) fun y x hy => hy.trans (h y x)

end Dev.sameButMarkers

theorem Dev.sameButMarkers_closeTimeout (d : Dev) (n : Nat) : d.sameButMarkers (d.closeTimeout n) := by
  unfold Dev.closeTimeout
  dsimp only
  split <;> rfl

theorem Dev.sameButMarkers_takeStop (d : Dev) (n : Nat) (st : MkStamp) : d.sameButMarkers (d.takeStop n st) := by
  unfold Dev.takeStop
  dsimp only
  split
  · split <;> rfl
  · rfl

theorem Dev.sameButMarkers_takeStart (d : Dev) (n : Nat) (st : MkStamp) : d.sameButMarkers (d.takeStart n st) := by
  unfold Dev.takeStart
  dsimp only
  split <;> rfl

theorem Dev.sameButMarkers_takeEdge (d : Dev) (n : Nat) (e : MkEdge) : d.sameButMarkers (d.takeEdge n e) := by
  unfold Dev.takeEdge
  extract_lets d1 d2
  have h1 : d.sameButMarkers d1 := by
    unfold d1; split
    · exact d.sameButMarkers_closeTimeout n
    · exact .refl d
  have h2 : d1.sameButMarkers d2 := by
    unfold d2; split
    · exact d1.sameButMarkers_takeStop n _
    · exact .refl d1
  split
  · exact (h1.trans h2).trans (d2.sameButMarkers_takeStart n _)
  · exact h1.trans h2

theorem Dev.sameButMarkers_settleBy (d : Dev) (n c : Nat) : d.sameButMarkers (d.settleBy n c) := by
  unfold Dev.settleBy
  dsimp only
  split
  · exact .refl d
  · exact Dev.sameButMarkers.trans (b := d.setMarker n _) rfl (.foldl (fun d e => d.sameButMarkers_takeEdge n e) _ _)

theorem Dev.sameButMarkers_cutStart (d : Dev) (n : Nat) : d.sameButMarkers (d.cutStart n) := by
  unfold Dev.cutStart
  dsimp only
  split
  · exact (d.sameButMarkers_settleBy n _).trans rfl
  · exact d.sameButMarkers_settleBy n _

theorem Dev.sameButMarkers_cutMarkers (d : Dev) : d.sameButMarkers d.cutMarkers :=
  Dev.sameButMarkers.foldl (f := fun (d : Dev) (p : Nat × Marker) => d.cutStart p.1) (fun d p => d.sameButMarkers_cutStart p.1) d.markers d

end Sys2Proof.Machine
end

section
/-!
PROOF. R143: a timebase load cancels what waits, and no aperture stays launch pending under a cancelled launch.
-/

namespace Sys2Proof.Machine

/-! ### The marks of a cancelled launch -/

/-- Every aperture that is launch pending under an identifier in `b` was so in `a`. -/
def Dev.onlyUnmarks (a b : Dev) : Prop := ∀ k id, (b.ap k).launch = some id → (a.ap k).launch = some id

theorem Dev.onlyUnmarks_trans {a b c : Dev} (h : a.onlyUnmarks b) (g : b.onlyUnmarks c) : a.onlyUnmarks c :=
  fun k id hc => h k id (g k id hc)

theorem Dev.onlyUnmarks_foldl {α : Type} {f : Dev → α → Dev} (h : ∀ (d : Dev) x, d.onlyUnmarks (f d x)) (l : List α) (d : Dev) :
    d.onlyUnmarks (l.foldl f d) :=
  foldl_keeps (fun y : Dev => d.onlyUnmarks y) f l d (fun _ _ h => h) fun y x hy => Dev.onlyUnmarks_trans hy (h y x)

/-- An aperture stands under the launch `id` no more. -/
def Dev.unmarkAp (id : Nat) (d : Dev) (a : Nat) : Dev := d.updAp a (fun p => if p.launch = some id then { p with launch := none } else p)

theorem Dev.unmarkAp_ap (id : Nat) (d : Dev) (a k : Nat) :
    (d.unmarkAp id a).ap k = if k = a then (if (d.ap a).launch = some id then { d.ap a with launch := none } else d.ap a) else d.ap k :=
  Dev.ap_setAp _ _ _ _

theorem Dev.onlyUnmarks_unmarkAp (id : Nat) (d : Dev) (a : Nat) : d.onlyUnmarks (d.unmarkAp id a) := by
  intro k i h
  rw [Dev.unmarkAp_ap] at h
  split at h
  · next hk =>
    rw [hk]
    split at h
    · cases h
    · exact h
  · exact h

theorem Dev.unmarkAp_ne (id : Nat) (d : Dev) (a : Nat) : ((d.unmarkAp id a).ap a).launch ≠ some id := by
  rw [Dev.unmarkAp_ap, if_pos rfl]
  split
  · exact nofun
  · assumption

theorem Dev.unmark_ne (id : Nat) (as_ : List Nat) (d : Dev) {a : Nat} (h : a ∈ as_) : ((as_.foldl (Dev.unmarkAp id) d).ap a).launch ≠ some id := by
  induction as_ generalizing d with
  | nil => cases h
  | cons x t ih =>
    obtain rfl | h := List.mem_cons.mp h
    · exact fun hm => Dev.unmarkAp_ne id d a (Dev.onlyUnmarks_foldl (Dev.onlyUnmarks_unmarkAp id) t _ a id hm)
    · exact ih _ h

/-- A timebase load cancels one launch. -/
def Dev.cancelLaunch (d : Dev) (l : Launch) : Dev :=
  (l.apertures.foldl (Dev.unmarkAp l.id) d).cancelAction l.id (l.tick.getD 0) [.fire l.id (l.tick.getD 0)]

theorem Dev.onlyUnmarks_cancelLaunch (d : Dev) (l : Launch) : d.onlyUnmarks (d.cancelLaunch l) := fun k id h =>
  Dev.onlyUnmarks_foldl (Dev.onlyUnmarks_unmarkAp l.id) l.apertures d k id (((Dev.sameButReports_cancelAction _ _ _ _).ap k) ▸ h)

theorem Dev.cancelLaunch_ne (d : Dev) (l : Launch) {a : Nat} (h : a ∈ l.apertures) : ((d.cancelLaunch l).ap a).launch ≠ some l.id := by
  unfold Dev.cancelLaunch
  rw [(Dev.sameButReports_cancelAction _ _ _ _).ap a]
  exact Dev.unmark_ne l.id l.apertures d h

theorem Dev.cancelLaunches_ne (ls : List Launch) (d : Dev) {l : Launch} (hl : l ∈ ls) {a : Nat} (h : a ∈ l.apertures) :
    ((ls.foldl Dev.cancelLaunch d).ap a).launch ≠ some l.id := by
  induction ls generalizing d with
  | nil => cases hl
  | cons x t ih =>
    obtain rfl | hl := List.mem_cons.mp hl
    · exact fun hm => Dev.cancelLaunch_ne d l h (Dev.onlyUnmarks_foldl Dev.onlyUnmarks_cancelLaunch t _ a l.id hm)
    · exact ih _ hl

/-- What a cancelled launch leaves: the clock and what is scheduled. -/
theorem Dev.cancelLaunch_clk_glob (d : Dev) (l : Launch) : (d.cancelLaunch l).clk = d.clk ∧ (d.cancelLaunch l).glob = d.glob := by
  have hr := Dev.sameButReports_cancelAction (l.apertures.foldl (Dev.unmarkAp l.id) d) l.id (l.tick.getD 0) [.fire l.id (l.tick.getD 0)]
  have hu := foldl_keeps (fun y : Dev => y.clk = d.clk ∧ y.glob = d.glob) (Dev.unmarkAp l.id) l.apertures d ⟨rfl, rfl⟩ (fun _ _ h => h)
  exact ⟨hr.clk.trans hu.1, hr.glob.trans hu.2⟩

/-! ### The rest of what a load cancels -/

/-- Firmware's own launches leave the clock, what is scheduled and the apertures. -/
theorem Dev.cancelOwn_keeps (d : Dev) : d.cancelOwn.clk = d.clk ∧ d.cancelOwn.glob = d.glob ∧ d.cancelOwn.aps = d.aps := by
  unfold Dev.cancelOwn
  extract_lets d1 d2 cals _ d3
  have h1 : d.sameButReports d1 := .foldl (fun d u => d.sameButReports_cancelAction 0 u []) _ _
  have h2 : d1.sameButReports d2 := .foldl (fun d u => d.sameButReports_cancelAction 0 u []) _ _
  have h12 := h1.trans h2
  have h3 : d3.sameButReports (cals.foldl (fun (d : Dev) (c : CalLaunch) => d.cancelAction 0 c.tick (if c.source.isSome then [.calApply c.tick] else [])) d3) :=
    .foldl (fun d (c : CalLaunch) => d.sameButReports_cancelAction 0 c.tick _) _ _
  exact ⟨h3.clk.trans h12.clk, h3.glob.trans h12.glob, h3.aps.trans h12.aps⟩

theorem Dev.cutMarkers_keeps (d : Dev) : d.cutMarkers.clk = d.clk ∧ d.cutMarkers.glob = d.glob ∧ d.cutMarkers.aps = d.aps := by
  have h := d.sameButMarkers_cutMarkers
  unfold Dev.sameButMarkers at h
  rw [h]
  exact ⟨rfl, rfl, rfl⟩

/-- What `f` leaves of an entry, it leaves of every entry of a table that it is mapped over. -/
theorem Tbl.look_map_of_eq {α β : Type} {f : α → α} {g : α → β} (h : ∀ x, g (f x) = g x) (dflt : α) (t : Tbl α) (k : Nat) :
    g (Tbl.look dflt (t.map (fun q => (q.1, f q.2))) k) = g (Tbl.look dflt t k) := by
  induction t with
  | nil => rfl
  | cons q t ih =>
    simp only [List.map_cons, Tbl.look]
    split
    · exact h _
    · exact ih

/-- Moving the anchors of stamps leaves the launches that the apertures wait for. -/
theorem Dev.moveAnchors_launch (d : Dev) (delta : Int) (a : Nat) : ((d.moveAnchors delta).ap a).launch = (d.ap a).launch :=
  Tbl.look_map_of_eq (f := fun p : Aperture => { p with acq := { p.acq with t0 := moveTick delta p.acq.t0 } }) (g := Aperture.launch) (fun _ => rfl) {} d.aps a

/-- The snapshots not yet latched and the RESET_ATs of `g` are cancelled. -/
def Dev.cancelSnapsAndResets (d : Dev) (g : Globals) : Dev :=
  g.resets.foldl (fun (d : Dev) (r : ResetAct) => d.cancelAction r.id r.tick [.reset r.id r.tick])
    ((g.snaps.filter (fun (s : Snap) => s.latched.isNone)).foldl (fun (d : Dev) (s : Snap) =>
      d.cancelAction s.id (s.tick.getD 0) [.snapshot s.id s.no, .snapFire s.id (s.tick.getD 0)]) d)

theorem Dev.sameButReports_cancelSnapsAndResets (d : Dev) (g : Globals) : d.sameButReports (d.cancelSnapsAndResets g) := by
  unfold Dev.cancelSnapsAndResets
  refine Dev.sameButReports.trans (Dev.sameButReports.foldl (fun d s => ?_) _ _) (Dev.sameButReports.foldl (fun d r => ?_) _ _)
  · exact d.sameButReports_cancelAction _ _ _
  · exact d.sameButReports_cancelAction _ _ _

/-- The device with nothing scheduled but the snapshots that are latched. -/
def Dev.unscheduled (d : Dev) : Dev :=
  d.updGlob (fun g => { g with launches := [], snaps := g.snaps.filter (fun (s : Snap) => s.latched.isSome), resets := [] })

/-- The new count, once the anchors have moved. -/
def Dev.withCount (d : Dev) (v : QWord) : Dev :=
  let m := d.moveAnchors ((v.toNat : Int) - d.now)
  let log := m.clk.tqLog.map (fun (p : Nat × Tq) => (moveTick ((v.toNat : Int) - m.now) p.1, p.2))
  ({ m with clk := { m.clk with count := v, epoch := m.clk.epoch + 1, tqLog := log } } : Dev).rescheduleOwn

theorem Dev.loadTime_eq (d : Dev) (v : QWord) :
    d.loadTime v = ((d.glob.launches.foldl Dev.cancelLaunch d.unscheduled).cancelSnapsAndResets d.glob).cancelOwn.cutMarkers.withCount v := rfl

theorem Dev.withCount_clk (d : Dev) (v : QWord) : (d.withCount v).clk.count = v ∧ (d.withCount v).clk.epoch = d.clk.epoch + 1 ∧
    (d.withCount v).clk.cycle = d.clk.cycle ∧ (d.withCount v).clk.time = d.clk.time := ⟨rfl, rfl, rfl, rfl⟩

theorem Dev.withCount_glob (d : Dev) (v : QWord) : (d.withCount v).glob = d.glob := rfl

theorem Dev.withCount_launch (d : Dev) (v : QWord) (a : Nat) : ((d.withCount v).ap a).launch = (d.ap a).launch :=
  d.moveAnchors_launch _ a

/-- The launches of a load go one by one: the clock and what else is scheduled stay. -/
theorem Dev.cancelLaunches_clk_glob (ls : List Launch) (d : Dev) :
    (ls.foldl Dev.cancelLaunch d).clk = d.clk ∧ (ls.foldl Dev.cancelLaunch d).glob = d.glob :=
  foldl_keeps (fun y : Dev => y.clk = d.clk ∧ y.glob = d.glob) Dev.cancelLaunch ls d ⟨rfl, rfl⟩
    fun y l hy => ⟨(y.cancelLaunch_clk_glob l).1.trans hy.1, (y.cancelLaunch_clk_glob l).2.trans hy.2⟩

/-- Settles O30: what follows the launches' cancelling keeps what is scheduled and the apertures' launches. -/
theorem loadCancelsScheduledActions : Obligations.LoadCancelsScheduledActions := by
  unfold Obligations.LoadCancelsScheduledActions
  intro d v
  rw [Dev.loadTime_eq]
  obtain ⟨hlc, hlg⟩ := Dev.cancelLaunches_clk_glob d.glob.launches d.unscheduled
  have hne := fun {l} hl {a} => Dev.cancelLaunches_ne d.glob.launches d.unscheduled (l := l) hl (a := a)
  generalize d.glob.launches.foldl Dev.cancelLaunch d.unscheduled = d1 at hlc hlg hne ⊢
  have hr := d1.sameButReports_cancelSnapsAndResets d.glob
  generalize d1.cancelSnapsAndResets d.glob = d2 at hr ⊢
  obtain ⟨hoc, hog, hoa⟩ := d2.cancelOwn_keeps
  obtain ⟨hmc, hmg, hma⟩ := d2.cancelOwn.cutMarkers_keeps
  generalize d2.cancelOwn.cutMarkers = d3 at hmc hmg hma ⊢
  have hclk : d3.clk = d.clk := hmc.trans (hoc.trans (hr.clk.trans hlc))
  have hglob : d3.glob = d.unscheduled.glob := hmg.trans (hog.trans (hr.glob.trans hlg))
  have haps (a : Nat) : d3.ap a = d1.ap a := by unfold Dev.ap; rw [hma, hoa, hr.aps]
  obtain ⟨hcount, hepoch, hcycle, htime⟩ := d3.withCount_clk v
  dsimp only
  rw [hcount, hepoch, hcycle, htime, Dev.withCount_glob, hclk, hglob]
  refine ⟨rfl, rfl, rfl, rfl, rfl, rfl, fun x hx => (List.mem_filter.mp hx).2, fun l hl a ha => ?_⟩
  rw [Dev.withCount_launch, haps]
  exact hne hl ha

end Sys2Proof.Machine
end

section
/-!
PROOF. R123: the repeat of a word acted on already is only noted as a good word.
-/

namespace Sys2Proof.Machine

/-- A repeat of a word acted on already is noted, whatever acting on it would do. -/
theorem Dev.acceptWord_repeat {d : Dev} {k : Nat} {w : SyncWord} (hr : w.repeated = true) (hs : w.seq % 256 ∈ (d.link k).rxSeen) (f : Dev → Dev) :
    d.acceptWord k w f = d.goodWord k := by
  have hseen : ((d.goodWord k).link k).rxSeen.contains (w.seq % 256) = true := by
    unfold Dev.goodWord
    rw [Dev.link_setLink_same]
    exact List.contains_iff_mem.mpr hs
  unfold Dev.acceptWord
  dsimp only
  rw [hr, hseen]
  rfl

section
variable {s : State} {dt k : Nat} {w : SyncWord} (hu : ((s.after dt).link k).up = true)
include hu

/-- A word on a link that is up is accepted. -/
theorem onWord_up (f : Dev → Dev) : onWord dt k w f s = .next (s.onto ((s.after dt).acceptWord k w f)) :=
  congrArg (fun x => Host.Outcome.next (s.onto x)) (if_pos hu)

theorem onLane_up (f : Dev → Dev) : onLane dt k w f s = .next (s.onto ((s.after dt).acceptWord k w f)) :=
  congrArg (fun x => Host.Outcome.next (s.onto x)) (if_pos (by rw [show ((s.dev.pass dt).link k).up = true from hu]; rfl))

end

/-- Settles O31: every word's row accepts it through `Dev.acceptWord`, the two of ranging by `onLane`, the others by `onWord`. -/
theorem repeatedWordIsIgnored : Obligations.RepeatedWordIsIgnored := by
  unfold Obligations.RepeatedWordIsIgnored
  intro dt k w i s d hu hr hs hi
  have hword (f : Dev → Dev) : onWord dt k w f s = .next (s.onto (d.goodWord k)) := by
    rw [onWord_up hu, Dev.acceptWord_repeat hr hs]
  have hlane (f : Dev → Dev) : onLane dt k w f s = .next (s.onto (d.goodWord k)) := by
    rw [onLane_up hu, Dev.acceptWord_repeat hr hs]
  simp only [List.mem_cons, List.not_mem_nil, or_false] at hi
  obtain rfl | rfl | hi := hi
  · exact hlane _
  · exact hlane _
  · obtain rfl | rfl | rfl | rfl | rfl | rfl | rfl | rfl | rfl | rfl | rfl | rfl | rfl := hi <;> exact hword _

end Sys2Proof.Machine
end

section
/-!
PROOF. Apertures and rings through what ends a record: which apertures are in which state, and that no command on a ring becomes held.
-/

namespace Sys2Proof.Machine

/-! ### Rings without held commands -/

theorem Tbl.mem_put {α : Type} {k : Nat} {v : α} {t : Tbl α} {p : Nat × α} (h : p ∈ Tbl.put k v t) : p = (k, v) ∨ p ∈ t := by
  induction t with
  | nil => exact Or.inl (List.mem_singleton.mp h)
  | cons q t ih =>
    unfold Tbl.put at h
    split at h
    · exact (List.mem_cons.mp h).imp_right (List.mem_cons_of_mem _)
    · split at h
      · exact List.mem_cons.mp h
      · obtain rfl | h := List.mem_cons.mp h
        · exact Or.inr List.mem_cons_self
        · exact (ih h).imp_right (List.mem_cons_of_mem _)

theorem Tbl.look_eq_or_mem {α : Type} (dflt : α) (t : Tbl α) (k : Nat) : Tbl.look dflt t k = dflt ∨ (k, Tbl.look dflt t k) ∈ t := by
  induction t with
  | nil => exact Or.inl rfl
  | cons q t ih =>
    unfold Tbl.look
    split
    · next h => exact Or.inr (h ▸ List.mem_cons_self)
    · exact ih.imp_right (List.mem_cons_of_mem _)

/-- The ring's command, where it has one, is not held for an aperture. -/
def Ring.notHeld (r : Ring) : Prop := ∀ b as_ c, r.busy = some b → b.wait ≠ .held as_ c

/-- No ring's command is held for an aperture. -/
def Dev.noneHeld (d : Dev) : Prop := ∀ p ∈ d.rings, p.2.notHeld

theorem Dev.noneHeld_of_rings {a b : Dev} (h : b.rings = a.rings) (ha : a.noneHeld) : b.noneHeld := by
  unfold Dev.noneHeld; rw [h]; exact ha

theorem insertBy_ne_nil {α : Type} (key : α → Nat) (x : α) (l : List α) : insertBy key x l ≠ [] := by
  cases l with
  | nil => exact nofun
  | cons y t => unfold insertBy; split <;> exact nofun

theorem sortBy_eq_nil {α : Type} (key : α → Nat) {l : List α} : sortBy key l = [] ↔ l = [] := by
  cases l with
  | nil => exact Iff.rfl
  | cons x t => exact iff_of_false (insertBy_ne_nil key x _) nofun

theorem Dev.noneHeld_iff (d : Dev) : d.noneHeld ↔ d.heldCmds = [] := by
  unfold Dev.heldCmds Dev.noneHeld Ring.notHeld
  rw [List.map_eq_nil_iff, sortBy_eq_nil, List.filterMap_eq_nil_iff]
  refine forall_congr' fun p => forall_congr' fun _ => ?_
  constructor
  · intro h
    split
    · next b hb =>
      split
      · next as_ c hw => exact absurd hw (h b as_ c hb)
      · rfl
    · rfl
  · intro h b as_ c hb hw
    simp only [hb, hw] at h
    cases h

/-- With no command held, none is run. -/
theorem Dev.runHeldAll_of_noneHeld {d : Dev} (h : d.noneHeld) : d.runHeldAll = d := by
  unfold Dev.runHeldAll
  rw [(Dev.noneHeld_iff d).mp h]
  rfl

namespace Dev.noneHeld

variable {d : Dev} (h : d.noneHeld)
include h

theorem ring (q : Nat) : (d.ring q).notHeld := by
  obtain hr | hr := Tbl.look_eq_or_mem ({} : Ring) d.rings q
  · intro b as_ c hb
    rw [show d.ring q = {} from hr] at hb
    cases hb
  · exact h _ hr

theorem setRing {q : Nat} {r : Ring} (hr : r.notHeld) : (d.setRing q r).noneHeld := by
  intro p hp
  obtain rfl | hp := Tbl.mem_put hp
  · exact hr
  · exact h p hp

/-- A ring whose command ends holds none. -/
theorem endBusy (q : Nat) : (d.setRing q { d.ring q with busy := none }).noneHeld := h.setRing (fun _ _ _ hb => nomatch hb)

theorem post (q : Nat) (c : Completion) : (d.post q c).noneHeld := by
  unfold Dev.post
  split
  · exact h
  · split
    · exact h.setRing (h.ring q)
    · unfold Dev.writeCompletion
      extract_lets r wraps d1 d2
      have h2 : d2.noneHeld := Dev.noneHeld.setRing (d := d1) (Dev.noneHeld_of_rings (Dev.noteTurnaround_rings d c) h) (h.ring q)
      clear_value d2
      split
      · exact h2
      · refine Dev.noneHeld_of_rings ?_ h2
        unfold Dev.sendVector
        split
        · dsimp only; split <;> rfl
        · rfl

end Dev.noneHeld

theorem Dev.sendVector_rings (d : Dev) (v : Nat) : (d.sendVector v).rings = d.rings := by
  unfold Dev.sendVector
  split
  · dsimp only; split <;> rfl
  · rfl

theorem Dev.raiseAt_rings (d : Dev) (id sev unit arg : Nat) (data tb : QWord) : (d.raiseAt id sev unit arg data tb).rings = d.rings := by
  have hlog (e : Event) : (d.logEvent e).rings = d.rings := by
    unfold Dev.logEvent
    split
    · rfl
    · unfold Dev.logRecord; dsimp only; split <;> rfl
  unfold Dev.raiseAt Dev.produce
  dsimp only
  split
  · exact hlog _
  · split
    · exact (Dev.sendVector_rings _ _).trans (hlog _)
    · exact hlog _

namespace Dev.noneHeld

variable {d : Dev} (h : d.noneHeld)
include h

theorem faultRing (q arg : Nat) (data : QWord) : (d.faultRing q arg data).noneHeld := by
  have h1 : (d.setRing q { d.ring q with fault := true }).noneHeld := h.setRing (h.ring q)
  unfold Dev.faultRing
  dsimp only
  refine Dev.noneHeld_of_rings (Dev.raiseAt_rings _ _ _ _ _ _ _) ?_
  split <;> exact h1

theorem dropRing (q : Nat) : (d.dropRing q).noneHeld := by
  have hd : ({ d with rings := Tbl.drop q d.rings } : Dev).noneHeld := fun p hp => h p (List.mem_of_mem_filter hp)
  unfold Dev.dropRing
  dsimp only
  split
  · split
    · unfold Dev.sampleRing0
      dsimp only
      split
      · exact Dev.noneHeld.setRing (d := (({ d with rings := Tbl.drop q d.rings } : Dev).setFld 0x54 0 0 0).setFld 0x54 1 1 0) hd (fun _ _ _ hb => nomatch hb)
      · exact Dev.noneHeld.faultRing (d := (({ d with rings := Tbl.drop q d.rings } : Dev).setFld 0x54 0 0 0).setFld 0x54 1 1 0) hd 0 3 0
    · exact hd
  · exact hd

theorem ringSettled (q : Nat) : (d.ringSettled q).noneHeld := by
  unfold Dev.ringSettled
  dsimp only
  split
  · refine foldl_keeps (fun y : Dev => y.noneHeld) _ _ _ (h.dropRing q) fun y k hy => ?_
    split
    · exact (hy.endBusy k).post k _
    · exact hy
  · exact h

theorem finishRing (q : Nat) (w : Answer) : (d.finishRing q w).noneHeld := by
  unfold Dev.finishRing
  split
  · exact ((h.endBusy q).post q _).ringSettled q
  · exact h

theorem finish (w : Wait) (a : Answer) : (d.finish w a).noneHeld :=
  foldl_keeps (fun y : Dev => y.noneHeld) (fun d q => d.finishRing q a) (d.ringsOn w) d h fun _ q hy => hy.finishRing q a

theorem wakeWaits (a : Nat) : (d.wakeWaits a).noneHeld := by
  unfold Dev.wakeWaits
  refine foldl_keeps (fun y : Dev => y.noneHeld) _ _ _ h fun y p hy => ?_
  split
  · split
    · split
      · exact hy.finishRing _ _
      · exact hy
    · exact hy
  · exact hy

end Dev.noneHeld

theorem Dev.sameButReports_wakeWaits (d : Dev) (a : Nat) : d.sameButReports (d.wakeWaits a) := by
  unfold Dev.wakeWaits
  refine Dev.sameButReports.foldl (fun d p => ?_) _ _
  split
  · split
    · split
      · exact d.sameButReports_finishRing _ _
      · exact .refl d
    · exact .refl d
  · exact .refl d

/-! ### Apertures in their states -/

/-- The apertures' states are those of `f`, and no command is held. -/
def Dev.standing (f : Nat → Nat) (d : Dev) : Prop := (∀ k, (d.ap k).state = f k) ∧ d.noneHeld

namespace Dev.standing

variable {f : Nat → Nat} {d : Dev} (h : d.standing f)
include h

theorem raise (id unit arg data : Nat) : (d.raise id unit arg data).standing f :=
  ⟨fun k => by rw [(d.sameButReports_raise id unit arg data).ap k]; exact h.1 k, Dev.noneHeld_of_rings (Dev.raiseAt_rings _ _ _ _ _ _ _) h.2⟩

theorem raiseAt (id sev unit arg : Nat) (data tb : QWord) : (d.raiseAt id sev unit arg data tb).standing f :=
  ⟨fun k => by rw [(d.sameButReports_raiseAt id sev unit arg data tb).ap k]; exact h.1 k, Dev.noneHeld_of_rings (Dev.raiseAt_rings _ _ _ _ _ _ _) h.2⟩

theorem updAp {a : Nat} {g : Aperture → Aperture} (hg : ∀ p, (g p).state = p.state) : (d.updAp a g).standing f := by
  refine ⟨fun k => ?_, h.2⟩
  unfold Dev.updAp
  rw [Dev.ap_setAp]
  split
  · next hk => rw [hg, hk, h.1]
  · exact h.1 k

theorem updAcq (a : Nat) (g : Acq → Acq) : (d.updAcq a g).standing f := h.updAp fun _ => rfl

theorem wakeWaits (a : Nat) : (d.wakeWaits a).standing f :=
  ⟨fun k => by rw [(d.sameButReports_wakeWaits a).ap k]; exact h.1 k, h.2.wakeWaits a⟩

theorem enterSub (a sub : Nat) : (d.enterSub a sub).standing f :=
  Dev.standing.wakeWaits (d := d.updAp a (fun p => { p with acq := { p.acq with sub := sub, since := d.now } })) (h.updAp fun _ => rfl) a

theorem finish (w : Wait) (x : Answer) : (d.finish w x).standing f :=
  ⟨fun k => by rw [(d.sameButReports_finish w x).ap k]; exact h.1 k, h.2.finish w x⟩

end Dev.standing

theorem foldl_standing {α : Type} {f : Nat → Nat} {g : Dev → α → Dev} (hg : ∀ y x, y.standing f → (g y x).standing f) (l : List α) (d : Dev)
    (h : d.standing f) : (l.foldl g d).standing f :=
  foldl_keeps (fun y : Dev => y.standing f) g l d h hg

/-! ### Records that end -/

theorem capWrite_standing {f : Nat → Nat} (a : Nat) (bs : List Byte) {x : Dev × Mems} (h : x.1.standing f) : (capWrite a bs x).1.standing f := by
  unfold capWrite
  extract_lets all blocks m d1 d2
  have h1 : d1.standing f := by unfold d1; exact foldl_standing (by exact fun _ _ hy => hy) blocks _ h
  have h2 : d2.standing f := h1
  clear_value d2
  split <;> exact h2

theorem openDescs_standing {f : Nat → Nat} {d : Dev} (xs : List Desc) (h : d.standing f) : (d.openDescs xs).1.standing f := by
  unfold Dev.openDescs
  refine foldl_keeps (fun y : Dev × List Desc => y.1.standing f) _ _ _ h fun y x hy => ?_
  unfold Dev.openDesc
  dsimp only
  split <;> exact hy

theorem queueHeader_standing {f : Nat → Nat} {d : Dev} (a c slot recno addr len : Nat) (h : d.standing f) : (d.queueHeader a c slot recno addr len).standing f := by
  unfold Dev.queueHeader
  extract_lets x old n d1
  have h1 : d1.standing f := h
  clear_value d1
  split
  · exact h1
  · unfold Dev.stagingLost
    extract_lets y quiet m d2
    have h2 : d2.standing f := h1
    clear_value d2
    split
    · exact Dev.standing.raise (d := d2.setDma _ _) h2 _ _ _ _
    · exact h2

theorem closeRecord_standing {f : Nat → Nat} (a : Nat) (r : Rec) (cut before : Nat) {x : Dev × Mems} (h : x.1.standing f) :
    (closeRecord a r cut before x).1.standing f := by
  unfold closeRecord
  extract_lets d p q header
  split
  · exact h
  · extract_lets descs o descs2 valid d1 d2 r2 segs exps d3 d4 d5 d6
    have h1 : d1.standing f := by
      have ho : o.1.standing f := openDescs_standing descs h
      unfold d1
      split
      · exact ho
      · exact ho
    have h3 : d3.standing f := Dev.standing.updAcq (d := d2) h1 _ _
    have h4 : d4.standing f := by
      unfold d4
      refine foldl_standing (fun y slot hy => ?_) _ _ h3
      split
      · exact queueHeader_standing _ _ _ _ _ _ hy
      · exact hy
    have h5 : d5.standing f := by
      unfold d5
      split
      · exact h4.raise _ _ _ _
      · exact h4
    have h6 : d6.standing f := by
      unfold d6
      split
      · exact h5.raise _ _ _ _
      · exact h5
    exact capWrite_standing _ _ h6

theorem completeDue_standing {f : Nat → Nat} (a : Nat) {x : Dev × Mems} (h : x.1.standing f) : (completeDue a x).1.standing f := by
  unfold completeDue
  extract_lets p
  split
  · exact h
  · split
    · exact h
    · next r _ =>
      extract_lets y
      have hy : y.1.standing f := closeRecord_standing a r 0 (2 ^ 64) h
      clear_value y
      split
      · unfold Dev.endSequence Dev.beginRearm
        extract_lets x d1 d2
        have h2 : d2.standing f := (hy.enterSub a 5).raise _ _ _ _
        clear_value d2
        split
        · split
          · exact Dev.standing.enterSub (h2.updAcq a _) a 6
          · exact h2
        · exact h2
      · exact hy

theorem cutRecords_standing {f : Nat → Nat} (a cut : Nat) {x : Dev × Mems} (h : x.1.standing f) : (cutRecords a cut x).1.standing f := by
  unfold cutRecords
  dsimp only
  exact foldl_keeps (fun y : Dev × Mems => y.1.standing f) _ _ _ (completeDue_standing a (completeDue_standing a h)) fun y r hy =>
    closeRecord_standing a r cut y.1.now hy

/-! ### Halts -/

theorem stopRelay_standing {f : Nat → Nat} {d : Dev} (k : Nat) (pad : Bool) (h : d.standing f) : (d.stopRelay k pad).standing f := by
  unfold Dev.stopRelay
  dsimp only
  split <;> exact h

theorem haltUnits_standing {f : Nat → Nat} {d : Dev} (t : Nat) (plane : List Block) (h : d.standing f) : (d.haltUnits t plane).standing f := by
  unfold Dev.haltUnits
  extract_lets d1 d2 d3 d4 d5 d6 d7 d8
  have h1 : d1.standing f := by unfold d1; exact foldl_standing (by exact fun _ _ hy => hy) _ _ h
  have h2 : d2.standing f := by unfold d2; exact foldl_standing (by exact fun _ _ hy => hy) _ _ h1
  have h3 : d3.standing f := by unfold d3; exact foldl_standing (by exact fun _ _ hy => hy) _ _ h2
  have h4 : d4.standing f := by unfold d4; exact foldl_standing (by exact fun _ _ hy => hy) _ _ h3
  have h5 : d5.standing f := by unfold d5; exact foldl_standing (by exact fun _ _ hy => hy) _ _ h4
  have h6 : d6.standing f := by unfold d6; exact foldl_standing (by exact fun _ _ hy => hy) _ _ h5
  have h7 : d7.standing f := by unfold d7; exact foldl_standing (by exact fun _ _ hy => hy) _ _ h6
  have h8 : d8.standing f := by unfold d8; exact foldl_standing (by exact fun _ _ hy => hy) _ _ h7
  exact foldl_standing (fun _ _ hy => stopRelay_standing _ _ hy) _ _ h8

end Sys2Proof.Machine
end

section
/-!
PROOF. Launch ticks and halt ticks (R139, R342, R343).
-/

namespace Sys2Proof.Machine

/-- Aperture `a` is HALTED with a cause from a tick on, holding no candidate. -/
def Dev.haltedAt (d : Dev) (a cause t : Nat) : Prop :=
  (d.ap a).state = 4 ∧ (d.ap a).haltCause = cause ∧ (d.ap a).since = t ∧ (d.ap a).acq.sub = 0 ∧ (d.ap a).acq.prov = none

theorem Dev.haltedAt_of_ap {d e : Dev} {a cause t : Nat} (h : e.ap a = d.ap a) (hd : d.haltedAt a cause t) : e.haltedAt a cause t := by
  unfold Dev.haltedAt; rw [h]; exact hd

/-- The aperture forgets what its acquisition holds. -/
def Dev.withHalted (d : Dev) (a cause t : Nat) : Dev :=
  (d.updAcq a Acq.forget).updAp a (fun p => { p with state := 4, haltCause := cause, since := t })

/-- It is HALTED, which is reported. -/
def Dev.enterHalted (d : Dev) (a cause t : Nat) : Dev :=
  ((d.withHalted a cause t).raiseAt evApertureHalted (freeSev evApertureHalted) a cause 0 (BitVec.ofNat 64 t)).wakeWaits a

theorem Dev.withHalted_ap (d : Dev) (a cause t k : Nat) : (d.withHalted a cause t).ap k =
    if k = a then { d.ap a with acq := (d.ap a).acq.forget, state := 4, haltCause := cause, since := t } else d.ap k := by
  unfold Dev.withHalted Dev.updAcq Dev.updAp
  simp only [Dev.ap_setAp]
  split <;> rfl

theorem Dev.enterHalted_ap (d : Dev) (a cause t k : Nat) : (d.enterHalted a cause t).ap k = (d.withHalted a cause t).ap k :=
  (Dev.sameButReports_wakeWaits _ a).ap k |>.trans ((Dev.sameButReports_raiseAt _ _ _ _ _ _ _).ap k)

theorem Dev.enterHalted_haltedAt (d : Dev) (a cause t : Nat) : (d.enterHalted a cause t).haltedAt a cause t := by
  unfold Dev.haltedAt
  rw [Dev.enterHalted_ap, Dev.withHalted_ap, if_pos rfl]
  exact ⟨rfl, rfl, rfl, rfl, rfl⟩

theorem Dev.noneHeld.enterHalted {d : Dev} (h : d.noneHeld) (a cause t : Nat) : (d.enterHalted a cause t).noneHeld :=
  Dev.noneHeld.wakeWaits (Dev.noneHeld_of_rings (Dev.raiseAt_rings (d.withHalted a cause t) _ _ _ _ _ _) h) a

theorem haltAperture_of_live {a cause t : Nat} {x : Dev × Mems} (hs : (x.1.ap a).state = 3) :
    (haltAperture a cause t x).1 = ((cutRecords a 2 x).1.haltUnits t ((cutRecords a 2 x).1.ap a).live).enterHalted a cause t := by
  unfold haltAperture
  rw [if_neg (not_not.mpr hs)]
  dsimp only
  generalize (cutRecords a 2 x).1.haltUnits t ((cutRecords a 2 x).1.ap a).live = d
  unfold Dev.enterHalted Dev.withHalted
  rfl

/-- A LIVE aperture that is halted: its own state, and the states of the others. -/
theorem haltAperture_live {a cause t : Nat} {x : Dev × Mems} (hs : (x.1.ap a).state = 3) (hn : x.1.noneHeld) :
    (haltAperture a cause t x).1.haltedAt a cause t ∧ (∀ b, b ≠ a → ((haltAperture a cause t x).1.ap b).state = (x.1.ap b).state) ∧
      (haltAperture a cause t x).1.noneHeld := by
  have hcut : (cutRecords a 2 x).1.standing (fun k => (x.1.ap k).state) := cutRecords_standing a 2 ⟨fun _ => rfl, hn⟩
  rw [haltAperture_of_live hs]
  have hunits := haltUnits_standing t ((cutRecords a 2 x).1.ap a).live hcut
  generalize (cutRecords a 2 x).1.haltUnits t ((cutRecords a 2 x).1.ap a).live = d at hunits ⊢
  refine ⟨d.enterHalted_haltedAt a cause t, fun b hb => ?_, hunits.2.enterHalted a cause t⟩
  rw [Dev.enterHalted_ap, Dev.withHalted_ap, if_neg hb]
  exact hunits.1 b

/-- A halt whose tick has come takes its aperture, and is pending no more. -/
theorem apertureHaltTick_live {a : Nat} {h : Sched} {x : Dev × Mems} (hd : dueSched x.1 x.1.glob.halts a = some h) (hs : (x.1.ap a).state = 3)
    (hn : x.1.noneHeld) :
    let y := (apertureHaltTick a x).1
    y.haltedAt a h.cause h.tick ∧ (∀ b, b ≠ a → (y.ap b).state = (x.1.ap b).state) ∧ h ∉ y.glob.halts ∧ y.noneHeld := by
  obtain ⟨hhalt, hothers, hnone⟩ := haltAperture_live (cause := h.cause) (t := h.tick) hs hn
  unfold apertureHaltTick
  rw [hd]
  dsimp only
  generalize (haltAperture a h.cause h.tick x).1 = e at hhalt hothers hnone ⊢
  have hgone : h ∉ (e.updGlob (fun g => { g with halts := g.halts.filter (fun (s : Sched) => decide (s ≠ h)) })).glob.halts := fun hm =>
    absurd rfl (of_decide_eq_true (List.mem_filter.mp hm).2)
  split
  · have hr := (e.updGlob (fun g => { g with halts := g.halts.filter (fun (s : Sched) => decide (s ≠ h)) })).sameButReports_finish (.halt a)
      { result0 := BitVec.ofNat 64 h.tick, ap := some a }
    exact ⟨Dev.haltedAt_of_ap (hr.ap a) hhalt, fun b hb => (congrArg Aperture.state (hr.ap b)).trans (hothers b hb), by rw [hr.glob]; exact hgone,
      Dev.noneHeld.finish (d := e.updGlob _) hnone _ _⟩
  · exact ⟨hhalt, hothers, hgone, hnone⟩

/-- A due launch that names apertures takes them, is pending no more, and is reported. -/
theorem launchNow_due {id t : Nat} {l : Launch} {x : Dev × Mems} (hd : x.1.dueLaunch id = some l) (ht : l.tick = some t) (hne : x.1.dueApertures l ≠ []) :
    launchNow id x =
      let as_ := x.1.dueApertures l
      let y := launchApertures t as_ x
      let c := y.1.retuneLinks l.check t as_
      let e : Dev := { c with glob := { c.glob with launches := c.glob.launches.filter (fun m => decide (m ≠ l)) } }.raiseAt 0x010 (Config.eventSev 0x010).toNat
        id as_.length 0 (BitVec.ofNat 64 t)
      if l.mode = 0 then (e, y.2) else (e.report id t 99 1 false, y.2) := by
  have hemp : (x.1.dueApertures l).isEmpty = false := by simpa using hne
  simp only [launchNow, launchDue, hd, ht, hemp, Option.getD_some]
  rfl

theorem exec_launchTick (dt id : Nat) (s : State) : exec (.launchTick dt id) s =
    .next (s.ontoAll ((launchTick id (s.after dt, s.mem)).1.runHeldAll, (launchTick id (s.after dt, s.mem)).2)) := rfl

theorem exec_apertureHaltTick (dt a : Nat) (s : State) : exec (.apertureHaltTick dt a) s =
    .next (s.ontoAll ((apertureHaltTick a (s.after dt, s.mem)).1.runHeldAll, (apertureHaltTick a (s.after dt, s.mem)).2)) := rfl

/-- Settles O35: a launch tick by `launchNow_due`, the plane that it installs by its definition, and a halt tick by `apertureHaltTick_live`. -/
theorem launchAndHaltTicks : Obligations.LaunchAndHaltTicks := by
  unfold Obligations.LaunchAndHaltTicks
  refine ⟨⟨?_, fun d t r => ?_⟩, ?_⟩
  · intro dt id t l s d as_ x c y hid hd ht hne
    have hrow : launchTick id (d, s.mem) = if l.mode = 0 then (y, x.2) else (y.report id t 99 1 false, x.2) := (if_neg hid).trans (launchNow_due hd ht hne)
    clear_value y x
    refine ⟨fun hm => ?_, fun hm => ?_⟩
    · rw [exec_launchTick, hrow, if_pos hm]
    · rw [exec_launchTick, hrow, if_neg hm]
  · have hp : (d.installPlane t r).ap r.a = _ := (Dev.ap_setAp d r.a r.a _).trans (if_pos rfl)
    dsimp only
    rw [hp]
    exact ⟨rfl, rfl, rfl, rfl, rfl, rfl⟩
  · intro dt a h s d hd hs hheld
    obtain ⟨⟨hstate, hcause, hsince, hsub, hprov⟩, hothers, hgone, hnone⟩ :=
      apertureHaltTick_live (x := (d, s.mem)) hd hs ((Dev.noneHeld_iff d).mpr hheld)
    rw [exec_apertureHaltTick]
    generalize apertureHaltTick a (d, s.mem) = y at *
    rw [Dev.runHeldAll_of_noneHeld hnone]
    exact ⟨_, rfl, hstate, hcause, hsince, hsub, hprov, hgone, hothers⟩

end Sys2Proof.Machine
end

section
/-!
PROOF. Sequences, records and the entries of sub-rings (R328–R345): what each leaves of the aperture.
-/

namespace Sys2Proof.Machine

/-! ### The aperture after each part -/

theorem Dev.updAcq_ap (d : Dev) (a : Nat) (f : Acq → Acq) (k : Nat) :
    (d.updAcq a f).ap k = if k = a then { d.ap a with acq := f (d.ap a).acq } else d.ap k := Dev.ap_setAp _ _ _ _

theorem Dev.updAcq_acq (d : Dev) (a : Nat) (f : Acq → Acq) : ((d.updAcq a f).ap a).acq = f (d.ap a).acq := by
  rw [Dev.updAcq_ap, if_pos rfl]

theorem Dev.enterSubAt_ap (d : Dev) (a sub t k : Nat) : (d.enterSubAt a sub t).ap k =
    if k = a then { d.ap a with acq := { (d.ap a).acq with sub := sub, since := t } } else d.ap k :=
  ((Dev.sameButReports_wakeWaits _ a).ap k).trans (Dev.ap_setAp _ _ _ _)

theorem Dev.enterSub_acq (d : Dev) (a sub : Nat) : ((d.enterSub a sub).ap a).acq = { (d.ap a).acq with sub := sub, since := d.now } := by
  unfold Dev.enterSub
  rw [Dev.enterSubAt_ap, if_pos rfl]

theorem Dev.enterSub_glob (d : Dev) (a sub : Nat) : (d.enterSub a sub).glob = d.glob :=
  (Dev.sameButReports_wakeWaits (d.updAp a (fun p => { p with acq := { p.acq with sub := sub, since := d.now } })) a).glob

/-- FILLING may become ARMED; nothing else of the acquisition changes. -/
theorem Dev.checkArmed_acq (d : Dev) (a : Nat) : ∃ sub since, ((d.checkArmed a).ap a).acq = { (d.ap a).acq with sub := sub, since := since } ∧
    (sub = (d.ap a).acq.sub ∨ sub = 2) := by
  unfold Dev.checkArmed
  dsimp only
  split
  · exact ⟨2, d.now, d.enterSub_acq a 2, Or.inr rfl⟩
  · exact ⟨_, _, rfl, Or.inl rfl⟩

theorem Dev.checkArmed_ap_fields (d : Dev) (a : Nat) : ((d.checkArmed a).ap a).state = (d.ap a).state ∧ ((d.checkArmed a).ap a).live = (d.ap a).live := by
  unfold Dev.checkArmed
  dsimp only
  split
  · unfold Dev.enterSub
    rw [Dev.enterSubAt_ap, if_pos rfl]
    exact ⟨rfl, rfl⟩
  · exact ⟨rfl, rfl⟩

/-- Two devices agree in their apertures, in their clock and in what is scheduled. -/
def Dev.sameCourse (a b : Dev) : Prop := b.ap = a.ap ∧ b.clk = a.clk ∧ b.glob = a.glob

namespace Dev.sameCourse

theorem refl (d : Dev) : d.sameCourse d := ⟨rfl, rfl, rfl⟩

theorem trans {a b c : Dev} (h : a.sameCourse b) (g : b.sameCourse c) : a.sameCourse c :=
  ⟨g.1.trans h.1, g.2.1.trans h.2.1, g.2.2.trans h.2.2⟩

theorem ofReports {a b : Dev} (h : a.sameButReports b) : a.sameCourse b := ⟨funext h.ap, h.clk, h.glob⟩

theorem foldl {α : Type} {f : Dev → α → Dev} (h : ∀ (d : Dev) x, d.sameCourse (f d x)) (l : List α) (d : Dev) : d.sameCourse (l.foldl f d) :=
  foldl_keeps (fun y : Dev => d.sameCourse y) f l d (refl d) fun y x hy => hy.trans (h y x)

end Dev.sameCourse

theorem capWrite_sameCourse (a : Nat) (bs : List Byte) (x : Dev × Mems) : x.1.sameCourse (capWrite a bs x).1 := by
  unfold capWrite
  extract_lets all blocks m d1 d2
  have h1 : x.1.sameCourse d1 := by
    unfold d1
    exact .foldl (by exact fun d b => ⟨rfl, rfl, rfl⟩) _ _
  have h2 : x.1.sameCourse d2 := h1
  clear_value d2
  split <;> exact h2

/-- Where no block is lost or poisoned, the bytes go to memory. -/
theorem capWrite_cap {a : Nat} {bs : List Byte} {x : Dev × Mems} (h : ∀ b, x.1.blockLost b = false ∧ x.1.pcPoisoned b = false) :
    (capWrite a bs x).2.cap = x.2.cap.writeBytes a bs := by
  have hall : ∀ l : List Nat, l.filter (fun b => !(x.1.blockLost b)) = l := fun l => List.filter_eq_self.mpr (fun b _ => by rw [(h b).1]; rfl)
  have hclean : ∀ l : List Nat, l.foldl (fun m b => if x.1.pcPoisoned b then Memory.clear m (512 * b) 512 else m) x.2.cap = x.2.cap := fun l =>
    foldl_keeps (fun m : Memory => m = x.2.cap) _ l _ rfl (fun m b hm => by rw [(h b).2]; exact hm)
  unfold capWrite
  simp only [hall, hclean, if_true]

theorem Dev.fresh_sameCourse (d : Dev) : d.sameCourse d.fresh.2 := ⟨rfl, rfl, rfl⟩

theorem Dev.openDesc_sameCourse (d : Dev) (x : Desc) : d.sameCourse (d.openDesc x).1 := by
  unfold Dev.openDesc
  split
  · exact .refl d
  · exact (d.fresh_sameCourse.trans (Dev.fresh_sameCourse _)).trans (Dev.fresh_sameCourse _)

theorem Dev.openDescs_sameCourse (d : Dev) (xs : List Desc) : d.sameCourse (d.openDescs xs).1 := by
  unfold Dev.openDescs
  exact foldl_keeps (fun y : Dev × List Desc => d.sameCourse y.1) _ _ _ (.refl d) fun y x hy => hy.trans (y.1.openDesc_sameCourse x)

theorem Dev.stagingLost_sameCourse (d : Dev) (a c slot bytes entries : Nat) : d.sameCourse (d.stagingLost a c slot bytes entries) := by
  unfold Dev.stagingLost
  extract_lets y quiet m d2
  have h2 : d.sameCourse d2 := ⟨rfl, rfl, rfl⟩
  clear_value d2
  split
  · exact Dev.sameCourse.trans (b := d2.setDma c { y with lossAt := some d2.cyc, lossSince := 0 }) h2 (.ofReports (Dev.sameButReports_raise _ _ _ _ _))
  · exact h2

theorem Dev.queueHeader_sameCourse (d : Dev) (a c slot recno addr len : Nat) : d.sameCourse (d.queueHeader a c slot recno addr len) := by
  unfold Dev.queueHeader
  extract_lets x old n d1
  have h1 : d.sameCourse d1 := ⟨rfl, rfl, rfl⟩
  clear_value d1
  split
  · exact h1
  · exact h1.trans (d1.stagingLost_sameCourse _ _ _ _ _)

/-! ### A record closes -/

/-- The acquisition `q` with the record `r` closed as `x`: it is listed in the present slice, and the record is open no more. -/
structure ClosedAs (q q' : Acq) (r x : Rec) (cut done : Nat) : Prop where
  recno : x.recno = r.recno
  noTrigger : x.noTrigger = r.noTrigger
  trigTick : x.trigTick = r.trigTick
  cut_eq : x.cut = cut
  doneTick : x.doneTick = done
  slot : x.slot = q.slice
  listed : q'.listed = q.listed.filter (fun o => decide (o.slot ≠ q.slice)) ++ [x]
  opened : q'.opened = q.opened.filter (fun o => !(decide (o.recno = r.recno)))
  completed : q'.completed = q.completed + 1
  sub : q'.sub = q.sub
  nextRecno : q'.recno = q.recno

/-- A record that closes changes its aperture's acquisition alone of the apertures, and nothing that is scheduled. -/
theorem closeRecord_acq {a : Nat} {r : Rec} {cut before : Nat} {x : Dev × Mems} (hc : (x.1.ap a).capture ≠ none) :
    (∃ y q', (closeRecord a r cut before x).1.ap a = { x.1.ap a with acq := q' } ∧ ClosedAs (x.1.ap a).acq q' r y cut x.1.now) ∧
      (closeRecord a r cut before x).1.glob = x.1.glob := by
  unfold closeRecord
  extract_lets d p q header
  split
  · next h => exact absurd h hc
  · extract_lets descs o descs2 valid d1 d2 r2 segs exps d3 d4 d5 d6
    have ho := d.openDescs_sameCourse descs
    have h2 : d.sameCourse d2 := by
      show d.sameCourse d1
      unfold d1
      split
      · exact ho
      · exact ho
    have h4 : d3.sameCourse d4 := .foldl (fun y slot => by
      split
      · exact Dev.queueHeader_sameCourse _ _ _ _ _ _ _
      · exact .refl y) _ _
    have h5 : d4.sameCourse d5 := by
      unfold d5
      split
      · exact .ofReports (Dev.sameButReports_raise d4 _ _ _ _)
      · exact .refl d4
    have h6 : d5.sameCourse d6 := by
      unfold d6
      split
      · exact .ofReports (Dev.sameButReports_raise d5 _ _ _ _)
      · exact .refl d5
    obtain ⟨hap, -, hglob⟩ := ((h4.trans h5).trans h6).trans (capWrite_sameCourse header (bytesOfWords r2.words) (d6, x.2))
    have h3 : d3.ap a = _ := (d2.updAcq_ap a _ a).trans (if_pos rfl)
    have hd2 : d2.ap a = x.1.ap a := congrFun h2.1 a
    have hacq : (d3.ap a).acq = _ := congrArg Aperture.acq h3
    rw [hd2] at h3 hacq
    refine ⟨⟨r2, (d3.ap a).acq, (congrFun hap a).trans (by rw [h3]), ?_⟩, hglob.trans h2.2.2⟩
    rw [hacq]
    exact ⟨rfl, rfl, rfl, rfl, congrArg (fun c : Clock => c.count.toNat) h2.2.1, rfl, rfl, rfl, rfl, rfl, rfl⟩

/-! ### A sequence begins and ends -/

/-- An acquisition as a sequence begins at tick `t` with `segs` segments. -/
def Acq.begins (x : Acq) (t segs : Nat) : Acq :=
  { x with
    t0 := t
    triggered := 0
    completed := 0
    seqno := x.begun % 2 ^ 16
    begun := x.begun + 1
    opened := []
    slice := if x.wrote then (x.slice + 1) % segs else x.slice
    wrote := false
    subs := x.subs.map (fun (r : SubRing) => { r with p := 0, count := 0, held := [] }) }

theorem Dev.startSequenceAt_acq {d : Dev} {a : Nat} {w : List Word} (hc : (d.ap a).capture = some w) (t : Nat) :
    ∃ sub since, ((d.startSequenceAt a t).ap a).acq = { (d.ap a).acq.begins t (cpSegments w) with sub := sub, since := since } ∧ (sub = 1 ∨ sub = 2) := by
  have hstart : d.startSequenceAt a t = ((d.updAcq a (fun x => x.begins t (cpSegments w))).enterSubAt a 1 t).checkArmed a := by
    unfold Dev.startSequenceAt; rw [hc]; rfl
  rw [hstart]
  obtain ⟨sub, since, hacq, hsub⟩ := ((d.updAcq a (fun x => x.begins t (cpSegments w))).enterSubAt a 1 t).checkArmed_acq a
  rw [Dev.enterSubAt_ap, if_pos rfl] at hacq hsub
  rw [Dev.updAcq_acq] at hacq
  exact ⟨sub, since, hacq, hsub⟩

theorem Dev.beginRearm_acq (d : Dev) (a : Nat) : ((d.beginRearm a).ap a).acq = { (d.ap a).acq with rearmAt := d.cyc, sub := 6, since := d.now } := by
  unfold Dev.beginRearm
  rw [Dev.enterSub_acq, Dev.updAcq_acq]
  rfl

/-- A sequence ends in COMPLETE or, whole, in REARM. -/
theorem Dev.endSequence_acq (d : Dev) (a recno : Nat) (whole : Bool) : ∃ sub since rearmAt,
    ((d.endSequence a recno whole).ap a).acq = { (d.ap a).acq with sub := sub, since := since, rearmAt := rearmAt } ∧ (sub = 5 ∨ whole = true ∧ sub = 6) := by
  unfold Dev.endSequence
  extract_lets x d1 d2
  have h2 : (d2.ap a).acq = { (d.ap a).acq with sub := 5, since := d.now } :=
    (congrArg Aperture.acq ((d1.sameButReports_raise _ _ _ _).ap a)).trans (d.enterSub_acq a 5)
  clear_value d2
  split
  · split
    · next hw =>
      refine ⟨6, d2.now, d2.cyc, ?_, Or.inr ⟨(Bool.and_eq_true_iff.mp hw).1, rfl⟩⟩
      rw [Dev.beginRearm_acq, h2]
    · exact ⟨_, _, _, h2, Or.inl rfl⟩
  · exact ⟨_, _, _, h2, Or.inl rfl⟩

theorem Dev.endSequence_glob (d : Dev) (a recno : Nat) (whole : Bool) : (d.endSequence a recno whole).glob = d.glob := by
  unfold Dev.endSequence
  extract_lets x d1 d2
  have h2 : d2.glob = d.glob := (d1.sameButReports_raise _ _ _ _).glob.trans (d.enterSub_glob a 5)
  clear_value d2
  split
  · split
    · exact (Dev.enterSub_glob (d2.updAcq a (fun x => { x with rearmAt := d2.cyc })) a 6).trans h2
    · exact h2
  · exact h2

/-- A record is accepted: it is open, under the next number. -/
theorem Dev.openRecord_ap {d : Dev} {a : Nat} {w : List Word} (hc : (d.ap a).capture = some w) (trig : Nat) (nt : Bool) :
    ∃ r subs, (d.openRecord a trig nt).ap a = { d.ap a with acq := { (d.ap a).acq with
        recno := (d.ap a).acq.recno + 1, triggered := (d.ap a).acq.triggered + 1, opened := (d.ap a).acq.opened ++ [r], subs := subs } } ∧
      r.recno = (d.ap a).acq.recno ∧ r.noTrigger = nt ∧ r.trigTick = trig := by
  unfold Dev.openRecord
  dsimp only
  rw [hc]
  exact ⟨_, _, (Dev.ap_setAp _ _ _ _).trans (if_pos rfl), rfl, rfl, rfl⟩

theorem Dev.openRecord_clk_glob (d : Dev) (a trig : Nat) (nt : Bool) : (d.openRecord a trig nt).clk = d.clk ∧ (d.openRecord a trig nt).glob = d.glob := by
  unfold Dev.openRecord
  dsimp only
  split <;> exact ⟨rfl, rfl⟩

end Sys2Proof.Machine
end

section
/-!
PROOF. The rows of sequences, entries and records (R312, R328, R330, R335, R342).
-/

namespace Sys2Proof.Machine

/-! ### REARM_END, CAPTURE_ARM_EFFECT -/

theorem Dev.rearmOver_due {d : Dev} {a : Nat} (hs : (d.ap a).acq.sub = 6) (hr : (d.ap a).acq.rearmAt + 384 ≤ d.cyc) :
    d.rearmOver a = d.startSequenceAt a (d.now - (d.cyc - ((d.ap a).acq.rearmAt + 384))) := if_pos ⟨hs, hr⟩

theorem Dev.rearmOver_other {d : Dev} {a : Nat} (hs : (d.ap a).acq.sub ≠ 6) : d.rearmOver a = d := if_neg (fun h => hs h.1)

/-- The arming whose tick has come begins REARM and is pending no more. -/
theorem exec_captureArmEffect_due {s : State} {dt a : Nat} {x : Sched} (hd : dueSched (s.after dt) (s.after dt).glob.arms a = some x)
    (hs : ((s.after dt).ap a).state = 3) (h5 : ((s.after dt).ap a).acq.sub = 5) :
    ∃ t, exec (.captureArmEffect dt a) s = .next (s.onto t) ∧
      (t.ap a).acq = { ((s.after dt).ap a).acq with rearmAt := (s.after dt).cyc, sub := 6, since := (s.after dt).now } ∧
      ∀ y ∈ t.glob.arms, y.unit ≠ a := by
  let d := (s.after dt).updGlob (fun g => { g with arms := g.arms.filter (fun x => decide (x.unit ≠ a)) })
  have hrow : exec (.captureArmEffect dt a) s = .next (s.onto ((d.beginRearm a).finish (.arm a) { result0 := BitVec.ofNat 64 x.tick, ap := some a })) := by
    have hexec : exec (.captureArmEffect dt a) s = .next (s.onto (match dueSched (s.after dt) (s.after dt).glob.arms a with
      | some t =>
        let d := (s.after dt).updGlob (fun g => { g with arms := g.arms.filter (fun x => decide (x.unit ≠ a)) })
        let d := if (d.ap a).state = 3 ∧ (d.ap a).acq.sub = 5 then d.beginRearm a else d
        d.finish (.arm a) { result0 := BitVec.ofNat 64 t.tick, ap := some a }
      | none => s.after dt)) := rfl
    rw [hexec, hd]
    dsimp only
    rw [if_pos ⟨hs, h5⟩]
  have hfin := (d.beginRearm a).sameButReports_finish (.arm a) { result0 := BitVec.ofNat 64 x.tick, ap := some a }
  refine ⟨_, hrow, (congrArg Aperture.acq (hfin.ap a)).trans (d.beginRearm_acq a), fun y hy => ?_⟩
  rw [hfin.glob, show (d.beginRearm a).glob = d.glob from Dev.enterSub_glob (d.updAcq a _) a 6] at hy
  exact of_decide_eq_true (List.mem_filter.mp hy).2

/-! ### Records that complete -/

theorem completeDue_none {a : Nat} {x : Dev × Mems} (h : (x.1.ap a).acq.opened = []) : completeDue a x = x := by
  unfold completeDue
  extract_lets p
  split
  · rfl
  · rw [show p.acq.opened = [] from h]; rfl

theorem completeFull_none {a : Nat} {x : Dev × Mems} (h : (x.1.ap a).acq.opened = []) : completeFull a x = x := by
  unfold completeFull
  rw [completeDue_none h, completeDue_none h, ite_self]

/-- The first record whose last entry is written closes whole; the last one of the segments ends the sequence. -/
theorem completeDue_acq {a : Nat} {x : Dev × Mems} {w : List Word} {o : Rec} (hc : (x.1.ap a).capture = some w)
    (ho : (x.1.ap a).acq.opened.find? (fun r => (x.1.ap a).acq.recordDone (cpStreaming w && decide (cpPost w = 0)) r) = some o) :
    ∃ y q' sub since rearmAt, ((completeDue a x).1.ap a).acq = { q' with sub := sub, since := since, rearmAt := rearmAt } ∧
      ClosedAs (x.1.ap a).acq q' o y 0 x.1.now ∧
      ((x.1.ap a).acq.completed + 1 = cpSegments w → sub = 5 ∨ sub = 6) ∧ ((x.1.ap a).acq.completed + 1 ≠ cpSegments w → sub = (x.1.ap a).acq.sub) := by
  obtain ⟨⟨y, q', hap, hclosed⟩, -⟩ := closeRecord_acq (r := o) (cut := 0) (before := 2 ^ 64) (x := x) (a := a) (by rw [hc]; exact nofun)
  have hcomplete : ((closeRecord a o 0 (2 ^ 64) x).1.ap a).acq = q' := congrArg Aperture.acq hap
  unfold completeDue
  dsimp only
  rw [hc]
  dsimp only
  rw [ho]
  dsimp only
  rw [hcomplete, hclosed.completed]
  generalize closeRecord a o 0 (2 ^ 64) x = z at hcomplete ⊢
  split
  · next hsegs =>
    obtain ⟨sub, since, rearmAt, hacq, hsub⟩ := z.1.endSequence_acq a o.recno true
    rw [hcomplete] at hacq
    exact ⟨y, q', sub, since, rearmAt, hacq, hclosed, fun _ => hsub.imp_right And.right, fun h => absurd hsegs h⟩
  · next hsegs => exact ⟨y, q', q'.sub, q'.since, q'.rearmAt, hcomplete, hclosed, fun h => absurd h hsegs, fun _ => hclosed.sub⟩

/-! ### CAPTURE_FREEZE -/

/-- A freeze in FILLING or ARMED: a record that had no trigger, and COMPLETE. -/
theorem freezeEffect_filling {a : Nat} {x : Dev × Mems} {w : List Word} (hs : (x.1.ap a).state = 3) (hc : (x.1.ap a).capture = some w)
    (hsub : (x.1.ap a).acq.sub = 1 ∨ (x.1.ap a).acq.sub = 2) (ho : (x.1.ap a).acq.opened = []) :
    ((freezeEffect a x).1.ap a).acq.sub = 5 ∧ ((freezeEffect a x).1.ap a).acq.opened = [] ∧ (freezeEffect a x).1.glob = x.1.glob ∧
      ∃ r, ((freezeEffect a x).1.ap a).acq.listed = (x.1.ap a).acq.listed.filter (fun o => decide (o.slot ≠ (x.1.ap a).acq.slice)) ++ [r] ∧
        r.recno = (x.1.ap a).acq.recno ∧ r.noTrigger = true ∧ r.cut = 1 ∧ r.trigTick = x.1.now := by
  obtain ⟨r, subs, hopen, hrec, hnt, htrig⟩ := Dev.openRecord_ap hc x.1.now true
  have hglob := (x.1.openRecord_clk_glob a x.1.now true).2
  have heq : freezeEffect a x =
      let y := ((x.1.openRecord a x.1.now true).ap a).acq.opened.foldl (fun y r => closeRecord a r 1 y.1.now y) (x.1.openRecord a x.1.now true, x.2)
      (y.1.endSequence a (((y.1.ap a).acq.recno) - 1) false, y.2) := by
    unfold freezeEffect
    dsimp only
    rw [if_neg (not_not.mpr hs), if_pos hsub]
  rw [heq]
  generalize x.1.openRecord a x.1.now true = d at hopen hglob ⊢
  have hopened : (d.ap a).acq.opened = [r] := by rw [hopen, ho]; rfl
  have hcap : (d.ap a).capture ≠ none := by
    rw [hopen]; exact fun h => by rw [show (x.1.ap a).capture = none from h] at hc; cases hc
  obtain ⟨⟨y, q', hap, hclosed⟩, hcg⟩ := closeRecord_acq (r := r) (cut := 1) (before := d.now) (x := (d, x.2)) (a := a) hcap
  rw [hopened]
  dsimp only [List.foldl]
  generalize closeRecord a r 1 d.now (d, x.2) = z at hap hcg ⊢
  generalize (z.1.ap a).acq.recno - 1 = n
  obtain ⟨sub, since, rearmAt, hacq, hend⟩ := z.1.endSequence_acq a n false
  rw [show (z.1.ap a).acq = q' from congrArg Aperture.acq hap] at hacq
  have hcl := hclosed.listed
  have hco := hclosed.opened
  rw [hopened] at hco
  rw [hopen] at hcl
  rw [hacq]
  refine ⟨hend.resolve_right (fun h => nomatch h.1), ?_, (z.1.endSequence_glob a _ false).trans (hcg.trans hglob), y, hcl, ?_, ?_, hclosed.cut_eq, ?_⟩
  · exact hco.trans (by simp)
  · exact hclosed.recno.trans hrec
  · exact hclosed.noTrigger.trans hnt
  · exact hclosed.trigTick.trans htrig

/-! ### ENTRY_WRITE -/

/-- The sub-ring after an entry is written at its position of slice `k`. -/
def SubRing.wrote (r : SubRing) (k : Nat) (e : RedEntry) : SubRing :=
  { r with
    held := { stamp := e.stamp, slice := k, pos := r.p, poisoned := e.poisoned, ovr := e.ovr, brk := e.brk } ::
      r.held.filter (fun g => !(decide (g.slice = k ∧ g.pos = r.p)))
    p := (r.p + 1) % r.q
    count := r.count + 1 }

/-- An entry written while no record is open and nothing of the sub-ring is staged. -/
theorem writeEntry_quiet {a i : Nat} {r : SubRing} {e : RedEntry} {x : Dev × Mems} (hc : (x.1.ap a).capture ≠ none)
    (ho : (x.1.ap a).acq.opened = []) (hst : r.stage = {}) (hp : e.poisoned = false) :
    ∃ sub since listed, ((writeEntry a i r e x).1.ap a).acq = { (x.1.ap a).acq with
        wrote := true, subs := (x.1.ap a).acq.subs.set i (r.wrote (x.1.ap a).acq.slice e), opened := [], listed := listed, sub := sub, since := since } ∧
      (writeEntry a i r e x).2.tp = x.2.tp ∧
      ((∀ b, x.1.blockLost b = false ∧ x.1.pcPoisoned b = false) →
        (writeEntry a i r e x).2.cap = x.2.cap.writeBytes (r.base + (x.1.ap a).acq.slice * r.sliceBytes + r.p * r.entryBytes) e.bytes) := by
  have hlost (n m : Nat) : (r.stage.overwrite n m).2 = 0 ∧ (r.stage.overwrite n m).1 = r.stage := by rw [hst]; exact ⟨rfl, rfl⟩
  unfold writeEntry
  extract_lets d p q addr h lost losers r2 marked
  split
  · next h => exact absurd h hc
  · next w _ =>
    extract_lets segs opened r3 d1 d2 d3 y
    have hq : q.opened = [] := ho
    have hr3 : r3 = r.wrote q.slice e := by
      unfold r3
      rw [hq]
      show r2 = _
      unfold r2
      rw [show lost.1 = r.stage from (hlost _ _).2]
      rfl
    have hopened : opened = [] := by
      unfold opened marked
      rw [hq]
      rfl
    have hd3 : d3 = d1 := by
      unfold d3
      rw [if_pos (hlost _ _).1]
      unfold d2
      rw [if_neg (by rw [hp]; exact nofun)]
    obtain ⟨hyap, -, -⟩ := capWrite_sameCourse addr e.bytes (d3, x.2)
    obtain ⟨sub, since, hacq, -⟩ := y.1.checkArmed_acq a
    rw [show y.1.ap = d3.ap from hyap, hd3, show (d1.ap a).acq = _ from d.updAcq_acq a _, hopened, hr3] at hacq
    refine ⟨sub, since, _, hacq, capWrite_tp addr e.bytes (d3, x.2), fun hb => capWrite_cap (x := (d3, x.2)) ?_⟩
    rw [hd3]
    exact hb

/-- The entry that heads a sub-ring's finished ones is written, where no record completes by it. -/
theorem entryWrite_quiet {a slot ch i : Nat} {r : SubRing} {e : RedEntry} {rest : List RedEntry} {x : Dev × Mems} (hs : (x.1.ap a).state = 3)
    (ho : (x.1.ap a).acq.opened = []) (h5 : (x.1.ap a).acq.sub ≠ 5) (h6 : (x.1.ap a).acq.sub ≠ 6)
    (hf : ((x.1.ap a).acq.subs.zipIdx).find? (fun (x : SubRing × Nat) => decide (x.1.slot = slot ∧ x.1.ch = ch)) = some (r, i))
    (hr : r.ready = e :: rest) (ht : (x.1.ap a).acq.t0 ≤ e.stamp) :
    entryWrite a slot ch x = completeFull a (writeEntry a i { r with ready := rest } e x) := by
  unfold entryWrite
  dsimp only
  rw [if_neg (not_not.mpr hs), Dev.rearmOver_other h6, completeDue_none (x := (x.1, x.2)) ho]
  dsimp only
  rw [hf]
  dsimp only
  rw [if_neg (by omega), hr, List.dropWhile_cons_of_neg (by simpa using ht)]

/-- Settles O40: each row by the lemma above that says what it leaves of the acquisition. -/
theorem sequencesEntriesAndRecords : Obligations.SequencesEntriesAndRecords := by
  unfold Obligations.SequencesEntriesAndRecords
  refine ⟨?_, ?_⟩
  · intro dt a s d p
    refine ⟨fun hs h6 hr hc => ?_, fun x hd hs h5 => ?_, fun x hd hs hc hsub ho => ?_⟩
    · obtain ⟨w, hw⟩ := Option.ne_none_iff_exists'.mp hc
      obtain ⟨sub, since, hacq, hsub⟩ := Dev.startSequenceAt_acq hw (d.now - (d.cyc - (p.acq.rearmAt + 384)))
      have hrow : exec (.rearmEnd dt a) s = .next (s.onto (d.startSequenceAt a (d.now - (d.cyc - (p.acq.rearmAt + 384))))) :=
        congrArg (fun y => Host.Outcome.next (s.onto y)) ((if_pos hs).trans (Dev.rearmOver_due h6 hr))
      refine ⟨_, hrow, rfl, ?_⟩
      dsimp only [State.onto]
      rw [hacq]
      dsimp only [Acq.begins]
      refine ⟨hsub, rfl, rfl, rfl, rfl, rfl, rfl, fun r hr => ?_⟩
      obtain ⟨r', -, rfl⟩ := List.mem_map.mp hr
      exact ⟨rfl, rfl, rfl⟩
    · obtain ⟨t, hrow, hacq, harms⟩ := exec_captureArmEffect_due hd hs h5
      refine ⟨_, hrow, rfl, ?_⟩
      dsimp only [State.onto]
      rw [hacq]
      exact ⟨rfl, rfl, rfl, harms⟩
    · obtain ⟨w, hw⟩ := Option.ne_none_iff_exists'.mp hc
      let x0 : Dev × Mems := (d.updGlob (fun g => { g with freezes := g.freezes.filter (fun x => decide (x.unit ≠ a)) }), s.mem)
      obtain ⟨h5, hopened, hglob, hlisted⟩ := freezeEffect_filling (x := x0) (a := a) hs hw hsub ho
      have hfin := (freezeEffect a x0).1.sameButReports_finish (.freeze a) { result0 := BitVec.ofNat 64 x.tick, ap := some a }
      have hrow : exec (.captureFreezeEffect dt a) s = .next (s.ontoAll ((freezeEffect a x0).1.finish (.freeze a) { result0 := BitVec.ofNat 64 x.tick, ap := some a },
          (freezeEffect a x0).2)) := by
        have hexec : exec (.captureFreezeEffect dt a) s = .next (s.ontoAll (match dueSched d d.glob.freezes a with
          | some t =>
            let y := freezeEffect a x0
            (y.1.finish (.freeze a) { result0 := BitVec.ofNat 64 t.tick, ap := some a }, y.2)
          | none => (d, s.mem))) := rfl
        rw [hexec, hd]
      refine ⟨_, hrow, ?_⟩
      dsimp only [State.ontoAll]
      rw [hfin.ap a, hfin.glob, hglob]
      exact ⟨h5, hopened, hlisted, fun y hy => of_decide_eq_true (List.mem_filter.mp hy).2⟩
  · intro dt a slot ch i w r e rest s d p addr hs hw
    refine ⟨fun ho h5 h6 hi hf hr ht hst hp => ?_, fun o ho => ?_⟩
    · have hcap : (d.ap a).capture ≠ none := by rw [show (d.ap a).capture = some w from hw]; exact nofun
      obtain ⟨sub, since, listed, hacq, htp, hmem⟩ := writeEntry_quiet (i := i) (r := { r with ready := rest }) (x := (d, s.mem)) hcap ho hst hp
      have hrow : exec (.entryWrite dt a slot ch) s = .next (s.ontoAll (writeEntry a i { r with ready := rest } e (d, s.mem))) :=
        congrArg (fun y => Host.Outcome.next (s.ontoAll y))
          ((entryWrite_quiet (x := (d, s.mem)) hs ho h5 h6 hf hr ht).trans (completeFull_none (by rw [hacq])))
      refine ⟨_, hrow, ?_⟩
      dsimp only [State.ontoAll]
      rw [hacq]
      refine ⟨?_, rfl, htp, hmem⟩
      refine (List.getElem?_set_self (List.getElem?_eq_some_iff.mp hi).1).trans ?_
      unfold SubRing.wrote
      rw [hp]
    · obtain ⟨y, q', sub, since, rearmAt, hacq, hclosed, hlast, hmore⟩ := completeDue_acq (x := (d, s.mem)) hw ho
      have hrow : exec (.recordComplete dt a) s = .next (s.ontoAll (completeDue a (d, s.mem))) :=
        congrArg (fun y => Host.Outcome.next (s.ontoAll y)) (if_pos hs)
      refine ⟨_, y, hrow, ?_⟩
      dsimp only [State.ontoAll]
      rw [hacq]
      refine ⟨hclosed.listed, hclosed.recno, hclosed.cut_eq, hclosed.doneTick, hclosed.slot, hclosed.completed, fun z hz => ?_, hlast, hmore⟩
      have hz' : z ∈ p.acq.opened.filter (fun x => !(decide (x.recno = o.recno))) := hclosed.opened ▸ hz
      simpa using (List.mem_filter.mp hz').2

end Sys2Proof.Machine
end

section
/-!
PROOF. PSL frames and the release of their groups (R157–R166).
-/

namespace Sys2Proof.Machine

namespace Dev.sameButReports

variable {a b : Dev} (h : a.sameButReports b)
include h

theorem pad (k : Nat) : b.pad k = a.pad k := by unfold Dev.sameButReports at h; rw [h]; rfl
theorem stream (k : Nat) : b.stream k = a.stream k := by unfold Dev.sameButReports at h; rw [h]; rfl

end Dev.sameButReports

/-! ### Frames -/

/-- An aligned pad whose frame is good. -/
theorem Pad.align_good {p : Pad} (h : p.aligned = true) : p.align true = ({ p with bad := 0 }, false) := by
  simp [Pad.align, h]

/-- The fourth good frame in a row aligns. -/
theorem Pad.align_fourth {p : Pad} (h : p.aligned = false) (hg : p.good = 3) :
    p.align true = ({ p with aligned := true, everAligned := true, good := 0, bad := 0 }, false) := by
  simp [Pad.align, h, hg]

/-- The eighth bad frame in a row loses alignment. -/
theorem Pad.align_eighth {p : Pad} (h : p.aligned = true) (hb : p.bad = 7) : p.align false = ({ p with aligned := false, bad := 0, good := 0 }, true) := by
  simp [Pad.align, h, hb]

/-- A pad in PSL mode whose receiver lives: the frame's alignment, then what the frame brings. -/
theorem Dev.pslFrame_psl {d : Dev} {pad : Nat} {wire : List Word} {a : Pad × Bool} {v : Bool} (hm : (d.pad pad).mode = 1)
    (hr : d.rxDead (d.pad pad).rx = false) (hv : pslValid (descramble (d.pad pad).scr wire).1 = v)
    (ha : Pad.align { d.pad pad with scr := (descramble (d.pad pad).scr wire).2 } v = a) :
    d.pslFrame pad wire =
      let ws := (descramble (d.pad pad).scr wire).1
      let e := d.setPad pad { a.1 with lastBad := !v || decide (2 ≤ fldAt ws 0 15 12) }
      let e := if a.2 then ((e.bumpFld (padReg pad 0x0C) 15 0)).raise (evLaneFault + (d.pad pad).rx) (d.pad pad).rx 1 pad else e
      if !(d.pad pad).aligned then (if (d.pad pad).everAligned then e.bump (padReg pad 0x04) else e)
      else if !v || decide (2 ≤ fldAt ws 0 15 12) then e.bump (padReg pad 0x04)
      else if fldAt ws 0 15 12 = 1 ∧ fldAt ws 0 31 24 = 0xFF then e
      else match (e.stream (fldAt ws 0 31 24)).rt with
        | some w => if rtKind w = 0 ∧ rtLane w ≤ pad ∧ pad < rtLane w + rtBond w then e.pslGood pad (fldAt ws 0 31 24) w ws
                    else e.bumpSat (padReg pad 0x0C) 31 16
        | none => e.bumpSat (padReg pad 0x0C) 31 16 := by
  unfold Dev.pslFrame
  dsimp only
  rw [if_neg (by simp [hm, hr]), hv, ha] <;> rfl

/-- A DATA frame of a stream without deskew is held for its group. -/
theorem Dev.pslGood_data {d : Dev} {pad s : Nat} {w ws : List Word} (hl : rtLane w + fldAt ws 0 23 20 = pad) (hr : bitAt ws 0 16 = rtReal w)
    (ht : fldAt ws 0 15 12 = 0) (hd : rtDeskew w = 0) :
    d.pslGood pad s w ws = (d.setStream s { d.stream s with lastGood := d.cyc }).setStream s { d.stream s with
      lastGood := d.cyc,
      held := (d.stream s).held ++
        [{ bpos := fldAt ws 0 23 20, seq := fldAt ws 4 15 0, real := rtReal w, ovr := bitAt ws 0 17, bad := bitAt ws 0 18,
           time := qAt ws 0x08, arrive := d.cyc - 144, data := (ws.drop 4).take 163 }] } := by
  unfold Dev.pslGood
  dsimp only
  rw [if_neg (by simp [hl, hr]), if_neg (by omega), if_neg (by simp [hd]), Dev.stream_setStream_same]

/-- A good DATA frame on an aligned pad. -/
theorem Dev.pslFrame_held {d : Dev} {pad : Nat} {wire ws w : List Word} {sid : Nat} (hws : (descramble (d.pad pad).scr wire).1 = ws)
    (hsid : fldAt ws 0 31 24 = sid) (hm : (d.pad pad).mode = 1) (hr : d.rxDead (d.pad pad).rx = false) (ha : (d.pad pad).aligned = true)
    (hv : pslValid ws = true) (ht : fldAt ws 0 15 12 = 0) (hx : (d.stream sid).rt = some w) (hk : rtKind w = 0) (hd : rtDeskew w = 0)
    (hlo : rtLane w ≤ pad) (hhi : pad < rtLane w + rtBond w) (hl : rtLane w + fldAt ws 0 23 20 = pad) (hreal : bitAt ws 0 16 = rtReal w) :
    (d.pslFrame pad wire).pad pad = { d.pad pad with bad := 0, scr := (descramble (d.pad pad).scr wire).2, lastBad := false } ∧
      (d.pslFrame pad wire).stream sid = { d.stream sid with lastGood := d.cyc, held := (d.stream sid).held ++
        [{ bpos := fldAt ws 0 23 20, seq := fldAt ws 4 15 0, real := rtReal w, ovr := bitAt ws 0 17, bad := bitAt ws 0 18, time := qAt ws 0x08,
           arrive := d.cyc - 144, data := (ws.drop 4).take 163 }] } := by
  rw [Dev.pslFrame_psl hm hr (hws ▸ hv) (Pad.align_good ha), hws]
  dsimp only
  simp only [ha, ht, hsid, Bool.not_true, Bool.false_or, Bool.false_eq_true, if_false, Nat.reduceLeDiff, decide_false, false_and,
    show (0 : Nat) = 1 ↔ False from by decide]
  rw [show ∀ p, ((d.setPad pad p).stream sid).rt = some w from fun _ => hx]
  dsimp only
  rw [if_pos ⟨hk, hlo, hhi⟩, Dev.pslGood_data hl hreal ht hd]
  refine ⟨(Dev.pad_setPad d pad pad _).trans (if_pos rfl), Dev.stream_setStream_same _ _ _⟩

/-- The frame that aligns a pad, and is otherwise not looked at. -/
theorem Dev.pslFrame_aligns {d : Dev} {pad : Nat} {wire : List Word} (hm : (d.pad pad).mode = 1) (hr : d.rxDead (d.pad pad).rx = false)
    (ha : (d.pad pad).aligned = false) (hv : pslValid (descramble (d.pad pad).scr wire).1 = true) (hg : (d.pad pad).good = 3)
    (ht : fldAt (descramble (d.pad pad).scr wire).1 0 15 12 < 2) :
    (d.pslFrame pad wire).pad pad = { d.pad pad with
      aligned := true, everAligned := true, good := 0, bad := 0, scr := (descramble (d.pad pad).scr wire).2, lastBad := false } := by
  rw [Dev.pslFrame_psl hm hr hv (Pad.align_fourth (p := { d.pad pad with scr := (descramble (d.pad pad).scr wire).2 }) ha hg)]
  have hnot : (!true || decide (2 ≤ fldAt (descramble (d.pad pad).scr wire).1 0 15 12)) = false := by simpa using ht
  dsimp only
  rw [hnot, ha]
  have hset (p : Pad) : (d.setPad pad p).pad pad = p := (Dev.pad_setPad d pad pad p).trans (if_pos rfl)
  split
  · split
    · exact hset _
    · exact hset _
  · next h => exact absurd rfl h

/-- The frame that loses a pad's alignment. -/
theorem Dev.pslFrame_loses {d : Dev} {pad : Nat} {wire : List Word} (hm : (d.pad pad).mode = 1) (hr : d.rxDead (d.pad pad).rx = false)
    (ha : (d.pad pad).aligned = true) (hv : pslValid (descramble (d.pad pad).scr wire).1 = false) (hb : (d.pad pad).bad = 7) :
    (d.pslFrame pad wire).pad pad = { d.pad pad with aligned := false, bad := 0, good := 0, scr := (descramble (d.pad pad).scr wire).2, lastBad := true } := by
  rw [Dev.pslFrame_psl hm hr hv (Pad.align_eighth (p := { d.pad pad with scr := (descramble (d.pad pad).scr wire).2 }) ha hb)]
  dsimp only
  rw [ha, if_pos rfl, if_neg (by simp), if_pos (by simp)]
  exact ((Dev.sameButReports_raise _ _ _ _ _).pad pad).trans ((Dev.pad_setPad d pad pad _).trans (if_pos rfl))

/-! ### Groups -/

/-- A word of a complex frame, as it enters the Splitter at cycle `c`. -/
def complexEntry (x : Stream) (w : List Word) (f : PslHeld) (start c : Nat) (p : Word × Nat) : InSplitter :=
  { smp := { i := signedOf 16 (p.1.fld 15 0), q := signedOf 16 (p.1.fld 31 16), poison := f.bad, ovr := f.ovr,
             instant := x.instantAt w (start + 163 * f.bpos + p.2) },
    pos := start + 163 * f.bpos + p.2, anchor := false, enter := c, dest := rtDest w }

/-- A stream whose Splitter holds `es` more. -/
def Stream.holdsMore (x y : Stream) (es : List InSplitter) : Prop := ∃ n, y = { x with fifo := x.fifo ++ es, nextPos := n }

theorem Dev.releaseWord_complex {d : Dev} {s start anchor : Nat} {w : List Word} {f : PslHeld} {p : Word × Nat} (hr : rtReal w = false)
    (ha : start + 163 * f.bpos + p.2 ≠ anchor) :
    ((d.releaseWord s w f start anchor p.2 p.1).stream s) = { d.stream s with
        fifo := (d.stream s).fifo ++ [complexEntry (d.stream s) w f start d.cyc p]
        nextPos := max (d.stream s).nextPos (start + 163 * f.bpos + p.2 + 1) } ∧
      (d.releaseWord s w f start anchor p.2 p.1).clk = d.clk := by
  unfold Dev.releaseWord
  dsimp only
  rw [if_neg (by simp [hr]), decide_eq_false ha]
  exact ⟨Dev.stream_setStream_same _ _ _, rfl⟩

/-- The words of a frame enter in order, each at its instant. -/
theorem Dev.releaseWords_complex {s start anchor : Nat} {w : List Word} {f : PslHeld} (hr : rtReal w = false) (l : List (Word × Nat)) (d : Dev)
    (ha : ∀ p ∈ l, start + 163 * f.bpos + p.2 ≠ anchor) :
    (d.stream s).holdsMore ((l.foldl (fun d p => d.releaseWord s w f start anchor p.2 p.1) d).stream s) (l.map (complexEntry (d.stream s) w f start d.cyc)) := by
  induction l generalizing d with
  | nil => exact ⟨(d.stream s).nextPos, by rw [List.map_nil, List.append_nil]; rfl⟩
  | cons p l ih =>
    obtain ⟨hx, hclk⟩ := Dev.releaseWord_complex (d := d) (s := s) hr (ha p List.mem_cons_self)
    obtain ⟨n, hn⟩ := ih (d.releaseWord s w f start anchor p.2 p.1) (fun q hq => ha q (List.mem_cons_of_mem _ hq))
    refine ⟨n, hn.trans ?_⟩
    have hcyc : (d.releaseWord s w f start anchor p.2 p.1).cyc = d.cyc := congrArg Clock.cycle hclk
    rw [hcyc, hx, List.map_cons]
    dsimp only
    rw [List.append_assoc, List.singleton_append]
    rfl

/-- The drift check changes the drift flag of the stream alone. -/
theorem Dev.driftCheck_stream (d : Dev) (s : Nat) (w : List Word) (dr : Int) :
    (∃ b, (d.driftCheck s w dr).stream s = { d.stream s with drifting := b }) ∧ (d.driftCheck s w dr).clk = d.clk := by
  unfold Dev.driftCheck
  extract_lets x lim beyond d1 d2
  have h2 : d2.clk = d.clk := by
    unfold d2
    split
    · exact (d1.sameButReports_raise _ _ _ _).clk
    · rfl
  exact ⟨⟨_, Dev.stream_setStream_same _ _ _⟩, h2⟩

/-- Without a position missing, no group is lost. -/
theorem Dev.loseGroups_none {d : Dev} {s start : Nat} {w : List Word} (hr : rtReal w = false) (h : start ≤ (d.stream s).nextPos) :
    d.loseGroups s w start = d := by
  unfold Dev.loseGroups
  simp [hr, Nat.sub_eq_zero_of_le h]

/-- The release of the next group, one whole frame, of an anchored complex stream. -/
theorem Dev.releaseFor_next {d : Dev} {s arrive : Nat} {w : List Word} {f : PslHeld} (hreal : rtReal w = false) (hsend : rtSender w = false)
    (hbond : rtBond w = 1) (hb : f.bpos = 0) (hlen : f.data.length = 163) (hanch : (d.stream s).anchored = true) (hseq : f.seq = (d.stream s).seq)
    (hpos : (d.stream s).groupPos ≤ (d.stream s).nextPos) :
    ((d.releaseFor s w f [f] true arrive).stream s).held = (d.stream s).held ∧
    ((d.releaseFor s w f [f] true arrive).stream s).seq = (f.seq + 1) % 65536 ∧
    ((d.releaseFor s w f [f] true arrive).stream s).groupPos = (d.stream s).groupPos + 163 ∧
    ((d.releaseFor s w f [f] true arrive).stream s).fifo =
      (d.stream s).fifo ++ f.data.zipIdx.map (complexEntry (d.stream s) w f (d.stream s).groupPos d.cyc) := by
  unfold Dev.releaseFor
  extract_lets x len arrival gap reanchor start d1 d2 x2 x3 d3 d4
  have hgap : gap = 0 := by unfold gap x; rw [hseq]; omega
  have hre : reanchor = false := by unfold reanchor x; rw [hanch]; rfl
  have hlen1 : len = 163 := by unfold len; rw [hbond]
  have hstart : start = (d.stream s).groupPos := by
    unfold start; rw [hre, hgap, Nat.zero_mul]; rfl
  have h1 : d1.stream s = { d.stream s with
      seq := (f.seq + 1) % 65536, groupPos := start + len, lastGroup := some (f.seq, arrive), anchored := true,
      subSeq := (d.stream s).subSeq, real := (d.stream s).real, realCount := (d.stream s).realCount } := by
    unfold d1
    rw [hre, Dev.stream_setStream_same]
    rfl
  have h2 : d2 = d1.bump (streamReg s 0x04) (gap * rtBond w) := by
    unfold d2
    rw [hre, if_neg Bool.false_ne_true]
    refine Dev.loseGroups_none hreal ?_
    change start ≤ (d1.stream s).nextPos
    rw [h1, hstart]
    exact hpos
  have h3 : d3.stream s = d1.stream s := by
    unfold d3 x3
    rw [Dev.stream_setStream_same, hsend, hre, if_neg Bool.false_ne_true, if_neg Bool.false_ne_true]
    unfold x2
    rw [h2]
    rfl
  have hclk3 : d3.clk = d.clk := by
    change d2.clk = d.clk
    rw [h2]
    rfl
  obtain ⟨⟨b, h4⟩, hclk4⟩ : (∃ b, d4.stream s = { d3.stream s with drifting := b }) ∧ d4.clk = d3.clk := d3.driftCheck_stream s w _
  have hframes : d4.releaseFrames s w [f] start (if reanchor = true then start else start + 2 ^ 70) =
      f.data.zipIdx.foldl (fun d p => d.releaseWord s w f start (start + 2 ^ 70) p.2 p.1) d4 := by
    unfold Dev.releaseFrames
    rw [hbond, hre, if_neg Bool.false_ne_true]
    simp [hb]
  rw [hframes]
  have hpos' : ∀ p ∈ f.data.zipIdx, start + 163 * f.bpos + p.2 ≠ start + 2 ^ 70 := fun p hp => by
    have := (List.mem_zipIdx (x := p.1) (i := p.2) hp).2.1
    omega
  obtain ⟨n, hn⟩ := Dev.releaseWords_complex (s := s) hreal f.data.zipIdx d4 hpos'
  have hcyc : d4.cyc = d.cyc := congrArg Clock.cycle (hclk4.trans hclk3)
  rw [hn, hcyc, h4, h3, h1, hlen1, hstart]
  exact ⟨rfl, rfl, rfl, rfl⟩

/-- The group that comes next is released once its hold is over. -/
theorem Dev.releaseGroup_next {d : Dev} {s : Nat} {w : List Word} {f : PslHeld} (hrt : (d.stream s).rt = some w) (hheld : (d.stream s).held = [f])
    (hb : f.bpos = 0) (hreal : rtReal w = false) (hbond : rtBond w = 1) (hanch : (d.stream s).anchored = true) (hseq : f.seq = (d.stream s).seq)
    (hdue : f.arrive + 204 + 144 * rtDeskew w ≤ d.cyc) :
    d.releaseGroup s = (d.setStream s { d.stream s with held := [] }).releaseFor s w f [f] true f.arrive := by
  have hfar : decide (32767 < (f.seq + 65536 - (d.stream s).seq) % 65536) = false := by rw [hseq]; exact decide_eq_false (by omega)
  unfold Dev.releaseGroup
  dsimp only
  simp only [hrt, hheld, hreal, hbond, hfar, hanch, List.filter_cons, List.filter_nil, List.find?_cons, hb, decide_true, Bool.not_true, Bool.and_false,
    Bool.false_and, Bool.not_false, Bool.and_true, if_true, Bool.false_eq_true, if_false, Dev.stream_setStream_same, Nat.add_zero]
  rw [if_neg (Nat.not_lt.mpr hdue)]
  simp [hb]

/-- Settles O41: a frame by its alignment and its group, and a group by the words that enter the Splitter. -/
theorem pslGroupsAreReleased : Obligations.PslGroupsAreReleased := by
  unfold Obligations.PslGroupsAreReleased
  refine ⟨fun dt pad wire w s => ?_, fun dt sid w f s => ?_⟩
  · intro d p u ws sid x hm hr
    refine ⟨fun ha hv ht hx hk hd hlo hhi hl hreal => ?_, fun ha hv hg ht => ?_, fun ha hv hb => ?_⟩
    · obtain ⟨hpad, hstream⟩ := Dev.pslFrame_held (d := d) (wire := wire) rfl rfl hm hr ha hv ht hx hk hd hlo hhi hl hreal
      exact ⟨_, rfl, rfl, hpad, hstream⟩
    · exact ⟨_, rfl, rfl, Dev.pslFrame_aligns (d := d) (wire := wire) hm hr ha hv hg ht⟩
    · exact ⟨_, rfl, rfl, Dev.pslFrame_loses (d := d) (wire := wire) hm hr ha hv hb⟩
  · intro d x hrt hheld hb hlen hk hreal hsend hbond hanch hseq _ hpos hdue
    have hsame : (d.setStream sid { d.stream sid with held := [] }).stream sid = { d.stream sid with held := [] } := Dev.stream_setStream_same _ _ _
    have hgroup := Dev.releaseGroup_next (d := d) hrt hheld hb hreal hbond hanch hseq hdue
    obtain ⟨hh, hq, hg, hfifo⟩ := Dev.releaseFor_next (d := d.setStream sid { d.stream sid with held := [] }) (s := sid) (arrive := f.arrive) (f := f)
      hreal hsend hbond hb hlen (by rw [hsame]; exact hanch) (by rw [hsame]; exact hseq) (by rw [hsame]; exact hpos)
    rw [← hgroup] at hh hq hg hfifo
    rw [hsame] at hh hg hfifo
    refine ⟨_, rfl, rfl, hh, hq, hg, hfifo.trans ?_⟩
    refine congrArg (x.fifo ++ ·) (List.map_congr_left fun p _ => ?_)
    unfold complexEntry Stream.instantAt Stream.instantOf rtExact
    rw [hb, if_neg (by omega)]
    rfl

end Sys2Proof.Machine
end

section
/-!
PROOF. O46: the capture scrubber, the Facet scrubber and a sequencer's trap (R401–R408).
-/

namespace Sys2Proof.Machine

/-! ### Bytes cleared -/

theorem Memory.read_clear_from (m : Memory) (a n b lo : Nat) (w : Memory.wfFrom lo m = true) :
    (m.clear a n).read b = if a ≤ b ∧ b < a + n then 0 else m.read b := by
  induction m generalizing lo with
  | nil => simp [Memory.clear, Memory.read]
  | cons c t ih =>
    obtain ⟨k, v⟩ := c
    simp only [Memory.wfFrom, Bool.and_eq_true, decide_eq_true_eq] at w
    have ht := ih (k + 1) w.2
    by_cases hk : k < a ∨ a + n ≤ k
    · have hc : Memory.clear ((k, v) :: t) a n = (k, v) :: Memory.clear t a n := by simp [Memory.clear, hk]
      rw [hc]
      simp only [Memory.read]
      by_cases hb : k = b
      · subst hb
        rw [if_pos rfl, if_pos rfl, if_neg (by omega)]
      · rw [if_neg hb, if_neg hb, ht]
        split <;> simp_all
    · have hc : Memory.clear ((k, v) :: t) a n = Memory.clear t a n := by simp [Memory.clear, hk]
      rw [hc, ht]
      by_cases hin : a ≤ b ∧ b < a + n
      · rw [if_pos hin, if_pos hin]
      · rw [if_neg hin, if_neg hin]
        simp only [Memory.read]
        rw [if_neg (by omega)]
        split
        · next hlt => exact Memory.read_below t b (k + 1) (by omega) w.2
        · rfl

/-- Bytes cleared read as 0, the others as before. -/
theorem Memory.read_clear (m : Memory) (a n b : Nat) (w : m.wf = true) :
    (m.clear a n).read b = if a ≤ b ∧ b < a + n then 0 else m.read b :=
  Memory.read_clear_from m a n b 0 w

/-! ### What a raised event and a log record leave in the registers -/

variable (d : Dev)

theorem Dev.logRecord_regs (r : LogRec) : (d.logRecord r).regs = d.regs := by
  unfold Dev.logRecord
  dsimp only
  split <;> rfl

theorem Dev.logRecord_cmc (r : LogRec) : (d.logRecord r).cmc = d.cmc := by
  unfold Dev.logRecord
  dsimp only
  split <;> rfl

theorem Dev.sendVector_regs (v : Nat) : (d.sendVector v).regs = d.regs := by
  unfold Dev.sendVector
  dsimp only
  split
  · split <;> rfl
  · rfl

theorem Dev.produce_regs (e : Event) : (d.produce e).regs = d.regs := by
  have hlog : (d.logEvent e).regs = d.regs := by
    unfold Dev.logEvent
    split
    · rfl
    · exact Dev.logRecord_regs d _
  unfold Dev.produce
  dsimp only
  split
  · exact hlog
  · split
    · rw [Dev.sendVector_regs]; exact hlog
    · exact hlog

theorem Dev.raise_reg (id unit arg data a : Nat) : (d.raise id unit arg data).reg a = d.reg a :=
  congrArg (fun r => Tbl.look (RegMap.resetOf a) r a) (Dev.produce_regs d _)

theorem Dev.sameButReports.cmc {a b : Dev} (h : a.sameButReports b) : b.cmc = a.cmc := by unfold Dev.sameButReports at h; rw [h]

theorem Dev.raise_cmc (id unit arg data : Nat) : (d.raise id unit arg data).cmc = d.cmc :=
  (Dev.sameButReports_raise d id unit arg data).cmc

/-! ### Marks -/

/-- The capture memory's marks, its areas and its striping are the same. -/
structure Dev.sameMarks (a b : Dev) : Prop where
  poison : b.cmc.poison = a.cmc.poison
  pcs : b.cmc.poisonPcs = a.cmc.poisonPcs
  stripe : b.cmc.p = a.cmc.p
  areas : b.cmc.allocs = a.cmc.allocs

theorem Dev.sameMarks.lineMarked {a b : Dev} (h : Dev.sameMarks a b) (l : Nat) : b.lineMarked l = a.lineMarked l := by
  unfold Dev.lineMarked Dev.pcPoisoned Dev.pcOfBlock
  rw [h.poison, h.pcs, h.stripe]

theorem Dev.sameMarks.regionAt {a b : Dev} (h : Dev.sameMarks a b) (n : Nat) : b.regionAt n = a.regionAt n := by
  unfold Dev.regionAt
  rw [h.areas]

theorem Dev.sameMarks.lineLight {a b : Dev} (h : Dev.sameMarks a b) (l : Nat) : b.lineLight l = a.lineLight l := by
  unfold Dev.lineLight
  rw [h.areas]

theorem Dev.sameMarks.lineData {a b : Dev} (h : Dev.sameMarks a b) (m : Memory) (errs : List Upset) (l : Nat) :
    b.lineData m errs l = a.lineData m errs l := by
  unfold Dev.lineData
  rw [h.lineLight, h.lineMarked]


theorem Dev.sameMarks.trans {a b c : Dev} (h : Dev.sameMarks a b) (g : Dev.sameMarks b c) : Dev.sameMarks a c :=
  ⟨g.poison.trans h.poison, g.pcs.trans h.pcs, g.stripe.trans h.stripe, g.areas.trans h.areas⟩

theorem Dev.sameMarks_setPc (x : Nat) (p : Pc) : Dev.sameMarks d (d.setPc x p) := ⟨rfl, rfl, rfl, rfl⟩

theorem Dev.sameMarks_useSlot (x : Nat) (k : SlotKind) : Dev.sameMarks d (d.useSlot x k) := ⟨rfl, rfl, rfl, rfl⟩

theorem Dev.sameMarks_activate (x i : Nat) : Dev.sameMarks d (d.activate x i) := by
  unfold Dev.activate
  extract_lets f e p ms lfsr q e'
  have he : Dev.sameMarks d e' := by
    unfold e'
    split <;> exact ⟨rfl, rfl, rfl, rfl⟩
  clear_value e' q
  split
  · exact he.trans (e'.sameMarks_setPc _ _)
  · split
    · exact he.trans (e'.sameMarks_setPc _ _)
    · exact he.trans ((e'.sameMarks_setPc x { q with nrOver := q.nrOver ++ [i] }).trans ⟨rfl, rfl, rfl, rfl⟩)

theorem Dev.reg_rcDo_ne (a b : Nat) (o : RcOp) (h : b ≠ a) : (d.rcDo a o).reg b = d.reg b := by
  unfold Dev.rcDo
  rw [Dev.reg_setReg, if_neg h]
  rfl

theorem Dev.reg_bump_same (a : Nat) : (d.bump a).reg a = d.reg a + 1 := Dev.reg_setReg_same _ _ _

/-- An activate writes no register of the regions' counts. -/
theorem Dev.activate_reg (x i a : Nat) (hx : x < 192) (ha : 0x500000 ≤ a) : (d.activate x i).reg a = d.reg a := by
  unfold Dev.activate
  extract_lets f e p ms lfsr q e'
  have he0 : e.reg a = d.reg a := f.2.reg_rcDo_ne _ a _ (by omega)
  have he : e'.reg a = d.reg a := by
    unfold e'
    split
    · exact he0
    · rw [Dev.reg_setReg, if_neg (by unfold pcReg; omega)]; exact he0
  clear_value e' q
  split
  · exact he
  · split
    · exact he
    · exact ((e'.setPc x { q with nrOver := q.nrOver ++ [i] }).reg_rcDo_ne _ a _ (by omega)).trans he

/-! ### One line under the capture scrubber -/

theorem lineRead_unflipped (light poisoned : Bool) (bs : List Byte) :
    (lineRead light poisoned bs []).1 = if poisoned then .poison else .clean := by
  cases poisoned <;> rfl

theorem scrubLine_clean (x : Nat) (errs : List Upset) (y : Dev × Mems) (l : Nat) (hm : y.1.lineMarked l = false) (he : upsetsOf errs l = []) :
    scrubLine x errs y l = y := by
  have hv : (y.1.lineData y.2.cap errs l).1 = .clean := by
    unfold Dev.lineData
    rw [he, hm]
    rfl
  unfold scrubLine
  dsimp only
  rw [hv]

/-- A run of lines in which nothing is upset and none is marked changes nothing. -/
theorem scrubLines_clean (x : Nat) (errs : List Upset) (y : Dev × Mems) (ls : List Nat) (h : ∀ l ∈ ls, y.1.lineMarked l = false ∧ upsetsOf errs l = []) :
    ls.foldl (scrubLine x errs) y = y := by
  induction ls with
  | nil => rfl
  | cons l t ih =>
    rw [List.foldl_cons, scrubLine_clean x errs y l (h l (by simp)).1 (h l (by simp)).2]
    exact ih fun k hk => h k (by simp [hk])

/-- A scrubber's poisoning is counted once in its region. -/
theorem Dev.scrubPoison_reg (g a : Nat) : (d.scrubPoison g a).reg (regStat g 0x0C) = d.reg (regStat g 0x0C) + 1 := by
  have hlog : ∀ r, (((d.bump (regStat g 0x0C)).logRecord r)).reg (regStat g 0x0C) = d.reg (regStat g 0x0C) + 1 := fun r =>
    (congrArg (fun t => Tbl.look (RegMap.resetOf (regStat g 0x0C)) t (regStat g 0x0C)) (Dev.logRecord_regs _ r)).trans (d.reg_bump_same _)
  unfold Dev.scrubPoison Dev.logOnly
  extract_lets e n thr r
  have he : e.reg (regStat g 0x0C) = d.reg (regStat g 0x0C) + 1 := hlog _
  clear_value e
  split
  · exact (Dev.raise_reg (e.setRegion g { r with scrubRaised := true }) _ _ _ _ _).trans he
  · exact he

theorem Dev.scrubPoison_cmc (g a : Nat) : (d.scrubPoison g a).cmc = d.cmc := by
  unfold Dev.scrubPoison Dev.logOnly
  extract_lets e n thr r
  have he : e.cmc = d.cmc := Dev.logRecord_cmc _ _
  clear_value e
  split
  · exact (Dev.raise_cmc _ _ _ _ _).trans he
  · exact he

/-- A line that its code cannot correct is poisoned, counted, and its bytes are cleared. -/
theorem scrubLine_uncorrectable (x : Nat) (errs : List Upset) (y : Dev × Mems) (l : Nat) (hv : (y.1.lineData y.2.cap errs l).1 = .uncorrectable) :
    let z := scrubLine x errs y l
    let a := regStat (y.1.regionAt (64 * l)) 0x0C
    z.2 = { y.2 with cap := y.2.cap.clear (64 * l) 64 } ∧ z.1.reg a = y.1.reg a + 1 ∧ z.1.cmc.poison.contains l = true ∧
      ∀ k, k ≠ l → z.1.lineMarked k = y.1.lineMarked k := by
  have hz : scrubLine x errs y l = ((((poisonLine l y).1.scrubPoison (y.1.regionAt (64 * l)) (64 * l)).updCmc
      (fun c => { c with scrubFound := c.scrubFound + 1 })), (poisonLine l y).2) := by
    unfold scrubLine
    dsimp only
    rw [hv]
  intro z a
  have hcmc := Dev.scrubPoison_cmc (poisonLine l y).1 (y.1.regionAt (64 * l)) (64 * l)
  have hreg := Dev.scrubPoison_reg (poisonLine l y).1 (y.1.regionAt (64 * l)) (64 * l)
  unfold z
  rw [hz]
  refine ⟨rfl, hreg, ?_, fun k hk => ?_⟩
  · rw [Dev.updCmc_cmc, hcmc]
    dsimp only [poisonLine, Dev.updCmc]
    split
    · next hc => exact hc
    · simp
  · unfold Dev.lineMarked Dev.pcPoisoned Dev.pcOfBlock
    rw [Dev.updCmc_cmc, hcmc]
    dsimp only [poisonLine, Dev.updCmc, Dev.dropWriteBack]
    congr 1
    split
    · rfl
    · simp [hk]

/-! ### CAPTURE_SCRUB_READ -/

theorem Dev.scrubAdvance_poison (x : Nat) : (d.scrubAdvance x).cmc.poison = d.cmc.poison := by
  unfold Dev.scrubAdvance
  extract_lets done all period e ms found e'
  split
  · rfl
  · split
    · rfl
    · rw [Dev.raise_cmc]
      rfl

/-- The counts of a region stand at other addresses than the registers of a lap. -/
theorem Dev.scrubAdvance_reg (x g : Nat) : (d.scrubAdvance x).reg (regStat g 0x0C) = d.reg (regStat g 0x0C) := by
  unfold Dev.scrubAdvance
  extract_lets done all period e ms found e'
  split
  · rfl
  · split
    · rfl
    · refine (Dev.raise_reg (e'.updCmc (fun c => { c with scrubAt := e'.clk.time, scrubFound := 0 })) _ _ _ _ _).trans ?_
      refine ((e.setReg 0x510004 (BitVec.ofNat 32 ms)).reg_rcDo_ne _ _ _ (by unfold regStat; omega)).trans ?_
      rw [Dev.reg_setReg, if_neg (by unfold regStat; omega)]
      rfl

/-- The lines of the present block under the scrubber, from a device that may take the slot. -/
theorem captureScrub_block (x : Nat) (errs : List Upset) (d : Dev) (m : Mems) (hx : x < 192) (hr : (d.pc x).role = 0)
    (hdone : d.cmc.scrubDone.contains x = false) (hmax : d.fld 0x510000 9 4 ≠ 0) (hslot : d.maySlot x .leftover = true) (hout : d.outranksScrub x = false)
    (hcount : d.cmc.scrubPeriod = d.clk.cycle / 9000 → d.cmc.scrubCount < min (d.fld 0x510000 9 4) 32)
    (hbuf : d.cmc.wbuf.any (fun (v : Nat × Nat) => decide (v.1 = d.cmc.scrubPos * d.cmc.p + (d.pc x).logical)) = false) :
    captureScrub x errs (d, m) =
      let z := ((List.range 8).map (8 * (d.cmc.scrubPos * d.cmc.p + (d.pc x).logical) + ·)).foldl (scrubLine x errs)
        ((d.useSlot x .leftover).activate x d.cmc.scrubPos, m)
      (z.1.scrubAdvance x, z.2) := by
  have hgo : ¬ (((d.pc x).role ≠ 0 ∧ (d.pc x).role ≠ 1) ∨ 191 < x ∨ d.cmc.scrubDone.contains x ∨ d.fld 0x510000 9 4 = 0 ∨
      (d.cmc.scrubPeriod = d.cyc / 9000 ∧ min (d.fld 0x510000 9 4) 32 ≤ d.cmc.scrubCount) ∨ ¬ d.maySlot x .leftover ∨ d.outranksScrub x) := by
    rw [hdone, hslot, hout]
    rintro (h | h | h | h | ⟨h, k⟩ | h | h)
    · exact h.1 hr
    · omega
    · exact absurd h (by decide)
    · exact hmax h
    · exact absurd (hcount h) (Nat.not_lt.mpr k)
    · exact h rfl
    · exact absurd h (by decide)
  unfold captureScrub
  dsimp only
  rw [if_neg hgo, if_neg (by rw [hr]; decide), if_neg (by rw [hbuf]; decide)]

/-- The lines of a block: the first, and the seven after it. -/
theorem block_lines (b : Nat) : (List.range 8).map (8 * b + ·) = 8 * b :: (List.range 7).map (fun k => 8 * b + (k + 1)) := by
  simp [List.range_succ]

theorem upsetsOf_nil (l : Nat) : upsetsOf [] l = [] := rfl

theorem upsetsOf_elsewhere (errs : List Upset) (l k : Nat) (h : ∀ e ∈ errs, e.line = l) (hk : k ≠ l) : upsetsOf errs k = [] := by
  unfold upsetsOf
  rw [List.map_eq_nil_iff, List.filter_eq_nil_iff]
  intro e he
  rw [h e he]
  simpa using Ne.symm hk

/-- What the scrubber leaves of a block whose first line its code cannot correct, and in which nothing else is upset. -/
theorem scrubLines_firstUncorrectable (x : Nat) (errs : List Upset) (y : Dev × Mems) (b : Nat) (hm : ∀ k, k < 8 → y.1.lineMarked (8 * b + k) = false)
    (he : ∀ e ∈ errs, e.line = 8 * b) (hv : (y.1.lineData y.2.cap errs (8 * b)).1 = .uncorrectable) :
    ((List.range 8).map (8 * b + ·)).foldl (scrubLine x errs) y = scrubLine x errs y (8 * b) := by
  obtain ⟨-, -, -, hmark⟩ := scrubLine_uncorrectable x errs y (8 * b) hv
  rw [block_lines, List.foldl_cons]
  refine scrubLines_clean x errs _ _ fun l hl => ?_
  obtain ⟨k, hk, rfl⟩ := List.mem_map.1 hl
  rw [List.mem_range] at hk
  exact ⟨(hmark _ (by omega)).trans (hm (k + 1) (by omega)), upsetsOf_elsewhere errs (8 * b) _ he (by omega)⟩

/-! ### FACET_SCRUB_READ -/

/-- A byte that is not marked and whose bits are not upset is passed. -/
theorem facetByte_clean (g : Nat) (errs : List (Nat × Nat)) (y : Dev × Mems) (a : Nat) (hm : y.1.facetMarked g a = false)
    (he : ∀ e ∈ errs, e.1 ≠ a % 64) : facetByte g errs y a = y := by
  have hmask : errs.filter (fun e => decide (e.1 = a % 64)) = [] := List.filter_eq_nil_iff.2 fun e h => by simpa using he e h
  unfold facetByte
  dsimp only
  rw [hmask, hm]
  rfl

theorem facetBytes_clean (g : Nat) (errs : List (Nat × Nat)) (y : Dev × Mems) (as_ : List Nat)
    (h : ∀ a ∈ as_, y.1.facetMarked g a = false ∧ ∀ e ∈ errs, e.1 ≠ a % 64) : as_.foldl (facetByte g errs) y = y := by
  induction as_ with
  | nil => rfl
  | cons a t ih =>
    rw [List.foldl_cons, facetByte_clean g errs y a (h a (by simp)).1 (h a (by simp)).2]
    exact ih fun k hk => h k (by simp [hk])

/-- A byte whose stored bits its code cannot correct is poisoned; a byte of a local memory reads as 0 from then on. -/
theorem facetByte_uncorrectable (g mask line : Nat) (y : Dev × Mems) (hm : y.1.facetMarked g (64 * line) = false) (h0 : mask ≠ 0)
    (hv : (facetRead false (y.1.facetData y.2 g (64 * line)) mask).1 = .uncorrectable) :
    let z := facetByte g [(0, mask)] y (64 * line)
    z.2 = (if g = 2 then { y.2 with tp := y.2.tp.clear (64 * line) 1 } else y.2) ∧ z.1.cmc.facet.contains (g, 64 * line) = true ∧
      ∀ a, a ≠ 64 * line → z.1.facetMarked g a = y.1.facetMarked g a := by
  have hmask : ([(0, mask)].filter (fun e : Nat × Nat => decide (e.1 = 64 * line % 64))).foldl (fun m e => m ^^^ e.2) 0 = mask := by
    rw [Nat.mul_mod_right]
    simp
  intro z
  have hz : z = ((({ y.1 with free := y.1.free + 1 } : Dev).updCmc (fun c => { c with
      facet := if c.facet.contains (g, 64 * line) then c.facet else (g, 64 * line) :: c.facet, facetFound := c.facetFound + 1 })).scrubPoison g (64 * line),
      if g = 2 then { y.2 with tp := y.2.tp.clear (64 * line) 1 } else y.2) := by
    unfold z facetByte
    dsimp only
    rw [hmask, hm, if_neg (by simp), if_neg (by decide), if_neg h0, hv]
  rw [hz]
  refine ⟨rfl, ?_, fun a ha => ?_⟩
  · rw [Dev.scrubPoison_cmc]
    dsimp only [Dev.updCmc]
    split
    · next hc => exact hc
    · simp
  · unfold Dev.facetMarked
    rw [Dev.scrubPoison_cmc]
    dsimp only [Dev.updCmc]
    split
    · rfl
    · simp [ha]

theorem line_bytes (line : Nat) : (List.range 64).map (64 * line + ·) = 64 * line :: (List.range 63).map (fun k => 64 * line + (k + 1)) := by
  rw [List.range_succ_eq_map, List.map_cons, List.map_map]
  rfl

/-- What the Facet scrubber leaves of a line of which only the first byte cannot be corrected. -/
theorem facetBytes_firstUncorrectable (g mask line : Nat) (y : Dev × Mems) (hm : ∀ k, k < 64 → y.1.facetMarked g (64 * line + k) = false) (h0 : mask ≠ 0)
    (hv : (facetRead false (y.1.facetData y.2 g (64 * line)) mask).1 = .uncorrectable) :
    ((List.range 64).map (64 * line + ·)).foldl (facetByte g [(0, mask)]) y = facetByte g [(0, mask)] y (64 * line) := by
  obtain ⟨-, -, hmark⟩ := facetByte_uncorrectable g mask line y (hm 0 (by omega)) h0 hv
  rw [line_bytes, List.foldl_cons]
  refine facetBytes_clean g _ _ _ fun a ha => ?_
  obtain ⟨k, hk, rfl⟩ := List.mem_map.1 ha
  rw [List.mem_range] at hk
  refine ⟨(hmark _ (by omega)).trans (hm (k + 1) (by omega)), fun e he => ?_⟩
  rw [List.mem_singleton] at he
  subst he
  dsimp only
  omega

/-- A lap of the Facet scrubber ends without a change of marks or memories. -/
theorem facetScrub_line (g line : Nat) (errs : List (Nat × Nat)) (d : Dev) (m : Mems) (hl : line < facetLines g) (hen : d.fld 0x510000 1 1 ≠ 0)
    (hnext : Tbl.look 0 d.cmc.facetNext (facetBank g (64 * line)) ≤ d.clk.cycle) :
    let y := (d.updCmc (fun c => { c with facetNext := Tbl.put (facetBank g (64 * line)) (d.cyc + 32768) c.facetNext }), m)
    let z := ((List.range 64).map (64 * line + ·)).foldl (facetByte g errs) y
    (facetScrub g line errs (d, m)).2 = z.2 ∧ (facetScrub g line errs (d, m)).1.cmc.facet = z.1.cmc.facet := by
  have hgo : ¬ (facetLines g ≤ line ∨ d.fld 0x510000 1 1 = 0 ∨ d.cyc < Tbl.look 0 d.cmc.facetNext (facetBank g (64 * line))) := by
    rintro (h | h | h)
    · omega
    · exact hen h
    · exact absurd hnext (Nat.not_le.mpr h)
  intro y z
  have hz : facetScrub g line errs (d, m) = if g ≠ 4 ∨ line + 1 ≠ facetLines 4 then z else
      (((z.1.setReg 0x510010 (BitVec.ofNat 32 ((z.1.clk.time - z.1.cmc.facetAt) / 3000))).updCmc
        (fun c => { c with facetAt := z.1.clk.time, facetFound := 0 })).raise evScrubLap 1 ((z.1.clk.time - z.1.cmc.facetAt) / 3000) z.1.cmc.facetFound, z.2) := by
    unfold facetScrub
    dsimp only
    rw [if_neg hgo]
  rw [hz]
  clear_value z
  split
  · exact ⟨rfl, rfl⟩
  · refine ⟨rfl, ?_⟩
    rw [Dev.raise_cmc]
    rfl

/-! ### SEQUENCER_TRAP -/

theorem Dev.countMark_rings (g r a : Nat) (p : Bool) : (d.countMark g r a p).rings = d.rings := by
  unfold Dev.countMark Dev.ueEvent
  split
  · rfl
  · extract_lets q quiet n
    split
    · exact Dev.raiseAt_rings _ _ _ _ _ _ _
    · rfl

theorem Dev.countMark_cmc (g r a : Nat) (p : Bool) : (d.countMark g r a p).cmc = d.cmc := by
  unfold Dev.countMark Dev.ueEvent
  split
  · rfl
  · extract_lets q quiet n
    split
    · exact Dev.raise_cmc _ _ _ _ _
    · rfl

/-- A trap of a sequencer keeps every ring: nothing that was held is begun by it. -/
theorem sequencerTrap_rings (addr : Nat) (src : TrapSource) (x : Dev × Mems) (h : src = .whole ∨ src = .code) :
    (sequencerTrap addr src x).1.rings = x.1.rings := by
  rcases h with rfl | rfl <;> exact Dev.countMark_rings _ _ _ _ _

theorem exec_sequencerTrap_of_nothing_held (dt addr : Nat) (src : TrapSource) (s : State) (h : src = .whole ∨ src = .code)
    (hq : (s.after dt).heldCmds = []) :
    exec (.sequencerTrap dt ⟨addr, src⟩) s = .next (s.ontoAll (sequencerTrap addr src (s.after dt, s.mem))) := by
  have hn : (sequencerTrap addr src (s.after dt, s.mem)).1.noneHeld :=
    Dev.noneHeld_of_rings (sequencerTrap_rings addr src _ h) ((Dev.noneHeld_iff _).2 hq)
  refine congrArg (fun y : Dev => Host.Outcome.next (s.ontoAll (y, (sequencerTrap addr src (s.after dt, s.mem)).2))) (Dev.runHeldAll_of_noneHeld hn)

/-- Settles O46: a block's lines and a line's bytes are passed one by one, and only the one that cannot be corrected is changed. -/
theorem scrubbersPoisonWhatTheyCannotCorrect : Obligations.ScrubbersPoisonWhatTheyCannotCorrect := by
  unfold Obligations.ScrubbersPoisonWhatTheyCannotCorrect
  intro dt x g line addr mask errs light data s d p b stat
  refine ⟨fun hx hr hdone hmax hslot hout hcount hbuf hm => ?_, fun hl hen hnext hm hw h0 hv => ?_, ⟨rfl, rfl⟩, fun hq => ⟨?_, ?_⟩⟩
  · have hblock := fun es => captureScrub_block x es d s.mem hx hr hdone hmax hslot hout hcount hbuf
    have hmarks : Dev.sameMarks d ((d.useSlot x .leftover).activate x d.cmc.scrubPos) :=
      (d.sameMarks_useSlot x .leftover).trans (Dev.sameMarks_activate _ _ _)
    have hreg : ((d.useSlot x .leftover).activate x d.cmc.scrubPos).reg (stat + 0x0C) = d.reg (stat + 0x0C) :=
      Dev.activate_reg (d.useSlot x .leftover) x _ _ hx (by unfold stat; omega)
    generalize (d.useSlot x .leftover).activate x d.cmc.scrubPos = e at hblock hmarks hreg ⊢
    have hclean : ∀ k, k < 8 → e.lineMarked (8 * b + k) = false := fun k hk => (hmarks.lineMarked _).trans (hm k hk)
    refine ⟨?_, fun hw he hv => ?_⟩
    · have hpass : captureScrub x [] (d, s.mem) = (e.scrubAdvance x, s.mem) := by
        rw [hblock []]
        dsimp only
        rw [scrubLines_clean x [] (e, s.mem) _ fun l hl => ?_]
        obtain ⟨k, hk, rfl⟩ := List.mem_map.1 hl
        exact ⟨hclean k (List.mem_range.1 hk), upsetsOf_nil _⟩
      exact congrArg (fun z => Host.Outcome.next (s.ontoAll z)) hpass
    · have hv' : (e.lineData s.mem.cap errs (8 * b)).1 = .uncorrectable := by rw [hmarks.lineData]; exact hv
      obtain ⟨hmem, hcnt, hp, -⟩ := scrubLine_uncorrectable x errs (e, s.mem) (8 * b) hv'
      refine ⟨_, congrArg (fun z => Host.Outcome.next (s.ontoAll z)) (hblock errs), ?_⟩
      dsimp only [State.ontoAll]
      rw [scrubLines_firstUncorrectable x errs (e, s.mem) b hclean he hv', Dev.scrubAdvance_poison, hmem]
      have hstat : stat + 0x0C = regStat (e.regionAt (64 * (8 * b))) 0x0C := by
        unfold stat regStat
        rw [hmarks.regionAt, show 64 * (8 * b) = 512 * b by omega]
      refine ⟨rfl, hp, ?_, fun a => ?_⟩
      · rw [hstat, Dev.scrubAdvance_reg, hcnt, ← hstat, hreg]
      · rw [show 64 * (8 * b) = 512 * b by omega]
        exact Memory.read_clear _ _ _ _ (Mems.wf_cap hw)
  · obtain ⟨hmem, hf⟩ := facetScrub_line g line [(0, mask)] d s.mem hl hen hnext
    have hexec : exec (.facetScrubRead dt g line [(0, mask)]) s = .next (s.ontoAll (facetScrub g line [(0, mask)] (d, s.mem))) := rfl
    generalize facetScrub g line [(0, mask)] (d, s.mem) = z at hmem hf hexec
    have hm' : ∀ k, k < 64 → (d.updCmc (fun c => { c with facetNext := Tbl.put (facetBank g (64 * line)) (d.cyc + 32768) c.facetNext })).facetMarked g
        (64 * line + k) = false := hm
    have hv' : (facetRead false ((d.updCmc (fun c => { c with
        facetNext := Tbl.put (facetBank g (64 * line)) (d.cyc + 32768) c.facetNext })).facetData s.mem g (64 * line)) mask).1 = .uncorrectable := hv
    generalize d.updCmc (fun c => { c with facetNext := Tbl.put (facetBank g (64 * line)) (d.cyc + 32768) c.facetNext }) = e at hmem hf hm' hv'
    rw [facetBytes_firstUncorrectable g mask line (e, s.mem) hm' h0 hv'] at hmem hf
    obtain ⟨hz, hc, -⟩ := facetByte_uncorrectable g mask line (e, s.mem) (hm' 0 (by omega)) h0 hv'
    rw [hz] at hmem
    refine ⟨_, hexec, ?_⟩
    dsimp only [State.ontoAll]
    rw [hf, hmem]
    refine ⟨hc, by split <;> rfl, fun a => ?_⟩
    by_cases hg : g = 2
    · simp only [hg, if_true, true_and]
      rw [Memory.read_clear _ _ _ _ (Mems.wf_tp hw)]
      exact if_congr (by omega) rfl rfl
    · simp only [hg, if_false, false_and]
  · refine ⟨_, exec_sequencerTrap_of_nothing_held dt addr .whole s (.inl rfl) hq, rfl, fun a ha => ?_⟩
    dsimp only [State.ontoAll, sequencerTrap]
    unfold Dev.facetMarked
    rw [Dev.updCmc_cmc, List.contains_eq_mem, decide_eq_false_iff_not]
    dsimp only
    rw [List.mem_filter]
    simp [ha]
  · exact ⟨_, exec_sequencerTrap_of_nothing_held dt addr .code s (.inr rfl) hq, rfl, rfl⟩

end Sys2Proof.Machine
end

section
/-!
PROOF. O51: the arithmetic and logic instructions of a trace processor (R463, R464).
-/

namespace Sys2Proof.Machine

/-! ### Issue of an instruction that only touches registers -/

theorem isOp_of {op : Nat} {w : Word} (h : iOp w = op) : isOp op w = true := decide_eq_true h

theorem isFn_of {op fn : Nat} {w : Word} (h : iOp w = op) (hf : iFn w = fn) : isFn op fn w = true := decide_eq_true ⟨h, hf⟩

/-- One of two FN values selects the instruction. -/
theorem isFn_of_or {op f g : Nat} {w : Word} (h : iOp w = op) (hf : iFn w = f ∨ iFn w = g) : (isFn op f w || isFn op g w) = true := by
  rcases hf with hf | hf
  · rw [isFn_of h hf]; rfl
  · rw [isFn_of h hf, Bool.or_true]

section
variable {s : State} {dt n : Nat} {w : Word} (hi : s.issues dt n w = true)
include hi

/-- An instruction that only touches registers issues, and leaves its processor as its effect says. -/
theorem registers_issue {sel : Word → Bool} {f : Nat → Word → Tp → Tp} (hs : sel w = true) {t : Tp} (ht : f (s.after dt).cyc w (s.tpFinds dt n).tp = t) :
    onAll dt (fun d m => tpIssue n sel (tpReg_ f) (d, m)) s = .next (s.tpLeft dt n { s.tpFinds dt n with tp := t }) := by
  subst ht
  exact tpIssue_issues s dt n w sel (tpReg_ f) hi hs rfl

end

/-- Settles O51: each instruction issues, and its effect on the registers is the one stated. -/
theorem arithmeticIssues : Obligations.ArithmeticIssues := by
  unfold Obligations.ArithmeticIssues
  intro s dt n w hi r c a b k mul flags owed left
  refine ⟨fun ho => ⟨?_, ?_, ?_, ?_, ?_, ?_, ?_, ?_, ?_, ?_, ?_⟩, fun ho => ?_, fun ho => ?_⟩
  · exact fun hf => registers_issue hi (isFn_of ho hf) rfl
  · exact fun hf => registers_issue hi (isFn_of ho hf) rfl
  · exact fun hf => registers_issue hi (isFn_of ho hf) rfl
  · exact fun hf => registers_issue hi (isFn_of ho hf) rfl
  · exact fun hf => registers_issue hi (isFn_of ho hf) rfl
  · exact fun hf => registers_issue hi (sel := fun w => isFn 4 5 w || isFn 4 13 w) (isFn_of_or ho hf) rfl
  · exact fun hf => registers_issue hi (sel := fun w => isFn 4 6 w || isFn 4 14 w) (isFn_of_or ho hf) rfl
  · exact fun hf => registers_issue hi (sel := fun w => isFn 4 7 w || isFn 4 15 w) (isFn_of_or ho hf) rfl
  · exact fun hf => registers_issue hi (isFn_of ho hf) rfl
  · exact fun hf => registers_issue hi (isFn_of ho hf) rfl
  · exact fun hf => registers_issue hi (isFn_of ho hf) rfl
  · exact registers_issue hi (isOp_of ho) rfl
  · exact registers_issue hi (isOp_of ho) rfl

end Sys2Proof.Machine
end

section
/-!
PROOF. O52: loads, stores and pointers of a trace processor (R458, R459, R462, R464, R472).
-/

namespace Sys2Proof.Machine

/-! ### Traps -/

variable (d : Dev)

theorem Dev.sameButReports.tp {a b : Dev} (h : a.sameButReports b) (n : Nat) : b.tp n = a.tp n := by
  unfold Dev.sameButReports at h
  unfold Dev.tp
  rw [h]

/-- The event of a trap leaves the processors alone. -/
theorem Dev.sameButReports_tpEvent (n cause sub data : Nat) : d.sameButReports (d.tpEvent n cause sub data) := Dev.sameButReports_raise d _ _ _ _

/-- A stop only answers the TP_STOP that waits for it. -/
theorem Dev.tpStopped_tp (n : Nat) : (d.tpStopped n).tp n = { d.tp n with stopReq := false } := by
  unfold Dev.tpStopped
  rw [(Dev.sameButReports_finish _ _ _).tp, Dev.tp_setTp_same]

/-- A trap leaves its processor in TRAPPED with the code and the address, and else only answers a TP_STOP that waits. -/
theorem Dev.tpTrap_tp (n code addr : Nat) :
    (d.tpTrap n code addr).tp n = { d.tp n with state := 3, trap := code, faultAddr := addr, stopReq := false } := by
  unfold Dev.tpTrap
  extract_lets t e
  have he : (e.bump (tpReg n 0x1C)).tp n = { t with state := 3, trap := code, faultAddr := addr } :=
    ((Dev.sameButReports_rcDo e _ _).tp n).trans (d.tp_setTp_same n _)
  rw [Dev.tpStopped_tp, (Dev.sameButReports_tpEvent _ _ _ _ _).tp, he]

/-- An instruction whose effect traps issues nothing: the trap is taken with its code and address, and the registers and memories stay as found. -/
theorem tpIssue_traps (s : State) (dt n : Nat) (w : Word) (sel : Word → Bool) (eff : Nat → Word → TpRes → TpRes) (hi : s.issues dt n w = true)
    (hs : sel w = true) {code addr : Nat} (ht : (eff (s.after dt).cyc w (s.tpFinds dt n)).trap = some (code, addr)) :
    ∃ u : State, onAll dt (fun d m => tpIssue n sel eff (d, m)) s = .next u ∧ u.mem = (s.tpFinds dt n).mem ∧ (u.dev.tp n).state = 3 ∧
      (u.dev.tp n).trap = code ∧ (u.dev.tp n).faultAddr = addr ∧ (u.dev.tp n).pc = (s.tpFinds dt n).tp.pc ∧ (u.dev.tp n).acc = (s.tpFinds dt n).tp.acc := by
  simp only [State.issues, Bool.and_eq_true, decide_eq_true_eq, Bool.not_eq_true', Option.isNone_iff_eq_none] at hi
  obtain ⟨⟨⟨⟨⟨⟨hn, hst, hw, hat⟩, -⟩, hmark⟩, hword⟩, hlist⟩, hplace⟩ := hi
  have hgo : ¬ (31 < n ∨ (((s.after dt).tp n).timer (s.after dt).now).state ≠ 2 ∨ (((s.after dt).tp n).timer (s.after dt).now).wait.isSome = true ∨
      (s.after dt).cyc < (((s.after dt).tp n).timer (s.after dt).now).nextAt) := by
    rw [hst, hw]; simp; omega
  let x := tpStores n (s.after dt).cyc ((((s.after dt).tp n).timer (s.after dt).now).settle (s.after dt).cyc) (s.after dt) s.mem
  have key : tpIssue n sel eff (s.after dt, s.mem) =
      (((x.2.1.setTp n x.1).countMark 2 9 (n * tpMask + addr) true).tpTrap n code addr, (s.tpFinds dt n).mem) := by
    unfold tpIssue
    dsimp only
    rw [if_neg hgo]
    split
    · next b hb =>
      have : tpMarked (s.tpFinds dt n).dev n (s.tpFinds dt n).tp.pc 4 = some b := hb
      rw [hmark] at this; cases this
    · have hfit : (!iListed (BitVec.ofNat 32 (tpLoad (s.tpFinds dt n).mem n (s.tpFinds dt n).tp.pc 4)) ||
          ((s.tpFinds dt n).tp.heldOff && iPlaced (BitVec.ofNat 32 (tpLoad (s.tpFinds dt n).mem n (s.tpFinds dt n).tp.pc 4)))) = false := by
        rw [hword, hlist, hplace]; rfl
      have hsel : ¬ (!sel (BitVec.ofNat 32 (tpLoad (s.tpFinds dt n).mem n (s.tpFinds dt n).tp.pc 4))) = true := by rw [hword, hs]; decide
      have htrap : (eff (s.after dt).cyc (BitVec.ofNat 32 (tpLoad (s.tpFinds dt n).mem n (s.tpFinds dt n).tp.pc 4)) (s.tpFinds dt n)).trap = some (code, addr) := by
        rw [hword]; exact ht
      refine (if_neg (fun h => Bool.false_ne_true (hfit.symm.trans h))).trans ((if_neg hsel).trans ?_)
      split
      · next c a hc =>
        have hca := (show (eff (s.after dt).cyc (BitVec.ofNat 32 (tpLoad (s.tpFinds dt n).mem n (s.tpFinds dt n).tp.pc 4)) (s.tpFinds dt n)).trap = some (c, a)
          from hc).symm.trans htrap
        simp only [Option.some.injEq, Prod.mk.injEq] at hca
        obtain ⟨rfl, rfl⟩ := hca
        rfl
      · next hc =>
        have : (eff (s.after dt).cyc (BitVec.ofNat 32 (tpLoad (s.tpFinds dt n).mem n (s.tpFinds dt n).tp.pc 4)) (s.tpFinds dt n)).trap = none := hc
        rw [htrap] at this; cases this
  have htp : (((x.2.1.setTp n x.1).countMark 2 9 (n * tpMask + addr) true).tpTrap n code addr).tp n =
      { x.1 with state := 3, trap := code, faultAddr := addr, stopReq := false } := by
    have hx : ((x.2.1.setTp n x.1).countMark 2 9 (n * tpMask + addr) true).tp n = x.1 :=
      ((Dev.sameButReports_rcDo (x.2.1.setTp n x.1) _ _).tp n).trans (x.2.1.tp_setTp_same n _)
    rw [Dev.tpTrap_tp, hx]
  have hpc : (s.tpFinds dt n).tp.pc = x.1.pc := rfl
  have hacc : (s.tpFinds dt n).tp.acc = x.1.acc := rfl
  refine ⟨_, congrArg (fun y : Dev × Mems => Host.Outcome.next (s.ontoAll y)) key, rfl, ?_⟩
  rw [hpc, hacc]
  dsimp only [State.ontoAll]
  rw [htp]
  exact ⟨rfl, rfl, rfl, rfl, rfl⟩

/-! ### Values held to a range -/

/-- A value is saturated when holding it to its range changes it. -/
theorem satTo_snd (bits : Nat) (v : Int) : (satTo bits v).2 = decide ((satTo bits v).1 ≠ v) := by
  unfold satTo
  dsimp only
  rw [decide_eq_decide]
  split
  · omega
  · split <;> omega

/-- A 64-bit value is within the range of 64 bits. -/
theorem satTo_toInt (x : QWord) : satTo 64 x.toInt = (x.toInt, false) := by
  have hlo := BitVec.le_toInt x
  have hhi := BitVec.toInt_lt (x := x)
  unfold satTo
  simp only [Nat.reduceSub, Prod.mk.injEq, decide_eq_false_iff_not]
  norm_num at hlo hhi ⊢
  refine ⟨?_, by omega⟩
  rw [if_neg (by omega), if_neg (by omega)]

/-- A store of 64 bits saturates nothing; the others saturate to their width. -/
theorem tpSt_value (w : Word) (x : QWord) :
    (if mW w = 2 then (x.toInt, false) else satTo (8 * 2 ^ (mW w + 1)) x.toInt) = satTo (8 * 2 ^ (mW w + 1)) x.toInt := by
  split
  · next h2 => rw [h2]; exact (satTo_toInt x).symm
  · rfl

/-! ### Pointers (R458) -/

theorem Tp.step_p (t : Tp) (k : Nat) (inc : Int) (h : k < t.p.length) : (t.step k inc).p.getD k 0 =
    ((if (t.l.getD k 0 : Int) ≠ 0 then
        (if (t.b.getD k 0 : Int) + t.l.getD k 0 ≤ t.p.getD k 0 + inc then (t.p.getD k 0 + inc) - t.l.getD k 0
          else if (t.p.getD k 0 : Int) + inc < t.b.getD k 0 then t.p.getD k 0 + inc + t.l.getD k 0 else t.p.getD k 0 + inc)
        else t.p.getD k 0 + inc) % (2 ^ 19 : Int)).toNat := by
  unfold Tp.step
  dsimp only
  rw [List.getD_eq_getElem?_getD, List.getElem?_set_self h]
  rfl

theorem Tp.step_other (t : Tp) (k j : Nat) (inc : Int) (h : j ≠ k) : (t.step k inc).p.getD j 0 = t.p.getD j 0 := by
  unfold Tp.step
  dsimp only
  rw [List.getD_eq_getElem?_getD, List.getElem?_set_ne (Ne.symm h), ← List.getD_eq_getElem?_getD]

/-- One wrap brings a pointer that leaves its buffer by at most its length back. -/
theorem wrap_within (b l p : Int) (hlo : b - l ≤ p) (hhi : p < b + 2 * l) :
    let q := if b + l ≤ p then p - l else if p < b then p + l else p
    b ≤ q ∧ q < b + l ∧ (q - p) % l = 0 := by
  intro q
  unfold q
  split
  · refine ⟨by omega, by omega, ?_⟩
    rw [show p - l - p = -l by omega]
    simp
  · split
    · refine ⟨by omega, by omega, ?_⟩
      rw [show p + l - p = l by omega]
      simp
    · refine ⟨by omega, by omega, ?_⟩
      simp

/-- Settles O52: the instructions by their effects on the registers, the pointers by one wrap. -/
theorem loadsStoresAndPointers : Obligations.LoadsStoresAndPointers := by
  unfold Obligations.LoadsStoresAndPointers
  refine ⟨fun s dt n w hi => ?_, fun t k inc hk => ?_⟩
  · intro r t c left bytes size at_ v lim clip out src
    refine ⟨fun ho => ⟨fun hm => ?_, fun b hm => ?_⟩, fun ho => ?_, fun ho => ?_, fun ho => ⟨?_, ?_, ?_, ?_, ?_, ?_⟩, fun ho => ?_⟩
    · have heff : tpLd n c w r = { r with tp := ({ t with pendD := t.pendD ++ [(c + 6, iRd w,
          BitVec.ofInt 64 (signedOf (8 * size) (tpLoad r.mem n at_ size)))] } : Tp).step (mPtr w) (mInc w) } := by
        unfold tpLd
        dsimp only
        rw [show tpMarked r.dev n (r.tp.p.getD (mPtr w) 0 / 2 ^ (mW w + 1) * 2 ^ (mW w + 1)) (2 ^ (mW w + 1)) = none from hm]
        rfl
      exact (tpIssue_issues s dt n w (isOp 8) (tpLd n) hi (isOp_of ho) (congrArg TpRes.trap heff)).trans
        (congrArg (fun x => Host.Outcome.next (s.tpLeft dt n x)) heff)
    · have heff : (tpLd n c w r).trap = some (2, b) := by
        unfold tpLd
        dsimp only
        rw [show tpMarked r.dev n (r.tp.p.getD (mPtr w) 0 / 2 ^ (mW w + 1) * 2 ^ (mW w + 1)) (2 ^ (mW w + 1)) = some b from hm]
      obtain ⟨u, hu, hmem, hst, htr, hfa, hpc, -⟩ := tpIssue_traps s dt n w (isOp 8) (tpLd n) hi (isOp_of ho) heff
      exact ⟨u, hu, hst, htr, hfa, hpc, hmem⟩
    · refine registers_issue hi (isOp_of ho) ?_
      have hv := tpSt_value w (t.d.getD (iRd w) 0)
      have hs := satTo_snd (8 * size) v
      unfold tpSt
      dsimp only [Tp.dr]
      rw [show (if mW w = 2 then (((s.tpFinds dt n).tp.d.getD (iRd w) 0).toInt, false)
        else satTo (8 * 2 ^ (mW w + 1)) ((s.tpFinds dt n).tp.d.getD (iRd w) 0).toInt) = satTo (8 * size) v from hv, hs]
      rfl
    · intro acc i q dest
      refine ⟨fun hm => ?_, fun b hm => ?_⟩
      · have heff : tpStacc n c w r = { r with tp := ({ t with pendMem := t.pendMem ++ [(c + 4, dest,
            bytes 8 (codeOf 24 i.1 + 2 ^ 24 * codeOf 24 q.1))], sv := t.sv || i.2 || q.2 } : Tp).step (aPtr w) (aInc w) } := by
          unfold tpStacc
          dsimp only
          rw [show tpMarked r.dev n (r.tp.p.getD (aPtr w) 0 / 8 * 8) 8 = none from hm]
          rfl
        exact (tpIssue_issues s dt n w (isOp 0x0A) (tpStacc n) hi (isOp_of ho) (congrArg TpRes.trap heff)).trans
          (congrArg (fun x => Host.Outcome.next (s.tpLeft dt n x)) heff)
      · have heff : (tpStacc n c w r).trap = some (2, b) := by
          unfold tpStacc
          dsimp only
          rw [show tpMarked r.dev n (r.tp.p.getD (aPtr w) 0 / 8 * 8) 8 = some b from hm]
        obtain ⟨u, hu, hmem, hst, htr, hfa, hpc, -⟩ := tpIssue_traps s dt n w (isOp 0x0A) (tpStacc n) hi (isOp_of ho) heff
        exact ⟨u, hu, hst, htr, hfa, hpc, hmem⟩
    · exact fun hf => registers_issue hi (isFn_of ho hf) rfl
    · exact fun hf => registers_issue hi (isFn_of ho hf) rfl
    · exact fun hf => registers_issue hi (isFn_of ho hf) rfl
    · exact fun hf => registers_issue hi (isFn_of ho hf) rfl
    · exact fun hf => registers_issue hi (isFn_of ho hf) rfl
    · exact fun hf => registers_issue hi (isFn_of ho hf) rfl
    · exact registers_issue hi (isOp_of ho) rfl
  · intro b l p
    have hp := t.step_p k inc hk
    refine ⟨fun hl => ?_, fun hl hb hbl hlo hhi h0 htop => ?_, fun j hj => t.step_other k j inc hj⟩
    · rw [hp, if_neg (not_not.mpr hl)]
    · obtain ⟨h1, h2, h3⟩ := wrap_within b l p (by omega) (by omega)
      rw [if_pos (by omega)] at hp
      change (t.step k inc).p.getD k 0 = ((if b + l ≤ p then p - l else if p < b then p + l else p) % (2 ^ 19 : Int)).toNat at hp
      generalize (if b + l ≤ p then p - l else if p < b then p + l else p) = q at hp h1 h2 h3
      have hq : ((t.step k inc).p.getD k 0 : Int) = q := by
        rw [hp]
        norm_num at htop ⊢
        omega
      rw [hq]
      exact ⟨h1, h2, h3⟩

end Sys2Proof.Machine
end

section
/-!
PROOF. O53: the multiply-accumulates of a trace processor and its accumulators (R460–R462).
-/

namespace Sys2Proof.Machine

/-! ### An accumulator's part -/

theorem satTo72_fst (x : Int) : (satTo 72 x).1 = max (-(2 ^ 71)) (min (2 ^ 71 - 1) x) := by
  unfold satTo
  norm_num
  split
  · omega
  · split <;> omega

theorem satTo72_snd (x : Int) : (satTo 72 x).2 = true ↔ max (-(2 ^ 71)) (min (2 ^ 71 - 1) x) ≠ x := by
  rw [satTo_snd, satTo72_fst, decide_eq_true_iff]

/-- CLR clears the AV bit of its accumulator. -/
theorem testBit_cleared (av k : Nat) : (av &&& (15 - 2 ^ k)).testBit k = false := by
  have h15 : (15 - 2 ^ k).testBit k = false := by
    by_cases hk : k < 4
    · interval_cases k <;> decide
    · have : 2 ^ 4 ≤ 2 ^ k := Nat.pow_le_pow_right (by decide) (by omega)
      rw [Nat.sub_eq_zero_of_le (by omega), Nat.zero_testBit]
  rw [Nat.testBit_and, h15, Bool.and_false]

theorem testBit_raised (av k : Nat) : (av ||| 2 ^ k).testBit k = true := by
  rw [Nat.testBit_or, Nat.testBit_two_pow_self, Bool.or_true]

theorem Tp.accAdd_acc (t : Tp) (c k : Nat) (v : Int × Int) (clr : Bool) (h : k < t.acc.length) :
    (t.accAdd c k v clr).acc.getD k (0, 0) =
      ((satTo 72 ((if clr then (0, 0) else t.acc.getD k (0, 0) : Int × Int).1 + v.1)).1,
       (satTo 72 ((if clr then (0, 0) else t.acc.getD k (0, 0) : Int × Int).2 + v.2)).1) := by
  unfold Tp.accAdd Tp.setAcc
  dsimp only
  rw [List.getD_eq_getElem?_getD, List.getElem?_set_self h]
  rfl

theorem Tp.accAdd_other (t : Tp) (c k j : Nat) (v : Int × Int) (clr : Bool) (h : j ≠ k) :
    (t.accAdd c k v clr).acc.getD j (0, 0) = t.acc.getD j (0, 0) := by
  unfold Tp.accAdd Tp.setAcc
  dsimp only
  rw [List.getD_eq_getElem?_getD, List.getElem?_set_ne (Ne.symm h), ← List.getD_eq_getElem?_getD]

/-- The AV bit after an addition: a clamp sets it, CLR clears it first. -/
theorem Tp.accAdd_av (t : Tp) (c k : Nat) (v : Int × Int) (clr : Bool) :
    let old := if clr then (0, 0) else t.acc.getD k (0, 0)
    (t.accAdd c k v clr).av.testBit k = true ↔
      ((satTo 72 (old.1 + v.1)).2 = true ∨ (satTo 72 (old.2 + v.2)).2 = true ∨ (clr = false ∧ t.av.testBit k = true)) := by
  intro old
  change (if (satTo 72 (old.1 + v.1)).2 || (satTo 72 (old.2 + v.2)).2 then (if clr then t.av &&& (15 - 2 ^ k) else t.av) ||| 2 ^ k
    else if clr then t.av &&& (15 - 2 ^ k) else t.av).testBit k = true ↔ _
  by_cases hc : ((satTo 72 (old.1 + v.1)).2 || (satTo 72 (old.2 + v.2)).2) = true
  · rw [if_pos hc]
    rw [Bool.or_eq_true] at hc
    simp only [testBit_raised, true_iff]
    tauto
  · rw [if_neg hc]
    rw [Bool.or_eq_true, not_or] at hc
    cases clr
    · simp [hc.1, hc.2]
    · simp [hc.1, hc.2, testBit_cleared, -Nat.testBit_and]

/-! ### cmac4 -/

section
variable {n c : Nat} {w : Word} {r : TpRes}

/-- cmac4 with a mark among the bytes at its first pointer traps with code 2. -/
theorem tpCmac4_marked {m : Nat} (h : tpMarked r.dev n (r.tp.p.getD (xPx w) 0 / 32 * 32) 32 = some m) : (tpCmac4 n c w r).trap = some (2, m) := by
  unfold tpCmac4
  dsimp only
  rw [h]

/-- cmac4 with no mark among the bytes it reads adds a term of each lane. -/
theorem tpCmac4_clean (hx : tpMarked r.dev n (r.tp.p.getD (xPx w) 0 / 32 * 32) 32 = none)
    (hy : xMode w ≠ 2 → tpMarked r.dev n (r.tp.p.getD (xPy w) 0 / 32 * 32) 32 = none) :
    let ax := r.tp.p.getD (xPx w) 0 / 32 * 32
    let ay := r.tp.p.getD (xPy w) 0 / 32 * 32
    let summed : Tp := [0, 1, 2, 3].foldl (fun (t : Tp) k =>
      t.accAdd c k (macTerm (xMode w) (complexOf (tpLoad r.mem n (ax + 8 * k) 8)) (complexOf (tpLoad r.mem n (ay + 8 * k) 8))) (xClr w)) r.tp
    tpCmac4 n c w r = { r with
      tp := if xMode w ≠ 2 ∧ xPy w ≠ xPx w then (summed.step (xPx w) (mInc w)).step (xPy w) (mInc w) else summed.step (xPx w) (mInc w) } := by
  intro ax ay summed
  have hbad : (if xMode w = 2 then none else tpMarked r.dev n (r.tp.p.getD (xPy w) 0 / 32 * 32) 32) = none := by
    split
    · rfl
    · next h => exact hy h
  unfold tpCmac4
  dsimp only
  rw [hx]
  dsimp only
  rw [hbad]
  rfl

end

/-- Settles O53: the instructions by their effects on the registers, an accumulator by its parts and its AV bit. -/
theorem accumulatorsIssueAndClamp : Obligations.AccumulatorsIssueAndClamp := by
  unfold Obligations.AccumulatorsIssueAndClamp
  refine ⟨fun s dt n w hi => ?_, fun t c k v clr hk => ?_⟩
  · intro r t c left ax ay word summed a b k j
    refine ⟨fun ho => ⟨fun hx hy => ?_, fun m hm => ?_⟩, fun ho => ?_, fun ho => ⟨fun hf => ?_, fun hf => ?_, fun hf => ?_⟩⟩
    · have heff := tpCmac4_clean (c := c) (w := w) (r := r) hx hy
      exact (tpIssue_issues s dt n w (isOp 0x10) (tpCmac4 n) hi (isOp_of ho) (congrArg TpRes.trap heff)).trans
        (congrArg (fun x => Host.Outcome.next (s.tpLeft dt n x)) heff)
    · obtain ⟨u, hu, -, hst, htr, hfa, -, hacc⟩ := tpIssue_traps s dt n w (isOp 0x10) (tpCmac4 n) hi (isOp_of ho) (tpCmac4_marked hm)
      exact ⟨u, hu, hst, htr, hfa, hacc⟩
    · exact registers_issue hi (isOp_of ho) rfl
    · exact registers_issue hi (isFn_of ho hf) rfl
    · exact registers_issue hi (isFn_of ho hf) rfl
    · exact registers_issue hi (sel := fun w => isFn 0x12 2 w || isFn 0x12 3 w) (isFn_of_or ho hf) rfl
  · intro old u clamp
    have hav := t.accAdd_av c k v clr
    dsimp only at hav
    rw [satTo72_snd, satTo72_snd] at hav
    refine ⟨?_, fun j hj => t.accAdd_other c k j v clr hj, hav, rfl, rfl, rfl, rfl, rfl⟩
    rw [show u = t.accAdd c k v clr from rfl, t.accAdd_acc c k v clr hk, satTo72_fst, satTo72_fst]

end Sys2Proof.Machine
end

section
/-!
PROOF. O54 and O55: control flow, queues and control registers of a trace processor (R457, R465–R471, R474, R520–R522).
-/

namespace Sys2Proof.Machine

/-! ### A stop that is asked for -/

theorem Tp.advance_stopReq (t : Tp) : t.advance.stopReq = t.stopReq := by
  unfold Tp.advance
  dsimp only
  split
  · split <;> rfl
  · split
    · split
      · split <;> rfl
      · rfl
    · rfl

theorem Tp.busy_stopReq (t : Tp) (c : Nat) : (t.busy c).stopReq = t.stopReq := by
  unfold Tp.busy
  dsimp only
  split <;> rfl

/-- A processor that was not asked to stop is still not after an instruction. -/
theorem State.tpLeft_stopReq (s : State) (dt n : Nat) (r : TpRes) (h : r.tp.stopReq = false) : ((s.tpLeft dt n r).dev.tp n).stopReq = false := by
  unfold State.tpLeft
  extract_lets c t0 t d
  have ht : t.stopReq = false := (Tp.busy_stopReq _ _).trans ((Tp.advance_stopReq _).trans h)
  have htp : d.tp n = t := r.dev.tp_setTp_same n t
  clear_value t d
  rw [ht]
  exact (congrArg Tp.stopReq htp).trans ht

section
variable {s : State} {dt n : Nat} {w : Word} (hi : s.issues dt n w = true)
include hi

/-- An instruction after which a processor that was asked to stop might: without the request it only issues. -/
theorem issue_unasked {sel : Word → Bool} {eff : Nat → Word → TpRes → TpRes} (hs : sel w = true) {r : TpRes}
    (he : eff (s.after dt).cyc w (s.tpFinds dt n) = r) (ht : r.trap = none) (hr : r.tp.stopReq = false) (p : Dev → Bool) (g : Dev → Dev) :
    onAll dt (fun d m =>
      let y := tpIssue n sel eff (d, m)
      (if (y.1.tp n).stopReq && p y.1 then g y.1 else y.1, y.2)) s = .next (s.tpLeft dt n r) := by
  subst he
  have hissue := Host.Outcome.next.inj (tpIssue_issues s dt n w sel eff hi hs ht)
  have hstop := s.tpLeft_stopReq dt n _ hr
  rw [← hissue] at hstop ⊢
  have hno : ((((tpIssue n sel eff (s.after dt, s.mem)).1.tp n).stopReq && p (tpIssue n sel eff (s.after dt, s.mem)).1) = true) = False := by
    rw [show ((tpIssue n sel eff (s.after dt, s.mem)).1.tp n).stopReq = false from hstop]
    simp
  refine congrArg (fun y : Dev => Host.Outcome.next (s.ontoAll (y, (tpIssue n sel eff (s.after dt, s.mem)).2))) ?_
  dsimp only
  exact if_neg hno.mp

end

/-- Settles O54: each instruction issues with the effect stated. -/
theorem controlFlowIssues : Obligations.ControlFlowIssues := by
  unfold Obligations.ControlFlowIssues
  intro s dt n w hi r t c left goes count mask
  refine ⟨fun ho hf => ?_, fun ho hf hstop => ?_, fun ho hstop => ?_, fun ho => ?_, fun ho => ?_, fun ho => ?_, fun ho => ?_, fun ho => ?_, fun ho => ?_⟩
  · exact tpIssue_issues s dt n w (isFn 0 0) (fun _ _ r => r) hi (isFn_of ho hf) rfl
  · exact issue_unasked hi (sel := isFn 0 1) (eff := tpHalt n) (isFn_of ho hf) rfl rfl hstop (fun d => decide ((d.tp n).state = 1)) (fun d => d.tpStopped n)
  · have hsel : (isOp 1 w && decide (w.fld 10 0 = mask)) = true := by rw [isOp_of ho]; simp [mask]
    refine issue_unasked hi (sel := fun w => isOp 1 w && decide (w.fld 10 0 = mask)) (eff := tpReg_ tpWait) hsel rfl rfl ?_
      (fun d => (d.tp n).wait.isSome) (fun d => (d.setTp n { d.tp n with state := 1, wait := none }).tpStopped n)
    change (if (t.source mask).isSome then t else { t with wait := some mask }).stopReq = false
    split <;> exact hstop
  · have hsel : (isOp 2 w && decide (w.fld 7 0 = w.fld 7 0)) = true := by rw [isOp_of ho]; simp
    exact tpIssue_issues s dt n w (fun v => isOp 2 v && decide (v.fld 7 0 = w.fld 7 0)) (tpSig n) hi hsel rfl
  · exact registers_issue hi (isOp_of ho) rfl
  · exact registers_issue hi (isOp_of ho) rfl
  · exact registers_issue hi (isOp_of ho) rfl
  · exact registers_issue hi (isOp_of ho) rfl
  · exact registers_issue hi (isOp_of ho) rfl

/-! ### Queues -/

/-- With no byte marked a read of region 3 meets none. -/
theorem Dev.meets_none (d : Dev) (requester : Nat) (h : d.cmc.facet = []) : d.meets requester = ([], d) := by
  unfold Dev.meets
  rw [h]
  rfl

theorem TpRes.feedRead_unmarked (r : TpRes) (n f : Nat) (h : r.dev.cmc.facet = []) : r.feedRead n f = r := by
  unfold TpRes.feedRead
  rw [Dev.meets_none _ _ h]
  rfl

theorem Queue.settle_of_room (q : Queue) (h : q.tight = false) : q.settle = (q, false) := by
  unfold Queue.settle
  rw [h]

/-- A push into a queue that has room only adds the word. -/
theorem Queue.push_of_room (q : Queue) (depth c v : Nat) (e : Bool) (hd : q.dropping = false) (ht : q.tight = false) (hl : q.items.length < depth) :
    q.push depth c v e = ({ q with items := q.items ++ [(v, e)], pushedAt := some c, pushed := q.pushedOn c + 1, tight := false }, false) := by
  unfold Queue.push
  rw [Queue.settle_of_room q ht]
  dsimp only
  rw [hd, if_neg (by decide), decide_eq_false (by omega : ¬ depth ≤ q.items.length)]

/-- A pop that finds no word of an earlier cycle underruns. -/
theorem Queue.pop_underrun (q : Queue) (c : Nat) (h : q.ready c = []) : q.pop c = ({ q with underrun := true }, q.last, false, true) := by
  unfold Queue.pop
  split
  · rfl
  · rw [h]; rfl

theorem Queue.pop_word (q : Queue) (c v : Nat) (e : Bool) (rest : List (Nat × Bool)) (hq : q.items = (v, e) :: rest) (h : q.ready c ≠ []) :
    q.pop c = ({ q with items := rest, last := v, tight := false }, v, e, false) := by
  unfold Queue.pop
  rw [hq]
  dsimp only
  rw [if_neg (by simpa using h)]

/-! ### What an issue finds -/

theorem Dev.facetHeal_clk (d : Dev) (g a n : Nat) : (d.facetHeal g a n).clk = d.clk := rfl

/-- The stores that reach memory leave the clock alone. -/
theorem State.tpFinds_clk (s : State) (dt n : Nat) : (s.tpFinds dt n).dev.clk = (s.after dt).clk :=
  foldl_keeps (fun y : Dev => y.clk = (s.after dt).clk) (fun d (p : Nat × Nat × List Byte) => d.facetHeal 2 (n * tpMask + p.2.1) p.2.2.length) _ _ rfl
    (by exact fun _ _ h => h)

/-! ### Which write of a control register it is -/

theorem isBindClr_of_ne {t : Tp} {w : Word} (h : iImm6 w ≠ 4) : isBindClr t w = false := by
  unfold isBindClr
  simp [h]

theorem isTcmpHi_of_ne {w : Word} (h : iImm6 w ≠ 7) : isTcmpHi w = false := by
  unfold isTcmpHi
  simp [h]

theorem isBindClr_eq {t : Tp} {w : Word} (ho : iOp w = 0x1F) (hf : iFn w = 1) (h4 : iImm6 w = 4) :
    isBindClr t w = (t.d.getD (iRa w) 0).toNat.testBit 11 := by
  unfold isBindClr aluA Tp.dr
  rw [isFn_of ho hf, h4, Nat.testBit_eq_decide_div_mod_eq]
  rfl

/-- A command on the device and its memories, at the time of its tick. -/
theorem onAll_eq (dt : Nat) (f : Dev → Mems → Dev × Mems) (s : State) : onAll dt f s = .next (s.ontoAll (f (s.after dt) s.mem)) := rfl

theorem exec_tpMtc (dt n : Nat) (s : State) : exec (.tpMtc dt n) s = .next (s.ontoAll
    (tpIssue n (fun w => isFn 0x1F 1 w && !isBindClr (((s.after dt).tp n).settle (s.after dt).cyc) w && !isTcmpHi w) (tpReg_ tpMtc) (s.after dt, s.mem))) := rfl

theorem exec_tpBindClr (dt n : Nat) (s : State) : exec (.tpBindClr dt n) s = .next (s.ontoAll
    (tpIssue n (isBindClr (((s.after dt).tp n).settle (s.after dt).cyc)) (tpReg_ tpMtc) (s.after dt, s.mem))) := rfl

section
variable {s : State} {dt n : Nat} {w : Word} (hi : s.issues dt n w = true)
include hi

/-- A write of a control register, of neither BIND_CLR nor TCMP_HI, issues with the effect of tpMtc. -/
theorem mtc_issues (ho : iOp w = 0x1F) (hf : iFn w = 1) (hb : isBindClr (((s.after dt).tp n).settle (s.after dt).cyc) w = false) (h7 : iImm6 w ≠ 7)
    {t : Tp} (ht : tpMtc (s.after dt).cyc w (s.tpFinds dt n).tp = t) :
    exec (.tpMtc dt n) s = .next (s.tpLeft dt n { s.tpFinds dt n with tp := t }) := by
  have hsel : (isFn 0x1F 1 w && !isBindClr (((s.after dt).tp n).settle (s.after dt).cyc) w && !isTcmpHi w) = true := by
    rw [isFn_of ho hf, hb, isTcmpHi_of_ne h7]
    rfl
  rw [exec_tpMtc]
  have hissue := registers_issue hi (sel := fun w => isFn 0x1F 1 w && !isBindClr (((s.after dt).tp n).settle (s.after dt).cyc) w && !isTcmpHi w) hsel ht
  rw [onAll_eq] at hissue
  exact hissue

end

/-- What each control register takes of a word. -/
theorem tpMtc_status (c : Nat) (w : Word) (t : Tp) (h : iImm6 w = 0) :
    let v := (t.d.getD (iRa w) 0).toNat
    tpMtc c w t =
      { t with z := v.testBit 0, n := v.testBit 1, c := v.testBit 2, v := v.testBit 3, u := v.testBit 4, ie := v.testBit 5, av := v / 64 % 16, sv := v.testBit 10 } := by
  unfold tpMtc aluA Tp.dr
  rw [h]
  simp only [Nat.testBit_eq_decide_div_mod_eq]

theorem tpMtc_epc (c : Nat) (w : Word) (t : Tp) (h : iImm6 w = 1) : tpMtc c w t = { t with epc := (t.d.getD (iRa w) 0).toNat % 2 ^ 19 } := by
  unfold tpMtc; rw [h]; rfl

theorem tpMtc_imask (c : Nat) (w : Word) (t : Tp) (h : iImm6 w = 3) : tpMtc c w t = { t with imask := (t.d.getD (iRa w) 0).toNat % 2 ^ 11 } := by
  unfold tpMtc; rw [h]; rfl

theorem tpMtc_ivec (c : Nat) (w : Word) (t : Tp) (h : iImm6 w = 5) : tpMtc c w t = { t with ivec := (t.d.getD (iRa w) 0).toNat % 2 ^ 19 } := by
  unfold tpMtc; rw [h]; rfl

theorem tpMtc_tcmpLo (c : Nat) (w : Word) (t : Tp) (h : iImm6 w = 6) : tpMtc c w t = { t with tcmpLo := BitVec.ofNat 32 (t.d.getD (iRa w) 0).toNat } := by
  unfold tpMtc; rw [h]; rfl

theorem tpMtc_tcmpHi (c : Nat) (w : Word) (t : Tp) (h : iImm6 w = 7) : tpMtc c w t = { t with
    tcmpHi := BitVec.ofNat 32 (t.d.getD (iRa w) 0).toNat
    armed := some (QWord.ofHalves t.tcmpLo (BitVec.ofNat 32 (t.d.getD (iRa w) 0).toNat)) } := by
  unfold tpMtc; rw [h]; rfl

theorem tpMtc_readOnly (c : Nat) (w : Word) (t : Tp) (h : iImm6 w = 2 ∨ iImm6 w = 8) : tpMtc c w t = t := by
  unfold tpMtc
  rcases h with h | h <;> rw [h] <;> rfl

/-- BIND_CLR clears the binding event where its bit is 1. -/
theorem tpMtc_bind (c : Nat) (w : Word) (t : Tp) (h : iImm6 w = 4) :
    tpMtc c w t = if (t.d.getD (iRa w) 0).toNat.testBit 11 = true then { t with bindPend := false } else t := by
  unfold tpMtc aluA Tp.dr
  rw [h, Nat.testBit_eq_decide_div_mod_eq]
  rfl

/-! ### pop and push -/

theorem tpPop_underrun (c : Nat) (w : Word) (t : Tp) (h : (t.feed (iRa w)).q.ready c = []) :
    tpPop c w t = { t.setFeed (iRa w) { t.feed (iRa w) with q := { (t.feed (iRa w)).q with underrun := true } } with
      u := true, pendD := t.pendD ++ [(c + 6, iRd w, BitVec.ofNat 64 (t.feed (iRa w)).q.last)] } := by
  unfold tpPop
  dsimp only
  rw [Queue.pop_underrun _ _ h]
  rfl

theorem tpPop_word (c : Nat) (w : Word) (t : Tp) (v : Nat) (e : Bool) (rest : List (Nat × Bool)) (hq : (t.feed (iRa w)).q.items = (v, e) :: rest)
    (h : (t.feed (iRa w)).q.ready c ≠ []) :
    tpPop c w t = { t.setFeed (iRa w) { t.feed (iRa w) with
        q := { (t.feed (iRa w)).q with items := rest, last := v, tight := false }
        held := some ((v % 2 ^ 19 - (match t.binding with | some b => tbSlotBase b (iRa w) | none => 0)) / max (v / 2 ^ 32 % 2 ^ 16 * 32) 1) } with
      u := false, pendD := t.pendD ++ [(c + 6, iRd w, BitVec.ofNat 64 v)] } := by
  unfold tpPop
  dsimp only
  rw [Queue.pop_word _ _ v e rest hq h]
  rfl

theorem tpPush_of_room (n c : Nat) (w : Word) (r : TpRes) (hd : r.tp.rq.dropping = false) (ht : r.tp.rq.tight = false)
    (hl : r.tp.rq.items.length < r.tp.rqDepth) :
    tpPush n c w r = { r with tp := { r.tp with rq := { r.tp.rq with
      items := r.tp.rq.items ++ [((r.tp.d.getD (iRa w) 0).toNat, decide (iFn w = 2))]
      pushedAt := some c
      pushed := r.tp.rq.pushedOn c + 1
      tight := false } } } := by
  unfold tpPush
  dsimp only
  rw [if_neg (by omega), Queue.push_of_room _ _ _ _ _ hd ht hl]
  rfl

/-- Settles O55: each instruction issues with the effect stated. -/
theorem queuesAndControlRegisters : Obligations.QueuesAndControlRegisters := by
  unfold Obligations.QueuesAndControlRegisters
  refine ⟨fun s dt n w hi => ?_, fun s dt n w hi ho hf h4 => ?_⟩
  · intro r t c left f x a room base bit
    have hmtc := fun ho hf (h4 : iImm6 w ≠ 4) h7 => @mtc_issues s dt n w hi ho hf (isBindClr_of_ne h4) h7
    refine ⟨fun ho => ⟨fun hf hm hq => ?_, fun v e rest hf hm hq hr => ?_, fun hf hd ht hl => ?_, fun hf => ?_, fun hf => ?_⟩,
      fun ho => ⟨fun hf => ?_, fun hf => ⟨fun h => ?_, fun h => ?_, fun h => ?_, fun h => ?_, fun h => ?_, fun h => ?_, fun h => ?_⟩, fun hf => ?_⟩⟩
    · have heff : tpPopRead n c w r = { r with tp := tpPop c w t } := by
        unfold tpPopRead
        rw [TpRes.feedRead_unmarked _ _ _ hm]
        rfl
      rw [tpPop_underrun c w t hq] at heff
      exact (tpIssue_issues s dt n w (isFn 0x1E 0) (tpPopRead n) hi (isFn_of ho hf) (congrArg TpRes.trap heff)).trans
        (congrArg (fun z => Host.Outcome.next (s.tpLeft dt n z)) heff)
    · have heff : tpPopRead n c w r = { r with tp := tpPop c w t } := by
        unfold tpPopRead
        rw [TpRes.feedRead_unmarked _ _ _ hm]
        rfl
      rw [tpPop_word c w t v e rest hq hr] at heff
      exact (tpIssue_issues s dt n w (isFn 0x1E 0) (tpPopRead n) hi (isFn_of ho hf) (congrArg TpRes.trap heff)).trans
        (congrArg (fun z => Host.Outcome.next (s.tpLeft dt n z)) heff)
    · have heff := tpPush_of_room n c w r hd ht hl
      exact (tpIssue_issues s dt n w (fun w => isFn 0x1E 1 w || isFn 0x1E 2 w) (tpPush n) hi (isFn_of_or ho hf) (congrArg TpRes.trap heff)).trans
        (congrArg (fun z => Host.Outcome.next (s.tpLeft dt n z)) heff)
    · exact registers_issue hi (isFn_of ho hf) rfl
    · exact registers_issue hi (isFn_of ho hf) rfl
    · exact registers_issue hi (isFn_of ho hf) rfl
    · exact hmtc ho hf (by omega) (by omega) (tpMtc_status c w t h)
    · exact hmtc ho hf (by omega) (by omega) (tpMtc_epc c w t h)
    · exact hmtc ho hf (by omega) (by omega) (tpMtc_imask c w t h)
    · exact hmtc ho hf (by omega) (by omega) (tpMtc_ivec c w t h)
    · exact hmtc ho hf (by omega) (by omega) (tpMtc_tcmpLo c w t h)
    · exact hmtc ho hf (by omega) (by omega) (tpMtc_readOnly c w t h)
    · have hsel : isTcmpHi w = true := by
        unfold isTcmpHi
        rw [isFn_of ho hf, h]
        rfl
      exact registers_issue hi (sel := isTcmpHi) hsel (tpMtc_tcmpHi c w t h)
    · have heff : tpRdt c w r = { r with tp := { t with pendD := t.pendD ++ [(c + 2, iRd w, (s.after dt).clk.count)] } } := by
        unfold tpRdt Tp.setD
        rw [State.tpFinds_clk]
      exact (tpIssue_issues s dt n w (isFn 0x1F 2) tpRdt hi (isFn_of ho hf) rfl).trans (congrArg (fun z => Host.Outcome.next (s.tpLeft dt n z)) heff)
  · intro r a
    have hsel := isBindClr_eq (t := ((s.after dt).tp n).settle (s.after dt).cyc) ho hf h4
    have heff := tpMtc_bind (s.after dt).cyc w r.tp h4
    have ha : (r.tp.d.getD (iRa w) 0).toNat.testBit 11 = a.toNat.testBit 11 := rfl
    rw [ha] at heff
    refine ⟨fun h => ?_, fun h => ?_⟩
    · rw [if_pos h] at heff
      have hissue := registers_issue hi (sel := isBindClr (((s.after dt).tp n).settle (s.after dt).cyc)) (hsel.trans h) heff
      rw [onAll_eq] at hissue
      rw [exec_tpBindClr]
      exact hissue
    · rw [if_neg (by rw [h]; decide)] at heff
      exact mtc_issues hi ho hf (hsel.trans h) (by omega) heff

end Sys2Proof.Machine
end

section
/-!
PROOF. O56: what reaches a trace processor from outside its program (R467–R471, R480, R481, R485).
-/

namespace Sys2Proof.Machine

theorem Tp.feed_setFeed_same (t : Tp) (f : Nat) (x : TFeed) : (t.setFeed f x).feed f = x := Tbl.look_put_same _ _ _ _

/-! ### Starts (R485) -/

/-- A start whose tick has come runs its processor, and answers the TP_START that waits. -/
theorem Dev.tpStartTick_due (d : Dev) (n : Nat) (st : TpStart) (hst : (d.tp n).start = some st) (hdue : st.tick ≤ d.now)
    (hstate : (d.tp n).state = 1 ∨ (d.tp n).state = 3) : (d.tpStartTick n).tp n = (d.tpRun n st).tp n := by
  unfold Dev.tpStartTick
  rw [hst]
  dsimp only
  rw [if_neg (by omega), if_pos hstate, (Dev.sameButReports_finish _ _ _).tp]

/-- What runs from a start's tick on: its registers of R456 cleared and PC and IVEC set, or, with RESUME, all of them kept. -/
theorem Dev.tpRun_tp (d : Dev) (n : Nat) (st : TpStart) :
    let t := (d.tpRun n st).tp n
    t.state = 2 ∧ t.start = none ∧ t.nextAt = d.cyc ∧
      (st.resume = false → t.pc = st.entry ∧ t.ivec = st.ivec ∧ t.d = List.replicate 16 0 ∧ t.p = List.replicate 8 0) ∧
      (st.resume = true → t.pc = (d.tp n).pc ∧ t.ivec = (d.tp n).ivec ∧ t.p = (d.tp n).p) := by
  intro t
  have ht : t = (d.tpRun n st).tp n := rfl
  unfold Dev.tpRun at ht
  extract_lets u v at ht
  have hv : t = { v with state := 2, nextAt := d.cyc, start := none, stopReq := false } := ht.trans (d.tp_setTp_same n _)
  rw [hv]
  refine ⟨rfl, rfl, rfl, fun h => ?_, fun h => ?_⟩
  · have hf : v = { u with
        d := List.replicate 16 0, acc := List.replicate 4 (0, 0), accSlow := List.replicate 4 (0, 0), p := List.replicate 8 0,
        b := List.replicate 8 0, l := List.replicate 8 0, pc := st.entry, ivec := st.ivec, pendD := [], pendAcc := [],
        delay := none, rep := none, wait := none, ieNext := false } := if_neg (by rw [h]; decide)
    rw [hf]
    exact ⟨rfl, rfl, rfl, rfl⟩
  · have hf : v = u := if_pos h
    rw [hf]
    exact ⟨rfl, rfl, rfl⟩

/-! ### The timer and interrupts (R467–R469) -/

theorem Tp.timer_armed (t : Tp) (count : Nat) (v : QWord) (h : t.armed = some v) : (t.timer count).timerPend = decide (v.toNat ≤ count) := by
  unfold Tp.timer
  rw [h]

theorem Tp.interrupts_of {t : Tp} {i : Nat} (hie : t.ie = true) (hd : t.delay = none) (hr : t.rep = none) (hs : t.source t.imask = some i) :
    t.interrupts = true := by
  unfold Tp.interrupts Tp.heldOff
  rw [hie, hd, hr, hs]
  rfl

theorem Dev.tpInterrupt_some (d : Dev) (n : Nat) (t : Tp) (i : Nat) (hs : t.source t.imask = some i) : d.tpInterrupt n t =
    d.setTp n { t with ecause := i, epc := t.pc, ie := false, pc := t.ivec / 4 * 4, wait := none, nextAt := d.cyc + 6 } := by
  unfold Dev.tpInterrupt
  rw [hs]

theorem exec_interruptEntry (dt n : Nat) (s : State) : exec (.interruptEntry dt n) s =
    .next (s.onto (if (((s.after dt).tp n).timer (s.after dt).now).state ≠ 2 ∨ (s.after dt).cyc < (((s.after dt).tp n).timer (s.after dt).now).nextAt ∨
      ¬ (((s.after dt).tp n).timer (s.after dt).now).interrupts ∨ tpTraps n (((s.after dt).tp n).timer (s.after dt).now) (s.after dt) s.mem
      then s.after dt else (s.after dt).tpInterrupt n (((s.after dt).tp n).timer (s.after dt).now))) := rfl

/-- A source that is waited for is pending, and no interrupt is taken: issue resumes. -/
def Dev.wake (d : Dev) (n : Nat) : Dev :=
  match ((d.tp n).timer d.now).wait with
  | some mask =>
    if ((d.tp n).timer d.now).state = 2 ∧ (((d.tp n).timer d.now).source mask).isSome ∧ ¬ ((d.tp n).timer d.now).interrupts then
      d.setTp n { (d.tp n).timer d.now with wait := none, nextAt := max ((d.tp n).timer d.now).nextAt (d.cyc + 6) }
    else d
  | none => d

theorem Dev.wake_of (d : Dev) (n mask : Nat) (hw : ((d.tp n).timer d.now).wait = some mask)
    (h : ((d.tp n).timer d.now).state = 2 ∧ (((d.tp n).timer d.now).source mask).isSome = true ∧ ¬ ((d.tp n).timer d.now).interrupts = true) :
    d.wake n = d.setTp n { (d.tp n).timer d.now with wait := none, nextAt := max ((d.tp n).timer d.now).nextAt (d.cyc + 6) } := by
  unfold Dev.wake
  rw [hw]
  exact if_pos h

theorem exec_waitWake (dt n : Nat) (s : State) : exec (.waitWake dt n) s = .next (s.onto ((s.after dt).wake n)) := rfl

/-! ### Feed descriptors (R480, R481) -/

/-- The item of a finished slot lands in it, and its descriptor enters the feed's queue. -/
theorem feedPush_of_room (n f : Nat) (d : Dev) (m : Mems) (b : List Word) (i : FeedItem) (hb : (d.tp n).binding = some b)
    (hi : ((d.tp n).feed f).items.find? (fun (i : FeedItem) => match i.due with | some c => decide (c ≤ d.cyc) | none => false) = some i)
    (hd : ((d.tp n).feed f).q.dropping = false) (ht : ((d.tp n).feed f).q.tight = false) (hl : ((d.tp n).feed f).q.items.length < 2 ^ tbQLog b f) :
    let x := (d.tp n).feed f
    let z := (tpStores n d.cyc (d.tp n) d m).2.2
    let base := tbSlotBase b f + i.slot * i.bytes.length
    (feedPush n f (d, m)).2 = { z with tp := z.tp.writeBytes (n * tpMask + base) (withLost i.bytes x.lost) } ∧
      (((feedPush n f (d, m)).1.tp n).feed f).q.items = x.q.items ++ [(descriptor base i x.lost x.seq, true)] ∧
      (((feedPush n f (d, m)).1.tp n).feed f).seq = x.seq + 1 ∧ (((feedPush n f (d, m)).1.tp n).feed f).lost = 0 := by
  intro x z base
  have hpush := Queue.push_of_room x.q (2 ^ tbQLog b f) d.cyc (descriptor base i x.lost x.seq) true hd ht hl
  unfold feedPush
  dsimp only
  split
  · next w j hw hj =>
    rw [hb] at hw
    have hji : some j = some i := hj.symm.trans hi
    simp only [Option.some.injEq] at hw hji
    subst hw hji
    rw [hpush]
    simp only [Bool.false_eq_true, if_false]
    refine ⟨rfl, ?_⟩
    have htp (e : Dev) (t : Tp) (g a k : Nat) : ((e.setTp n t).facetHeal g a k).tp n = t := e.tp_setTp_same n t
    rw [htp, Tp.feed_setFeed_same]
    exact ⟨rfl, rfl, rfl⟩
  · next hno => exact absurd hi (hno b i hb)

/-- Settles O56: what reaches a processor, source by source. -/
theorem processorsTakeEvents : Obligations.ProcessorsTakeEvents := by
  unfold Obligations.ProcessorsTakeEvents
  intro s dt n f d t
  refine ⟨fun mask hw hst hsrc hint => ?_, fun i hst hat hie hdelay hrep hsrc htrap => ?_, fun v hv => ?_, fun st hst hdue hstate => ?_,
    fun b i hb hi hd ht hl => ?_⟩
  · rw [exec_waitWake, d.wake_of n mask hw ⟨hst, hsrc, by rw [hint]; decide⟩]
  · have hno : ¬ (t.state ≠ 2 ∨ d.cyc < t.nextAt ∨ ¬ t.interrupts ∨ tpTraps n t d s.mem) := by
      rw [hst, Tp.interrupts_of hie hdelay hrep hsrc, htrap]
      simpa using hat
    rw [exec_interruptEntry, if_neg hno, Dev.tpInterrupt_some _ _ _ i hsrc]
  · refine ⟨_, rfl, (iff_of_eq (congrArg (fun u : Tp => u.timerPend = true) (d.tp_setTp_same n t))).trans ?_⟩
    rw [Tp.timer_armed _ _ v hv]
    exact decide_eq_true_iff
  · have hrun := d.tpRun_tp n st
    rw [← d.tpStartTick_due n st hst hdue hstate] at hrun
    exact ⟨_, rfl, rfl, hrun⟩
  · intro x m bytes base
    obtain ⟨h1, h2, h3, h4⟩ := feedPush_of_room n f d s.mem b i hb hi hd ht hl
    exact ⟨_, rfl, h1, h2, h3, h4⟩

end Sys2Proof.Machine
end

section
/-!
PROOF. What is sent stays sent: events and completions only add to what the device sends. What a write of capture memory leaves of the device.
-/

namespace Sys2Proof.Machine

/-! ### What is sent -/

/-- Everything that `a` has sent is the beginning of what `b` has sent. -/
def Dev.sentBefore (a b : Dev) : Prop := a.out <+: b.out

namespace Dev.sentBefore

theorem refl (d : Dev) : d.sentBefore d := List.prefix_refl _

theorem of_eq {a b : Dev} (h : b.out = a.out) : a.sentBefore b := by unfold Dev.sentBefore; rw [h]

theorem trans {a b c : Dev} (h : a.sentBefore b) (g : b.sentBefore c) : a.sentBefore c := List.IsPrefix.trans h g

theorem mem {a b : Dev} (h : a.sentBefore b) {o : Output} (ho : o ∈ a.out) : o ∈ b.out := List.IsPrefix.subset h ho

theorem foldl {α : Type} {f : Dev → α → Dev} (h : ∀ (d : Dev) x, d.sentBefore (f d x)) (l : List α) (d : Dev) : d.sentBefore (l.foldl f d) :=
  foldl_keeps (fun y : Dev => d.sentBefore y) f l d (refl d) fun y x hy => hy.trans (h y x)

end Dev.sentBefore

variable (d : Dev)

theorem Dev.sentBefore_emit (o : Output) : d.sentBefore (d.emit o) := List.prefix_append _ _

theorem Dev.mem_out_emit (o : Output) : o ∈ (d.emit o).out := by simp [Dev.emit]

theorem Dev.sentBefore_sendVector (v : Nat) : d.sentBefore (d.sendVector v) := by
  unfold Dev.sendVector
  split
  · extract_lets m
    split
    · exact .refl d
    · exact d.sentBefore_emit _
  · exact .refl d

theorem Dev.logRecord_out (r : LogRec) : (d.logRecord r).out = d.out := by
  unfold Dev.logRecord
  dsimp only
  split <;> rfl

theorem Dev.sentBefore_raiseAt (id sev unit arg : Nat) (data tb : QWord) : d.sentBefore (d.raiseAt id sev unit arg data tb) := by
  have hlog (e : Event) : (d.logEvent e).out = d.out := by
    unfold Dev.logEvent
    split
    · rfl
    · exact d.logRecord_out _
  unfold Dev.raiseAt Dev.produce
  dsimp only
  have hf := Dev.sentBefore.of_eq (hlog { id := id, sev := sev, unit := unit, arg := arg, tb := tb, data := data })
  generalize d.logEvent _ = f at hf ⊢
  split
  · exact hf
  · split
    · exact hf.trans (f.sentBefore_sendVector _)
    · exact hf

theorem Dev.sentBefore_raise (id unit arg data : Nat) : d.sentBefore (d.raise id unit arg data) := d.sentBefore_raiseAt _ _ _ _ _ _

theorem Dev.sentBefore_writeCompletion (q : Nat) (c : Completion) : d.sentBefore (d.writeCompletion q c) := by
  unfold Dev.writeCompletion
  extract_lets r wraps e f
  have he : d.sentBefore e := (Dev.sentBefore.of_eq (d.noteTurnaround_out c)).trans (Dev.sentBefore_emit _ _)
  have hf : d.sentBefore f := he
  clear_value f
  split
  · exact hf
  · exact hf.trans (f.sentBefore_sendVector _)

theorem Dev.sentBefore_post (q : Nat) (c : Completion) : d.sentBefore (d.post q c) := by
  unfold Dev.post
  split
  · exact .refl d
  · split
    · exact .refl d
    · exact d.sentBefore_writeCompletion q c

theorem Dev.sentBefore_faultRing (q arg : Nat) (data : QWord) : d.sentBefore (d.faultRing q arg data) := by
  unfold Dev.faultRing
  extract_lets r e f
  have hf : d.sentBefore f := by
    unfold f
    split <;> exact .refl d
  exact hf.trans (f.sentBefore_raiseAt _ _ _ _ _ _)

theorem Dev.sentBefore_sampleRing0 : d.sentBefore d.sampleRing0 := by
  unfold Dev.sampleRing0
  extract_lets cfg ok
  split
  · exact .refl d
  · exact d.sentBefore_faultRing 0 3 0

theorem Dev.sentBefore_dropRing (q : Nat) : d.sentBefore (d.dropRing q) := by
  unfold Dev.dropRing
  extract_lets e f
  have hf : d.sentBefore f := .refl d
  have he : d.sentBefore e := .refl d
  split
  · split
    · exact hf.trans f.sentBefore_sampleRing0
    · exact hf
  · exact he

theorem Dev.sentBefore_ringSettled (q : Nat) : d.sentBefore (d.ringSettled q) := by
  unfold Dev.ringSettled
  extract_lets r
  split
  · refine (d.sentBefore_dropRing q).trans (.foldl (fun e k => ?_) _ _)
    split
    · exact Dev.sentBefore.trans (b := e.setRing k { e.ring k with busy := none }) (.refl e) (Dev.sentBefore_post _ _ _)
    · exact .refl e
  · exact .refl d

theorem Dev.sentBefore_finishRing (q : Nat) (w : Answer) : d.sentBefore (d.finishRing q w) := by
  unfold Dev.finishRing
  split
  · exact (Dev.sentBefore.trans (b := d.setRing q { d.ring q with busy := none }) (.refl d) (Dev.sentBefore_post _ _ _)).trans (Dev.sentBefore_ringSettled _ _)
  · exact .refl d

theorem Dev.sentBefore_finish (w : Wait) (a : Answer) : d.sentBefore (d.finish w a) := .foldl (fun e q => e.sentBefore_finishRing q a) _ _

/-! ### What a write of capture memory leaves -/

/-- Two devices agree outside the capture-memory controller. -/
def Dev.sameButCmc (a b : Dev) : Prop := b = { a with cmc := b.cmc }

theorem Dev.sameButCmc.trans {a b c : Dev} (h : a.sameButCmc b) (g : b.sameButCmc c) : a.sameButCmc c := by
  unfold Dev.sameButCmc at h g ⊢
  rw [g, h]

theorem Dev.sameButCmc_healBlock (b : Nat) : d.sameButCmc (d.healBlock b) := rfl

theorem capWrite_sameButCmc (a : Nat) (bs : List Byte) (x : Dev × Mems) : x.1.sameButCmc (capWrite a bs x).1 := by
  unfold capWrite
  extract_lets all blocks m d1 d2
  have h1 : x.1.sameButCmc d1 :=
    foldl_keeps (fun y : Dev => x.1.sameButCmc y) (fun d b => d.healBlock b) blocks x.1 rfl fun y b hy => hy.trans (y.sameButCmc_healBlock b)
  have h2 : x.1.sameButCmc d2 := h1.trans rfl
  clear_value d2
  split <;> exact h2

/-! ### No block is lost or poisoned -/

/-- No pseudo-channel is lost, and no block reads as poisoned for the loss of one. -/
def Dev.noBlockLost (d : Dev) : Prop := ∀ b, d.blockLost b = false ∧ d.pcPoisoned b = false

/-- A write heals: it leaves no block poisoned that was not. -/
theorem Dev.noBlockLost_healBlock (b : Nat) (h : d.noBlockLost) : (d.healBlock b).noBlockLost := by
  intro k
  refine ⟨(h k).1, ?_⟩
  have hk := (h k).2
  unfold Dev.pcPoisoned at hk ⊢
  rw [List.any_eq_false] at hk ⊢
  intro p hp
  change p ∈ d.cmc.poisonPcs.map _ at hp
  obtain ⟨q, hq, rfl⟩ := List.mem_map.1 hp
  have hqk := hk q hq
  change ¬ (decide (_ = d.pcOfBlock k) && !(List.contains _ k)) = true
  split
  · next hif =>
    simp only [Bool.and_eq_true, decide_eq_true_eq, Bool.not_eq_true', not_and, Bool.not_eq_false] at hqk ⊢
    intro he
    have hc : (b :: q.2).contains k = (decide (k = b) || q.2.contains k) := by simp
    rw [hc, hqk he, Bool.or_true]
  · exact hqk

theorem capWrite_noBlockLost (a : Nat) (bs : List Byte) (x : Dev × Mems) (h : x.1.noBlockLost) : (capWrite a bs x).1.noBlockLost := by
  unfold capWrite
  extract_lets all blocks m d1 d2
  have h1 : d1.noBlockLost :=
    foldl_keeps (fun y : Dev => y.noBlockLost) (fun d b => d.healBlock b) blocks x.1 h fun y b hy => y.noBlockLost_healBlock b hy
  have h2 : d2.noBlockLost := h1
  clear_value d2
  split <;> exact h2

end Sys2Proof.Machine
end

section
/-!
PROOF. O49, first part: exports drain, send and publish (R514, R518, R525–R529).
-/

namespace Sys2Proof.Machine

theorem Dev.sameButReports.dmaCh {a b : Dev} (h : a.sameButReports b) (c : Nat) : b.dmaCh c = a.dmaCh c := by
  unfold Dev.sameButReports at h
  unfold Dev.dmaCh
  rw [h]

theorem Dev.sameButReports.blocks {a b : Dev} (h : a.sameButReports b) : b.blocks = a.blocks := by unfold Dev.sameButReports at h; rw [h]

theorem Dev.sameButCmc.marker {a b : Dev} (h : a.sameButCmc b) (n : Nat) : b.marker n = a.marker n := by
  unfold Dev.sameButCmc at h
  unfold Dev.marker
  rw [h]

theorem Dev.sameButCmc.dmaCh {a b : Dev} (h : a.sameButCmc b) (c : Nat) : b.dmaCh c = a.dmaCh c := by
  unfold Dev.sameButCmc at h
  unfold Dev.dmaCh
  rw [h]

/-! ### The request, the swap, the pause -/

section
variable (d : Dev) (c : Nat)

/-- Bringing the request up to date sets only the request, the flush and the publication that is due. -/
theorem Dev.exportReq_some {w : List Word} (h : (d.dmaCh c).words = some w) :
    ∃ flush due req, d.exportReq c = d.setDma c { d.dmaCh c with flush := flush, pubDue := due, req := req } := by
  unfold Dev.exportReq
  dsimp only
  rw [h]
  exact ⟨_, _, _, rfl⟩

/-- With no swap that waits there is none. -/
theorem exportSwap_none (y : Dev × Mems) (h : (y.1.dmaCh c).swapAt = none) : exportSwap c y = y := by
  unfold exportSwap
  dsimp only
  split
  · next hs => rw [h] at hs; cases hs
  · rfl

/-- The check of a pause may pause the channel, and changes nothing else of it. -/
theorem Dev.pauseCheck_dmaCh : ∃ st, (d.pauseCheck c).dmaCh c = { d.dmaCh c with state := st } := by
  unfold Dev.pauseCheck
  dsimp only
  split
  · refine ⟨3, ?_⟩
    unfold Dev.dmaEvent
    rw [(Dev.sameButReports_raise _ _ _ _ _).dmaCh, Dev.dmaCh_setDma_same]
  · exact ⟨_, rfl⟩

theorem Dev.sentBefore_pauseCheck : d.sentBefore (d.pauseCheck c) := by
  unfold Dev.pauseCheck
  dsimp only
  split
  · exact Dev.sentBefore.trans (b := d.setDma c { d.dmaCh c with state := 3 }) (.refl d) (Dev.sentBefore_raise _ _ _ _ _)
  · exact .refl d

/-- Changing a channel's stages changes of the channel itself only its record tails. -/
theorem Dev.onStages_dmaCh (f : StageQ → StageQ) (g : RecordTail → RecordTail) :
    (d.onStages c f g).dmaCh c = { d.dmaCh c with tails := (d.dmaCh c).tails.map g } := by
  unfold Dev.onStages
  split <;> exact Dev.dmaCh_setDma_same _ _ _

theorem Dev.onStages_out (f : StageQ → StageQ) (g : RecordTail → RecordTail) : (d.onStages c f g).out = d.out := by
  unfold Dev.onStages
  split <;> rfl

end

/-! ### Queue drains (R518) -/

/-- With no byte marked the read of a marker's queue discards nothing. -/
theorem Dev.drainRead_unmarked (d : Dev) (c : Nat) {w : List Word} (hw : (d.dmaCh c).words = some w) (hk : exKind w = 2) (hf : d.cmc.facet = []) :
    d.drainRead c = d := by
  unfold Dev.drainRead
  rw [hw]
  dsimp only
  rw [if_neg (by omega), if_neg (by omega)]
  unfold Dev.markerRead
  rw [Dev.meets_none _ _ hf]
  rfl

/-- Bytes written one by one. -/
theorem capWrite_singles (l : List (Byte × Nat)) (at_ : Nat → Nat) (z : Dev × Mems) (h : z.1.noBlockLost) :
    let r := l.foldl (fun (z : Dev × Mems) (b : Byte × Nat) => capWrite (at_ b.2) [b.1] z) z
    z.1.sameButCmc r.1 ∧ r.2.tp = z.2.tp ∧ r.2.cap = l.foldl (fun (m : Memory) (b : Byte × Nat) => m.writeBytes (at_ b.2) [b.1]) z.2.cap := by
  induction l generalizing z with
  | nil => exact ⟨rfl, rfl, rfl⟩
  | cons b t ih =>
    obtain ⟨hdev, htp, hcap⟩ := ih (capWrite (at_ b.2) [b.1] z) (capWrite_noBlockLost _ _ z h)
    rw [capWrite_tp] at htp
    rw [capWrite_cap h] at hcap
    exact ⟨(capWrite_sameButCmc _ _ z).trans hdev, htp, hcap⟩

/-- The oldest whole packet of a marker's queue moves into the staging of its channel. -/
theorem queueDrain_moves (d : Dev) (m : Mems) (c : Nat) {w : List Word} (hw : (d.dmaCh c).words = some w) (hk : exKind w = 2)
    (hp : packetsIn ((d.marker (exUnit w)).q.ready d.clk.cycle) ≠ 0) (hf : d.cmc.facet = []) (hl : d.noBlockLost)
    (hroom : (d.dmaCh c).staged - (d.dmaCh c).stg + (drainBytes false (d.marker (exUnit w)).q.lossy (takePacket (d.marker (exUnit w)).q.items)).length
      ≤ (d.dmaCh c).stageSize) :
    let q := (d.marker (exUnit w)).q
    let bs := drainBytes false q.lossy (takePacket q.items)
    let x := d.dmaCh c
    let z := queueDrain c (d, m)
    (z.1.marker (exUnit w)).q.items = q.items.drop (takePacket q.items).length ∧ (z.1.dmaCh c).staged = x.staged + bs.length ∧ z.2.tp = m.tp ∧
      z.2.cap = (bs.zipIdx).foldl (fun (m : Memory) (b : Byte × Nat) => m.writeBytes (x.stageAddr (x.staged + b.2)) [b.1]) m.cap := by
  intro q bs x z
  let e := (d.setMarker (exUnit w) { d.marker (exUnit w) with q := q.drained (takePacket q.items) }).setDma c
    { x with staged := x.staged + bs.length, drains := x.drains ++ [(x.staged + bs.length, d.cyc)] }
  let r := (bs.zipIdx).foldl (fun (z : Dev × Mems) (b : Byte × Nat) => capWrite (x.stageAddr (x.staged + b.2)) [b.1] z) (e, m)
  have hz : z = (r.1.exportReq c, r.2) := by
    unfold z queueDrain
    dsimp only
    rw [d.drainRead_unmarked c hw hk hf, hw]
    dsimp only
    rw [decide_eq_false (by omega : ¬ exKind w = 1)]
    simp only [Bool.false_eq_true, if_false]
    rw [if_neg (by rintro (h | h) <;> [omega; exact hp h]), if_neg (Nat.not_lt.mpr hroom)]
    rfl
  obtain ⟨hdev, htp, hcap⟩ := capWrite_singles bs.zipIdx (fun k => x.stageAddr (x.staged + k)) (e, m) hl
  have hdma : r.1.dmaCh c = { x with staged := x.staged + bs.length, drains := x.drains ++ [(x.staged + bs.length, d.cyc)] } :=
    (hdev.dmaCh c).trans (Dev.dmaCh_setDma_same _ _ _)
  have hmk : r.1.marker (exUnit w) = { d.marker (exUnit w) with q := q.drained (takePacket q.items) } :=
    (hdev.marker _).trans (Dev.marker_setMarker_same _ _ _)
  have hwords : (r.1.dmaCh c).words = some w := by rw [hdma]; exact hw
  obtain ⟨fl, due, req, hreq⟩ := r.1.exportReq_some c hwords
  rw [hz]
  dsimp only
  rw [hreq]
  refine ⟨congrArg (fun k : Marker => k.q.items) hmk, ?_, htp, hcap⟩
  rw [Dev.dmaCh_setDma_same, hdma]

/-! ### Packets (R529) -/

/-- A channel with no swap that waits, a request and room writes its next packet. -/
theorem packetStart_writes (d : Dev) (m : Mems) (c : Nat) (errs : List Upset) {w : List Word} (p : Packet) (e : Dev) (hw : (d.dmaCh c).words = some w)
    (hs : (d.dmaCh c).swapAt = none) (hst : ((d.exportReq c).dmaCh c).state = 1 ∨ ((d.exportReq c).dmaCh c).state = 4)
    (hr : ((d.exportReq c).dmaCh c).req = true) (hb : (d.exportReq c).pcie.busMaster = true) (hp : nextPacket errs c w (d.exportReq c, m) = some (p, e))
    (hroom : ((d.exportReq c).dmaCh c).written + p.size ≤ ((d.exportReq c).dmaCh c).head + 2 ^ exHostLog w)
    (hfit : p.size ≤ 2 ^ exHostLog w - ((d.exportReq c).dmaCh c).written % 2 ^ exHostLog w) :
    packetStart c errs (d, m) = ((e.putPacket c w p).exportReq c, m) := by
  obtain ⟨fl, due, req, hreq⟩ := d.exportReq_some c hw
  have hx : (d.exportReq c).dmaCh c = { d.dmaCh c with flush := fl, pubDue := due, req := req } := by rw [hreq, Dev.dmaCh_setDma_same]
  have hw' : ((d.exportReq c).dmaCh c).words = some w := by rw [hx]; exact hw
  have hs' : ((d.exportReq c).dmaCh c).swapAt = none := by rw [hx]; exact hs
  unfold packetStart
  rw [exportSwap_none c (d, m) hs]
  dsimp only
  rw [hw']
  dsimp only
  have hgo : ¬ ((((d.exportReq c).dmaCh c).state ≠ 1 ∧ ((d.exportReq c).dmaCh c).state ≠ 4) ∨ ((d.exportReq c).dmaCh c).swapAt.isSome = true ∨
      (!((d.exportReq c).dmaCh c).req) = true ∨ (!(d.exportReq c).pcie.busMaster) = true) := by
    rw [hs', hr, hb]
    simp only [Option.isSome_none, Bool.not_true, Bool.false_eq_true, or_false]
    omega
  rw [if_neg hgo, hp]
  dsimp only
  rw [if_neg (by omega), if_pos hroom]

/-! ### Flush and publication (R528, R529) -/

theorem Dev.flushTimer_due (d : Dev) (c k : Nat) {w : List Word} (hw : (d.dmaCh c).words = some w) (ho : d.oldestUnsent c = some k)
    (hdue : k + 3000 * exFlush w ≤ d.clk.cycle) : d.flushTimer c = (d.setDma c { d.dmaCh c with flush := true }).exportReq c := by
  unfold Dev.flushTimer
  dsimp only
  rw [hw, ho]
  exact if_pos hdue

/-- A publication that is due covers all that was written, and its flush read goes out. -/
theorem Dev.publicationStart_due (d : Dev) (c : Nat) {w : List Word} (hw : (d.dmaCh c).words = some w) :
    let z := (d.exportReq c).dmaCh c
    let addr := exBase w + BitVec.ofNat 64 ((z.written - 1) % 2 ^ exHostLog w)
    (z.state = 1 ∨ z.state = 2 ∨ z.state = 4) → z.pub = none → z.tail < z.written →
      (65536 ≤ z.written - z.pubWritten ∨ z.req = false ∨ z.pubDue = true ∨ z.state = 2 ∨ z.swapAt.isSome = true) → (d.exportReq c).pcie.busMaster = true →
      (d.publicationStart c).out = d.out ++ [.read (1000 + c) addr 1 {}] ∧
        ((d.publicationStart c).dmaCh c).pub = some { written := z.written, stg := z.stgSent, seq := z.seq, turn := z.turn, addr := addr, since := d.clk.time } ∧
        ((d.publicationStart c).dmaCh c).pubWritten = z.written := by
  intro z addr hst hpub htail hdue hb
  obtain ⟨fl, du, req, hreq⟩ := d.exportReq_some c hw
  have hx : z = { d.dmaCh c with flush := fl, pubDue := du, req := req } := by unfold z; rw [hreq, Dev.dmaCh_setDma_same]
  have hw' : ((d.exportReq c).dmaCh c).words = some w := by change z.words = some w; rw [hx]; exact hw
  have hclk : (d.exportReq c).clk = d.clk := by rw [hreq]; rfl
  have hout : (d.exportReq c).out = d.out := by rw [hreq]; rfl
  have hgo : (z.state = 1 ∨ z.state = 2 ∨ z.state = 4) ∧ z.pub.isNone = true ∧ z.tail < z.written ∧
      (decide (65536 ≤ z.written - z.pubWritten) || !z.req || z.pubDue || decide (z.state = 2) || z.swapAt.isSome) = true ∧
      (d.exportReq c).pcie.busMaster = true := by
    refine ⟨hst, by rw [hpub]; rfl, htail, ?_, hb⟩
    rcases hdue with h | h | h | h | h <;> simp [h]
  let e := (d.exportReq c).setDma c { z with
    pub := some { written := z.written, stg := z.stgSent, seq := z.seq, turn := z.turn, addr := addr, since := (d.exportReq c).clk.time }
    pubWritten := z.written, pubDue := false }
  have hp : d.publicationStart c = (e.onStages c (fun q => { q with pub := q.pub ++ q.sent, sent := [] }) (fun t => { t with inPub := t.sent })).emit
      (.read (1000 + c) addr 1 {}) := by
    unfold Dev.publicationStart
    dsimp only
    rw [hw']
    exact if_pos hgo
  have hch : (d.publicationStart c).dmaCh c = { e.dmaCh c with tails := (e.dmaCh c).tails.map (fun t => { t with inPub := t.sent }) } := by
    rw [hp]
    exact Dev.onStages_dmaCh e c (fun q => { q with pub := q.pub ++ q.sent, sent := [] }) (fun t => { t with inPub := t.sent })
  refine ⟨?_, ?_, ?_⟩
  · rw [hp, Dev.emit_out, Dev.onStages_out]
    exact congrArg (· ++ _) hout
  · rw [hch, Dev.dmaCh_setDma_same, hclk]
  · rw [hch, Dev.dmaCh_setDma_same]

/-- What the flush read of a publication brings: all that it covers is published. -/
theorem flushReadComplete_publishes (d : Dev) (m : Mems) (c : Nat) {w : List Word} (p : Publication) (hw : (d.dmaCh c).words = some w)
    (hp : (d.dmaCh c).pub = some p) (hs : (d.dmaCh c).swapAt = none) :
    let z := flushReadComplete c (d, m)
    z.2 = m ∧ (z.1.dmaCh c).tail = p.written ∧ (z.1.dmaCh c).pub = none ∧ (z.1.dmaCh c).stg = p.stg ∧
      (exRelay w = false → .write (exTail w) (qwords p.written) {} ∈ z.1.out) := by
  intro z
  let d1 := d.onStages c (fun q => { q with pub := [] }) (fun t => { t with pubd := t.inPub })
  let x := d1.dmaCh c
  let d2 := d1.setDma c { x with
      pub := none
      tail := p.written
      stg := p.stg
      pubSeq := p.seq
      pubTurn := p.turn
      tries := 0
      drains := x.drains.filter (fun q => decide (p.stg < q.1))
      tails := x.tails.filter (fun t => decide (t.pubd < t.len))
      state := if x.state = 4 then (if x.pausePending then 2 else 1) else x.state
      pausePending := if x.state = 4 then false else x.pausePending }
  let d3 := if exRelay w then d2 else d2.emit (.write (exTail w) (qwords p.written) {})
  let d4 := if exNotify w ≠ 0 ∧ x.tail / 2 ^ exNotify w < p.written / 2 ^ exNotify w then d3.dmaEvent c 3 0 p.written else d3
  have hz : z = exportSwap c ((d4.pauseCheck c).exportReq c, m) := by
    unfold z flushReadComplete
    dsimp only
    rw [hp, hw]
  have hx : x = { d.dmaCh c with tails := (d.dmaCh c).tails.map (fun t => { t with pubd := t.inPub }) } := Dev.onStages_dmaCh d c _ _
  have h2 : (d2.dmaCh c).tail = p.written ∧ (d2.dmaCh c).pub = none ∧ (d2.dmaCh c).stg = p.stg ∧ (d2.dmaCh c).swapAt = none ∧ (d2.dmaCh c).words = some w := by
    unfold d2
    rw [Dev.dmaCh_setDma_same]
    clear_value x
    subst hx
    exact ⟨rfl, rfl, rfl, hs, hw⟩
  have h3 : d3.dmaCh c = d2.dmaCh c := by unfold d3; split <;> rfl
  have h4 : d4.dmaCh c = d2.dmaCh c := by
    unfold d4
    split
    · exact ((Dev.sameButReports_raise _ _ _ _ _).dmaCh c).trans h3
    · exact h3
  have hsent : d3.sentBefore d4 := by
    unfold d4
    split
    · exact Dev.sentBefore_raise _ _ _ _ _
    · exact .refl d3
  have hwrite : exRelay w = false → .write (exTail w) (qwords p.written) {} ∈ d3.out := by
    intro hr
    unfold d3
    rw [hr, if_neg (by decide)]
    exact Dev.mem_out_emit _ _
  clear_value d2 d3 d4
  obtain ⟨st, h5⟩ := d4.pauseCheck_dmaCh c
  rw [h4] at h5
  obtain ⟨ht, hpn, hstg, hsw, hwd⟩ := h2
  obtain ⟨fl, due, req, h6⟩ := (d4.pauseCheck c).exportReq_some c (w := w) (by rw [h5]; exact hwd)
  have h7 : ((d4.pauseCheck c).exportReq c).dmaCh c = { d2.dmaCh c with state := st, flush := fl, pubDue := due, req := req } := by
    rw [h6, Dev.dmaCh_setDma_same, h5]
  rw [hz, exportSwap_none c _ (by rw [h7]; exact hsw)]
  dsimp only
  rw [h7]
  refine ⟨rfl, ht, hpn, hstg, fun hr => ?_⟩
  rw [h6]
  exact (Dev.sentBefore_pauseCheck d4 c).mem (hsent.mem (hwrite hr))

end Sys2Proof.Machine
end

section
/-!
PROOF. O49: block transfers, and the exports of the part before (R540, R541).
-/

namespace Sys2Proof.Machine

/-! ### Lists by rows -/

/-- Rows of `m` in order are the numbers in order. -/
theorem flatMap_rows {α : Type} (f : Nat → α) (m n : Nat) :
    (List.range n).flatMap (fun k => (List.range m).map (fun j => f (m * k + j))) = (List.range (m * n)).map f := by
  induction n with
  | zero => rfl
  | succ n ih =>
    rw [List.range_succ (n := n), List.flatMap_append, ih, List.flatMap_singleton, Nat.mul_succ, List.range_add, List.map_append, List.map_map]
    rfl

/-- A byte of dwords in order: that of the dword it lies in. -/
theorem bytesOfWords_getD (ws : List Word) (p : Nat) : (bytesOfWords ws).getD p 0 = (bytesOfWord (ws.getD (p / 4) 0)).getD (p % 4) 0 := by
  induction ws generalizing p with
  | nil =>
    have hz : ∀ r, r < 4 → (bytesOfWord 0).getD r 0 = 0 := by decide
    simpa [bytesOfWords] using (hz (p % 4) (Nat.mod_lt _ (by decide))).symm
  | cons w t ih =>
    have hcons : bytesOfWords (w :: t) = bytesOfWord w ++ bytesOfWords t := by simp [bytesOfWords]
    have hlen : (bytesOfWord w).length = 4 := rfl
    rw [hcons]
    by_cases hp : p < 4
    · rw [List.getD_append _ _ _ _ (by omega), Nat.div_eq_of_lt hp, Nat.mod_eq_of_lt hp]
      rfl
    · rw [List.getD_append_right _ _ _ _ (by omega), hlen, ih, show p / 4 = (p - 4) / 4 + 1 by omega, show (p - 4) % 4 = p % 4 by omega]
      rfl

theorem bytesOfWords_length (ws : List Word) : (bytesOfWords ws).length = 4 * ws.length := by
  induction ws with
  | nil => rfl
  | cons w t ih =>
    have hcons : bytesOfWords (w :: t) = bytesOfWord w ++ bytesOfWords t := by simp [bytesOfWords]
    rw [hcons, List.length_append, ih, List.length_cons]
    change 4 + _ = _
    omega

theorem bytesOfWords_flatMap {α : Type} (l : List α) (f : α → List Word) : l.flatMap (fun k => bytesOfWords (f k)) = bytesOfWords (l.flatMap f) := by
  unfold bytesOfWords
  rw [List.flatMap_assoc]

/-! ### The end of a block command -/

/-- The only block command ends: none is left, and what was sent is sent. -/
theorem Dev.endBlock_only (d : Dev) (ch : Nat) (j : BlockJob) (w : Answer) (hb : d.blocks = [(ch, j)]) :
    (d.endBlock ch j none w).blocks = [] ∧ d.sentBefore (d.endBlock ch j none w) := by
  unfold Dev.endBlock
  extract_lets d1 x0 d2
  have hdrop : Tbl.drop ch d.blocks = [] := by rw [hb]; simp [Tbl.drop]
  have h2 : d2.blocks = [] := hdrop
  have hs : d.sentBefore d2 := .refl d
  clear_value d2
  have hend (e : Dev) (he : e.blocks = []) : e.nextBlock ch = e := by
    unfold Dev.nextBlock
    rw [he]
    rfl
  split
  · split
    · have hf : (d2.finishRing j.ring w).blocks = [] := (Dev.sameButReports_finishRing d2 j.ring w).blocks.trans h2
      rw [hend _ hf]
      exact ⟨hf, hs.trans (d2.sentBefore_finishRing _ _)⟩
    · rw [hend _ h2]; exact ⟨h2, hs⟩
  · rw [hend _ h2]; exact ⟨h2, hs⟩

/-! ### BLOCK_READ -/

/-- Lines that are not marked and in which nothing is upset are read in order, and do nothing. -/
theorem blockLines_clean (first n : Nat) (d : Dev) (m : Mems) (h : ∀ l, d.lineMarked l = false) :
    blockLines first n [] (d, m) = ((List.range n).flatMap (fun i => m.cap.readBytes (64 * (first + i)) 64), none, d) := by
  induction n with
  | zero => rfl
  | succ n ih =>
    have hline (l : Nat) : d.lineData m.cap [] l = (.clean, m.cap.readBytes (64 * l) 64) := by
      unfold Dev.lineData
      rw [h l]
      rfl
    unfold blockLines at ih ⊢
    rw [List.range_succ (n := n), List.foldl_append, ih, List.flatMap_append, List.flatMap_singleton, List.foldl_cons, List.foldl_nil]
    dsimp only
    rw [hline]
    rfl

/-- A block read of whole clean lines sends their bytes, and its channel is free again. -/
theorem blockComplete_read (dev : Dev) (m : Mems) (ch : Nat) (j : BlockJob) (data : List Word) (hch : ch < 64) (hb : dev.blocks = [(ch, j)])
    (hw : j.write = false) (h0 : 0 < j.length) (hl : j.length % 64 = 0) (hc : j.cap % 64 = 0) (hm : ∀ l, dev.lineMarked l = false) :
    let z := blockComplete ch data [] (dev, m)
    z.2 = m ∧ z.1.blocks = [] ∧
      .write (BitVec.ofNat 64 j.host) (wordsOfBytes ((List.range j.length).map (fun i => m.cap.read (j.cap + i)))) {} ∈ z.1.out := by
  intro z
  have hbytes : (List.range (j.length / 64)).flatMap (fun i => m.cap.readBytes (64 * (j.cap / 64 + i)) 64) =
      (List.range j.length).map (fun i => m.cap.read (j.cap + i)) := by
    obtain ⟨n, hn⟩ : ∃ n, j.length = 64 * n := ⟨j.length / 64, by omega⟩
    rw [hn, Nat.mul_div_cancel_left _ (by decide), ← flatMap_rows (fun i => m.cap.read (j.cap + i)) 64 n]
    congr 1
    funext i
    unfold Memory.readBytes
    refine List.map_congr_left fun k _ => congrArg m.cap.read ?_
    omega
  have hne : ((List.range j.length).map (fun i => m.cap.read (j.cap + i))).isEmpty = false := by
    rw [List.isEmpty_eq_false_iff, Ne, List.map_eq_nil_iff, List.range_eq_nil]
    omega
  let e := (dev.emit (.write (BitVec.ofNat 64 j.host) (wordsOfBytes ((List.range j.length).map (fun i => m.cap.read (j.cap + i)))) {})).emit
    (.read (2000 + ch) (BitVec.ofNat 64 (j.host + j.length - 1)) 1 {})
  have hz : z = (e.endBlock ch j none { result0 := BitVec.ofNat 64 j.length }, m) := by
    unfold z blockComplete
    dsimp only
    rw [hb]
    simp only [List.find?_cons, decide_true]
    rw [if_neg (by omega), hw, if_neg (by decide), blockLines_clean _ _ _ _ hm, hbytes]
    dsimp only
    rw [hne]
    rfl
  obtain ⟨hbl, hsent⟩ := e.endBlock_only ch j { result0 := BitVec.ofNat 64 j.length } hb
  rw [hz]
  exact ⟨rfl, hbl, hsent.mem ((Dev.sentBefore_emit _ _).mem (Dev.mem_out_emit _ _))⟩

/-! ### BLOCK_WRITE -/

/-- The bytes of block `i` of a transfer. -/
def blockBytes (data : List Word) (i : Nat) : List Byte := bytesOfWords ((List.range 128).map (fun j => data.getD (128 * i + j) 0))

theorem blockBytes_length (data : List Word) (i : Nat) : (blockBytes data i).length = 512 := by
  unfold blockBytes
  rw [bytesOfWords_length, List.length_map, List.length_range]

theorem blockBytes_getD (data : List Word) (i r : Nat) (h : r < 512) : (blockBytes data i).getD r 0 = (bytesOfWords data).getD (512 * i + r) 0 := by
  have hget : ((List.range 128).map (fun j => data.getD (128 * i + j) 0)).getD (r / 4) 0 = data.getD (128 * i + r / 4) 0 := by
    rw [List.getD_eq_getElem?_getD, List.getElem?_map, List.getElem?_range (by omega)]
    rfl
  unfold blockBytes
  rw [bytesOfWords_getD, bytesOfWords_getD, hget, show (512 * i + r) / 4 = 128 * i + r / 4 by omega, show (512 * i + r) % 4 = r % 4 by omega]

/-- One more line of the bounce area for block `i`. -/
def bounceStep (data : List Word) (i : Nat) (z : Option (List Byte) × Dev) (k : Nat) : Option (List Byte) × Dev :=
  match z.1 with
  | none => z
  | some bs =>
    let r := z.2.bounceLine (bytesOfWords ((List.range 16).map (fun j => data.getD (128 * i + 16 * k + j) 0))) (upsetsOf [] (8 * i + k))
    (r.1.map (bs ++ ·), r.2)

/-- The lines of the bounce area in which nothing is upset are the block's bytes. -/
theorem bounceLines_clean (d : Dev) (data : List Word) (i n : Nat) : (List.range n).foldl (bounceStep data i) (some [], d) =
    (some ((List.range n).flatMap (fun k => bytesOfWords ((List.range 16).map (fun j => data.getD (128 * i + 16 * k + j) 0)))), d) := by
  induction n with
  | zero => rfl
  | succ n ih =>
    rw [List.range_succ (n := n), List.foldl_append, ih, List.flatMap_append, List.flatMap_singleton]
    rfl

/-- One more block of a transfer whose lines are clean so far. -/
theorem writeBlocks_succ (a n : Nat) (data : List Word) (x : Dev × Mems) (bs : List Byte) (h : (writeBlocks a n data [] x).2.1 = false)
    (hbs : (List.range 8).foldl (bounceStep data n) (some [], (writeBlocks a n data [] x).2.2.1) = (some bs, (writeBlocks a n data [] x).2.2.1)) :
    writeBlocks a (n + 1) data [] x =
      ((writeBlocks a n data [] x).1 + 512, false, capWrite (a + 512 * n) bs ((writeBlocks a n data [] x).2.2.1, (writeBlocks a n data [] x).2.2.2)) := by
  unfold writeBlocks at h hbs ⊢
  rw [List.range_succ (n := n), List.foldl_append, List.foldl_cons, List.foldl_nil]
  generalize List.foldl _ (0, false, x) (List.range n) = y at h hbs ⊢
  rw [if_neg (by rw [h]; decide)]
  change (match ((List.range 8).foldl (bounceStep data n) (some [], y.2.2.1)).1 with
    | none => (y.1, true, (((List.range 8).foldl (bounceStep data n) (some [], y.2.2.1)).2, y.2.2.2))
    | some bs => (y.1 + 512, false, capWrite (a + 512 * n) bs (((List.range 8).foldl (bounceStep data n) (some [], y.2.2.1)).2, y.2.2.2))) = _
  rw [hbs]

theorem bounceBlock_bytes (data : List Word) (i : Nat) :
    (List.range 8).flatMap (fun k => bytesOfWords ((List.range 16).map (fun j => data.getD (128 * i + 16 * k + j) 0))) = blockBytes data i := by
  unfold blockBytes
  rw [bytesOfWords_flatMap, ← flatMap_rows (fun j => data.getD (128 * i + j) 0) 16 8]
  simp only [Nat.add_assoc]

/-- What `n` blocks of a transfer leave: the device outside the controller, the local memories, and the bytes of the target. -/
structure BlocksWritten (a n : Nat) (data : List Word) (x : Dev × Mems) (y : Nat × Bool × (Dev × Mems)) : Prop where
  whole : y.2.1 = false
  dev : x.1.sameButCmc y.2.2.1
  sound : y.2.2.1.noBlockLost
  tp : y.2.2.2.tp = x.2.tp
  wf : y.2.2.2.cap.wf = true
  cap : ∀ p, y.2.2.2.cap.read p = if a ≤ p ∧ p < a + 512 * n then (bytesOfWords data).getD (p - a) 0 else x.2.cap.read p

theorem writeBlocks_written (a n : Nat) (data : List Word) (x : Dev × Mems) (hs : x.1.noBlockLost) (hw : x.2.cap.wf = true) :
    BlocksWritten a n data x (writeBlocks a n data [] x) := by
  induction n with
  | zero => exact ⟨rfl, rfl, hs, rfl, hw, fun p => (if_neg (by omega)).symm⟩
  | succ n ih =>
    obtain ⟨hwhole, hdev, hsound, htp, hwf, hcap⟩ := ih
    rw [writeBlocks_succ a n data x (blockBytes data n) hwhole (by rw [bounceLines_clean, bounceBlock_bytes])]
    generalize writeBlocks a n data [] x = y at *
    have hc : (capWrite (a + 512 * n) (blockBytes data n) (y.2.2.1, y.2.2.2)).2.cap = y.2.2.2.cap.writeBytes (a + 512 * n) (blockBytes data n) := capWrite_cap hsound
    refine ⟨rfl, hdev.trans (capWrite_sameButCmc _ _ (y.2.2.1, y.2.2.2)), capWrite_noBlockLost _ _ (y.2.2.1, y.2.2.2) hsound,
      (capWrite_tp _ _ (y.2.2.1, y.2.2.2)).trans htp, ?_, fun p => ?_⟩
    · rw [hc]
      exact Memory.writeBytes_wf _ _ _ hwf
    · have hlen := blockBytes_length data n
      rw [hc]
      by_cases hin : a + 512 * n ≤ p ∧ p < a + 512 * n + 512
      · obtain ⟨r, rfl⟩ : ∃ r, p = a + 512 * n + r := ⟨p - (a + 512 * n), by omega⟩
        rw [Memory.read_writeBytes _ _ _ _ hwf (by omega), blockBytes_getD _ _ _ (by omega), if_pos (by omega),
          show a + 512 * n + r - a = 512 * n + r by omega]
      · rw [Memory.read_writeBytes_outside _ _ _ _ hwf (by omega), hcap p]
        exact if_congr (by omega) rfl rfl

/-- A block write puts the whole of its data at its target, and its channel is free again. -/
theorem blockComplete_write (dev : Dev) (m : Mems) (ch : Nat) (j : BlockJob) (data : List Word) (hch : ch < 64) (hb : dev.blocks = [(ch, j)])
    (hw : j.write = true) (hl : j.length % 512 = 0) (hs : dev.noBlockLost) (hwf : m.wf = true) :
    let z := blockComplete ch data [] (dev, m)
    z.1.blocks = [] ∧ z.2.tp = m.tp ∧
      ∀ a, z.2.cap.read a = if j.cap ≤ a ∧ a < j.cap + j.length then (bytesOfWords data).getD (a - j.cap) 0 else m.cap.read a := by
  intro z
  obtain ⟨hwhole, hdev, -, htp, -, hcap⟩ := writeBlocks_written j.cap (j.length / 512) data (dev, m) hs (Mems.wf_cap hwf)
  have hz : z = ((writeBlocks j.cap (j.length / 512) data [] (dev, m)).2.2.1.endBlock ch j none { result0 := BitVec.ofNat 64 j.length },
      (writeBlocks j.cap (j.length / 512) data [] (dev, m)).2.2.2) := by
    unfold z blockComplete
    dsimp only
    rw [hb]
    simp only [List.find?_cons, decide_true]
    rw [if_neg (by omega), if_pos hw, hwhole]
    rfl
  generalize writeBlocks j.cap (j.length / 512) data [] (dev, m) = y at *
  have hblocks : y.2.2.1.blocks = [(ch, j)] := by
    unfold Dev.sameButCmc at hdev
    rw [hdev]
    exact hb
  rw [hz]
  refine ⟨(y.2.2.1.endBlock_only ch j _ hblocks).1, htp, fun a => ?_⟩
  rw [show y.2.2.2.cap.read a = _ from hcap a]
  exact if_congr (by omega) rfl rfl

/-- Settles O49: the rows of the exports, then those of a block command. -/
theorem exportsAndBlockTransfers : Obligations.ExportsAndBlockTransfers := by
  unfold Obligations.ExportsAndBlockTransfers
  refine ⟨fun dt c w s => ?_, fun dt ch j data s => ?_⟩
  · intro d x y z hw
    refine ⟨fun hk hp hf hl => ?_, fun errs p e hs hst hr hb hp hroom hfit => ?_, fun k ho hdue => ?_, fun hst hpub htail hdue hb => ?_, fun p hp hs => ?_⟩
    · intro q bs hroom
      obtain ⟨h1, h2, h3, h4⟩ := queueDrain_moves d s.mem c hw hk hp hf hl hroom
      exact ⟨_, rfl, h1, h2, h3, h4⟩
    · exact congrArg (fun r : Dev × Mems => Host.Outcome.next (s.ontoAll r)) (packetStart_writes d s.mem c errs p e hw hs hst hr hb hp hroom hfit)
    · exact congrArg (fun r : Dev => Host.Outcome.next (s.onto r)) (d.flushTimer_due c k hw ho hdue)
    · obtain ⟨h1, h2, h3⟩ := d.publicationStart_due c hw hst hpub htail hdue hb
      exact ⟨_, rfl, rfl, h1, h2, h3⟩
    · obtain ⟨h1, h2, h3, h4, h5⟩ := flushReadComplete_publishes d s.mem c p hw hp hs
      exact ⟨_, rfl, h1, h2, h3, h4, h5⟩
  · intro d hch hb
    refine ⟨fun hw h0 hl hc hm => ?_, fun hw hl hlen hs hwf => ?_⟩
    · obtain ⟨h1, h2, h3⟩ := blockComplete_read d s.mem ch j data hch hb hw h0 hl hc hm
      exact ⟨_, rfl, h1, h2, h3⟩
    · obtain ⟨h1, h2, h3⟩ := blockComplete_write d s.mem ch j data hch hb hw hl hs hwf
      exact ⟨_, rfl, h1, h2, h3⟩

end Sys2Proof.Machine
end

section
/-!
PROOF. O22 and O24: reads that clear, writes of registers, and the capture window (R11, R12, R42–R48).
-/

namespace Sys2Proof.Machine

/-! ### A read that clears (R11, R12) -/

section
variable (d : Dev) (addr i : Nat) (r : RegRow)

/-- The RC fields of a register that a whole read clears. -/
def RegRow.rcFields (r : RegRow) : List RegField := r.fields.filter (fun f => decide (f.access = Access.rc) && decide (f.hi < 32))

/-- A register whose RC fields have returned to their reset values. -/
def RegRow.cleared (r : RegRow) (i : Nat) (w : Word) : Word := r.rcFields.foldl (fun (w : Word) (f : RegField) => w.setFld f.hi f.lo (f.resetAt i)) w

theorem RegRow.rcFields_whole :
    r.fields.filter (fun f => decide (f.access = Access.rc) && decide (8 * 0 ≤ f.lo ∧ f.hi < 8 * (0 + 4))) = r.rcFields := by
  unfold RegRow.rcFields
  simp

/-- What a whole read leaves in the registers: the RC fields cleared, and the events of the tick at them act again. -/
theorem Dev.clearRead_regs (h : RegMap.find addr = some (r, i)) :
    (d.clearRead addr 0 4).regs = if r.rcFields.isEmpty then d.regs else
      Tbl.put addr (((d.eventsAt addr).filter (fun (x : RcEvent) => r.rcFields.any (fun f => decide ((f.hi, f.lo) = x.op.span)))).foldl
        (fun (w : Word) (x : RcEvent) => x.op.run w) (r.cleared i (d.reg addr))) d.regs := by
  unfold Dev.clearRead
  rw [h]
  dsimp only
  rw [RegRow.rcFields_whole]
  split
  · rfl
  · split <;> rfl

theorem RegRow.cleared_of_none (w : Word) (h : r.rcFields.isEmpty = true) : r.cleared i w = w := by
  unfold RegRow.cleared
  rw [List.isEmpty_iff.mp h]
  rfl

theorem Dev.clearRead_reg_ne (b : Nat) (h : RegMap.find addr = some (r, i)) (hb : b ≠ addr) : (d.clearRead addr 0 4).reg b = d.reg b := by
  unfold Dev.reg
  rw [d.clearRead_regs addr i r h]
  split
  · rfl
  · exact Tbl.look_put_ne _ _ _ hb

theorem Dev.clearRead_reg_quiet (h : RegMap.find addr = some (r, i)) (he : d.eventsAt addr = []) : (d.clearRead addr 0 4).reg addr = r.cleared i (d.reg addr) := by
  unfold Dev.reg
  rw [d.clearRead_regs addr i r h]
  split
  · next hn => rw [r.cleared_of_none i _ hn]
  · rw [he, Tbl.look_put_same]
    rfl

/-- An event of the same tick at a field that the read clears acts on the cleared field. -/
theorem Dev.clearRead_reg_event (x : RcEvent) (h : RegMap.find addr = some (r, i)) (he : d.eventsAt addr = [x])
    (hx : ∃ f ∈ r.rcFields, (f.hi, f.lo) = x.op.span) : (d.clearRead addr 0 4).reg addr = x.op.run (r.cleared i (d.reg addr)) := by
  obtain ⟨f, hf, hspan⟩ := hx
  have hne : r.rcFields.isEmpty = false := List.isEmpty_eq_false_iff.mpr (List.ne_nil_of_mem hf)
  have hany : r.rcFields.any (fun f => decide ((f.hi, f.lo) = x.op.span)) = true := List.any_eq_true.mpr ⟨f, hf, decide_eq_true hspan⟩
  unfold Dev.reg
  rw [d.clearRead_regs addr i r h, hne, if_neg (by decide), Tbl.look_put_same, he]
  simp only [List.filter_cons, hany, if_true, List.filter_nil, List.foldl_cons, List.foldl_nil]
  rfl

end

/-- A BAR0 register outside the marker queues, that is no half of a 64-bit one, is read as its view. -/
theorem Dev.readValue_bar0 (d : Dev) (m : Mems) (addr : Nat) (h : addr < 0x400000) (hh : isHighHalf addr = false) (hl : isLowHalf addr = false) :
    d.readValue m .host addr = ((d.view m addr).1, d) := by
  have hq : mkqAt addr = none := if_neg (by omega)
  have hv : d.view m addr = (d.bar0View addr, d) := if_pos h
  simp only [Dev.readValue, hq, hh, hl, Bool.false_eq_true, if_false, hv]

theorem Dev.settleFor_bar0 (d : Dev) (addr : Nat) (h : addr < 0x400000) : d.settleFor addr = d := by
  unfold Dev.settleFor
  rw [if_neg (by omega), if_neg (by omega), if_neg (by omega)]

theorem exec_rcFieldRead_whole (dt addr : Nat) (s : State) :
    exec (.rcFieldRead dt addr 0 4) s = .next (s.onto ((s.after dt).hostReadDword s.mem addr 0 4)) := rfl

/-- Settles O22: the read returns its view, and its RC fields return to their reset values. -/
theorem rcReadClears : Obligations.RcReadClears := by
  unfold Obligations.RcReadClears
  refine ⟨fun dt addr s => ?_, fun d addr i r h => ?_⟩
  · intro d hr ha hi hh hl he
    rw [exec_rcFieldRead_whole, Dev.hostReadDword_reg (.inl hr) ha hi, Dev.readReg_of_no_event 0 4 (by rw [Dev.settleFor_bar0 _ _ ha]; exact he),
      Dev.settleFor_bar0 _ _ ha, Dev.readValue_bar0 _ _ _ ha hh hl]
  · intro go cleared
    exact ⟨fun he => d.clearRead_reg_quiet addr i r h he, fun x he hx => d.clearRead_reg_event addr i r x h he hx, fun b hb => d.clearRead_reg_ne addr i r b h hb⟩

/-! ### Writes (R11, R45, R48) -/

theorem regIndex_below {base stride n addr : Nat} (h : addr < base) : regIndex base stride n addr = none := if_neg (by omega)

/-- A write of a register of the host interface without a row of its own stores its RW fields. -/
theorem Dev.writeDword_plain (d : Dev) (off : Nat) (v : Word) (hr : d.fw.ready = true) (ho : off < 0x1000) (h1 : off ≠ 0x1C) (h2 : off ≠ 0x50)
    (h3 : off < 0x40 ∨ 0x50 < off) (hp : d.breaksPr off v = false) : d.writeDword off v = .ok (d.storeRw off v) := by
  unfold Dev.writeDword
  rw [hr, hp, regIndex_below (by omega), regIndex_below (by omega)]
  simp only [Bool.not_true, Bool.false_and, Bool.false_eq_true, if_false]
  rw [if_neg (by omega), if_neg h1, if_neg (by omega), if_neg h2, if_neg (by omega)]

/-- A store of a register with no further effect of its own sets its RW fields. -/
theorem Dev.storeRw_plain (d : Dev) (addr i : Nat) (v : Word) (r : RegRow) (h : RegMap.find addr = some (r, i)) (h1 : addr ≠ 0x510000) (h2 : addr ≠ 0x520008) :
    d.storeRw addr v = d.setReg addr
      (r.fields.foldl (fun (w : Word) (f : RegField) => if f.access = Access.rw then w.setFld f.hi f.lo (v.fld f.hi f.lo) else w) (d.reg addr)) := by
  unfold Dev.storeRw
  rw [h]
  dsimp only
  rw [if_neg h2, if_neg (fun hc : addr = 0x510000 ∧ _ => h1 hc.1)]

theorem Dev.storeRw_unlisted (d : Dev) (addr : Nat) (v : Word) (h : RegMap.find addr = none) : d.storeRw addr v = d := by
  unfold Dev.storeRw
  rw [h]

theorem Dev.partialWrite_ready (d : Dev) (off lo len : Nat) (hr : d.fw.ready = true) (h : lo ≠ 0 ∨ len < 4) :
    d.partialWrite off lo len = if off = 0x1C then (d.hostStatus 0).autoInc else d.hostStatus 0 := by
  have hr' : (d.hostStatus hsPartialWr).fw.ready = true := hr
  unfold Dev.partialWrite
  rw [if_neg (by omega)]
  dsimp only
  rw [hr', if_neg (by simp)]
  rfl

/-! ### The capture window (R42–R46) -/

theorem exec_bar2Read (dt off len : Nat) (errs : List Upset) (s : State) :
    exec (.bar2Read dt off len errs) s = .next (s.onto ((s.after dt).windowRead s.mem.cap off len errs).noteWindow) := rfl

theorem Dev.noteWindow_out (d : Dev) : d.noteWindow.out = d.out := rfl

theorem linesOf_one (a n : Nat) (h0 : 0 < n) (h : a % 64 + n ≤ 64) : linesOf a n = [a / 64] := by
  unfold linesOf
  rw [if_neg (by omega), show (a + n - 1) / 64 + 1 - a / 64 = 1 by omega]
  simp

theorem upsetsOf_other (errs : List Upset) (line : Nat) (h : ∀ u ∈ errs, u.line ≠ line) : upsetsOf errs line = [] := by
  unfold upsetsOf
  rw [List.map_eq_nil_iff, List.filter_eq_nil_iff]
  intro e he
  simpa using h e he

section
variable (d : Dev) (m : Memory) (off len : Nat) (errs : List Upset)

theorem Dev.windowRead_beyond (h0 : 0 < len) (h : d.windowCapacity < d.fld 0x24 7 0 * 2 ^ 30 + off + len) :
    d.windowRead m off len errs = d.emit .unsupported := by
  unfold Dev.windowRead
  rw [if_neg (by omega), if_pos h]

/-- A read within one line is that line's read. -/
theorem Dev.windowRead_line (h0 : 0 < len) (h : d.fld 0x24 7 0 * 2 ^ 30 + off + len ≤ d.windowCapacity) (hl : (d.fld 0x24 7 0 * 2 ^ 30 + off) % 64 + len ≤ 64) :
    let a := d.fld 0x24 7 0 * 2 ^ 30 + off
    let z := d.windowLine m errs (a / 64)
    d.windowRead m off len errs = z.2.2.emit (.bar2 ((z.1.drop (a % 64)).take len) z.2.1) := by
  unfold Dev.windowRead
  rw [if_neg (by omega), if_neg (by omega), linesOf_one _ _ h0 hl]
  dsimp only [List.foldl_cons, List.foldl_nil]
  rw [List.nil_append, Bool.false_or]

theorem Dev.windowLine_clean (line : Nat) (he : upsetsOf errs line = []) (hm : d.lineMarked line = false) :
    d.windowLine m errs line = (m.readBytes (64 * line) 64, false, d) := by
  unfold Dev.windowLine Dev.lineData
  rw [he, hm]
  rfl

/-- A line that holds the poison pattern reads as zeros, and is counted. -/
theorem Dev.windowLine_marked (line : Nat) (he : upsetsOf errs line = []) (hm : d.lineMarked line = true) :
    d.windowLine m errs line = (List.replicate 64 0, true, d.bump (regStat (d.regionAt (64 * line)) 0x10)) := by
  unfold Dev.windowLine Dev.lineData
  rw [he, hm]
  rfl

theorem replicate_part (a n : Nat) (h : a + n ≤ 64) : ((List.replicate 64 (0 : Byte)).drop a).take n = List.replicate n 0 := by
  rw [List.drop_replicate, List.take_replicate]
  congr 1
  omega

end

/-- Settles O24: writes by their dword, and reads of the capture window by their line. -/
theorem registerWritesAndBar2Reads : Obligations.RegisterWritesAndBar2Reads := by
  unfold Obligations.RegisterWritesAndBar2Reads
  refine ⟨fun dt off lo len v s => ?_, fun dt off len errs s => ?_⟩
  · intro d
    refine ⟨fun hr ho h1 h2 h3 hp => ⟨?_, fun r i h => ?_, fun h => ?_⟩, fun hr h => ?_, rfl, fun k _ => d.reg_hostStatus k⟩
    · exact exec_registerWrite_dword (d.writeDword_plain off v hr ho h1 h2 h3 hp)
    · exact d.storeRw_plain off i v r h (by omega) (by omega)
    · exact d.storeRw_unlisted off v h
    · have hw := d.partialWrite_ready off lo len hr h
      refine ⟨fun hne => ?_, fun heq => ?_⟩
      · rw [if_neg hne] at hw
        exact congrArg (fun y => Host.Outcome.next (s.onto y)) hw
      · rw [if_pos heq] at hw
        exact congrArg (fun y => Host.Outcome.next (s.onto y)) hw
  · intro d a h0
    refine ⟨fun h => ?_, fun h hl he => ?_⟩
    · rw [exec_bar2Read, Dev.windowRead_beyond _ _ _ _ _ h0 h]
    · refine ⟨_, exec_bar2Read dt off len errs s, rfl, fun hm => ?_, fun hm => ?_⟩
      · dsimp only [State.onto]
        rw [Dev.noteWindow_out, Dev.windowRead_line _ _ _ _ _ h0 h hl, Dev.windowLine_clean _ _ _ _ (upsetsOf_other _ _ he) hm]
        rfl
      · dsimp only [State.onto]
        rw [Dev.noteWindow_out, Dev.windowRead_line _ _ _ _ _ h0 h hl, Dev.windowLine_marked _ _ _ _ (upsetsOf_other _ _ he) hm]
        dsimp only
        rw [replicate_part _ _ hl]
        rfl

end Sys2Proof.Machine
end

section
/-!
PROOF. Fields of words: what a field reads after another is set.
-/

namespace Sys2Proof.Machine

/-! ### Bits of a word -/

theorem Word.getLsbD_place (hi lo v i : Nat) :
    (Word.place hi lo v).getLsbD i = (decide (i < 32) && (decide (lo ≤ i) && (decide (i - lo < hi + 1 - lo) && v.testBit (i - lo)))) := by
  unfold Word.place
  rw [BitVec.getLsbD_ofNat, Nat.testBit_mul_two_pow, Nat.testBit_mod_two_pow]

/-- A bit of a word after one of its fields is set: the value's within the field, the word's elsewhere. -/
theorem Word.getLsbD_setFld (w : Word) (hi lo v i : Nat) (hi32 : i < 32) (h : lo ≤ hi) :
    (w.setFld hi lo v).getLsbD i = if lo ≤ i ∧ i ≤ hi then v.testBit (i - lo) else w.getLsbD i := by
  have hone : lo ≤ i → (2 ^ 32 - 1).testBit (i - lo) = true := fun _ => by
    rw [Nat.testBit_two_pow_sub_one]
    simp only [decide_eq_true_eq]
    omega
  unfold Word.setFld Word.mask
  simp only [BitVec.getLsbD_or, BitVec.getLsbD_and, BitVec.getLsbD_not, Word.getLsbD_place, decide_eq_true hi32, Bool.true_and]
  by_cases hl : lo ≤ i
  · rw [hone hl]
    by_cases hh : i ≤ hi
    · have hlt : i - lo < hi + 1 - lo := by omega
      simp [hl, hh, hlt]
    · have hlt : ¬ i - lo < hi + 1 - lo := by omega
      simp [hh, hlt]
  · simp [hl]

theorem Word.testBit_fld (w : Word) (hi lo i : Nat) : (w.fld hi lo).testBit i = (decide (i < hi + 1 - lo) && w.getLsbD (lo + i)) := by
  unfold Word.fld
  rw [Nat.testBit_mod_two_pow, Nat.testBit_div_two_pow, BitVec.getLsbD, Nat.add_comm i lo]

/-- A field is its bits. -/
theorem Word.fld_congr {a b : Word} {hi lo : Nat} (h : ∀ i, lo ≤ i → i ≤ hi → a.getLsbD i = b.getLsbD i) : a.fld hi lo = b.fld hi lo := by
  refine Nat.eq_of_testBit_eq fun i => ?_
  rw [Word.testBit_fld, Word.testBit_fld]
  by_cases hi' : i < hi + 1 - lo
  · rw [h (lo + i) (by omega) (by omega)]
  · simp [hi']

/-- A field that another one does not touch keeps its value as that one is set. -/
theorem Word.fld_setFld_other (w : Word) {hi lo h' l' : Nat} (v : Nat) (hh : hi < 32) (hl' : l' ≤ h') (hne : hi < l' ∨ h' < lo) :
    (w.setFld h' l' v).fld hi lo = w.fld hi lo :=
  Word.fld_congr fun i h1 h2 => by rw [Word.getLsbD_setFld _ _ _ _ _ (by omega) hl', if_neg (by omega)]

/-- A field that is set reads as the value, as far as it goes. -/
theorem Word.fld_setFld_same (w : Word) {hi lo : Nat} (v : Nat) (hh : hi < 32) (hl : lo ≤ hi) : (w.setFld hi lo v).fld hi lo = v % 2 ^ (hi + 1 - lo) := by
  refine Nat.eq_of_testBit_eq fun i => ?_
  rw [Word.testBit_fld, Nat.testBit_mod_two_pow]
  by_cases hi' : i < hi + 1 - lo
  · rw [Word.getLsbD_setFld _ _ _ _ _ (by omega) hl, if_pos (by omega), show lo + i - lo = i by omega]
  · simp [hi']

/-! ### Fields of registers -/

variable (d : Dev)

theorem Dev.fld_setFld_same (a : Nat) {hi lo : Nat} (v : Nat) (hh : hi < 32) (hl : lo ≤ hi) : (d.setFld a hi lo v).fld a hi lo = v % 2 ^ (hi + 1 - lo) := by
  unfold Dev.fld Dev.setFld
  rw [Dev.reg_setReg_same, Word.fld_setFld_same _ _ hh hl]

theorem Dev.fld_setFld_other (a : Nat) {hi lo h' l' : Nat} (v : Nat) (hh : hi < 32) (hl' : l' ≤ h') (hne : hi < l' ∨ h' < lo) :
    (d.setFld a h' l' v).fld a hi lo = d.fld a hi lo := by
  unfold Dev.fld Dev.setFld
  rw [Dev.reg_setReg_same, Word.fld_setFld_other _ _ hh hl' hne]

theorem Dev.fld_setFld_ne (a b hi lo h' l' v : Nat) (h : b ≠ a) : (d.setFld a h' l' v).fld b hi lo = d.fld b hi lo := by
  unfold Dev.fld Dev.setFld
  rw [Dev.reg_setReg, if_neg h]

end Sys2Proof.Machine
end

section
/-!
PROOF. O25: doorbells and ring 0 (R50, R51, R67, R69–R74, R101).
-/

namespace Sys2Proof.Machine

/-! ### Where a doorbell's write goes -/

theorem regIndex_sqDb (q : Nat) (h : q < 64) : regIndex 0x1000 16 64 (0x1000 + 16 * q) = some q := by
  unfold regIndex
  rw [if_pos (by omega)]
  exact congrArg some (by omega)

theorem regIndex_cqDb (q : Nat) (h : q < 64) : regIndex 0x1000 16 64 (0x1004 + 16 * q) = none ∧ regIndex 0x1004 16 64 (0x1004 + 16 * q) = some q := by
  unfold regIndex
  refine ⟨if_neg (by omega), ?_⟩
  rw [if_pos (by omega)]
  exact congrArg some (by omega)

section
variable (d : Dev) (q : Nat) (v : Word)

theorem Dev.writeDword_sqDb (hr : d.fw.ready = true) (hq : q < 64) (hp : d.breaksPr (0x1000 + 16 * q) v = false) :
    d.writeDword (0x1000 + 16 * q) v = .ok (d.sqDoorbell q v) := by
  unfold Dev.writeDword
  rw [hr, hp, regIndex_sqDb q hq]
  simp only [Bool.not_true, Bool.false_and, Bool.false_eq_true, if_false]
  rw [if_neg (by omega), if_neg (by omega)]

theorem Dev.writeDword_cqDb (hr : d.fw.ready = true) (hq : q < 64) (hp : d.breaksPr (0x1004 + 16 * q) v = false) :
    d.writeDword (0x1004 + 16 * q) v = .ok (d.cqDoorbell q v) := by
  unfold Dev.writeDword
  rw [hr, hp, (regIndex_cqDb q hq).1, (regIndex_cqDb q hq).2]
  simp only [Bool.not_true, Bool.false_and, Bool.false_eq_true, if_false]
  rw [if_neg (by omega), if_neg (by omega)]

theorem Dev.writeDword_evqDb (hr : d.fw.ready = true) (hp : d.breaksPr 0x1400 v = false) : d.writeDword 0x1400 v = .ok (d.evDoorbell v) := by
  unfold Dev.writeDword
  rw [hr, hp]
  rfl

theorem Dev.writeDword_ring0 (hr : d.fw.ready = true) (hp : d.breaksPr 0x50 v = false) : d.writeDword 0x50 v = .ok (d.writeRing0Cfg v) := by
  unfold Dev.writeDword
  rw [hr, hp]
  rfl

theorem exec_sqDb {dt : Nat} {s : State} {t : Dev} (hq : q < 64) (h : (s.after dt).writeDword (0x1000 + 16 * q) v = .ok t) :
    exec (.sqDb dt q v) s = .next (s.onto t) :=
  onWrite_ok (f := fun d => if q < 64 then d.writeDword (0x1000 + 16 * q) v else .ok d) ((if_pos hq).trans h)

theorem exec_cqDb {dt : Nat} {s : State} {t : Dev} (hq : q < 64) (h : (s.after dt).writeDword (0x1004 + 16 * q) v = .ok t) :
    exec (.cqDb dt q v) s = .next (s.onto t) :=
  onWrite_ok (f := fun d => if q < 64 then d.writeDword (0x1004 + 16 * q) v else .ok d) ((if_pos hq).trans h)

theorem exec_evqDb {dt : Nat} {s : State} {t : Dev} (h : (s.after dt).writeDword 0x1400 v = .ok t) : exec (.evqDb dt v) s = .next (s.onto t) :=
  onWrite_ok (f := fun d => d.writeDword 0x1400 v) h

theorem exec_ring0Enable {dt : Nat} {s : State} {t : Dev} (h : (s.after dt).writeDword 0x50 v = .ok t) : exec (.ring0Enable dt v) s = .next (s.onto t) :=
  onWrite_ok (f := fun d => d.writeDword 0x50 v) h

theorem exec_ring0Disable {dt : Nat} {s : State} {t : Dev} (h : (s.after dt).writeDword 0x50 v = .ok t) : exec (.ring0Disable dt v) s = .next (s.onto t) :=
  onWrite_ok (f := fun d => d.writeDword 0x50 v) h

/-! ### Doorbells -/

theorem Dev.sqDoorbell_commits (hu : (d.ring q).inUse = true) (ht : v.fld 11 0 < 2 ^ (d.ring q).sqLog2)
    (hc : (v.fld 11 0 + 2 ^ (d.ring q).sqLog2 - (d.ring q).sqTail) % 2 ^ (d.ring q).sqLog2 ≤
      ((d.ring q).sqHead + 2 ^ (d.ring q).sqLog2 - (d.ring q).sqTail - 1) % 2 ^ (d.ring q).sqLog2) :
    d.sqDoorbell q v = d.setRing q { d.ring q with
      sqTail := v.fld 11 0
      bells := if v.fld 11 0 = (d.ring q).sqTail then (d.ring q).bells else (d.ring q).bells ++ [(v.fld 11 0, d.clk.time)] } := by
  unfold Dev.sqDoorbell
  dsimp only
  rw [hu, if_neg (by decide), if_neg (by omega)]

/-- A doorbell in range frees room: a completion that waits for it is written, once no event record of the tick is to go first. -/
theorem Dev.cqDoorbell_frees (hu : (d.ring q).inUse = true) (ht : v.fld 11 0 < 2 ^ (d.ring q).cqLog2)
    (hc : (v.fld 11 0 + 2 ^ (d.ring q).cqLog2 - (d.ring q).cqHead) % 2 ^ (d.ring q).cqLog2 ≤
      ((d.ring q).cqTail + 2 ^ (d.ring q).cqLog2 - (d.ring q).cqHead) % 2 ^ (d.ring q).cqLog2) :
    let x := d.setRing q { d.ring q with cqHead := v.fld 11 0 }
    ((d.ring q).held = none → d.cqDoorbell q v = x) ∧
      ∀ c, (d.ring q).held = some c → (x.ring q).cqFull = false → d.ev.due = [] → d.cqDoorbell q v = (x.writeCompletion q c).ringSettled q := by
  intro x
  have hgo : ¬ (2 ^ (d.ring q).cqLog2 ≤ v.fld 11 0 ∨ ((d.ring q).cqTail + 2 ^ (d.ring q).cqLog2 - (d.ring q).cqHead) % 2 ^ (d.ring q).cqLog2 <
      (v.fld 11 0 + 2 ^ (d.ring q).cqLog2 - (d.ring q).cqHead) % 2 ^ (d.ring q).cqLog2) := by omega
  have hd (y : Dev) (hy : (match (d.ring q).held with
      | some c => if (x.ring q).cqFull || !x.ev.due.isEmpty then x else (x.writeCompletion q c).ringSettled q
      | none => x) = y) : d.cqDoorbell q v = y := by
    refine Eq.trans ?_ hy
    unfold Dev.cqDoorbell
    exact (if_neg (by rw [hu]; decide)).trans (if_neg hgo)
  refine ⟨fun hh => hd x (by rw [hh]), fun c hh hf hdue => hd _ ?_⟩
  rw [hh]
  refine if_neg ?_
  rw [hf, show x.ev.due = [] from hdue]
  decide

theorem Dev.evDoorbell_moves (he : d.ev.enabled = true) (ht : v.fld 15 0 < 2 ^ d.ev.log2)
    (hc : (v.fld 15 0 + 2 ^ d.ev.log2 - d.ev.head) % 2 ^ d.ev.log2 ≤ (d.ev.tail + 2 ^ d.ev.log2 - d.ev.head) % 2 ^ d.ev.log2) :
    d.evDoorbell v = { d with ev := { d.ev with head := v.fld 15 0 } } := by
  unfold Dev.evDoorbell
  dsimp only
  rw [if_pos ⟨he, ht, hc⟩]

/-! ### Refusals -/

/-- A faulted ring has no command to take. -/
theorem Dev.waiting_of_fault (h : (d.ring q).fault = true) : d.waiting q = false := by
  unfold Dev.waiting
  dsimp only
  rw [h]
  simp

theorem Dev.ring_of_rings {a b : Dev} (h : b.rings = a.rings) (q : Nat) : b.ring q = a.ring q := by
  unfold Dev.ring
  rw [h]

theorem Dev.faultRing_fault (arg : Nat) (data : QWord) : ((d.faultRing q arg data).ring q).fault = true := by
  unfold Dev.faultRing
  extract_lets r e f
  have hf : f.ring q = { r with fault := true } := by
    unfold f
    split <;> exact d.ring_setRing_same q _
  rw [Dev.ring_of_rings (Dev.raiseAt_rings _ _ _ _ _ _ _), hf]

theorem Dev.refuseDoorbell_fault (which : Nat) (h : (d.ring q).fault = false) : ((d.refuseDoorbell q which v).ring q).fault = true := by
  have h' : ((d.hostStatus hsDbRange).ring q).fault = false := h
  unfold Dev.refuseDoorbell
  dsimp only
  rw [h', if_neg (by decide)]
  exact Dev.faultRing_fault _ _ _ _

theorem Dev.sqDoorbell_refused (hu : (d.ring q).inUse = true) (ht : 2 ^ (d.ring q).sqLog2 ≤ v.fld 11 0) : d.sqDoorbell q v = d.refuseDoorbell q 0 v := by
  unfold Dev.sqDoorbell
  dsimp only
  rw [hu, if_neg (by decide), if_pos (.inl ht)]

theorem Dev.cqDoorbell_refused (hu : (d.ring q).inUse = true) (ht : 2 ^ (d.ring q).cqLog2 ≤ v.fld 11 0) : d.cqDoorbell q v = d.refuseDoorbell q 1 v := by
  unfold Dev.cqDoorbell
  dsimp only
  rw [hu, if_neg (by decide), if_pos (.inl ht)]

end

/-! ### Ring 0 (R50, R51) -/

theorem Dev.storeRw_rings (d : Dev) (v : Word) : (d.storeRw 0x50 v).rings = d.rings := by
  unfold Dev.storeRw
  split
  · rfl
  · rfl

/-- ENABLE rises with legal registers: ring 0 is in use at what they hold. -/
theorem Dev.writeRing0Cfg_enables (d : Dev) (v : Word) (h0 : d.fld 0x50 16 16 = 0) (h1 : v.fld 16 16 = 1) (hd : (d.ring 0).deleting = false) :
    d.writeRing0Cfg v = (d.storeRw 0x50 v).sampleRing0 := by
  have hd' : ((d.storeRw 0x50 v).ring 0).deleting = false := by rw [Dev.ring_of_rings (d.storeRw_rings v)]; exact hd
  unfold Dev.writeRing0Cfg
  dsimp only
  rw [if_pos h0, if_pos ⟨h1, by rw [hd']; rfl⟩]

theorem Dev.sampleRing0_legal (x : Dev)
    (h : 4 ≤ x.fld 0x50 3 0 ∧ x.fld 0x50 3 0 ≤ 12 ∧ 4 ≤ x.fld 0x50 7 4 ∧ x.fld 0x50 7 4 ≤ 12 ∧ x.fld 0x40 11 0 = 0 ∧ x.fld 0x48 11 0 = 0) :
    x.sampleRing0 = (x.setRing 0 {
      inUse := true
      sqBase := x.reg64 0x40
      cqBase := x.reg64 0x48
      sqLog2 := x.fld 0x50 3 0
      cqLog2 := x.fld 0x50 7 4
      vector := x.fld 0x50 15 8 }).setFld 0x54 0 0 1 :=
  if_pos (decide_eq_true h)

theorem Dev.post_ring_other (d : Dev) (q k : Nat) (c : Completion) (h : k ≠ q) : (d.post q c).ring k = d.ring k := by
  unfold Dev.post
  split
  · rfl
  · split
    · rw [Dev.ring_setRing, if_neg h]
    · unfold Dev.writeCompletion
      extract_lets r wraps e f
      have hf : f.ring k = d.ring k := by
        unfold f
        rw [Dev.ring_setRing, if_neg h]
        exact Dev.ring_of_rings (Dev.noteTurnaround_rings d c) k
      clear_value f
      split
      · exact hf
      · rw [Dev.ring_of_rings (Dev.sendVector_rings _ _)]; exact hf

/-- A key that is dropped holds the default. -/
theorem Tbl.look_drop_same {α : Type} (dflt : α) (k : Nat) (t : Tbl α) : Tbl.look dflt (Tbl.drop k t) k = dflt := by
  induction t with
  | nil => rfl
  | cons p t ih =>
    by_cases hp : p.1 = k
    · simpa [Tbl.drop, hp] using ih
    · have hcons : Tbl.drop k (p :: t) = p :: Tbl.drop k t := by simp [Tbl.drop, hp]
      rw [hcons]
      simpa [Tbl.look, hp] using ih

theorem Tbl.look_drop_ne {α : Type} (dflt : α) {k n : Nat} (t : Tbl α) (h : n ≠ k) : Tbl.look dflt (Tbl.drop k t) n = Tbl.look dflt t n := by
  induction t with
  | nil => rfl
  | cons p t ih =>
    by_cases hp : p.1 = k
    · have hn : p.1 ≠ n := fun hn => h (hn.symm.trans hp)
      simpa [Tbl.drop, Tbl.look, hp, hn, Ne.symm h] using ih
    · have hcons : Tbl.drop k (p :: t) = p :: Tbl.drop k t := by simp [Tbl.drop, hp]
      rw [hcons]
      simpa [Tbl.look] using congrArg (fun y => if p.1 = n then p.2 else y) ih

/-- A ring 0 that is deleted with nothing to wait for is gone, and a ring without a command in execution is as before. -/
theorem Dev.ringSettled_zero (d : Dev) (hdel : (d.ring 0).deleting = true) (hb : (d.ring 0).busy = none) (hh : (d.ring 0).held = none)
    (he : d.fld 0x50 16 16 = 0) :
    (d.ringSettled 0).ring 0 = {} ∧ ∀ k, k ≠ 0 → (d.ring k).busy = none → (d.ringSettled 0).ring k = d.ring k := by
  have hdrop : (d.dropRing 0).ring 0 = {} ∧ ∀ k, k ≠ 0 → (d.dropRing 0).ring k = d.ring k := by
    have hf : ((({ d with rings := Tbl.drop 0 d.rings } : Dev).setFld 0x54 0 0 0).setFld 0x54 1 1 0).fld 0x50 16 16 ≠ 1 := by
      rw [Dev.fld_setFld_ne _ _ _ _ _ _ _ _ (by decide), Dev.fld_setFld_ne _ _ _ _ _ _ _ _ (by decide)]
      change d.fld 0x50 16 16 ≠ 1
      omega
    have hr : (d.dropRing 0).rings = Tbl.drop 0 d.rings := by
      unfold Dev.dropRing
      dsimp only
      rw [if_pos rfl, if_neg hf]
      rfl
    refine ⟨?_, fun k hk => ?_⟩
    · unfold Dev.ring
      rw [hr]
      exact Tbl.look_drop_same _ _ _
    · unfold Dev.ring
      rw [hr]
      exact Tbl.look_drop_ne _ _ hk
  unfold Dev.ringSettled
  dsimp only
  rw [hdel, hb, hh, if_pos (by decide)]
  refine foldl_keeps (fun y : Dev => y.ring 0 = {} ∧ ∀ k, k ≠ 0 → (d.ring k).busy = none → y.ring k = d.ring k) _ _ _
    ⟨hdrop.1, fun k hk _ => hdrop.2 k hk⟩ fun y j hy => ?_
  split
  · next b hbusy =>
    have h0 : j ≠ 0 := by
      rintro rfl
      rw [hy.1] at hbusy
      cases hbusy
    have hkeep (k : Nat) (hk : k ≠ j) :
        ((y.setRing j { y.ring j with busy := none }).post j (y.completion b.cmdId b.sqHead b.noirq {})).ring k = y.ring k := by
      rw [Dev.post_ring_other _ _ _ _ hk, Dev.ring_setRing, if_neg hk]
    refine ⟨(hkeep 0 (Ne.symm h0)).trans hy.1, fun k hk hkb => ?_⟩
    have hkj : k ≠ j := by
      rintro rfl
      rw [hy.2 k hk hkb, hkb] at hbusy
      cases hbusy
    exact (hkeep k hkj).trans (hy.2 k hk hkb)
  · exact hy

/-- ENABLE falls: with nothing in execution and no completion held ring 0 is gone at once. -/
theorem Dev.writeRing0Cfg_disables (d : Dev) (v : Word) (h1 : d.fld 0x50 16 16 = 1) (h0 : v.fld 16 16 = 0) (hu : (d.ring 0).inUse = true)
    (hb : (d.ring 0).busy = none) (hh : (d.ring 0).held = none) :
    ((d.writeRing0Cfg v).ring 0).inUse = false ∧ ∀ k, k ≠ 0 → (d.ring k).busy = none → (d.writeRing0Cfg v).ring k = d.ring k := by
  let e := (d.setFld 0x50 16 16 0).setFld 0x54 1 1 0
  let f := e.setRing 0 { e.ring 0 with deleting := true }
  have hf0 : f.ring 0 = { d.ring 0 with deleting := true } := e.ring_setRing_same 0 _
  have hfk (k : Nat) (hk : k ≠ 0) : f.ring k = d.ring k := by
    unfold f
    rw [Dev.ring_setRing, if_neg hk]
    rfl
  have hfld : f.fld 0x50 16 16 = 0 := by
    change e.fld 0x50 16 16 = 0
    unfold e
    rw [Dev.fld_setFld_ne _ _ _ _ _ _ _ _ (by decide), Dev.fld_setFld_same _ _ _ (by decide) (by decide), Nat.zero_mod]
  have hw : d.writeRing0Cfg v = f.ringSettled 0 := by
    have hab : f.abortWait 0 = f := by
      unfold Dev.abortWait
      rw [hf0]
      dsimp only
      rw [hb]
    unfold Dev.writeRing0Cfg
    dsimp only
    rw [if_neg (by omega), if_pos h0]
    refine (if_pos (show (e.ring 0).inUse = true from hu)).trans ?_
    exact congrArg (fun y : Dev => y.ringSettled 0) hab
  obtain ⟨hr0, hrk⟩ := f.ringSettled_zero (by rw [hf0]) (by rw [hf0]; exact hb) (by rw [hf0]; exact hh) hfld
  rw [hw]
  refine ⟨by rw [hr0], fun k hk hkb => ?_⟩
  rw [hrk k hk (by rw [hfk k hk]; exact hkb), hfk k hk]

/-- Settles O25: doorbells in range and out of it, and ring 0 by its ENABLE. -/
theorem doorbellsAndRing0 : Obligations.DoorbellsAndRing0 := by
  unfold Obligations.DoorbellsAndRing0
  refine ⟨fun dt q v s => ?_, fun dt v s => ?_⟩
  · intro d r up
    refine ⟨fun ⟨hr, hq, hu, hp⟩ ht hc => ?_, fun ⟨hr, hq, hu, hp⟩ ht hc => ?_, fun hr hp he ht hc => ?_, fun ⟨hr, hq, hu, hp⟩ hf ht => ?_,
      fun ⟨hr, hq, hu, hp⟩ hf ht => ?_⟩
    · have hw := d.writeDword_sqDb q v hr hq hp
      rw [d.sqDoorbell_commits q v hu ht hc] at hw
      exact ⟨_, exec_sqDb q v hq hw, rfl, fun h => if_pos h, fun h => if_neg h⟩
    · intro x
      have hw := d.writeDword_cqDb q v hr hq hp
      obtain ⟨hnone, hsome⟩ := d.cqDoorbell_frees q v hu ht hc
      refine ⟨fun hh => ?_, fun c hh hfull hdue => ?_⟩
      · rw [hnone hh] at hw
        exact exec_cqDb q v hq hw
      · rw [hsome c hh hfull hdue] at hw
        exact exec_cqDb q v hq hw
    · have hw := d.writeDword_evqDb v hr hp
      rw [d.evDoorbell_moves v he ht hc] at hw
      exact exec_evqDb v hw
    · have hw := d.writeDword_sqDb q v hr hq hp
      rw [d.sqDoorbell_refused q v hu ht] at hw
      have hfault := d.refuseDoorbell_fault q v 0 hf
      exact ⟨_, exec_sqDb q v hq hw, hfault, Dev.waiting_of_fault _ q hfault⟩
    · have hw := d.writeDword_cqDb q v hr hq hp
      rw [d.cqDoorbell_refused q v hu ht] at hw
      have hfault := d.refuseDoorbell_fault q v 1 hf
      exact ⟨_, exec_cqDb q v hq hw, hfault, Dev.waiting_of_fault _ q hfault⟩
  · intro d x
    refine ⟨fun hr hp h0 h1 hd hok => ?_, fun hr hp h1 h0 hu hb hh => ?_⟩
    · have hw := d.writeDword_ring0 v hr hp
      rw [d.writeRing0Cfg_enables v h0 h1 hd, Dev.sampleRing0_legal _ hok] at hw
      exact exec_ring0Enable v hw
    · obtain ⟨hin, hrest⟩ := d.writeRing0Cfg_disables v h1 h0 hu hb hh
      exact ⟨_, exec_ring0Disable v (d.writeDword_ring0 v hr hp), hin, rfl, hrest⟩

end Sys2Proof.Machine
end

section
/-!
PROOF. O26: what the host drives by MSI-X, EXP_HEAD, EXP_CTRL and MKQ_DATA (R102, R501, R527, R535, R536).
-/

namespace Sys2Proof.Machine

/-! ### Where a write of a register of the exports goes -/

theorem regIndex_dma {c : Nat} (h : c < 64) (off k : Nat) (ho : off < 64) (hk : k < 64) :
    regIndex (0x580000 + off) 64 64 (dmaReg c k) = if k = off then some c else none := by
  unfold regIndex dmaReg
  by_cases hko : k = off
  · rw [if_pos (by omega), if_pos hko]
    exact congrArg some (by omega)
  · rw [if_neg (by omega), if_neg hko]

theorem expCtrl_fields : ∀ c, c < 60 → (RegMap.find (dmaReg c 0x04)).any (fun p => p.1.fields.all (fun f =>
    decide (f.access = Access.pr → 2 ≤ f.lo ∧ f.hi < 32))) = true := by decide +kernel

theorem expHeadHi_fields : ∀ c, c < 60 → (RegMap.find (dmaReg c 0x0C)).any (fun p => p.1.fields.all (fun f => decide (f.access ≠ Access.pr))) = true := by
  decide +kernel

section
variable (d : Dev) (c : Nat)

theorem Dev.mapped_of_find {a : Nat} (ha : 0x400000 ≤ a) (h : (RegMap.find a).isSome = true) : d.mapped a = true := by
  unfold Dev.mapped
  rw [h, decide_eq_true ha]
  rfl

theorem Dev.breaksPr_unless {a : Nat} {v : Word} (h : ∀ r i, RegMap.find a = some (r, i) →
    ∀ f ∈ r.fields, f.access = Access.pr → v.fld f.hi f.lo = (d.reg a).fld f.hi f.lo) : d.breaksPr a v = false := by
  unfold Dev.breaksPr
  split
  · next r i hr =>
    rw [List.any_eq_false]
    intro f hf
    by_cases hpr : f.access = Access.pr
    · simp [h r i hr f hf hpr]
    · simp [hpr]
  · rfl

theorem Dev.breaksPr_expHeadHi (hc : c < 60) (v : Word) : d.breaksPr (dmaReg c 0x0C) v = false := by
  have hall := expHeadHi_fields c hc
  refine d.breaksPr_unless fun r i hr f hf hpr => ?_
  rw [hr] at hall
  exact absurd hpr (of_decide_eq_true (List.all_eq_true.mp hall f hf))

/-- PAUSE and CLEAR_HALT are no field marked PR, and the rest is written as it stands. -/
theorem Dev.breaksPr_expCtrl (hc : c < 60) (pause clear : Nat) : d.breaksPr (dmaReg c 0x04) (d.expCtrlWith c pause clear) = false := by
  have hall := expCtrl_fields c hc
  refine d.breaksPr_unless fun r i hr f hf hpr => ?_
  rw [hr] at hall
  obtain ⟨hlo, hhi⟩ := of_decide_eq_true (List.all_eq_true.mp hall f hf) hpr
  unfold Dev.expCtrlWith
  rw [Word.fld_setFld_other _ _ hhi (by omega) (.inr (by omega)), Word.fld_setFld_other _ _ hhi (by omega) (.inr (by omega))]

/-- A write of a register through IND_DATA, while IND_ADDR names it. -/
theorem Dev.indWriteOf_named {a : Nat} {v : Word} (hr : d.fw.ready = true) (ha : d.indAddr = a) (hm : d.mapped a = true) (hp : d.breaksPr a v = false) :
    d.indWriteOf a v = .ok (d.writeInd a v).autoInc := by
  have hn : d.indNames a = true := by
    unfold Dev.indNames
    rw [hr, decide_eq_true ha]
    rfl
  unfold Dev.indWriteOf
  rw [if_pos hn, Dev.writeDword_indData v hr, Dev.indWrite_mapped (by rw [ha]; exact hm) (by rw [ha]; exact hp), ha]

theorem Dev.indNames_other {a : Nat} (hr : d.fw.ready = true) (ha : d.indAddr ≠ a) : d.indNames a = false := by
  unfold Dev.indNames
  rw [hr, decide_eq_false ha]
  rfl

theorem Dev.indWriteOf_other {a : Nat} (v : Word) (hr : d.fw.ready = true) (ha : d.indAddr ≠ a) : d.indWriteOf a v = .ok d := by
  unfold Dev.indWriteOf
  rw [d.indNames_other hr ha]
  exact if_neg (by decide)

theorem Dev.writeInd_expHeadHi (hc : c < 60) (v : Word) : d.writeInd (dmaReg c 0x0C) v = d.headWrite c v := by
  unfold Dev.writeInd
  rw [show regIndex 0x580004 64 64 _ = _ from regIndex_dma (by omega) 0x04 0x0C (by decide) (by decide),
    show regIndex 0x580008 64 64 _ = _ from regIndex_dma (by omega) 0x08 0x0C (by decide) (by decide),
    show regIndex 0x58000C 64 64 _ = _ from regIndex_dma (by omega) 0x0C 0x0C (by decide) (by decide)]
  rfl

theorem Dev.writeInd_expCtrl (hc : c < 60) (v : Word) : d.writeInd (dmaReg c 0x04) v = d.writeExpCtrl c v := by
  unfold Dev.writeInd
  rw [show regIndex 0x580004 64 64 _ = _ from regIndex_dma (by omega) 0x04 0x04 (by decide) (by decide)]
  exact if_pos hc

theorem Dev.indWriteOf_expHeadHi (hc : c < 60) (hr : d.fw.ready = true) (ha : d.indAddr = dmaReg c 0x0C) (v : Word) :
    d.indWriteOf (dmaReg c 0x0C) v = .ok (d.headWrite c v).autoInc := by
  have hm : d.mapped (dmaReg c 0x0C) = true := by
    refine d.mapped_of_find (by unfold dmaReg; omega) ?_
    have hall := expHeadHi_fields c hc
    cases hf : RegMap.find (dmaReg c 0x0C) with
    | none => rw [hf] at hall; cases hall
    | some p => rfl
  rw [d.indWriteOf_named hr ha hm (d.breaksPr_expHeadHi c hc v), d.writeInd_expHeadHi c hc]

theorem Dev.indWriteOf_expCtrl (hc : c < 60) (hr : d.fw.ready = true) (ha : d.indAddr = dmaReg c 0x04) (pause clear : Nat) :
    d.indWriteOf (dmaReg c 0x04) (d.expCtrlWith c pause clear) = .ok (d.writeExpCtrl c (d.expCtrlWith c pause clear)).autoInc := by
  have hm : d.mapped (dmaReg c 0x04) = true := by
    refine d.mapped_of_find (by unfold dmaReg; omega) ?_
    have hall := expCtrl_fields c hc
    cases hf : RegMap.find (dmaReg c 0x04) with
    | none => rw [hf] at hall; cases hall
    | some p => rfl
  rw [d.indWriteOf_named hr ha hm (d.breaksPr_expCtrl c hc pause clear), d.writeInd_expCtrl c hc]

/-- EXP_CTRL as PAUSE and CLEAR_HALT are written. -/
theorem Dev.writeExpCtrl_with (pause clear : Nat) (hp : pause < 2) (hc : clear < 2) :
    d.writeExpCtrl c (d.expCtrlWith c pause clear) =
      let e := if pause = 1 then d.exportPause c else d.exportResume c
      if clear = 1 then e.clearHalt c else e := by
  have h0 : (d.expCtrlWith c pause clear).fld 0 0 = pause := by
    unfold Dev.expCtrlWith
    rw [Word.fld_setFld_other _ _ (by decide) (by decide) (.inl (by decide)), Word.fld_setFld_same _ _ (by decide) (by decide)]
    omega
  have h1 : (d.expCtrlWith c pause clear).fld 1 1 = clear := by
    unfold Dev.expCtrlWith
    rw [Word.fld_setFld_same _ _ (by decide) (by decide)]
    omega
  unfold Dev.writeExpCtrl
  rw [h0, h1]

/-! ### Pause, halt and HEAD -/

theorem Dev.exportPause_running (hc : c < 60) (h : (d.dmaCh c).state = 1) :
    d.exportPause c = ((d.setFld (dmaReg c 0x04) 0 0 1).setDma c { d.dmaCh c with state := 2 }).pauseCheck c := by
  unfold Dev.exportPause
  rw [if_neg (by omega)]
  exact if_pos h

theorem Dev.exportResume_paused (hc : c < 60) (h : (d.dmaCh c).state = 3) :
    d.exportResume c = ((d.setFld (dmaReg c 0x04) 0 0 0).setDma c { d.dmaCh c with state := 1, pausePending := false }).exportReq c := by
  have hs : (if (d.dmaCh c).state = 2 ∨ (d.dmaCh c).state = 3 then 1 else (d.dmaCh c).state) = 1 := if_pos (.inr h)
  unfold Dev.exportResume
  rw [if_neg (by omega)]
  exact congrArg (fun n => ((d.setFld (dmaReg c 0x04) 0 0 0).setDma c { d.dmaCh c with state := n, pausePending := false }).exportReq c) hs

theorem Dev.clearHalt_halted (hc : c < 60) (h : (d.dmaCh c).state = 5) :
    d.clearHalt c = (d.setDma c { d.dmaCh c with state := 1, haltKind := 0, tries := 0 }).exportReq c :=
  if_pos ⟨h, hc⟩

variable (hi : Word)

/-- HEAD is written for a streaming channel that is not Relay's. -/
theorem Dev.headWrite_streaming {w : List Word} (hc : c < 60) (hw : (d.dmaCh c).words = some w) (hrel : exRelay w = false) :
    d.headWrite c hi =
      let y := d.setReg (dmaReg c 0x0C) hi
      let v := (QWord.ofHalves (y.reg (dmaReg c 0x08)) hi).toNat
      if v < (d.dmaCh c).head ∨ (d.dmaCh c).tail < v then (y.bump (dmaReg c 0x28)).dmaEvent c 4 0 v else y.setDma c { d.dmaCh c with head := v } := by
  have hw' : ((d.setReg (dmaReg c 0x0C) hi).dmaCh c).words = some w := hw
  unfold Dev.headWrite
  rw [if_neg (by omega)]
  dsimp only
  rw [hw']
  dsimp only
  rw [hrel, if_neg (by decide)]
  rfl

end

/-! ### MSI-X -/

/-- The messages of a vector that is unmasked, the only one whose bit is pending. -/
theorem Dev.sendPending_one (d : Dev) (v : Nat) (he : d.pcie.msixEnable = true) (hb : d.pcie.busMaster = true) (hf : d.pcie.msixFnMask = false)
    (hp : d.pcie.pba = [v]) (hm : (Tbl.look ({} : MsixEntry) d.pcie.msix v).masked = false) :
    d.sendPending.pcie.pba = [] ∧
      d.sendPending.out = d.out ++ [.msix v (Tbl.look ({} : MsixEntry) d.pcie.msix v).addr (Tbl.look ({} : MsixEntry) d.pcie.msix v).data] ∧
      d.sendPending.pcie.msix = d.pcie.msix := by
  have hgo : d.pcie.pba.filter (fun v => !(Tbl.look ({} : MsixEntry) d.pcie.msix v).masked) = [v] := by
    rw [hp, List.filter_cons_of_pos (by rw [hm]; rfl)]
    rfl
  have hsend : d.sendPending =
      ({ d with pcie := { d.pcie with pba := d.pcie.pba.filter (fun k => !([v].contains k)) } } : Dev).emit
        (.msix v (Tbl.look ({} : MsixEntry) d.pcie.msix v).addr (Tbl.look ({} : MsixEntry) d.pcie.msix v).data) := by
    unfold Dev.sendPending
    rw [he, hb, hf, if_pos (by decide)]
    dsimp only
    rw [hgo]
    rfl
  rw [hsend]
  refine ⟨?_, rfl, rfl⟩
  change d.pcie.pba.filter _ = []
  rw [hp]
  simp

/-! ### MKQ_DATA -/

theorem mkqData_find : ∀ n, n < 16 → ∀ k, k < 4 → (RegMap.find (mkReg n (0x20 + 4 * k))).isSome = true := by decide +kernel

theorem mkqAt_mkReg {n k : Nat} (hn : n < 16) (hk : k < 4) : mkqAt (mkReg n (0x20 + 4 * k)) = some n := by
  unfold mkqAt mkReg
  rw [if_pos (by omega)]
  exact congrArg some (by omega)

theorem Dev.popMarker_unexported (y : Dev) (n : Nat) (he : y.markerExported n = false) (hf : y.cmc.facet = []) :
    (y.popMarker n).1 = ((y.marker n).q.pop y.cyc).2.1 := by
  have hread : y.markerRead n = y := by
    unfold Dev.markerRead
    rw [y.meets_none 3 hf]
    rfl
  unfold Dev.popMarker
  rw [he, if_neg (by decide), hread]

/-- A read of IND_DATA while IND_ADDR names one of the addresses of the queue pops one word. -/
theorem Dev.hostRead_mkqData (d : Dev) (m : Mems) (n k : Nat) (hr : d.fw.ready = true) (hn : n < 16) (hk : k < 4) (ha : d.indAddr = mkReg n (0x20 + 4 * k))
    (hev : (d.settleFor (mkReg n (0x20 + 4 * k))).eventsAt (mkReg n (0x20 + 4 * k)) = []) :
    d.hostRead m 0x1C 0 4 =
      (((((d.settleFor (mkReg n (0x20 + 4 * k))).popMarker n).2.clearRead (mkReg n (0x20 + 4 * k)) 0 4).emit
        (.regRead (bytesOf (BitVec.ofNat 32 ((d.settleFor (mkReg n (0x20 + 4 * k))).popMarker n).1) 0 4))).autoInc) := by
  have hm : d.mapped d.indAddr = true := by
    rw [ha]
    exact d.mapped_of_find (by unfold mkReg; omega) (mkqData_find n hn k hk)
  rw [Dev.hostRead_whole, Dev.hostReadDword_indData hr, Dev.indRead_mapped hm, ha, Dev.readReg_of_no_event 0 4 hev]
  unfold Dev.readValue
  rw [mkqAt_mkReg hn hk]

theorem exec_mkqDataRead {dt n k : Nat} {s : State} (h : (s.after dt).indNames (mkReg n (0x20 + 4 * (k % 4))) = true) :
    exec (.mkqDataRead dt n k) s = .next (s.onto ((s.after dt).hostRead s.mem 0x1C 0 4)) :=
  congrArg (fun x => Host.Outcome.next (s.onto x)) (if_pos h)

/-- Settles O26: the vectors, the registers of the exports and the marker queues as the host drives them. -/
theorem hostDrivesVectorsAndExports : Obligations.HostDrivesVectorsAndExports := by
  unfold Obligations.HostDrivesVectorsAndExports
  refine ⟨fun dt v s => ?_, fun dt c hi s => ?_, fun dt n k s => ?_⟩
  · intro d m hv he hb hf hp
    let e : Dev := { d with pcie := { d.pcie with msix := Tbl.put v { m with masked := false } d.pcie.msix } }
    have hlook : Tbl.look ({} : MsixEntry) e.pcie.msix v = { m with masked := false } := Tbl.look_put_same _ _ _ _
    obtain ⟨hpba, hout, hmsix⟩ := e.sendPending_one v he hb hf hp (by rw [hlook])
    rw [hlook] at hout
    refine ⟨s.onto e.sendPending, congrArg (fun x => Host.Outcome.next (s.onto x)) (if_pos hv), hpba, hout, ?_, rfl⟩
    exact (congrArg (fun t => Tbl.look ({} : MsixEntry) t v) hmsix).trans hlook
  · intro d x hc hr
    have hctrl (pause clear : Nat) (hp : pause < 2) (hcl : clear < 2) (ha : d.indAddr = dmaReg c 0x04) :
        d.indWriteOf (dmaReg c 0x04) (d.expCtrlWith c pause clear) =
          .ok (if clear = 1 then (if pause = 1 then d.exportPause c else d.exportResume c).clearHalt c
            else if pause = 1 then d.exportPause c else d.exportResume c).autoInc := by
      rw [d.indWriteOf_expCtrl c hc hr ha, d.writeExpCtrl_with c pause clear hp hcl]
    refine ⟨fun ha => ⟨?_, fun w hw hrel => ?_⟩, fun ha => ⟨?_, ?_, fun h => ?_, fun h => ?_, fun h => ?_, fun h => ?_, fun h => ?_⟩,
      fun ha => ?_, fun ha => ⟨?_, ?_, ?_⟩⟩
    · exact onWrite_ok (f := fun d => d.indWriteOf (dmaReg c 0x0C) hi) (d.indWriteOf_expHeadHi c hc hr ha hi)
    · intro y v
      have hwr := d.headWrite_streaming c hi hc hw hrel
      exact ⟨fun h1 h2 => hwr.trans (if_neg (not_or.mpr ⟨Nat.not_lt.mpr h1, Nat.not_lt.mpr h2⟩)), fun h => hwr.trans (if_pos h)⟩
    · exact onWrite_ok (f := fun d => d.indWriteOf (dmaReg c 0x04) (d.expCtrlWith c 1 0)) (hctrl 1 0 (by decide) (by decide) ha)
    · exact onWrite_ok (f := fun d => d.indWriteOf (dmaReg c 0x04) (d.expCtrlWith c 0 0)) (hctrl 0 0 (by decide) (by decide) ha)
    · refine onWrite_ok (f := fun d => d.indWriteOf (dmaReg c 0x04) (d.expCtrlWith c (d.fld (dmaReg c 0x04) 0 0) 1)) ?_
      rw [h]
      exact hctrl 0 1 (by decide) (by decide) ha
    · refine onWrite_ok (f := fun d => d.indWriteOf (dmaReg c 0x04) (d.expCtrlWith c (d.fld (dmaReg c 0x04) 0 0) 1)) ?_
      rw [h]
      exact hctrl 1 1 (by decide) (by decide) ha
    · exact d.exportPause_running c hc h
    · exact d.exportResume_paused c hc h
    · exact d.clearHalt_halted c hc h
    · exact onWrite_ok (f := fun d => d.indWriteOf (dmaReg c 0x0C) hi) (d.indWriteOf_other hi hr ha)
    · exact onWrite_ok (f := fun d => d.indWriteOf (dmaReg c 0x04) (d.expCtrlWith c 1 0)) (d.indWriteOf_other _ hr ha)
    · exact onWrite_ok (f := fun d => d.indWriteOf (dmaReg c 0x04) (d.expCtrlWith c 0 0)) (d.indWriteOf_other _ hr ha)
    · exact onWrite_ok (f := fun d => d.indWriteOf (dmaReg c 0x04) (d.expCtrlWith c (d.fld (dmaReg c 0x04) 0 0) 1)) (d.indWriteOf_other _ hr ha)
  · intro d a y hr hn hk ha hev
    refine ⟨?_, fun he hf => y.popMarker_unexported n he hf⟩
    have hname : d.indNames (mkReg n (0x20 + 4 * (k % 4))) = true := by
      unfold Dev.indNames
      rw [Nat.mod_eq_of_lt hk, decide_eq_true ha, Bool.or_true]
    rw [exec_mkqDataRead hname]
    exact congrArg (fun x => Host.Outcome.next (s.onto x)) (d.hostRead_mkqData s.mem n k hr hn hk ha hev)

end Sys2Proof.Machine
end

section
/-!
PROOF. O27: the PCIe function and its link (R37–R40, R102, R616, R620).
-/

namespace Sys2Proof.Machine

/-! ### What a cut of the host leaves as it makes it -/

/-- The rings, the event ring's setting, the function but for its pending bits, firmware, the channels and the engines. -/
def Dev.hostSide (d : Dev) : Tbl Ring × (Bool × Tbl EvRoute) × Pcie × Fw × Tbl Chan × Tbl Engine :=
  (d.rings, (d.ev.enabled, d.ev.routes), { d.pcie with pba := [] }, d.fw, d.chans, d.engines)

section
variable (d : Dev)

theorem Dev.sendVector_hostSide (v : Nat) : (d.sendVector v).hostSide = d.hostSide := by
  unfold Dev.sendVector
  split
  · dsimp only
    split <;> rfl
  · rfl

theorem Dev.raise_hostSide (id unit arg data : Nat) : (d.raise id unit arg data).hostSide = d.hostSide := by
  have hlog (e : Event) : (d.logEvent e).hostSide = d.hostSide := by
    unfold Dev.logEvent
    split
    · rfl
    · unfold Dev.logRecord
      dsimp only
      split <;> rfl
  unfold Dev.raise Dev.raiseAt Dev.produce
  dsimp only
  split
  · exact hlog _
  · split
    · exact (Dev.sendVector_hostSide _ _).trans (hlog _)
    · exact hlog _

theorem Dev.setDma_hostSide (c : Nat) (x : DmaChan) : (d.setDma c x).hostSide = d.hostSide := rfl

theorem Dev.onStages_hostSide (c : Nat) (f : StageQ → StageQ) (g : RecordTail → RecordTail) : (d.onStages c f g).hostSide = d.hostSide := by
  unfold Dev.onStages
  split <;> rfl

theorem Dev.exportRewind_hostSide (c : Nat) : (d.exportRewind c).hostSide = d.hostSide := by
  unfold Dev.exportRewind
  exact (Dev.setDma_hostSide _ c _).trans (d.onStages_hostSide c _ _)

theorem Dev.haltDrained_hostSide (c : Nat) : (d.haltDrained c).hostSide = d.hostSide := by
  unfold Dev.haltDrained
  split
  · split <;> rfl
  · rfl

theorem Dev.stopRelay_hostSide (st : Nat) (pad : Bool) : (d.stopRelay st pad).hostSide = d.hostSide := by
  unfold Dev.stopRelay
  dsimp only
  split <;> rfl

theorem Dev.stopRelaysOf_hostSide (c : Nat) : (d.stopRelaysOf c).hostSide = d.hostSide := by
  refine foldl_keeps (fun y : Dev => y.hostSide = d.hostSide) _ _ _ rfl fun y p hy => ?_
  split
  · split
    · exact (y.stopRelay_hostSide _ _).trans hy
    · exact hy
  · exact hy

theorem Dev.cutExport_hostSide (c : Nat) : (d.cutExport c).hostSide = d.hostSide := by
  unfold Dev.cutExport Dev.exportHalt Dev.dmaEvent
  dsimp only
  split
  · rfl
  · rw [Dev.stopRelaysOf_hostSide, Dev.haltDrained_hostSide, Dev.raise_hostSide, Dev.setDma_hostSide, Dev.exportRewind_hostSide]
    rfl

/-! ### The rings that are cut off -/

theorem Dev.loose_unused (k : Nat) : (Tbl.look ({} : Ring) d.loose k).inUse = false := by
  have hkeep : ∀ k, (Tbl.look ({} : Ring) d.loose k).inUse = false := by
    refine foldl_keeps (fun t : Tbl Ring => ∀ k, (Tbl.look ({} : Ring) t k).inUse = false) _ _ _ (fun _ => rfl) fun t p ht => ?_
    split
    · split
      · intro k
        rw [Tbl.look_put]
        split
        · rfl
        · exact ht k
      · exact ht
    · exact ht
  exact hkeep k

/-- The device as a cut begins: its rings, the event ring and the function, before the exports halt. -/
def Dev.cutOff (d : Dev) (clears : Bool) : Dev :=
  let d := { d with
    rings := d.loose
    rrRing := 0
    rrUsed := 0
    blocks := []
    ev := { d.ev with enabled := false, head := 0, tail := 0, phase := true }
    fw := { d.fw with ready := false }
    pcie := { d.pcie with
      msix := []
      pba := []
      deletedAt := some d.clk.time
      msixEnable := d.pcie.msixEnable && !clears
      msixFnMask := d.pcie.msixFnMask && !clears
      busMaster := d.pcie.busMaster && !clears
      mps := if clears then 0 else d.pcie.mps
      mrrs := if clears then 2 else d.pcie.mrrs } }
  ((d.setFld 0x50 16 16 0).setFld 0x54 0 0 0).setFld 0x54 1 1 0

/-- The cut is the device cut off, with all exports halted and every stream of Relay stopped. -/
theorem Dev.cutHost_eq (clears : Bool) : d.cutHost clears =
    (let e := ((d.cutOff clears).dma.filter (fun (p : Nat × DmaChan) => decide (p.1 < 60))).foldl (fun (d : Dev) p => d.cutExport p.1) (d.cutOff clears)
     let f : Dev := { e with dma := e.dma.filter (fun (p : Nat × DmaChan) => decide (p.1 < 60)) }
     f.relays.foldl (fun (d : Dev) (p : Nat × RelayStream) => d.stopRelay p.1) f) := rfl

theorem Dev.cutHost_hostSide (clears : Bool) : (d.cutHost clears).hostSide = (d.cutOff clears).hostSide := by
  rw [Dev.cutHost_eq]
  dsimp only
  refine foldl_keeps (fun y : Dev => y.hostSide = (d.cutOff clears).hostSide) _ _ _ ?_ fun y p hy => (y.stopRelay_hostSide _ _).trans hy
  exact foldl_keeps (fun y : Dev => y.hostSide = (d.cutOff clears).hostSide) _ _ _ rfl fun y p hy => (y.cutExport_hostSide _).trans hy

/-- With no exports in being the cut ends no more than the streams of Relay. -/
theorem Dev.cutHost_of_no_export (clears : Bool) (h : d.dma = []) : ∃ r, d.cutHost clears = { d.cutOff clears with relays := r } := by
  have hdma : (d.cutOff clears).dma = [] := h
  have hnone : (({ d.cutOff clears with dma := [] } : Dev)) = d.cutOff clears := congrArg (fun t => ({ d.cutOff clears with dma := t } : Dev)) hdma.symm
  have hcut : d.cutHost clears = (d.cutOff clears).relays.foldl (fun (d : Dev) (p : Nat × RelayStream) => d.stopRelay p.1) (d.cutOff clears) := by
    rw [Dev.cutHost_eq, hdma]
    dsimp only [List.filter_nil, List.foldl_nil]
    rw [hdma, List.filter_nil, hnone]
  rw [hcut]
  refine foldl_keeps (fun y : Dev => ∃ r, y = { d.cutOff clears with relays := r }) _ _ _ ⟨(d.cutOff clears).relays, rfl⟩ fun y p hy => ?_
  obtain ⟨r, rfl⟩ := hy
  unfold Dev.stopRelay
  dsimp only
  split
  · exact ⟨_, rfl⟩
  · exact ⟨_, rfl⟩

end

/-- What every cut of the host leaves: no ring, no event ring, an empty vector table, READY 0, and the data path as it was. -/
structure Dev.isCut (d t : Dev) : Prop where
  rings : ∀ k, (t.ring k).inUse = false
  enabled : t.ev.enabled = false
  routes : t.ev.routes = d.ev.routes
  msix : t.pcie.msix = []
  ready : t.fw.ready = false
  chans : t.chans = d.chans
  engines : t.engines = d.engines

/-- With no exports in being the apertures stay as they are, no vector and no record more is pending, and ring 0's registers read 0. -/
structure Dev.isCutIdle (d t : Dev) : Prop where
  aps : t.aps = d.aps
  pba : t.pcie.pba = []
  backlog : t.ev.backlog = d.ev.backlog
  enable : t.fld 0x50 16 16 = 0
  run : t.fld 0x54 0 0 = 0
  fault : t.fld 0x54 1 1 = 0

section
variable (d : Dev) (clears : Bool)

theorem Dev.cutHost_isCut : d.isCut (d.cutHost clears) := by
  have h := d.cutHost_hostSide clears
  unfold Dev.hostSide at h
  simp only [Prod.mk.injEq] at h
  obtain ⟨hrings, ⟨hen, hroutes⟩, hpcie, hfw, hchans, hengines⟩ := h
  refine ⟨fun k => ?_, hen, hroutes, congrArg Pcie.msix hpcie, congrArg Fw.ready hfw, hchans, hengines⟩
  unfold Dev.ring
  rw [hrings]
  exact d.loose_unused k

theorem Dev.cutHost_msixEnable : (d.cutHost clears).pcie.msixEnable = (d.pcie.msixEnable && !clears) ∧
    (d.cutHost clears).pcie.msixFnMask = (d.pcie.msixFnMask && !clears) := by
  have h : ({ (d.cutHost clears).pcie with pba := [] } : Pcie) = { (d.cutOff clears).pcie with pba := [] } :=
    congrArg (fun x => x.2.2.1) (d.cutHost_hostSide clears)
  exact ⟨congrArg Pcie.msixEnable h, congrArg Pcie.msixFnMask h⟩

theorem Dev.cutOff_fld : (d.cutOff clears).fld 0x50 16 16 = 0 ∧ (d.cutOff clears).fld 0x54 0 0 = 0 ∧ (d.cutOff clears).fld 0x54 1 1 = 0 := by
  unfold Dev.cutOff
  refine ⟨?_, ?_, ?_⟩
  · rw [Dev.fld_setFld_ne _ _ _ _ _ _ _ _ (by decide), Dev.fld_setFld_ne _ _ _ _ _ _ _ _ (by decide),
      Dev.fld_setFld_same _ _ _ (by decide) (by decide), Nat.zero_mod]
  · rw [Dev.fld_setFld_other _ _ _ (by decide) (by decide) (.inl (by decide)), Dev.fld_setFld_same _ _ _ (by decide) (by decide), Nat.zero_mod]
  · rw [Dev.fld_setFld_same _ _ _ (by decide) (by decide), Nat.zero_mod]

theorem Dev.cutHost_isCutIdle (h : d.dma = []) : d.isCutIdle (d.cutHost clears) := by
  obtain ⟨r, hr⟩ := d.cutHost_of_no_export clears h
  obtain ⟨h50, h540, h541⟩ := d.cutOff_fld clears
  rw [hr]
  exact ⟨rfl, rfl, rfl, h50, h540, h541⟩

end

/-! ### The four events of R39 -/

theorem exec_flr_up {dt : Nat} {s : State} (h : (s.after dt).functionUp = true) :
    exec (.flr dt) s = .next (s.onto ((s.after dt).cutHost true).closeUpdate) := congrArg (fun x => Host.Outcome.next (s.onto x)) (if_pos h)

theorem exec_hotReset_up {dt : Nat} {s : State} (h : (s.after dt).functionUp = true) :
    exec (.hotReset dt) s =
      .next (s.onto { (s.after dt).cutHost true with pcie := { ((s.after dt).cutHost true).pcie with d3hot := false } }) :=
  congrArg (fun x => Host.Outcome.next (s.onto x)) (if_pos h)

theorem exec_d3hotEntry_up {dt : Nat} {s : State} (h : (s.after dt).functionUp = true) :
    exec (.d3hotEntry dt) s =
      .next (s.onto { (s.after dt).cutHost false with pcie := { ((s.after dt).cutHost false).pcie with d3hot := true } }) :=
  congrArg (fun x => Host.Outcome.next (s.onto x)) (if_pos h)

theorem exec_busMasterClear_up {dt : Nat} {s : State} (h : (s.after dt).functionUp = true) :
    exec (.busMasterClear dt) s =
      .next (s.onto { (s.after dt).cutHost false with pcie := { ((s.after dt).cutHost false).pcie with busMaster := false } }) :=
  congrArg (fun x => Host.Outcome.next (s.onto x)) (if_pos h)

/-! ### READY_RETURN, PERST# and configuration requests -/

/-- READY may return: the deletion is complete, the function is in D0 with Bus Master Enable set, and bring-up is done or ended in recovery. -/
def Dev.readyDue (d : Dev) : Prop :=
  d.pcie.deletedAt.isSome = true ∧ d.functionUp = true ∧ d.pcie.d3hot = false ∧ d.pcie.busMaster = true ∧ (d.fw.stage = 0x3F ∨ d.fw.stage = 0xE0)

theorem Dev.readyDue_iff (d : Dev) : d.readyDue ↔
    (d.pcie.deletedAt.isSome && d.functionUp && !d.pcie.d3hot && d.pcie.busMaster && decide (d.fw.stage = 0x3F ∨ d.fw.stage = 0xE0)) = true := by
  unfold Dev.readyDue
  simp only [Bool.and_eq_true, Bool.not_eq_true', decide_eq_true_eq, and_assoc]

theorem exec_perstAssert_cut (dt : Nat) (s : State) : ∃ t, exec (.perstAssert dt) s = .next (s.onto t) ∧ ∃ e : Dev,
    e = (if (s.after dt).functionUp then (s.after dt).cutHost true else s.after dt) ∧
    t = { e with pcie := { e.pcie with
      perst := true, linkUp := false, d3hot := false, mps := 0, mrrs := 2, busMaster := false, msixEnable := false, msixFnMask := false } } :=
  ⟨_, rfl, _, rfl, rfl⟩

theorem Pcie.config_bits (p : Pcie) :
    (p.config .command).getLsbD 2 = p.busMaster ∧ (p.config .msixControl).getLsbD 15 = p.msixEnable ∧ (p.config .power).getLsbD 0 = p.d3hot := by
  refine ⟨?_, ?_, ?_⟩
  · change (Word.place 2 2 p.busMaster.toNat).getLsbD 2 = p.busMaster
    rw [Word.getLsbD_place]
    cases p.busMaster <;> rfl
  · change (Word.place 10 0 255 ||| Word.place 14 14 p.msixFnMask.toNat ||| Word.place 15 15 p.msixEnable.toNat).getLsbD 15 = p.msixEnable
    rw [BitVec.getLsbD_or, BitVec.getLsbD_or, Word.getLsbD_place, Word.getLsbD_place, Word.getLsbD_place]
    cases p.msixEnable <;> cases p.msixFnMask <;> rfl
  · change (Word.place 1 0 (if p.d3hot then 3 else 0) ||| Word.place 3 3 1).getLsbD 0 = p.d3hot
    rw [BitVec.getLsbD_or, Word.getLsbD_place, Word.getLsbD_place]
    cases p.d3hot <;> rfl

/-- Settles O27: the cuts of R39, the return of READY, and the link. -/
theorem functionAndLink : Obligations.FunctionAndLink := by
  unfold Obligations.FunctionAndLink
  refine ⟨fun dt i s => ?_, fun dt s => ?_, fun dt rate10 width r s => ?_⟩
  · intro d hup hi
    obtain rfl | rfl | rfl | rfl := hi
    · obtain ⟨hr, he, hro, hm, hf, hc, hg⟩ := d.cutHost_isCut true
      obtain ⟨hen, hfn⟩ := d.cutHost_msixEnable true
      refine ⟨_, exec_flr_up hup, fun k _ => hr k, he, hro, hm, hf, hc, hg, rfl, ?_, ?_, ?_, ?_, ?_⟩
      · exact fun _ => ⟨hen.trans (Bool.and_false _), hfn.trans (Bool.and_false _), rfl⟩
      · intro h; cases h
      · intro h; cases h
      · rintro (h | h) <;> cases h
      · intro h
        obtain ⟨h1, h2, h3, h4, h5, h6⟩ := d.cutHost_isCutIdle true h
        exact ⟨h1, h2, h3, h4, h5, h6⟩
    · obtain ⟨hr, he, hro, hm, hf, hc, hg⟩ := d.cutHost_isCut true
      refine ⟨_, exec_hotReset_up hup, fun k _ => hr k, he, hro, hm, hf, hc, hg, rfl, ?_, ?_, ?_, ?_, ?_⟩
      · intro h; cases h
      · intro h; cases h
      · intro h; cases h
      · rintro (h | h) <;> cases h
      · intro h
        obtain ⟨h1, h2, h3, h4, h5, h6⟩ := d.cutHost_isCutIdle true h
        exact ⟨h1, h2, h3, h4, h5, h6⟩
    · obtain ⟨hr, he, hro, hm, hf, hc, hg⟩ := d.cutHost_isCut false
      obtain ⟨hen, hfn⟩ := d.cutHost_msixEnable false
      refine ⟨_, exec_d3hotEntry_up hup, fun k _ => hr k, he, hro, hm, hf, hc, hg, rfl, ?_, ?_, ?_, ?_, ?_⟩
      · intro h; cases h
      · exact fun _ => rfl
      · intro h; cases h
      · exact fun _ => ⟨hen.trans (Bool.and_true _), hfn.trans (Bool.and_true _)⟩
      · intro h
        obtain ⟨h1, h2, h3, h4, h5, h6⟩ := d.cutHost_isCutIdle false h
        exact ⟨h1, h2, h3, h4, h5, h6⟩
    · obtain ⟨hr, he, hro, hm, hf, hc, hg⟩ := d.cutHost_isCut false
      obtain ⟨hen, hfn⟩ := d.cutHost_msixEnable false
      refine ⟨_, exec_busMasterClear_up hup, fun k _ => hr k, he, hro, hm, hf, hc, hg, rfl, ?_, ?_, ?_, ?_, ?_⟩
      · intro h; cases h
      · intro h; cases h
      · exact fun _ => rfl
      · exact fun _ => ⟨hen.trans (Bool.and_true _), hfn.trans (Bool.and_true _)⟩
      · intro h
        obtain ⟨h1, h2, h3, h4, h5, h6⟩ := d.cutHost_isCutIdle false h
        exact ⟨h1, h2, h3, h4, h5, h6⟩
  · intro d due
    have hexec : exec (.readyReturn dt) s = .next (s.onto d.readyReturn) := rfl
    refine ⟨fun h => ?_, fun h => ?_⟩
    · rw [hexec]
      exact congrArg (fun x => Host.Outcome.next (s.onto x)) (if_pos (d.readyDue_iff.mp h))
    · rw [hexec]
      exact congrArg (fun x => Host.Outcome.next (s.onto x)) (if_neg (mt d.readyDue_iff.mpr h))
  · intro d
    obtain ⟨t, ht, e, he, rfl⟩ := exec_perstAssert_cut dt s
    refine ⟨⟨_, ht, rfl, rfl, rfl, rfl, rfl, rfl, fun h => ?_, fun h => ?_⟩, fun h => ?_, fun h => ?_, fun h => ⟨?_, ?_, rfl, rfl, ?_⟩⟩
    · change e.aps = d.aps
      rw [he]
      split
      · exact (d.cutHost_isCutIdle true h).aps
      · rfl
    · have he' : e = d.cutHost true := he.trans (if_pos h)
      subst he'
      have hcut := d.cutHost_isCut true
      exact ⟨fun k _ => hcut.rings k, hcut.ready⟩
    · exact congrArg (fun x => Host.Outcome.next (s.onto x)) (if_pos h)
    · exact congrArg (fun x => Host.Outcome.next (s.onto x)) (if_neg (Bool.eq_false_iff.mp h))
    · exact congrArg (fun x => Host.Outcome.next (s.onto x)) (if_pos h)
    · exact congrArg (fun x => Host.Outcome.next (s.onto x)) (if_pos h)
    · exact d.pcie.config_bits

end Sys2Proof.Machine
end

section
/-!
PROOF. O9: the commands that report, that list, and that set up rings and events (R66, R67, R90, R96–R98, R341, R572).
-/

namespace Sys2Proof.Machine

/-- The routes of FIRST to FIRST + COUNT − 1 are set, and the others stand (R97). -/
theorem look_routesSet (first : Nat) (r : EvRoute) (t : Tbl EvRoute) (n : Nat) : ∀ count : Nat,
    Tbl.look ({} : EvRoute) ((List.range count).foldl (fun t i => Tbl.put (first + i) r t) t) n =
      if first ≤ n ∧ n < first + count then r else Tbl.look ({} : EvRoute) t n
  | 0 => (if_neg (by omega)).symm
  | count + 1 => by
    rw [List.range_succ, List.foldl_append, List.foldl_cons, List.foldl_nil, Tbl.look_put, look_routesSet first r t n count]
    by_cases hn : n = first + count
    · rw [if_pos hn, if_pos (by omega)]
    · rw [if_neg hn]
      by_cases hin : first ≤ n ∧ n < first + count
      · rw [if_pos hin, if_pos (by omega)]
      · rw [if_neg hin, if_neg (by omega)]

section
variable {dt q : Nat} {e : Entry} {s : State}

theorem exec_recordList_listing (h : s.takes dt formRecordList q e recordListChecks = true) :
    exec (.recordList dt q e) s = .next (s.onto (
      let d := s.taken dt q e
      let p := d.ap e.target
      if p.state = 0 then formRecordList.reply d q e (d.stateError e.target)
      else
        let rs := p.recordsFrom e.block e.outLen
        let last := match rs.getLast? with | some r => r.1.recno + 1 | none => (dwAt e.block 0).toNat
        formRecordList.reply (d.writeOutE e (p.listHeader ++ (rs.map (·.2)).flatten)) q e
          { result0 := BitVec.ofNat 64 rs.length, result1 := BitVec.ofNat 64 last })) :=
  onDev_takes formRecordList q e recordListChecks _ s dt h

theorem exec_ringCreate_takes (h : s.takes dt formRingCreate q e ringCreateChecks = true) :
    exec (.ringCreate dt q e) s = .next (s.onto (
      let d := s.taken dt q e
      if (d.ring e.target).inUse then formRingCreate.reply d q e { status := efsState }
      else formRingCreate.reply (d.setRing e.target (ringOfBlock e.block)) q e {})) :=
  onDev_takes formRingCreate q e ringCreateChecks _ s dt h

theorem exec_ringDelete_takes (h : s.takes dt formRingDelete q e noChecks = true) :
    exec (.ringDelete dt q e) s = .next (s.onto (
      let d := s.taken dt q e
      if (d.ring e.target).inUse then
        let x := d.hold q 0x03 e (.ringDelete e.target)
        ((x.setRing e.target { x.ring e.target with deleting := true }).abortWait e.target).ringSettled e.target
      else formRingDelete.reply d q e { status := efsState })) :=
  onDev_takes formRingDelete q e noChecks _ s dt h

theorem exec_eventRingSet_takes (h : s.takes dt formEventRingSet q e eventRingSetChecks = true) :
    exec (.eventRingSet dt q e) s = .next (s.onto (formEventRingSet.reply ((s.taken dt q e).setEventRing e.block) q e {})) :=
  onDev_takes formEventRingSet q e eventRingSetChecks _ s dt h

theorem exec_eventRoute_takes (h : s.takes dt formEventRoute q e eventRouteChecks = true) :
    exec (.eventRoute dt q e) s = .next (s.onto (formEventRoute.reply ((s.taken dt q e).setRoutes (fldAt e.block 0x00 10 0) (fldAt e.block 0x00 27 16)
      { record := bitAt e.block 0x04 8, irq := bitAt e.block 0x04 9, vector := fldAt e.block 0x04 7 0 }) q e {})) :=
  onDev_takes formEventRoute q e eventRouteChecks _ s dt h

end

/-- Settles O9: each command is its reply on the device as it was taken, with its block written or its setting made. -/
theorem reportsListsAndRings : Obligations.ReportsListsAndRings := by
  unfold Obligations.ReportsListsAndRings
  refine ⟨fun dt q e s => ?_, fun dt q e s => ?_, fun dt q e s => ?_⟩
  · intro d
    exact ⟨onDev_takes formNop q e noChecks _ s dt, onDev_takes formTimeRead q e noChecks _ s dt, onDev_takes formSensorRead q e noChecks _ s dt,
      onDev_takes formIdentity q e noChecks _ s dt, onDev_takes formSpareStatus q e noChecks _ s dt, onDev_takes formQuery q e noChecks _ s dt,
      onDev_takes formDescribe q e noChecks _ s dt⟩
  · intro d
    refine ⟨fun h => ⟨fun hs => ?_, fun hs => ?_⟩, fun h => ?_⟩
    · intro p rs
      refine ⟨_, (exec_recordList_listing h).trans (congrArg (fun x => Host.Outcome.next (s.onto x)) (if_neg hs)), fun hn => ?_, fun r hr => ?_⟩
      · rw [show ((s.taken dt q e).ap e.target).recordsFrom e.block e.outLen = [] from hn]
        rfl
      · rw [show (((s.taken dt q e).ap e.target).recordsFrom e.block e.outLen).getLast? = some r from hr]
    · exact (exec_recordList_listing h).trans (congrArg (fun x => Host.Outcome.next (s.onto x)) (if_pos hs))
    · intro from_ rs
      refine ⟨_, onDev_takes formLogRead q e logReadChecks _ s dt h, fun hn => ?_, fun r hr => ?_⟩
      · change (match rs.getLast? with | some r => (r.seq + 1) % 2 ^ 32 | none => from_) = from_
        rw [hn]
        rfl
      · change (match rs.getLast? with | some r => (r.seq + 1) % 2 ^ 32 | none => from_) = _
        rw [hr]
  · intro d
    refine ⟨fun h => ⟨fun hu => ?_, fun hu => ?_⟩, fun h => ⟨fun hu => ?_, fun hu => ?_⟩, fun h => ⟨fun hb => ?_, fun hb => ?_⟩, fun h => ?_⟩
    · exact (exec_ringCreate_takes h).trans (congrArg (fun x => Host.Outcome.next (s.onto x)) (if_neg (Bool.eq_false_iff.mp hu)))
    · exact (exec_ringCreate_takes h).trans (congrArg (fun x => Host.Outcome.next (s.onto x)) (if_pos hu))
    · exact (exec_ringDelete_takes h).trans (congrArg (fun x => Host.Outcome.next (s.onto x)) (if_pos hu))
    · exact (exec_ringDelete_takes h).trans (congrArg (fun x => Host.Outcome.next (s.onto x)) (if_neg (Bool.eq_false_iff.mp hu)))
    · exact ⟨_, exec_eventRingSet_takes h, if_pos hb⟩
    · have hoff : d.setEventRing e.block = { d with ev := { d.ev with enabled := false } } := if_neg (Bool.eq_false_iff.mp hb)
      rw [exec_eventRingSet_takes h, hoff]
    · exact ⟨_, exec_eventRoute_takes h, rfl, fun n => look_routesSet _ _ _ n _⟩

end Sys2Proof.Machine
end

section
/-!
PROOF. O10: launches made pending in the three modes, and their cancels (R132–R138, R142).
-/

namespace Sys2Proof.Machine

/-! ### LAUNCH_AT -/

section
variable {s : State} {dt q : Nat} {e : Entry} {placed : Dev} {t : Nat}

/-- LAUNCH_AT that passes every check before its mode, under an identifier that is not pending. -/
theorem Dev.launchCmd_passes {mode : Nat} (h : s.launchPasses dt q e mode placed) :
    (s.taken dt q e).launchCmd q e =
      let d := s.taken dt q e
      let id := e.target
      let scope := fldAt e.block 0x08 3 2
      let as_ := (launchList e.block).eraseDups
      if mode = 1 then (formLaunch e).reply ((placed.putLaunch none { id := id, mode := 1, tick := none, scope := scope, apertures := as_ }).markPending id as_) q e {}
      else match d.leadTick (qAt e.block 0x00) scope with
        | .error w => (formLaunch e).reply d q e w
        | .ok t =>
          let l : Launch := { id := id, mode := mode, tick := some t, scope := scope, apertures := as_, origin := decide (mode = 2), fired := false, check := d.now }
          let x := ((placed.putLaunch none l).markPending id as_).avoidLaunches
          if mode = 0 then (formLaunch e).reply x q e { result0 := BitVec.ofNat 64 t }
          else (x.hold q 0x12 e (.fire id t)).sendScope scope { type := 0x10, id := id, arg := scope, tick := BitVec.ofNat 64 t } (fun d => d.onFire id scope t) := by
  obtain ⟨-, -, rfl, hold, hids, hroom, hscope, hstates, hplaced⟩ := h
  have hready : ¬ (decide (fldAt e.block 0x08 1 0 = 2) && !((s.taken dt q e).scopeReady (fldAt e.block 0x08 3 2))) = true := by
    simpa using hscope
  simp only [Dev.launchCmd, Dev.idClash_of_not_pending hids, hold, Nat.not_le.mpr hroom, if_neg hready, hstates, hplaced,
    decide_false, Bool.and_false, Bool.false_eq_true, if_false]
  rfl

theorem exec_launchAt_passes (h : s.launchPasses dt q e 0 placed) (hlead : (s.taken dt q e).leadTick (qAt e.block 0x00) (fldAt e.block 0x08 3 2) = .ok t) :
    let as_ := (launchList e.block).eraseDups
    let l : Launch := { id := e.target, mode := 0, tick := some t, scope := fldAt e.block 0x08 3 2, apertures := as_, check := (s.taken dt q e).now }
    exec (.launchAt dt q e) s = .next (s.onto ((formLaunch e).reply (((placed.putLaunch none l).markPending e.target as_).avoidLaunches)
      q e { result0 := BitVec.ofNat 64 t })) := by
  have hexec : exec (.launchAt dt q e) s = onDev dt (Dev.takeLaunch q e) s := rfl
  rw [hexec, onDev_takeLaunch h, Dev.launchCmd_passes h]
  dsimp only
  rw [if_neg (by decide), hlead]
  rfl

theorem exec_launchBind_passes (h : s.launchPasses dt q e 1 placed) :
    let as_ := (launchList e.block).eraseDups
    let l : Launch := { id := e.target, mode := 1, tick := none, scope := fldAt e.block 0x08 3 2, apertures := as_ }
    exec (.launchBind dt q e) s = .next (s.onto ((formLaunch e).reply ((placed.putLaunch none l).markPending e.target as_) q e {})) := by
  have hexec : exec (.launchBind dt q e) s = onDev dt (Dev.takeLaunch q e) s := rfl
  rw [hexec, onDev_takeLaunch h, Dev.launchCmd_passes h]
  rfl

theorem exec_launchFire_passes (h : s.launchPasses dt q e 2 placed) (hlead : (s.taken dt q e).leadTick (qAt e.block 0x00) (fldAt e.block 0x08 3 2) = .ok t) :
    let as_ := (launchList e.block).eraseDups
    let scope := fldAt e.block 0x08 3 2
    let l : Launch := { id := e.target, mode := 2, tick := some t, scope := scope, apertures := as_, origin := true, fired := false, check := (s.taken dt q e).now }
    exec (.launchFire dt q e) s = .next (s.onto (((((placed.putLaunch none l).markPending e.target as_).avoidLaunches).hold q 0x12 e
      (.fire e.target t)).sendScope scope { type := 0x10, id := e.target, arg := scope, tick := BitVec.ofNat 64 t } (fun d => d.onFire e.target scope t))) := by
  have hexec : exec (.launchFire dt q e) s = onDev dt (Dev.takeLaunch q e) s := rfl
  rw [hexec, onDev_takeLaunch h, Dev.launchCmd_passes h]
  dsimp only
  rw [if_neg (by decide), hlead]
  rfl

/-! ### LAUNCH_CANCEL -/

theorem exec_launchCancel_settled (h : s.takes dt formCancel q e noChecks = true) (hs : (s.taken dt q e).settled ((s.taken dt q e).launchApsOf e.target)) :
    exec (.launchCancel dt q e) s = .next (s.onto ((s.taken dt q e).cancelCmd q e)) :=
  (onDev_takes formCancel q e noChecks _ s dt h).trans (congrArg (fun x => Host.Outcome.next (s.onto x)) (Dev.orHeld_settled hs _ _ _ _ _))

end

section
variable {d : Dev} {q : Nat} {e : Entry} {l : Launch} {t : Nat}

theorem Dev.cancelCmd_own (hl : d.launchOf e.target = some l) (ht : l.tick = some t) (ho : l.origin = false) (hlead : d.now + 150 ≤ t) :
    d.cancelCmd q e = formCancel.reply
      ((d.removeLaunch l).updGlob (fun g => { g with applied := g.applied.map (fun c =>
        if c.id = l.id ∧ c.tick = t ∧ c.snap = false then { c with waits := c.waits.filter (· != 99) } else c) })).closeGathers q e {} := by
  unfold Dev.cancelCmd
  rw [hl]
  dsimp only
  rw [ht, ho]
  exact (if_neg (Nat.not_lt.mpr hlead)).trans (if_neg (by decide))

theorem Dev.cancelCmd_fired (hl : d.launchOf e.target = some l) (ht : l.tick = some t) (ho : l.origin = true) (hlead : d.now + scopeLead l.scope ≤ t) :
    d.cancelCmd q e = ((((d.removeLaunch l).dropGather l.id t).hold q 0x13 e (.cancel l.id t)).sendScope l.scope
      { type := 0x11, id := l.id, arg := l.scope, tick := BitVec.ofNat 64 t } (fun d => d)).settleCancels := by
  unfold Dev.cancelCmd
  rw [hl]
  dsimp only
  rw [ht, ho]
  exact (if_neg (Nat.not_lt.mpr hlead)).trans (if_pos rfl)

theorem Dev.cancelCmd_late (hl : d.launchOf e.target = some l) (ht : l.tick = some t) (ho : l.origin = false) (hlead : t < d.now + 150) :
    d.cancelCmd q e = formCancel.reply d q e { status := efsLead, result0 := BitVec.ofNat 64 t, result1 := BitVec.ofNat 64 (d.now + 150) } := by
  unfold Dev.cancelCmd
  rw [hl]
  dsimp only
  rw [ht, ho]
  exact if_pos hlead

theorem Dev.cancelCmd_none (hl : d.launchOf e.target = none) : d.cancelCmd q e = formCancel.reply d q e { status := efsState } := by
  unfold Dev.cancelCmd
  rw [hl]

theorem Dev.stopShadows_glob (d : Dev) (a : Nat) : (d.stopShadows a).glob = d.glob := by
  refine foldl_keeps (fun y : Dev => y.glob = d.glob) _ _ _ rfl fun y b hy => ?_
  dsimp only
  split <;> exact hy

/-- A launch that is removed is pending no more. -/
theorem Dev.removeLaunch_launches (d : Dev) (l : Launch) : (d.removeLaunch l).glob.launches = d.glob.launches.filter (fun x => decide (x ≠ l)) := by
  have hfold (x : Dev) : (l.apertures.foldl (fun (d : Dev) a =>
      if (d.ap a).launch = some l.id then (d.updAp a (fun p => { p with launch := none })).stopShadows a else d) x).glob = x.glob := by
    refine foldl_keeps (fun y : Dev => y.glob = x.glob) _ _ _ rfl fun y a hy => ?_
    split
    · exact ((Dev.stopShadows_glob _ _).trans (Dev.updAp_glob _ _ _)).trans hy
    · exact hy
  unfold Dev.removeLaunch
  dsimp only
  rw [(Dev.sameButReports_raise _ _ _ _ _).glob, hfold]
  rfl

end

/-- Settles O10: LAUNCH_AT past its checks, by mode, and LAUNCH_CANCEL, by what is pending. -/
theorem launchCommandsTakeEffect : Obligations.LaunchCommandsTakeEffect := by
  unfold Obligations.LaunchCommandsTakeEffect
  refine ⟨fun dt q e s placed t => ?_, fun dt q e s => ?_⟩
  · exact ⟨exec_launchAt_passes, exec_launchBind_passes, exec_launchFire_passes⟩
  · intro d htakes hsettled
    have hexec := exec_launchCancel_settled htakes hsettled
    refine ⟨fun l t hl ht ho hlead => ⟨?_, fun hm => ?_⟩, fun l t hl ht ho hlead => ?_, fun hl => ?_, fun l t hl ht ho hlead => ?_⟩
    · rw [hexec, Dev.cancelCmd_own hl ht ho hlead]
      rfl
    · rw [Dev.removeLaunch_launches, List.mem_filter] at hm
      exact absurd rfl (of_decide_eq_true hm.2)
    · rw [hexec, Dev.cancelCmd_fired hl ht ho hlead]
    · rw [hexec, Dev.cancelCmd_none hl]
    · rw [hexec, Dev.cancelCmd_late hl ht ho hlead]

end Sys2Proof.Machine
end

section
/-!
PROOF. O12: SNAPSHOT in its modes, RESET_AT, BARRIER and BROADCAST (R145–R150).
-/

namespace Sys2Proof.Machine

section
variable {s : State} {dt q : Nat} {e : Entry} {t : Nat}

/-- An identifier under which no snapshot is kept hinders none, and has none to take the place of. -/
theorem Dev.snapOf_of_not_pending {d : Dev} {id : Nat} (h : d.glob.snaps.all (fun x => decide (x.id ≠ id)) = true) : d.snapOf id = none := by
  unfold Dev.snapOf
  rw [List.find?_eq_none]
  intro x hx
  have hid := of_decide_eq_true (List.all_eq_true.mp h x hx)
  simp [hid]

theorem Dev.snapClash_of_not_pending {d : Dev} {id : Nat} (h : d.glob.snaps.all (fun x => decide (x.id ≠ id)) = true) (mode : Nat) (p : Snap → Bool) :
    idClash mode (((d.glob.snaps.filter p).filter (fun (x : Snap) => decide (x.id = id))).map (fun (x : Snap) => x.mode)) = false := by
  have hnone : (d.glob.snaps.filter p).filter (fun (x : Snap) => decide (x.id = id)) = [] := by
    rw [List.filter_eq_nil_iff]
    intro x hx
    have hid := of_decide_eq_true (List.all_eq_true.mp h x (List.mem_of_mem_filter hx))
    simp [hid]
  rw [hnone]
  simp [idClash]

/-- SNAPSHOT past its checks, under an identifier that is not pending. -/
theorem Dev.snapshotCmd_new {d : Dev} (hids : d.glob.snaps.all (fun x => decide (x.id ≠ e.target)) = true) (hroom : d.glob.snaps.length < 256)
    (hready : fldAt e.block 0x08 1 0 = 2 → d.scopeReady (fldAt e.block 0x08 3 2) = true) :
    d.snapshotCmd q e =
      let id := e.target
      let mode := fldAt e.block 0x08 1 0
      let scope := fldAt e.block 0x08 3 2
      let no := d.glob.snapNo
      let n : Dev := { d with glob := { d.glob with snapNo := no + 1 } }
      if mode = 1 then (n.putSnap none { id := id, no := no, mode := 1, tick := none, scope := scope, fired := false }).hold q 0x15 e (.snapshot id no)
      else match d.leadTick (qAt e.block 0x00) scope with
        | .error w => formSnapshot.reply d q e w
        | .ok t =>
          if mode = 0 then (n.putSnap none { id := id, no := no, mode := 0, tick := some t }).hold q 0x15 e (.snapshot id no)
          else
            ((n.putSnap none { id := id, no := no, mode := 2, tick := some t, scope := scope, origin := true, fired := false }).hold q 0x15 e
              (.snapFire id t)).sendScope scope { type := 0x18, id := id, arg := scope, tick := BitVec.ofNat 64 t } (fun d => d.onSnapFire id scope t) := by
  have hfull : ¬ 256 ≤ (d.glob.snaps.filter (fun (x : Snap) => x.latched.isNone)).length :=
    Nat.not_le.mpr (Nat.lt_of_le_of_lt (List.length_filter_le _ _) hroom)
  have hgo : ¬ (decide (fldAt e.block 0x08 1 0 = 2) && !(d.scopeReady (fldAt e.block 0x08 3 2))) = true := by simpa using hready
  unfold Dev.snapshotCmd
  dsimp only
  rw [Dev.snapClash_of_not_pending hids, Dev.snapOf_of_not_pending hids, decide_eq_false hfull, Bool.and_false, if_neg (by decide), if_neg (by decide),
    if_neg hgo]
  rfl

theorem exec_snapshot_takes (h : s.takes dt formSnapshot q e snapshotChecks = true) (i : Instr)
    (hi : i = .snapshot dt q e ∨ i = .snapshotJoin dt q e ∨ i = .snapshotFire dt q e) : exec i s = .next (s.onto ((s.taken dt q e).snapshotCmd q e)) := by
  have hexec : exec i s = onDev dt (Dev.takeSnapshot q e) s := by
    obtain rfl | rfl | rfl := hi <;> rfl
  exact hexec.trans (onDev_takes formSnapshot q e snapshotChecks _ s dt h)

theorem exec_resetAt_device (h : s.takes dt formReset q e resetChecks = true) (hscope : fldAt e.block 0x08 1 0 = 0)
    (hlead : (s.taken dt q e).leadTick (qAt e.block 0x00) 0 = .ok t) :
    let time := bitAt e.block 0x08 8
    let acq := bitAt e.block 0x08 9
    let r : ResetAct := { id := e.target, tick := t, scope := 0, time := time, acq := acq, load := qAt e.block 0x10, origin := true, fired := true }
    exec (.resetAt dt q e) s = .next (s.onto (((s.taken dt q e).updGlob (fun g => { g with resets := g.resets ++ [r] })).hold q 0x16 e
      (.reset e.target t))) := by
  refine (onDev_takes formReset q e resetChecks _ s dt h).trans (congrArg (fun x => Host.Outcome.next (s.onto x)) ?_)
  dsimp only
  rw [hscope, hlead]
  exact if_neg (by simp)

theorem exec_barrier_takes (h : s.takes dt formBarrier q e barrierChecks = true) :
    exec (.barrier dt q e) s = .next (s.onto (
      let d := s.taken dt q e
      let scope := fldAt e.block 0x00 1 0
      if scope = 0 then formBarrier.reply d q e {}
      else if !(d.scopeReady scope) then formBarrier.reply d q e modeError
      else (d.hold q 0x14 e (.barrier e.target scope false)).arriveBarrier e.target scope none 0)) :=
  onDev_takes formBarrier q e barrierChecks _ s dt h

theorem exec_broadcast_takes (h : s.takes dt formBroadcast q e broadcastChecks = true) (htop : (s.taken dt q e).isTop (fldAt e.block 0x20 1 0) = true)
    (hready : (s.taken dt q e).scopeReady (fldAt e.block 0x20 1 0) = true) :
    exec (.broadcast dt q e) s = .next (s.onto (
      let d := s.taken dt q e
      let scope := fldAt e.block 0x20 1 0
      let t := ((d.glob.bcasts.filter (fun (x : Bcast) => x.sender && !x.delivered)).map (fun (x : Bcast) => x.tick)).foldl max (d.now + releaseDelay scope)
      let payload := takePad 0 8 e.block
      let x : Bcast := { id := e.target, tick := t, payload := payload, scope := scope, waits := d.downLinks scope, count := 0, sender := true, ring := q }
      ({ d with glob := { d.glob with bcasts := d.glob.bcasts ++ [x] } }.queueWords (d.downLinks scope)
        { type := 0x28, id := e.target, arg := scope, tick := BitVec.ofNat 64 t, payload := payload }).hold q 0x17 e .broadcast)) := by
  refine (onDev_takes formBroadcast q e broadcastChecks _ s dt h).trans (congrArg (fun x => Host.Outcome.next (s.onto x)) ?_)
  dsimp only
  rw [htop, hready]
  exact if_neg (by decide)

end

/-- Settles O12: each command past its checks, by its mode and its scope. -/
theorem snapshotAndScopeCommands : Obligations.SnapshotAndScopeCommands := by
  unfold Obligations.SnapshotAndScopeCommands
  refine ⟨fun dt q e s t => ?_, fun dt q e s => ?_⟩
  · intro d id scope no n htakes hids hroom
    refine ⟨fun hm hlead => ?_, fun hm => ?_, fun hm hready hlead => ?_⟩
    · rw [exec_snapshot_takes htakes _ (.inl rfl), Dev.snapshotCmd_new hids hroom (fun h2 => by omega)]
      dsimp only
      rw [hm, if_neg (by decide), hlead]
      rfl
    · rw [exec_snapshot_takes htakes _ (.inr (.inl rfl)), Dev.snapshotCmd_new hids hroom (fun h2 => by omega)]
      exact congrArg (fun x => Host.Outcome.next (s.onto x)) (if_pos hm)
    · rw [exec_snapshot_takes htakes _ (.inr (.inr rfl)), Dev.snapshotCmd_new hids hroom (fun _ => hready)]
      dsimp only
      rw [hm, if_neg (by decide), hlead]
      rfl
  · intro d
    refine ⟨fun h hscope t hlead => exec_resetAt_device h hscope hlead, fun h => ⟨fun h0 => ?_, fun h0 hready => ?_⟩,
      fun h => exec_broadcast_takes h⟩
    · exact (exec_barrier_takes h).trans (congrArg (fun x => Host.Outcome.next (s.onto x)) (if_pos h0))
    · refine (exec_barrier_takes h).trans (congrArg (fun x => Host.Outcome.next (s.onto x)) ((if_neg h0).trans (if_neg ?_)))
      rw [hready]
      decide

end Sys2Proof.Machine
end

section
/-!
PROOF. O13: APERTURE_STAGE, APERTURE_ADMIT, APERTURE_RELEASE and APERTURE_WAIT (R82–R94).
-/

namespace Sys2Proof.Machine

section
variable {d : Dev} {q : Nat} {e : Entry}

/-- APERTURE_STAGE of a legal list: each block takes its place in the staged plane (R82, R94). -/
theorem Dev.stage_legal {bs : List Block} (hp : parseStage (e.block.length + 1) 0 e.block = .ok bs)
    (hb : d.stageBad e.target (bs.foldl planePut (d.ap e.target).staged) bs = none) (hs : (d.ap e.target).stageable = true)
    (ho : d.ownedBad e.target bs = none) :
    d.stage q e =
      let p := d.ap e.target
      let x := d.setAp e.target { p with staged := bs.foldl planePut p.staged, changeStaged := p.changeStaged || decide (3 ≤ p.state) }
      formStage.reply (if p.state = 0 then x.enterState e.target 1 else x) q e {} := by
  unfold Dev.stage
  dsimp only
  rw [hp]
  dsimp only
  rw [hb]
  dsimp only
  rw [hs, if_neg (by decide), ho]

/-- APERTURE_ADMIT of a plane whose checks, ownership and sums pass (R24–R28, R31). -/
theorem Dev.admitCmd_passes (hb : d.planeBad (d.planesWith e.target (d.ap e.target).staged) e.target (d.ap e.target).staged = none)
    (hc : d.mc.crit.on = false) (hs : (d.ap e.target).state = 1 ∨ 3 ≤ (d.ap e.target).state ∧ (d.ap e.target).changeStaged = true)
    (ho : d.ownedBad e.target (d.ap e.target).staged = none) (hf : d.firstFail (d.planesWith e.target (d.ap e.target).staged) = none) :
    d.admitCmd q e =
      let ps := d.planesWith e.target (d.ap e.target).staged
      formAdmit.reply ((d.placeNext ps e.target (d.ap e.target).staged).admitted ps e.target) q e {} := by
  have hlegal : (!(decide ((d.ap e.target).state = 1) || (decide (3 ≤ (d.ap e.target).state) && (d.ap e.target).changeStaged))) = false := by
    rcases hs with h | ⟨h3, hch⟩
    · rw [decide_eq_true h]
      rfl
    · rw [decide_eq_true h3, hch, Bool.and_self, Bool.or_true]
      rfl
  unfold Dev.admitCmd
  dsimp only
  rw [hb]
  dsimp only
  rw [hc, if_neg (by decide), hlegal, if_neg (by decide), ho]
  dsimp only
  rw [hf]

end

section
variable {dt q : Nat} {e : Entry} {s : State}

theorem exec_apertureStage_settled (h : s.takes dt formStage q e noChecks = true) (hs : (s.taken dt q e).settled [e.target]) :
    exec (.apertureStage dt q e) s = .next (s.onto ((s.taken dt q e).stage q e)) :=
  (onDev_takes formStage q e noChecks _ s dt h).trans (congrArg (fun x => Host.Outcome.next (s.onto x)) (Dev.orHeld_settled hs _ _ _ _ _))

theorem exec_apertureAdmit_settled (h : s.takes dt formAdmit q e noChecks = true) (hs : (s.taken dt q e).settled [e.target]) :
    exec (.apertureAdmit dt q e) s = .next (s.onto ((s.taken dt q e).admitCmd q e)) :=
  (onDev_takes formAdmit q e noChecks _ s dt h).trans (congrArg (fun x => Host.Outcome.next (s.onto x)) (Dev.orHeld_settled hs _ _ _ _ _))

theorem exec_apertureRelease_takes (h : s.takes dt formRelease q e noChecks = true) :
    exec (.apertureRelease dt q e) s = .next (s.onto (
      let d := s.taken dt q e
      let p := d.ap e.target
      if (p.state = 1 ∨ p.state = 2 ∨ p.state = 4) ∧ p.launch.isNone then formRelease.reply (d.releaseAp e.target) q e {}
      else formRelease.reply d q e (d.stateError e.target))) :=
  onDev_takes formRelease q e noChecks _ s dt h

theorem exec_apertureWait_takes (h : s.takes dt formWait q e waitChecks = true) :
    exec (.apertureWait dt q e) s = .next (s.onto (
      let d := s.taken dt q e
      if (d.ap e.target).matchesWait (fldAt e.block 0x00 3 0) (fldAt e.block 0x00 7 4) then formWait.reply d q e { result0 := d.clk.count }
      else d.hold q 0x25 e (.aperture e.target (fldAt e.block 0x00 3 0) (fldAt e.block 0x00 7 4)))) :=
  onDev_takes formWait q e waitChecks _ s dt h

end

/-- Settles O13: each command past its checks, by the state of its aperture. -/
theorem apertureCommandsTakeEffect : Obligations.ApertureCommandsTakeEffect := by
  unfold Obligations.ApertureCommandsTakeEffect
  refine ⟨fun dt q e s bs => ?_, fun dt q e s => ?_, fun dt q e s => ?_, fun dt q e s => ?_⟩
  · intro d p plane h hs hparse hbad hstage howned x
    rw [exec_apertureStage_settled h hs, Dev.stage_legal hparse hbad hstage howned]
  · intro d a p ps placed h hs hbad hcrit hstate howned hsums
    rw [exec_apertureAdmit_settled h hs, Dev.admitCmd_passes hbad hcrit hstate howned hsums]
  · intro d p h
    refine ⟨fun hp => ?_, fun hp => ?_⟩
    · exact (exec_apertureRelease_takes h).trans
        (congrArg (fun x => Host.Outcome.next (s.onto x)) (if_pos ⟨hp.1, Option.isNone_iff_eq_none.mpr hp.2⟩))
    · exact (exec_apertureRelease_takes h).trans
        (congrArg (fun x => Host.Outcome.next (s.onto x)) (if_neg fun hn => hp ⟨hn.1, Option.isNone_iff_eq_none.mp hn.2⟩))
  · intro d st sub h
    refine ⟨fun hm => ?_, fun hm => ?_⟩
    · exact (exec_apertureWait_takes h).trans (congrArg (fun x => Host.Outcome.next (s.onto x)) (if_pos hm))
    · exact (exec_apertureWait_takes h).trans (congrArg (fun x => Host.Outcome.next (s.onto x)) (if_neg (Bool.eq_false_iff.mp hm)))

end Sys2Proof.Machine
end

section
/-!
PROOF. O15: APERTURE_HALT, CAPTURE_ARM, CAPTURE_FREEZE, CAPTURE_TRIGGER, and the commands held for a provisional aperture (R81, R342, R343).
-/

namespace Sys2Proof.Machine

/-! ### A message that leaves its source -/

/-- Two devices agree but for the consumers of triggers: combiners, apertures, outputs, processors, and the registers that count. -/
def Dev.sameButConsumers (a b : Dev) : Prop :=
  b = { a with combs := b.combs, aps := b.aps, tos := b.tos, tps := b.tps, regs := b.regs, rcNow := b.rcNow }

namespace Dev.sameButConsumers

theorem refl (d : Dev) : d.sameButConsumers d := rfl

theorem trans {a b c : Dev} (h : a.sameButConsumers b) (g : b.sameButConsumers c) : a.sameButConsumers c := by
  unfold Dev.sameButConsumers at *
  rw [g, h]

theorem foldl {α : Type} {f : Dev → α → Dev} (h : ∀ (d : Dev) x, d.sameButConsumers (f d x)) (l : List α) (d : Dev) : d.sameButConsumers (l.foldl f d) :=
  foldl_keeps (fun y => d.sameButConsumers y) _ _ _ (refl d) fun y x hy => hy.trans (h y x)

variable {a b : Dev} (h : a.sameButConsumers b)
include h

theorem clk : b.clk = a.clk := by unfold Dev.sameButConsumers at h; rw [h]
theorem rings : b.rings = a.rings := by unfold Dev.sameButConsumers at h; rw [h]
theorem glob : b.glob = a.glob := by unfold Dev.sameButConsumers at h; rw [h]

end Dev.sameButConsumers

section
variable (d : Dev)

theorem Dev.sameButConsumers_bump (a : Nat) : d.sameButConsumers (d.bump a) := rfl
theorem Dev.sameButConsumers_setTo (n : Nat) (x : TrigOut) : d.sameButConsumers (d.setTo n x) := rfl
theorem Dev.sameButConsumers_setTp (n : Nat) (x : Tp) : d.sameButConsumers (d.setTp n x) := rfl

theorem Dev.sameButConsumers_toOutputs (src wait : Nat) (early : Bool) (m : TrigMsg) : d.sameButConsumers (d.toOutputs src wait early m) := by
  refine .foldl (fun d n => ?_) _ _
  dsimp only
  cases m with
  | cand c =>
    dsimp only
    split
    · split
      · exact .refl d
      · split
        · exact (d.sameButConsumers_setTo n _).trans (Dev.sameButConsumers_bump _ _)
        · exact d.sameButConsumers_setTo n _
    · exact .refl d
  | verdict s f ok =>
    dsimp only
    generalize hy : ((d.to n).takeVerdict (d.cyc + wait) s f ok) = y
    have h1 : d.sameButConsumers (if (d.to n).dropped.contains (s, f) then
        ((d.setTo n y).setTo n { y with dropped := y.dropped.filter (· != (s, f)) }).bump (toReg n 0x08) else d.setTo n y) := by
      split
      · exact ((d.sameButConsumers_setTo n y).trans (Dev.sameButConsumers_setTo _ n _)).trans (Dev.sameButConsumers_bump _ _)
      · exact d.sameButConsumers_setTo n y
    split
    · exact h1.trans (Dev.sameButConsumers_bump _ _)
    · exact h1

theorem Dev.sameButConsumers_feedConfirmed (n f : Nat) (w : List Word) (wait : Nat) (c : Candidate) : d.sameButConsumers (d.feedConfirmed n f w wait c) := by
  unfold Dev.feedConfirmed
  extract_lets t x near i
  clear_value near
  split
  · exact (d.sameButConsumers_setTp n _).trans (Dev.sameButConsumers_bump _ _)
  · exact d.sameButConsumers_setTp n _

theorem Dev.sameButConsumers_feedTrigger (src wait : Nat) (m : TrigMsg) : d.sameButConsumers (d.feedTrigger src wait m) := by
  refine .foldl (fun d p => ?_) _ _
  dsimp only
  split
  · split
    · exact .refl d
    · refine .foldl (fun d f => ?_) _ _
      split
      · exact .refl d
      · split
        · split
          · exact d.sameButConsumers_setTp _ _
          · exact d.sameButConsumers_feedConfirmed _ _ _ _ _
        · split
          · split
            · exact (d.sameButConsumers_setTp _ _).trans (Dev.sameButConsumers_feedConfirmed _ _ _ _ _ _)
            · exact d.sameButConsumers_setTp _ _
          · exact .refl d
  · exact .refl d

theorem Dev.sameButConsumers_leave (src wait : Nat) (m : TrigMsg) : d.sameButConsumers (d.leave src wait m) := by
  unfold Dev.leave
  extract_lets t d1 d2
  have h1 : d.sameButConsumers d2 := rfl
  exact (h1.trans (Dev.sameButConsumers_toOutputs _ _ _ _ _)).trans (Dev.sameButConsumers_feedTrigger _ _ _ _)

/-! ### A candidate at an aperture -/

theorem Dev.updAcq_clk (a : Nat) (f : Acq → Acq) : (d.updAcq a f).clk = d.clk := rfl

theorem Dev.enterSub_clk (a sub : Nat) : (d.enterSub a sub).clk = d.clk :=
  (Dev.sameButReports_wakeWaits (d.updAp a (fun p => { p with acq := { p.acq with sub := sub, since := d.now } })) a).clk

theorem Dev.meetCandidate_clk (a : Nat) (c : Candidate) : (d.meetCandidate a c).clk = d.clk := by
  have hlost (tick cause : Nat) : (d.countLost a tick cause).clk = d.clk := Dev.raiseAt_clk _ _ _ _ _ _ _
  have haccept : (d.accept a c.tick).clk = d.clk := by
    unfold Dev.accept
    dsimp only
    split
    · exact (Dev.openRecord_clk_glob _ _ _ _).1
    · exact (Dev.enterSub_clk _ _ _).trans (Dev.openRecord_clk_glob _ _ _ _).1
  unfold Dev.meetCandidate
  dsimp only
  split
  · rfl
  · split
    · split
      · rfl
      · split
        · rfl
        · exact hlost _ _
    · split
      · split
        · rfl
        · exact haccept
      · split
        · rfl
        · exact hlost _ _

end

/-! ### A command that waits -/

/-- The later of two entries for one key counts. -/
theorem Tbl.put_put {α : Type} (k : Nat) (v w : α) (t : Tbl α) : Tbl.put k v (Tbl.put k w t) = Tbl.put k v t := by
  induction t with
  | nil => simp [Tbl.put]
  | cons p t ih =>
    obtain ⟨j, u⟩ := p
    by_cases hj : j = k
    · simp [Tbl.put, hj]
    · by_cases hk : k < j
      · simp [Tbl.put, hj, hk]
      · simp [Tbl.put, hj, hk, ih]

/-- A command in execution on ring `q` of device `x` that waits for `w`, held on `d`. -/
def Dev.waitsOn (d : Dev) (q opcode : Nat) (e : Entry) (w : Wait) (x : Dev) : Dev := x.setRing q { x.ring q with busy := ((d.hold q opcode e w).ring q).busy }

theorem Dev.hold_ring (d : Dev) (q opcode : Nat) (e : Entry) (w : Wait) :
    (d.hold q opcode e w).ring q = { d.ring q with busy := some {
      wait := w, opcode := opcode, cmdId := e.cmdId, target := e.target, noirq := e.noirq, timeoutMs := e.timeoutMs,
      takenAt := d.clk.time, sqHead := (d.ring q).sqHead, outPtr := e.outPtr, outLen := e.outDw.fld 23 0 } } := d.ring_setRing_same q _

/-- A command that is held, then scheduled, then waits for what is scheduled: it is held on the device with the schedule. -/
theorem Dev.hold_schedule (d : Dev) (q opcode : Nat) (e : Entry) (w : Wait) (f : Globals → Globals) :
    let h := (d.hold q opcode e w).updGlob f
    h.setRing q { h.ring q with busy := (h.ring q).busy.map (fun b => { b with wait := w }) } = d.waitsOn q opcode e w (d.updGlob f) := by
  intro h
  have hh : h.ring q = (d.hold q opcode e w).ring q := rfl
  have hx : (d.updGlob f).ring q = d.ring q := rfl
  unfold Dev.waitsOn
  rw [hh, hx, Dev.hold_ring]
  exact congrArg (fun t => ({ d.updGlob f with rings := t } : Dev)) (Tbl.put_put _ _ _ _)

section
variable {d : Dev} {q a : Nat} {e : Entry}

theorem Dev.haltNow_scheduled {tick : QWord} {t : Nat} (hs : (d.ap a).state = 3) (hl : (d.ap a).launch = none) (hlead : d.leadTick tick 0 = .ok t) :
    (d.hold q 0x22 e (.halt a)).haltNow q a tick = d.waitsOn q 0x22 e (.halt a) (d.updGlob (fun g => { g with halts := g.halts ++ [{ unit := a, tick := t }] })) := by
  have htick : ¬ (decide (tick ≠ 0) && decide (tick.toNat < d.now + scopeLead 0)) = true ∧ (if tick = 0 then d.now + scopeLead 0 else tick.toNat) = t := by
    unfold Dev.leadTick at hlead
    dsimp only at hlead
    split at hlead
    · next h0 => exact ⟨by simp [h0], by rw [if_pos h0]; injection hlead⟩
    · next h0 =>
      split at hlead
      · cases hlead
      · next hlt => exact ⟨by simp [hlt], by rw [if_neg h0]; injection hlead⟩
  have hgo : ¬ (((d.hold q 0x22 e (.halt a)).ap a).state ≠ 3 ∨ ((d.hold q 0x22 e (.halt a)).ap a).launch.isSome = true) := by
    rw [show (d.hold q 0x22 e (.halt a)).ap a = d.ap a from rfl, hs, hl]
    decide
  rw [← Dev.hold_schedule]
  unfold Dev.haltNow
  dsimp only
  rw [if_neg hgo]
  refine (if_neg htick.1).trans ?_
  exact congrArg (fun n => (((d.hold q 0x22 e (.halt a)).updGlob (fun g => { g with halts := g.halts ++ [{ unit := a, tick := n }] })).setRing q
    { (d.hold q 0x22 e (.halt a)).ring q with busy := ((d.hold q 0x22 e (.halt a)).ring q).busy.map (fun b => { b with wait := .halt a }) })) htick.2

theorem Dev.armNow_scheduled (hs : (d.ap a).state = 3) (hsub : (d.ap a).acq.sub = 5) :
    (d.hold q 0x30 e (.arm a)).armNow q a = d.waitsOn q 0x30 e (.arm a) (d.updGlob (fun g => { g with arms := g.arms ++ [{ unit := a, tick := d.now + 150 }] })) := by
  rw [← Dev.hold_schedule]
  unfold Dev.armNow
  exact if_pos ⟨hs, hsub⟩

theorem Dev.freezeNow_scheduled (hs : (d.ap a).state = 3) (hsub : (d.ap a).acq.sub = 1 ∨ (d.ap a).acq.sub = 2 ∨ (d.ap a).acq.sub = 4) :
    (d.hold q 0x32 e (.freeze a)).freezeNow q a =
      d.waitsOn q 0x32 e (.freeze a) (d.updGlob (fun g => { g with freezes := g.freezes ++ [{ unit := a, tick := d.now + 150 }] })) := by
  rw [← Dev.hold_schedule]
  unfold Dev.freezeNow
  exact if_pos ⟨hs, hsub⟩

/-- CAPTURE_TRIGGER's candidate reaches the aperture, then the other consumers of its selector (R272, R342). -/
theorem Dev.triggerNow_taken (hs : (d.ap a).state = 3) (hsub : (d.ap a).acq.sub = 1 ∨ (d.ap a).acq.sub = 2) :
    d.triggerNow q a =
      let c : Candidate := { src := selCmd a, fire := d.now, tick := d.now, prov := false }
      let m := d.meetCandidate a c
      ((m.leave (selCmd a) 0 (.cand c)).updAcq a (fun x => { x with inbox := (m.ap a).acq.inbox })).finishRing q { result0 := d.clk.count, ap := some a } := by
  extract_lets c m
  have hclk : ((m.leave (selCmd a) 0 (.cand c)).updAcq a (fun x => { x with inbox := (m.ap a).acq.inbox })).clk = d.clk :=
    (Dev.updAcq_clk _ _ _).trans ((m.sameButConsumers_leave (selCmd a) 0 (.cand c)).clk.trans (d.meetCandidate_clk a c))
  unfold Dev.triggerNow
  refine (if_pos ⟨hs, hsub⟩).trans ?_
  exact congrArg (fun k : Clock => ((m.leave (selCmd a) 0 (.cand c)).updAcq a (fun x => { x with inbox := (m.ap a).acq.inbox })).finishRing q
    { result0 := k.count, ap := some a }) hclk

end

/-! ### Commands past their checks -/

section
variable {dt q : Nat} {e : Entry} {s : State}

theorem exec_apertureHalt_takes (h : s.takes dt formHalt q e haltChecks = true) :
    exec (.apertureHalt dt q e) s = .next (s.onto ((s.taken dt q e).orHeld q 0x22 e [e.target] (.halt (qAt e.block 0x00))
      (fun d => (d.hold q 0x22 e (.halt e.target)).haltNow q e.target (qAt e.block 0x00)))) := onDev_takes formHalt q e haltChecks _ s dt h

theorem exec_captureArm_takes (h : s.takes dt formArm q e noChecks = true) :
    exec (.captureArm dt q e) s = .next (s.onto (((s.taken dt q e).hold q 0x30 e (.arm e.target)).armNow q e.target)) :=
  onDev_takes formArm q e noChecks _ s dt h

theorem exec_captureFreeze_takes (h : s.takes dt formFreeze q e noChecks = true) :
    exec (.captureFreeze dt q e) s = .next (s.onto ((s.taken dt q e).orHeld q 0x32 e [e.target] .freeze
      (fun d => (d.hold q 0x32 e (.freeze e.target)).freezeNow q e.target))) := onDev_takes formFreeze q e noChecks _ s dt h

theorem exec_captureTrigger_takes (h : s.takes dt formTrigger q e noChecks = true) :
    exec (.captureTrigger dt q e) s = .next (s.onto ((s.taken dt q e).orHeld q 0x31 e [e.target] .trigger
      (fun d => (d.hold q 0x31 e (.held [e.target] .trigger)).triggerNow q e.target))) := onDev_takes formTrigger q e noChecks _ s dt h

theorem exec_apertureStage_takes (h : s.takes dt formStage q e noChecks = true) :
    exec (.apertureStage dt q e) s = .next (s.onto ((s.taken dt q e).orHeld q 0x20 e [e.target] (.stage e) (fun d => d.stage q e))) :=
  onDev_takes formStage q e noChecks _ s dt h

theorem exec_apertureAdmit_takes (h : s.takes dt formAdmit q e noChecks = true) :
    exec (.apertureAdmit dt q e) s = .next (s.onto ((s.taken dt q e).orHeld q 0x21 e [e.target] (.admission e) (fun d => d.admitCmd q e))) :=
  onDev_takes formAdmit q e noChecks _ s dt h

theorem exec_launch_takes (h : s.takes dt (formLaunch e) q e (launchChecks e.ptr) = true) (i : Instr)
    (hi : i = .launchAt dt q e ∨ i = .launchBind dt q e ∨ i = .launchFire dt q e) :
    exec i s = .next (s.onto ((s.taken dt q e).orHeld q 0x12 e (launchList e.block) (.launch e) (fun d => d.launchCmd q e))) := by
  have hexec : exec i s = onDev dt (Dev.takeLaunch q e) s := by
    obtain rfl | rfl | rfl := hi <;> rfl
  exact hexec.trans (onDev_takes (formLaunch e) q e (launchChecks e.ptr) _ s dt h)

theorem exec_launchCancel_takes (h : s.takes dt formCancel q e noChecks = true) :
    exec (.launchCancel dt q e) s = .next (s.onto ((s.taken dt q e).orHeld q 0x13 e ((s.taken dt q e).launchApsOf e.target) (.cancel e)
      (fun d => d.cancelCmd q e))) := onDev_takes formCancel q e noChecks _ s dt h

end

/-- A command on apertures of which one is provisional is held (R81). -/
theorem Dev.orHeld_provisional {d : Dev} {as_ : List Nat} (h : ¬ d.settled as_) (q opcode : Nat) (e : Entry) (c : HeldCmd) (run : Dev → Dev) :
    d.orHeld q opcode e as_ c run = d.hold q opcode e (.held as_ c) := if_pos (Bool.not_eq_false _ ▸ h)

/-- Settles O15: the four commands on an aperture that is not provisional, and each command held for one that is. -/
theorem captureCommandsTakeEffect : Obligations.CaptureCommandsTakeEffect := by
  unfold Obligations.CaptureCommandsTakeEffect
  refine ⟨fun dt q e s => ?_, fun dt q e s => ?_⟩
  · intro d a p waits
    have hsettled (hp : p.acq.prov = none) : d.settled [a] := by
      unfold Dev.settled
      simp only [List.any_cons, List.any_nil, Bool.or_false]
      rw [show (d.ap a).acq.prov = none from hp]
      rfl
    refine ⟨fun h hp hs hl t hlead => ?_, fun h hs hsub => ?_, fun h hp hs hsub => ?_, fun h hp hs hsub => ?_⟩
    · rw [exec_apertureHalt_takes h, Dev.orHeld_settled (hsettled hp), Dev.haltNow_scheduled hs hl hlead]
      rfl
    · rw [exec_captureArm_takes h, Dev.armNow_scheduled hs hsub]
      rfl
    · rw [exec_captureFreeze_takes h, Dev.orHeld_settled (hsettled hp), Dev.freezeNow_scheduled hs hsub]
      rfl
    · intro c m
      rw [exec_captureTrigger_takes h, Dev.orHeld_settled (hsettled hp),
        Dev.triggerNow_taken (d := (s.taken dt q e).hold q 0x31 e (.held [e.target] .trigger)) hs hsub]
      rfl
  · intro d a
    refine ⟨fun hp => ?_, fun hp h => ?_, fun hp h => ?_⟩
    · have hprov : ¬ d.settled [a] := by
        unfold Dev.settled
        simp only [List.any_cons, List.any_nil, Bool.or_false]
        rw [hp]
        decide
      refine ⟨fun h => ?_, fun h => ?_, fun h => ?_, fun h => ?_, fun h => ?_⟩
      · rw [exec_apertureStage_takes h, Dev.orHeld_provisional hprov]
      · rw [exec_apertureAdmit_takes h, Dev.orHeld_provisional hprov]
      · rw [exec_apertureHalt_takes h, Dev.orHeld_provisional hprov]
      · rw [exec_captureTrigger_takes h, Dev.orHeld_provisional hprov]
      · rw [exec_captureFreeze_takes h, Dev.orHeld_provisional hprov]
    · intro t
      refine ⟨?_, ?_, ?_⟩
      · rw [exec_launch_takes h _ (.inl rfl), Dev.orHeld_provisional hp]
      · rw [exec_launch_takes h _ (.inr (.inl rfl)), Dev.orHeld_provisional hp]
      · rw [exec_launch_takes h _ (.inr (.inr rfl)), Dev.orHeld_provisional hp]
    · rw [exec_launchCancel_takes h, Dev.orHeld_provisional hp]

end Sys2Proof.Machine
end

section
/-!
PROOF. O17: the display, block and Relay commands (R441–R446, R539, R540, R542).
-/

namespace Sys2Proof.Machine

section
variable {d : Dev} {q : Nat} {e : Entry}

theorem Dev.displayMode_running (h : d.raster.running = true) :
    d.displayMode q e = (d.hold q 0x48 e .displayMode).updRaster (fun r => { r with waiting := some e.block }) := by
  unfold Dev.displayMode
  exact (if_neg (by rw [h]; simp)).trans (if_pos h)

theorem Dev.displayMode_stopped (h : d.raster.running = false) (he : dmEnable e.block = true) :
    d.displayMode q e = (d.hold q 0x48 e .displayMode).updRaster (fun r => { r with waiting := some e.block, locking := true }) := by
  unfold Dev.displayMode
  refine (if_neg (by rw [he]; simp)).trans ((if_neg ?_).trans (if_pos he))
  exact Bool.eq_false_iff.mp h

end

section
variable {dt q : Nat} {e : Entry} {s : State}

theorem exec_displayMode_takes (h : s.takes dt formDisplayMode q e displayModeChecks = true) :
    exec (.displayMode dt q e) s = .next (s.onto ((s.taken dt q e).displayMode q e)) := onDev_takes formDisplayMode q e displayModeChecks _ s dt h

theorem exec_layerSet_takes (h : s.takes dt formLayerSet q e layerSetChecks = true) :
    exec (.layerSet dt q e) s = .next (s.onto (
      let d := s.taken dt q e
      let x := d.setLayer e.target { d.layer e.target with waiting := some e.block }
      if x.raster.running then x.hold q 0x49 e (.layerSet e.target) else formLayerSet.reply x q e x.latchAnswer)) :=
  onDev_takes formLayerSet q e layerSetChecks _ s dt h

/-- A flip of a layer whose feed does not flip by itself. -/
theorem exec_layerFlip_takes {f : List Word} (h : s.takes dt formLayerFlip q e (layerFlipChecks e.target) = true)
    (hf : (s.taken dt q e).layerFeed e.target = some f) (ha : dfAutoFlip f = false) :
    exec (.layerFlip dt q e) s = .next (s.onto (
      let x := (s.taken dt q e).requestFlip e.target (fldAt e.block 0x00 1 0)
      if x.raster.running then x.hold q 0x4A e (.layerFlip e.target) else formLayerFlip.reply x q e x.latchAnswer)) := by
  refine (onDev_takes formLayerFlip q e (layerFlipChecks e.target) _ s dt h).trans (congrArg (fun x => Host.Outcome.next (s.onto x)) ?_)
  dsimp only
  rw [hf]
  exact if_neg (by rw [ha]; decide)

/-- What a block command does past its checks, `bad` the search for the first bad address. The search stands as a parameter, since its evaluation on an
unknown device has no end. -/
def Dev.blockCmd (bad : Dev → Bool → Nat → Nat → Option Nat) (write : Bool) (q : Nat) (e : Entry) (d : Dev) : Dev :=
  let b := e.block
  let a := (qAt b 0x00).toNat
  let n := (dwAt b 0x10).toNat
  match bad d write a n with
  | some x => (formBlock write).reply d q e { status := efsRange, result0 := BitVec.ofNat 64 x }
  | none =>
    let ch := d.freeBlock
    let j : BlockJob := { ring := q, write := write, cap := a, host := (qAt b 0x08).toNat, length := n }
    (d.hold q (formBlock write).opcode e (.block ch)).startBlock ch j

theorem Dev.takeBlock_eq (write : Bool) (q : Nat) (e : Entry) (d : Dev) :
    Dev.takeBlock write q e d = runCmd (formBlock write) q e (blockDmaChecks write) (Dev.blockCmd Dev.blockBad write q e) d := rfl

theorem Dev.blockCmd_within {bad : Dev → Bool → Nat → Nat → Option Nat} {write : Bool} {q : Nat} {e : Entry} {d : Dev}
    (h : bad d write (qAt e.block 0x00).toNat (dwAt e.block 0x10).toNat = none) :
    Dev.blockCmd bad write q e d = (
      let j : BlockJob := { ring := q, write := write, cap := (qAt e.block 0x00).toNat, host := (qAt e.block 0x08).toNat, length := (dwAt e.block 0x10).toNat }
      (d.hold q (formBlock write).opcode e (.block d.freeBlock)).startBlock d.freeBlock j) := by
  unfold Dev.blockCmd
  dsimp only
  rw [h]

/-- A block command within its range takes a channel and waits for the transfer. -/
theorem Dev.takeBlock_within (write : Bool) (h : s.takes dt (formBlock write) q e (blockDmaChecks write) = true)
    (hb : (s.taken dt q e).blockBad write (qAt e.block 0x00).toNat (dwAt e.block 0x10).toNat = none) :
    onDev dt (Dev.takeBlock write q e) s = .next (s.onto (
      let d := s.taken dt q e
      let j : BlockJob := { ring := q, write := write, cap := (qAt e.block 0x00).toNat, host := (qAt e.block 0x08).toNat, length := (dwAt e.block 0x10).toNat }
      (d.hold q (formBlock write).opcode e (.block d.freeBlock)).startBlock d.freeBlock j)) := by
  refine congrArg (fun x => Host.Outcome.next (s.onto x)) ?_
  rw [Dev.takeBlock_eq, runCmd_takes (formBlock write) q e (blockDmaChecks write) _ s dt h]
  exact Dev.blockCmd_within hb

theorem exec_relayAttach_takes (h : s.takes dt formAttach q e attachChecks = true) :
    exec (.relayAttach dt q e) s = .next (s.onto (
      let d := s.taken dt q e
      if (d.drive e.target).state ≠ 0 then formAttach.reply d q e { status := efsState }
      else formAttach.reply (d.setDrive e.target { ({} : DriveSlot) with state := 1, block := e.block.take 10 }) q e {})) :=
  onDev_takes formAttach q e attachChecks _ s dt h

theorem exec_relayDetach_takes (h : s.takes dt formDetach q e noChecks = true) :
    exec (.relayDetach dt q e) s = .next (s.onto (
      let d := s.taken dt q e
      if (d.drive e.target).state = 0 ∨ d.relayOn e.target then formDetach.reply d q e { status := efsState }
      else formDetach.reply { d with drives := Tbl.drop e.target d.drives } q e {})) :=
  onDev_takes formDetach q e noChecks _ s dt h

end

/-- Settles O17: each command past its checks, by the raster, the transfer or the drive slot it meets. -/
theorem displayAndTransferCommands : Obligations.DisplayAndTransferCommands := by
  unfold Obligations.DisplayAndTransferCommands
  refine ⟨fun dt q e s => ?_, fun dt q e s => ?_⟩
  · intro d layered
    refine ⟨fun h => ⟨fun hr => ?_, fun hr he => ?_⟩, fun h => ⟨fun hr => ?_, fun hr => ?_⟩, fun h f hf ha => ?_⟩
    · rw [exec_displayMode_takes h, Dev.displayMode_running hr]
      rfl
    · rw [exec_displayMode_takes h, Dev.displayMode_stopped hr he]
      rfl
    · exact (exec_layerSet_takes h).trans (congrArg (fun x => Host.Outcome.next (s.onto x)) (if_pos hr))
    · exact (exec_layerSet_takes h).trans (congrArg (fun x => Host.Outcome.next (s.onto x)) (if_neg (Bool.eq_false_iff.mp hr)))
    · intro x
      refine ⟨fun hr => ?_, fun hr => ?_⟩
      · exact (exec_layerFlip_takes h hf ha).trans (congrArg (fun x => Host.Outcome.next (s.onto x)) (if_pos hr))
      · exact (exec_layerFlip_takes h hf ha).trans (congrArg (fun x => Host.Outcome.next (s.onto x)) (if_neg (Bool.eq_false_iff.mp hr)))
  · intro d job started
    refine ⟨fun h hb => Dev.takeBlock_within false h hb, fun h hb => Dev.takeBlock_within true h hb, fun h hs => ?_, fun h hs hr => ?_⟩
    · exact (exec_relayAttach_takes h).trans (congrArg (fun x => Host.Outcome.next (s.onto x)) (if_neg (not_not_intro hs)))
    · exact (exec_relayDetach_takes h).trans
        (congrArg (fun x => Host.Outcome.next (s.onto x)) (if_neg (not_or.mpr ⟨hs, Bool.eq_false_iff.mp hr⟩)))

end Sys2Proof.Machine
end

section
/-!
PROOF. O18: calibration, spare policy, updates, attestation and TIME_REF_SET (R120, R575–R594, R610–R612).
-/

namespace Sys2Proof.Machine

/-! ### Calibration -/

section
variable {dt q : Nat} {e : Entry} {s : State}

theorem exec_calSweep_takes (h : s.takes dt formCalSweep q e calSweepChecks = true) :
    exec (.calSweep dt q e) s = .next (s.onto (
      let d := s.taken dt q e
      if d.mc.sweep.isSome || d.convertersLive (fldAt e.block 0x00 3 0) then formCalSweep.reply d q e modeError
      else (d.startSweep e.block).hold q 0x58 e .calSweep)) := onDev_takes formCalSweep q e calSweepChecks _ s dt h

/-- A mean uses up free values, and nothing else. -/
theorem Dev.meanT_only (d : Dev) (n : Nat) : ∃ k, (d.meanT n).2 = { d with free := k } := by
  unfold Dev.meanT Dev.meanOf
  dsimp only
  split
  · exact ⟨_, rfl⟩
  · split
    · exact ⟨d.free, rfl⟩
    · exact ⟨_, rfl⟩

/-- The temperatures that a CAL_APPLY takes of its converters. -/
def Dev.applyTemps (d : Dev) (ns : List Nat) : Tbl Int × Dev :=
  ns.foldl (fun (y : Tbl Int × Dev) n => let v := y.2.meanT n; (Tbl.put n v.1 y.1, v.2)) ([], d)

theorem Dev.applyTemps_only (d : Dev) (ns : List Nat) : ∃ k, (d.applyTemps ns).2 = { d with free := k } := by
  refine foldl_keeps (fun y : Tbl Int × Dev => ∃ k, y.2 = { d with free := k }) _ _ _ ⟨d.free, rfl⟩ fun y n hy => ?_
  obtain ⟨k, hk⟩ := hy
  obtain ⟨j, hj⟩ := y.2.meanT_only n
  exact ⟨j, by dsimp only; rw [hj, hk]⟩

theorem exec_calApply_lead {t : Nat} (h : s.takes dt formCalApply q e calApplyChecks = true)
    (hr : fldAt e.block 0x00 5 4 = 1 → ∀ n, n < 4 → bitSet (fldAt e.block 0x00 3 0) n = true → ((s.taken dt q e).mc.result n).isSome = true)
    (hlead : (s.taken dt q e).leadTick (qAt e.block 0x08) 0 = .ok t) :
    exec (.calApply dt q e) s = .next (s.onto (
      let b := e.block
      let conv := fldAt b 0x00 3 0
      let y := (s.taken dt q e).applyTemps ((List.range 4).filter (fun n => bitSet conv n))
      let c : CalLaunch := { conv := conv, tick := t, source := some (fldAt b 0x00 5 4), persist := bitAt b 0x00 6, temps := y.1 }
      (y.2.updMc (fun m => { m with cals := m.cals ++ [c] })).hold q 0x59 e (.calApply t))) := by
  have hmiss : (decide (fldAt e.block 0x00 5 4 = 1) &&
      ((List.range 4).filter (fun n => bitSet (fldAt e.block 0x00 3 0) n)).any (fun n => ((s.taken dt q e).mc.result n).isNone)) = false := by
    by_cases h1 : fldAt e.block 0x00 5 4 = 1
    · rw [Bool.and_eq_false_iff]
      refine .inr (List.any_eq_false.mpr fun n hn => ?_)
      obtain ⟨hlt, hbit⟩ := List.mem_filter.mp hn
      have hsome := hr h1 n (List.mem_range.mp hlt) hbit
      rw [Option.isNone_eq_false_iff.mpr hsome]
      decide
    · rw [decide_eq_false h1]
      rfl
  refine (onDev_takes formCalApply q e calApplyChecks _ s dt h).trans (congrArg (fun x => Host.Outcome.next (s.onto x)) ?_)
  dsimp only
  rw [hmiss, hlead]
  exact if_neg (by decide)

theorem exec_sparePolicy_takes {x : Bool × Nat} (h : s.takes dt formSparePolicy q e sparePolicyChecks = true)
    (hx : wearDefault (fldAt e.block 0x00 3 0) (fldAt e.block 0x00 7 4) = some x) :
    exec (.sparePolicy dt q e) s = .next (s.onto (
      let d := s.taken dt q e
      formSparePolicy.reply { d with mc := d.mc.setPolicy e.block } q e
        { result0 := BitVec.ofNat 64 (d.wearLimit (fldAt e.block 0x00 3 0) (fldAt e.block 0x00 7 4)), result1 := BitVec.ofNat 64 x.2 })) := by
  refine (onDev_takes formSparePolicy q e sparePolicyChecks _ s dt h).trans (congrArg (fun x => Host.Outcome.next (s.onto x)) ?_)
  dsimp only
  rw [hx]

/-! ### Updates -/

theorem exec_fwUpdateBegin_takes (h : s.takes dt formBegin q e beginChecks = true) :
    exec (.fwUpdateBegin dt q e) s = .next (s.onto (
      let d := s.taken dt q e
      if d.mc.update.isSome then formBegin.reply d q e modeError else formBegin.reply (d.openUpdate (dwAt e.block 0x00).toNat) q e {})) :=
  onDev_takes formBegin q e beginChecks _ s dt h

theorem exec_fwUpdateData_fits {u : Update} (h : s.takes dt formData q e (fun d b => if 1048584 < e.inLen then [] else dataChecks d b) = true)
    (hlen : e.inLen ≤ 1048584) (hu : (s.taken dt q e).mc.update = some u) :
    exec (.fwUpdateData dt q e) s = .next (s.onto (
      let d := s.taken dt q e
      let all := d.mc.slotBytes u.slot ++ dataBytes e.block
      formData.reply (d.updMc (fun m => { m.setSlot u.slot { data := some all, valid := false } with update := some { u with at_ := d.clk.time } })) q e {})) := by
  refine (onDev_takes formData q e _ _ s dt h).trans (congrArg (fun x => Host.Outcome.next (s.onto x)) ?_)
  dsimp only
  rw [if_neg (Nat.not_lt.mpr hlen), hu]

theorem exec_fwUpdateCommit_whole {u : Update} (h : s.takes dt formCommit q e noChecks = true) (hu : (s.taken dt q e).mc.update = some u)
    (hr : (s.taken dt q e).mc.received = u.total) :
    exec (.fwUpdateCommit dt q e) s = .next (s.onto (
      let x := (s.taken dt q e).commitUpdate u
      formCommit.reply x.2 q e x.1)) := by
  refine (onDev_takes formCommit q e noChecks _ s dt h).trans (congrArg (fun x => Host.Outcome.next (s.onto x)) ?_)
  dsimp only
  rw [hu]
  exact if_pos hr

/-! ### Attestation -/

theorem exec_attest_room (h : s.takes dt formAttest q e attestChecks = true) (hlen : 3080 ≤ e.outLen) :
    exec (.attest dt q e) s = .next (s.onto (
      match (s.taken dt q e).takeLeaf with
      | (none, d) => formAttest.reply d q e { status := efsLeaves }
      | (some leaf, d) =>
        let msg := d.attestWords leaf e.block
        let out := msg ++ wordsOfBytes (attestSignature leaf (bytesOfWords msg)) ++ [0]
        formAttest.reply ((d.writeOutE e out).logOnly 0x1007 0 leaf) q e {})) := by
  refine (onDev_takes formAttest q e attestChecks _ s dt h).trans (congrArg (fun x => Host.Outcome.next (s.onto x)) ?_)
  exact (if_neg (Nat.not_lt.mpr hlen)).trans rfl

end

section
variable (d : Dev)

theorem Dev.logRecord_leaf (r : LogRec) : (d.logRecord r).mc.leaf = d.mc.leaf := by
  unfold Dev.logRecord
  dsimp only
  split <;> rfl

theorem Dev.raiseAt_leaf (id sev unit arg : Nat) (data tb : QWord) : (d.raiseAt id sev unit arg data tb).mc.leaf = d.mc.leaf := by
  have hlog (e : Event) : (d.logEvent e).mc.leaf = d.mc.leaf := by
    unfold Dev.logEvent
    split
    · rfl
    · exact d.logRecord_leaf _
  have hsend (y : Dev) (v : Nat) : (y.sendVector v).mc = y.mc := by
    unfold Dev.sendVector
    split
    · dsimp only
      split <;> rfl
    · rfl
  unfold Dev.raiseAt Dev.produce
  dsimp only
  split
  · exact hlog _
  · split
    · rw [hsend]
      exact hlog _
    · exact hlog _

theorem Dev.leavesLow_leaf : d.leavesLow.mc.leaf = d.mc.leaf := by
  have hfirst (y : Dev) (hy : y.mc.leaf = d.mc.leaf) (left : Nat) :
      (if left ≤ 4096 && !y.mc.low4 then (y.updMc (fun m => { m with low4 := true })).raiseAt evLeavesLow 1 0 left
        (BitVec.ofNat 64 (y.updMc (fun m => { m with low4 := true })).mc.leaf) (y.updMc (fun m => { m with low4 := true })).clk.count else y).mc.leaf =
        d.mc.leaf := by
    split
    · rw [Dev.raiseAt_leaf]
      exact hy
    · exact hy
  unfold Dev.leavesLow
  refine hfirst _ ?_ _
  split
  · exact (Dev.raiseAt_leaf _ _ _ _ _ _ _)
  · rfl

/-- The next leaf, which is used up; none when there is none (R590). -/
theorem Dev.takeLeaf_cases :
    (d.takeLeaf.1 = none ↔ d.mc.leaf = 1048576 ∨ ((d.mc.leaf % 4096 = 0 ∨ d.mc.claimed = false) ∧ 256 ≤ d.mc.blocks)) ∧
    (d.takeLeaf.1 = none → d.takeLeaf.2 = d) ∧ ∀ leaf, d.takeLeaf.1 = some leaf → leaf = d.mc.leaf ∧ d.takeLeaf.2.mc.leaf = leaf + 1 := by
  have hclaim : (decide (d.mc.leaf % 4096 = 0) || !d.mc.claimed) = true ↔ d.mc.leaf % 4096 = 0 ∨ d.mc.claimed = false := by simp
  rw [← hclaim]
  unfold Dev.takeLeaf
  dsimp only
  split
  · next h => exact ⟨iff_of_true rfl h, fun _ => rfl, fun leaf hl => absurd hl.symm (Option.some_ne_none _)⟩
  · next h =>
    refine ⟨iff_of_false (Option.some_ne_none _) h, fun hn => absurd hn (Option.some_ne_none _), fun leaf hl => ?_⟩
    have hleaf : leaf = d.mc.leaf := (Option.some.inj hl).symm
    refine ⟨hleaf, ?_⟩
    rw [Dev.leavesLow_leaf, hleaf]
    refine congrArg (· + 1) ?_
    split
    · exact Dev.logRecord_leaf _ _
    · rfl

/-! ### TIME_REF_SET -/

theorem Dev.settleCancels_clk : d.settleCancels.clk = d.clk := by
  refine foldl_clk (fun d p => ?_) _ _
  split
  · split
    · split
      · rfl
      · exact (Dev.finish_clk _ _ _).trans (Dev.finish_clk _ _ _)
    · rfl
  · rfl

theorem Dev.sameButConsumers_leaveEarly (src wait : Nat) (m : TrigMsg) : d.sameButConsumers (d.leaveEarly src wait m) :=
  d.sameButConsumers_toOutputs src wait true m

theorem Dev.unresolved_clk (id fire : Nat) : (d.unresolved id fire).clk = d.clk := by
  unfold Dev.unresolved
  split
  · dsimp only
    rw [Dev.bump_clk, (Dev.sameButConsumers_leaveEarly _ _ _ _).clk]
  · rfl

theorem Dev.cutLink_clk (k : Nat) : (d.cutLink k).clk = d.clk := by
  unfold Dev.cutLink
  refine (Dev.settleCancels_clk _).trans ?_
  exact foldl_clk (fun d p => d.unresolved_clk _ _) _ _

theorem Dev.cutUnused_clk : d.cutUnused.clk = d.clk := foldl_clk (fun d k => d.cutLink_clk k) _ _

/-- The clock but for what TIME_REF_SET leaves to the references: the count, and the fields it sets. -/
def Clock.refs (c : Clock) : QWord × Nat × Nat × Bool := (c.count, c.role, c.refMode, c.ppsEn)

theorem Dev.scopeUpdate_refs : d.scopeUpdate.clk.refs = d.clk.refs := by
  unfold Dev.scopeUpdate
  dsimp only
  split
  · rfl
  · split
    · rfl
    · split <;> rfl

theorem Dev.setTimeRef_refs (b : List Word) : (d.setTimeRef b).clk.refs = (d.clk.count, fldAt b 0x00 5 4, fldAt b 0x00 1 0, bitAt b 0x00 2) := by
  unfold Dev.setTimeRef
  extract_lets anew edge refAnew ppsAnew x0 d1 d2 x2 f n x3
  have h2 : d2.clk.refs = (d.clk.count, fldAt b 0x00 5 4, fldAt b 0x00 1 0, bitAt b 0x00 2) :=
    (Dev.scopeUpdate_refs _).trans (congrArg Clock.refs (Dev.cutUnused_clk d1))
  split
  · exact h2
  · split
    · exact h2
    · exact h2

end

theorem exec_timeRefSet_takes {dt q : Nat} {e : Entry} {s : State} (h : s.takes dt formTimeRef q e timeRefChecks = true) :
    exec (.timeRefSet dt q e) s = .next (s.onto (
      let d := s.taken dt q e
      if d.clk.refChanges e.block && (d.aps.any (fun (p : Nat × Aperture) => decide (p.2.state = 3)) || !d.glob.launches.isEmpty) then
        formTimeRef.reply d q e modeError
      else formTimeRef.reply (d.setTimeRef e.block) q e {})) := onDev_takes formTimeRef q e timeRefChecks _ s dt h

/-- Settles O18: each command past its checks; an update's slot, a leaf and the references by lemmas of their own. -/
theorem managementCommandsTakeEffect : Obligations.ManagementCommandsTakeEffect := by
  unfold Obligations.ManagementCommandsTakeEffect
  refine ⟨fun dt q e s => ?_, fun dt q e s => ?_, fun dt q e s => ?_, fun dt q e s => ?_⟩
  · intro d conv
    refine ⟨fun h hsweep hlive => ?_, fun h hr t hlead => ?_, fun h => fun x hx => exec_sparePolicy_takes h hx⟩
    · refine (exec_calSweep_takes h).trans (congrArg (fun x => Host.Outcome.next (s.onto x)) (if_neg ?_))
      rw [show (s.taken dt q e).mc.sweep = none from hsweep, show (s.taken dt q e).convertersLive (fldAt e.block 0x00 3 0) = false from hlive]
      decide
    · obtain ⟨k, hk⟩ := d.applyTemps_only ((List.range 4).filter (fun n => bitSet conv n))
      exact ⟨_, _, exec_calApply_lead h hr hlead, by rw [hk]⟩
  · intro d
    refine ⟨fun h hu => ⟨?_, fun u hu' => ?_, rfl⟩, fun h hlen u hu => exec_fwUpdateData_fits h hlen hu, fun h u hu hr => exec_fwUpdateCommit_whole h hu hr⟩
    · refine (exec_fwUpdateBegin_takes h).trans (congrArg (fun x => Host.Outcome.next (s.onto x)) (if_neg ?_))
      rw [show (s.taken dt q e).mc.update = none from hu]
      decide
    · obtain rfl := Option.some.inj hu'
      exact ⟨rfl, rfl⟩
  · intro d h hlen
    obtain ⟨hiff, hnone, hsome⟩ := d.takeLeaf_cases
    refine ⟨hiff, fun hl => ?_, fun leaf hl => ?_⟩
    · have htake : d.takeLeaf = (none, d) := Prod.ext hl (hnone hl)
      rw [exec_attest_room h hlen, htake]
    · intro x msg
      obtain ⟨hleaf, hnext⟩ := hsome leaf hl
      have htake : d.takeLeaf = (some leaf, x) := Prod.ext hl rfl
      refine ⟨hleaf, hnext, ?_⟩
      rw [exec_attest_room h hlen, htake]
  · intro d h
    refine ⟨fun hgo => ⟨?_, ?_⟩, fun hch hbusy => ?_⟩
    · refine (exec_timeRefSet_takes h).trans (congrArg (fun x => Host.Outcome.next (s.onto x)) (if_neg ?_))
      rcases hgo with hch | ⟨haps, hl⟩
      · rw [show (s.taken dt q e).clk.refChanges e.block = false from hch]
        simp
      · have hany : d.aps.any (fun (p : Nat × Aperture) => decide (p.2.state = 3)) = false :=
          List.any_eq_false.mpr fun p hp => by simpa using haps p hp
        rw [show (s.taken dt q e).aps.any (fun (p : Nat × Aperture) => decide (p.2.state = 3)) = false from hany,
          show (s.taken dt q e).glob.launches = [] from hl]
        simp
    · have hrefs := d.setTimeRef_refs e.block
      simp only [Clock.refs, Prod.mk.injEq] at hrefs
      obtain ⟨hcount, hrole, hmode, hpps⟩ := hrefs
      exact ⟨hrole, hmode, hpps, hcount⟩
    · refine (exec_timeRefSet_takes h).trans (congrArg (fun x => Host.Outcome.next (s.onto x)) (if_pos ?_))
      rw [Bool.and_eq_true, Bool.or_eq_true]
      refine ⟨hch, ?_⟩
      rcases hbusy with ⟨p, hp, hs⟩ | hl
      · exact .inl (List.any_eq_true.mpr ⟨p, hp, decide_eq_true hs⟩)
      · refine .inr ?_
        rw [Bool.not_eq_true', List.isEmpty_eq_false_iff]
        exact hl

end Sys2Proof.Machine
end

section
/-!
PROOF. O29: references, their loss and return, lock, and an armed load (R113–R119, R143).
-/

namespace Sys2Proof.Machine

/-! ### REF_IN -/

/-- A count that is slewed: SLEWING, its correction as it was, with at most 5 ppm added and no step (R117). -/
def Clock.isSlewed (c t : Clock) : Prop :=
  t.tq = Tq.slewing ∧ t.count = c.count ∧ t.trim = c.trim ∧ t.holdoverAt = none ∧ -5000000 ≤ t.added ∧ t.added ≤ 5000000

section
variable (d : Dev)

theorem Dev.slew_clk : d.clk.isSlewed d.slew.clk ∧ d.slew.clk.refPresent = d.clk.refPresent ∧ d.slew.clk.ppsLoad = d.clk.ppsLoad ∧
    d.slew.clk.epoch = d.clk.epoch ∧ d.slew.clk.cycle = d.clk.cycle := by
  have h : d.slew.clk.added = ((d.fresh.1.toNat % 10000001 : Nat) : Int) - 5000000 := rfl
  exact ⟨⟨rfl, rfl, rfl, rfl, by rw [h]; omega, by rw [h]; omega⟩, rfl, rfl, rfl, rfl⟩

theorem Dev.slew_rings : d.slew.rings = d.rings := rfl
theorem Dev.slew_glob : d.slew.glob = d.glob := rfl

/-- The clock in holdover: the correction at its average of the last second, from the time at which it began (R116). -/
def Clock.heldOver (c : Clock) : Clock :=
  { (c.setTq .holdover).setTrim (if c.tq = Tq.holdover then c.trim else c.trimMean) 0 with holdoverAt := some (c.holdoverAt.getD c.time) }

theorem Dev.enterHoldover_clk (lost : Nat) : (d.enterHoldover lost).clk = d.clk.heldOver := by
  unfold Dev.enterHoldover Clock.heldOver
  dsimp only
  rw [Dev.raise_clk]
  cases d.clk.holdoverAt <;> rfl

theorem Dev.refPresent_quiet (hm : d.clk.refMode ≠ 0) (hr : d.clk.role ≤ 1) (hq : d.clk.tq ≠ Tq.holdover) :
    d.refPresent = { d with clk := { d.clk with refPresent := true } } := by
  unfold Dev.refPresent
  rw [if_neg (by omega)]
  exact if_neg fun h => hq h.1

theorem Dev.refPresent_back (hm : d.clk.refMode ≠ 0) (hr : d.clk.role ≤ 1) (hq : d.clk.tq = Tq.holdover) (hp : d.clk.ppsEn = true → d.clk.ppsPresent = true) :
    d.refPresent = ({ d with clk := { d.clk with refPresent := true } } : Dev).slew := by
  have hall : ({ d with clk := { d.clk with refPresent := true } } : Dev).refsPresent = true := by
    unfold Dev.refsPresent
    rw [if_pos (show ({ d with clk := { d.clk with refPresent := true } } : Dev).clk.role ≤ 1 from hr)]
    have hpps : (!d.clk.ppsEn || d.clk.ppsPresent) = true := by
      cases he : d.clk.ppsEn with
      | false => rfl
      | true => rw [hp he]; rfl
    simpa using hpps
  unfold Dev.refPresent
  rw [if_neg (by omega)]
  exact if_pos ⟨hq, hall⟩

theorem Dev.refLost_clk (hm : d.clk.refMode ≠ 0) (hr : d.clk.role ≤ 1) (hp : d.clk.refPresent = true) :
    d.refLost.clk = { d.clk.heldOver with refPresent := false } := by
  unfold Dev.refLost
  rw [if_neg (by rw [hp]; simp [hm]; omega)]
  dsimp only
  rw [Dev.enterHoldover_clk, Dev.raise_clk]
  rfl

/-! ### PPS_IN -/

/-- PPS_IN lost where its edges are `late`. -/
def Dev.ppsLostIf (d : Dev) (late : Bool) : Dev :=
  if d.clk.ppsEn && d.clk.ppsPresent && late then
    (({ d with clk := { d.clk with ppsPresent := false, ppsGood := 0 } } : Dev).raise evPpsLost 0 0 d.clk.lastPps.toNat).enterHoldover 2
  else d

theorem Dev.ppsLostIf_clk (he : d.clk.ppsEn = true) (hp : d.clk.ppsPresent = true) :
    (d.ppsLostIf true).clk = { d.clk.heldOver with ppsPresent := false, ppsGood := 0 } := by
  unfold Dev.ppsLostIf
  rw [he, hp, if_pos (by decide), Dev.enterHoldover_clk, Dev.raise_clk]
  rfl

theorem Dev.ppsLost_late {x : Nat} (hx : d.clk.ppsCycle = some x) (hlate : x + 3300000000 ≤ d.clk.cycle) : d.ppsLost = d.ppsLostIf true := by
  have hl : (match some x with | some c => decide (c + 3300000000 ≤ d.cyc) | none => false) = true := decide_eq_true hlate
  exact (congrArg (fun p : Option Nat => d.ppsLostIf (match p with | some c => decide (c + 3300000000 ≤ d.cyc) | none => false)) hx).trans
    (congrArg d.ppsLostIf hl)

/-- The edges in time that PPS_IN has had in a row with this one (R114). -/
def Dev.ppsRun (d : Dev) : Nat :=
  let good := match d.clk.ppsCycle with
    | some c => decide (2999997000 ≤ d.cyc - c ∧ d.cyc - c ≤ 3000003000)
    | none => false
  if good then min (d.clk.ppsGood + 1) 3 else 1

/-- An edge of PPS_IN as it is noted. -/
def Dev.ppsNoted (d : Dev) (frac : Nat) : Dev :=
  { d with clk := { d.clk with
      lastPps := d.clk.count
      ppsCycle := some d.cyc
      ppsGood := d.ppsRun
      ppsPresent := d.clk.ppsPresent || decide (3 ≤ d.ppsRun)
      phaseErr := d.ppsPhase frac } }

/-- The device after an edge of PPS_IN, before a load: slewed where it is off or has its references back. -/
def Dev.ppsMet (d : Dev) (frac : Nat) : Dev :=
  if d.clk.tq = .locked ∧ !(phaseNear (d.ppsPhase frac)) then (d.ppsNoted frac).slew else (d.ppsNoted frac).refBack

theorem Dev.ppsEdge_noted (falling : Bool) (frac : Nat) (he : d.clk.ppsEn = true) (hf : d.clk.ppsFall = falling) :
    d.ppsEdge falling frac = (match (d.ppsMet frac).clk.ppsLoad with
      | some (v, c) =>
        if c ≤ (d.ppsMet frac).cyc then ({ d.ppsMet frac with clk := { (d.ppsMet frac).clk with ppsLoad := none } } : Dev).loadTime v else d.ppsMet frac
      | none => d.ppsMet frac) := by
  unfold Dev.ppsEdge
  rw [he, hf]
  exact if_neg (by simp)

theorem Dev.ppsMet_keeps (frac : Nat) : (d.ppsMet frac).clk.ppsLoad = d.clk.ppsLoad ∧ (d.ppsMet frac).clk.cycle = d.clk.cycle ∧
    (d.ppsMet frac).clk.epoch = d.clk.epoch ∧ (d.ppsMet frac).rings = d.rings := by
  unfold Dev.ppsMet
  split
  · exact ⟨rfl, rfl, rfl, rfl⟩
  · unfold Dev.refBack
    split <;> exact ⟨rfl, rfl, rfl, rfl⟩

theorem Dev.ppsEdge_unarmed (falling : Bool) (frac : Nat) (he : d.clk.ppsEn = true) (hf : d.clk.ppsFall = falling) (hl : d.clk.ppsLoad = none) :
    d.ppsEdge falling frac = d.ppsMet frac := by
  rw [d.ppsEdge_noted falling frac he hf, (d.ppsMet_keeps frac).1, hl]

theorem Dev.ppsEdge_armed (falling : Bool) (frac : Nat) {v : QWord} {at_ : Nat} (he : d.clk.ppsEn = true) (hf : d.clk.ppsFall = falling)
    (hl : d.clk.ppsLoad = some (v, at_)) (hat : at_ ≤ d.clk.cycle) :
    d.ppsEdge falling frac = ({ d.ppsMet frac with clk := { (d.ppsMet frac).clk with ppsLoad := none } } : Dev).loadTime v := by
  have hc : at_ ≤ (d.ppsMet frac).cyc := by
    change at_ ≤ (d.ppsMet frac).clk.cycle
    rw [(d.ppsMet_keeps frac).2.1]
    exact hat
  rw [d.ppsEdge_noted falling frac he hf, (d.ppsMet_keeps frac).1, hl]
  exact if_pos hc

theorem Dev.ppsLoads_armed (falling : Bool) {v : QWord} {at_ : Nat} (he : d.clk.ppsEn = true) (hf : d.clk.ppsFall = falling)
    (hl : d.clk.ppsLoad = some (v, at_)) (hat : at_ ≤ d.clk.cycle) : d.ppsLoads falling = true := by
  unfold Dev.ppsLoads
  rw [he, hf, hl]
  dsimp only
  rw [decide_eq_true (show at_ ≤ d.cyc from hat)]
  simp

theorem Dev.ppsLoads_unarmed (falling : Bool) (hl : d.clk.ppsLoad = none) : d.ppsLoads falling = false := by
  unfold Dev.ppsLoads
  rw [hl]
  simp

/-! ### Lock -/

/-- An event that is raised only where it is called for leaves the clock. -/
theorem Dev.raiseWhere_clk (p : Prop) [Decidable p] (id unit arg data : Nat) (y : Dev) : (if p then y.raise id unit arg data else y).clk = y.clk := by
  split
  · exact Dev.raise_clk _ _ _ _ _
  · rfl

theorem Dev.lock_clk (trim freq phase : Int) (hset : d.refsSet = true) (hpres : d.refsPresent = true) (hq : d.clk.tq ≠ Tq.locked) (hf : freq.natAbs < 1000)
    (hp : d.clk.ppsEn = true ∨ d.clk.tq = Tq.slewing → 3 * (if d.clk.ppsEn then d.clk.phaseErr else phase).natAbs ≤ 20000) :
    (d.lock trim freq phase).clk =
      { (d.clk.setTq .locked).setTrim trim 0 with phaseErr := if d.clk.ppsEn then d.clk.phaseErr else phase, holdoverAt := none } := by
  unfold Dev.lock
  dsimp only
  generalize (if d.clk.ppsEn = true then d.clk.phaseErr else phase) = p at hp ⊢
  have hgo : (!d.refsSet || !d.refsPresent || decide (1000 ≤ freq.natAbs) || ((d.clk.ppsEn || d.clk.tq == .slewing) && !(phaseNear p))) = false := by
    have hnear : ((d.clk.ppsEn || d.clk.tq == .slewing) && !(phaseNear p)) = false := by
      by_cases hs : d.clk.ppsEn = true ∨ d.clk.tq = Tq.slewing
      · unfold phaseNear
        rw [decide_eq_true (hp hs), Bool.not_true, Bool.and_false]
      · rw [not_or] at hs
        have hne : (d.clk.tq == Tq.slewing) = false := beq_eq_false_iff_ne.mpr hs.2
        rw [Bool.eq_false_iff.mpr hs.1, hne]
        rfl
    rw [hset, hpres, hnear, decide_eq_false (Nat.not_le.mpr hf)]
    rfl
  rw [hgo, if_neg (by decide), if_neg hq]
  exact (Dev.raiseWhere_clk _ _ _ _ _ _).trans (Dev.raiseWhere_clk _ _ _ _ _ _)

/-! ### A load -/

theorem Dev.cancelAction_noneHeld {d : Dev} (h : d.noneHeld) (id tick : Nat) (ws : List Wait) : (d.cancelAction id tick ws).noneHeld :=
  foldl_keeps (fun y : Dev => y.noneHeld) _ _ _ (Dev.noneHeld_of_rings (Dev.raiseAt_rings _ _ _ _ _ _ _) h) fun _ w hy => hy.finish w _

/-- A load runs no held command: none is held after it, where none was before. -/
theorem Dev.loadTime_noneHeld {d : Dev} (h : d.noneHeld) (v : QWord) : (d.loadTime v).noneHeld := by
  have hlaunch (y : Dev) (hy : y.noneHeld) (l : Launch) : (y.cancelLaunch l).noneHeld :=
    Dev.cancelAction_noneHeld (foldl_keeps (fun z : Dev => z.noneHeld) (Dev.unmarkAp l.id) l.apertures y hy fun _ _ hz => hz) _ _ _
  have h1 : (d.glob.launches.foldl Dev.cancelLaunch d.unscheduled).noneHeld :=
    foldl_keeps (fun y : Dev => y.noneHeld) _ _ _ (show d.unscheduled.noneHeld from h) fun y l hy => hlaunch y hy l
  have h2 (y : Dev) (hy : y.noneHeld) : (y.cancelSnapsAndResets d.glob).noneHeld := by
    unfold Dev.cancelSnapsAndResets
    refine foldl_keeps (fun y : Dev => y.noneHeld) _ _ _ ?_ fun y r hy => Dev.cancelAction_noneHeld hy _ _ _
    exact foldl_keeps (fun y : Dev => y.noneHeld) _ _ _ hy fun y r hy => Dev.cancelAction_noneHeld hy _ _ _
  have h3 (y : Dev) (hy : y.noneHeld) : y.cancelOwn.noneHeld := by
    unfold Dev.cancelOwn
    extract_lets d1 d2 cals _ d3
    have hd1 : d1.noneHeld := foldl_keeps (fun y : Dev => y.noneHeld) _ _ _ hy fun y r hy => Dev.cancelAction_noneHeld hy _ _ _
    have hd2 : d2.noneHeld := foldl_keeps (fun y : Dev => y.noneHeld) _ _ _ hd1 fun y r hy => Dev.cancelAction_noneHeld hy _ _ _
    exact foldl_keeps (fun y : Dev => y.noneHeld) _ _ _ (show d3.noneHeld from hd2) fun y r hy => Dev.cancelAction_noneHeld hy _ _ _
  have h4 (y : Dev) (hy : y.noneHeld) : y.cutMarkers.noneHeld := by
    have hm := y.sameButMarkers_cutMarkers
    unfold Dev.sameButMarkers at hm
    exact Dev.noneHeld_of_rings (by rw [hm]) hy
  rw [Dev.loadTime_eq]
  exact Dev.noneHeld_of_rings (b := (Dev.withCount _ v)) rfl (h4 _ (h3 _ (h2 _ h1)))

theorem Dev.loadTime_clk (v : QWord) : (d.loadTime v).clk.count = v ∧ (d.loadTime v).clk.epoch = d.clk.epoch + 1 ∧
    (d.loadTime v).clk.ppsLoad = d.clk.ppsLoad ∧ (d.loadTime v).glob.launches = [] := by
  obtain ⟨hlc, hlg⟩ := Dev.cancelLaunches_clk_glob d.glob.launches d.unscheduled
  rw [Dev.loadTime_eq]
  generalize d.glob.launches.foldl Dev.cancelLaunch d.unscheduled = d1 at hlc hlg ⊢
  have hr := d1.sameButReports_cancelSnapsAndResets d.glob
  generalize d1.cancelSnapsAndResets d.glob = d2 at hr ⊢
  obtain ⟨hoc, hog, -⟩ := d2.cancelOwn_keeps
  obtain ⟨hmc, hmg, -⟩ := d2.cancelOwn.cutMarkers_keeps
  generalize d2.cancelOwn.cutMarkers = d3 at hmc hmg ⊢
  have hclk : d3.clk = d.clk := hmc.trans (hoc.trans (hr.clk.trans hlc))
  have hglob : d3.glob = d.unscheduled.glob := hmg.trans (hog.trans (hr.glob.trans hlg))
  refine ⟨rfl, ?_, ?_, ?_⟩
  · exact congrArg (fun c : Clock => c.epoch + 1) hclk
  · exact show d3.clk.ppsLoad = d.clk.ppsLoad from congrArg Clock.ppsLoad hclk
  · exact congrArg Globals.launches hglob

theorem Dev.ppsEdge_armed_noneHeld (falling : Bool) (frac : Nat) {v : QWord} {at_ : Nat} (he : d.clk.ppsEn = true) (hf : d.clk.ppsFall = falling)
    (hl : d.clk.ppsLoad = some (v, at_)) (hat : at_ ≤ d.clk.cycle) (hn : d.noneHeld) : (d.ppsEdge falling frac).noneHeld := by
  obtain ⟨-, -, -, hrings⟩ := d.ppsMet_keeps frac
  rw [d.ppsEdge_armed falling frac he hf hl hat]
  generalize d.ppsMet frac = y at hrings ⊢
  have hy : ({ y with clk := { y.clk with ppsLoad := none } } : Dev).noneHeld := Dev.noneHeld_of_rings (a := d) hrings hn
  exact Dev.loadTime_noneHeld hy v

theorem Dev.ppsEdge_armed_clk (falling : Bool) (frac : Nat) {v : QWord} {at_ : Nat} (he : d.clk.ppsEn = true) (hf : d.clk.ppsFall = falling)
    (hl : d.clk.ppsLoad = some (v, at_)) (hat : at_ ≤ d.clk.cycle) :
    (d.ppsEdge falling frac).clk.count = v ∧ (d.ppsEdge falling frac).clk.epoch = d.clk.epoch + 1 ∧
      (d.ppsEdge falling frac).clk.ppsLoad = none ∧ (d.ppsEdge falling frac).glob.launches = [] := by
  obtain ⟨-, -, hepoch, -⟩ := d.ppsMet_keeps frac
  rw [d.ppsEdge_armed falling frac he hf hl hat]
  generalize d.ppsMet frac = y at hepoch ⊢
  obtain ⟨h1, h2, h3, h4⟩ := ({ y with clk := { y.clk with ppsLoad := none } } : Dev).loadTime_clk v
  exact ⟨h1, h2.trans (congrArg (· + 1) hepoch), h3, h4⟩

end

/-! ### The row of an edge -/

theorem exec_ppsEdge (dt : Nat) (falling : Bool) (frac : Nat) (s : State) : exec (.ppsEdge dt falling frac) s =
    .next (s.ontoAll (
      let x := if (s.after dt).ppsLoads falling then settleDue (s.after dt, s.mem) else (s.after dt, s.mem)
      ((x.1.ppsEdge falling frac).runHeldAll, x.2))) := rfl

/-- An edge with nothing due and no command held. -/
theorem exec_ppsEdge_alone {dt : Nat} {falling : Bool} {frac : Nat} {s : State}
    (hdue : (s.after dt).ppsLoads falling = true → (s.after dt).actionsDue = false) (hn : ((s.after dt).ppsEdge falling frac).noneHeld) :
    exec (.ppsEdge dt falling frac) s = .next (s.onto ((s.after dt).ppsEdge falling frac)) := by
  have hx : (if (s.after dt).ppsLoads falling then settleDue (s.after dt, s.mem) else (s.after dt, s.mem)) = (s.after dt, s.mem) := by
    split
    · next h =>
      unfold settleDue
      exact if_neg (by rw [hdue h]; decide)
    · rfl
  rw [exec_ppsEdge, hx]
  dsimp only
  rw [Dev.runHeldAll_of_noneHeld hn]
  rfl

/-- Settles O29: references that come and go by their clocks, and an armed load by what it keeps. -/
theorem referencesComeAndGo : Obligations.ReferencesComeAndGo := by
  unfold Obligations.ReferencesComeAndGo
  refine ⟨fun dt s => ?_, fun dt frac at_ falling v s => ?_⟩
  · intro d c began held slewed
    refine ⟨fun hm hr => ⟨fun hq => ?_, fun hq hp => ?_, fun hp => ?_⟩, fun falling frac he hf hl hq hh => ⟨⟨d.ppsRun, fun hnear => ?_, fun x hx h1 h2 => ?_,
      fun hx => ?_⟩, fun hlock hfar => ?_⟩, fun x he hp hx hlate => ?_, fun trim freq phase hset hpres hq hf hp => ?_⟩
    · exact congrArg (fun x => Host.Outcome.next (s.onto x)) (d.refPresent_quiet hm hr hq)
    · obtain ⟨⟨h1, h2, h3, h4, h5, h6⟩, h7, -⟩ := ({ d with clk := { d.clk with refPresent := true } } : Dev).slew_clk
      exact ⟨_, congrArg (fun x => Host.Outcome.next (s.onto x)) (d.refPresent_back hm hr hq hp), ⟨rfl, h1, h2, h3, h4, h5, h6⟩, h7⟩
    · exact ⟨s.onto d.refLost, rfl, rfl, d.refLost_clk hm hr hp⟩
    · have hmet : d.ppsEdge falling frac = d.ppsNoted frac := by
        rw [d.ppsEdge_unarmed falling frac he hf hl]
        unfold Dev.ppsMet
        rw [if_neg fun h => by
          have := hnear h.1
          unfold phaseNear at h
          rw [decide_eq_true this] at h
          exact absurd h.2 (by decide)]
        exact if_neg fun h => hq h.1
      have hnone : (d.ppsEdge falling frac).noneHeld := by
        rw [hmet]
        exact Dev.noneHeld_of_rings (a := d) rfl ((Dev.noneHeld_iff d).mpr hh)
      rw [exec_ppsEdge_alone (fun h => absurd (d.ppsLoads_unarmed falling hl) (by rw [h]; decide)) hnone, show (s.after dt).ppsEdge falling frac = _ from hmet]
      rfl
    · unfold Dev.ppsRun
      rw [hx]
      exact if_pos (decide_eq_true ⟨h1, h2⟩)
    · unfold Dev.ppsRun
      rw [hx]
      rfl
    · have hmet : d.ppsEdge falling frac = (d.ppsNoted frac).slew := by
        rw [d.ppsEdge_unarmed falling frac he hf hl]
        unfold Dev.ppsMet
        refine if_pos ⟨hlock, ?_⟩
        unfold phaseNear
        rw [decide_eq_false (Nat.not_le.mpr hfar)]
        rfl
      have hnone : (d.ppsEdge falling frac).noneHeld := by
        rw [hmet]
        exact Dev.noneHeld_of_rings (a := d) rfl ((Dev.noneHeld_iff d).mpr hh)
      obtain ⟨⟨h1, h2, h3, h4, h5, h6⟩, -⟩ := (d.ppsNoted frac).slew_clk
      refine ⟨s.onto (d.ppsNoted frac).slew, ?_, rfl, h1, h2, h3, h4, h5, h6⟩
      rw [exec_ppsEdge_alone (fun h => absurd (d.ppsLoads_unarmed falling hl) (by rw [h]; decide)) hnone, show (s.after dt).ppsEdge falling frac = _ from hmet]
    · exact ⟨s.onto d.ppsLost, rfl, rfl, (congrArg Dev.clk (d.ppsLost_late hx hlate)).trans (d.ppsLostIf_clk he hp)⟩
    · exact ⟨s.onto (d.lock trim freq phase), rfl, rfl, d.lock_clk trim freq phase hset hpres hq hf hp⟩
  · intro d c he hf hl hat
    refine ⟨fun hdue hh => ?_, fun hdue => ?_⟩
    · exact ⟨s.onto (d.ppsEdge falling frac), exec_ppsEdge_alone (fun _ => hdue) (d.ppsEdge_armed_noneHeld falling frac he hf hl hat ((Dev.noneHeld_iff d).mpr hh)),
        rfl, d.ppsEdge_armed_clk falling frac he hf hl hat⟩
    · intro x
      rw [exec_ppsEdge, if_pos (d.ppsLoads_armed falling he hf hl hat)]

end Sys2Proof.Machine
end

section
/-!
PROOF. O32: the words that come down to a member of a group (R122, R136, R141, R142, R145–R150).
-/

namespace Sys2Proof.Machine

/-! ### A device with no link below it -/

theorem Dev.queueWords_nil (d : Dev) (w : SyncOut) : d.queueWords [] w = d := rfl

section
variable {d : Dev} (hr : d.clk.role = 3)
include hr

theorem Dev.downLinks_member (scope : Nat) : d.downLinks scope = [] := by
  unfold Dev.downLinks
  rw [if_neg (by omega), if_neg (by omega)]

theorem Dev.isTop_member (scope : Nat) : d.isTop scope = false := by
  unfold Dev.isTop
  rw [hr]
  split <;> simp

theorem Dev.fromAbove_member : d.fromAbove 0 = true := by
  unfold Dev.fromAbove Dev.upLink
  rw [if_pos hr]
  rfl

/-- A word from above is acted on by a member, and passed on to nobody. -/
theorem Dev.passWord_member (scope : Nat) (w : SyncOut) (act : Dev → Dev) : d.passWord 0 scope w act = act d := by
  unfold Dev.passWord
  rw [if_pos (Dev.fromAbove_member hr), Dev.downLinks_member hr]
  rfl

theorem Dev.gather_member (id tick scope : Nat) (snap own origin : Bool) : d.gather id tick scope snap own origin = d := by
  unfold Dev.gather
  rw [Dev.downLinks_member hr, Dev.isTop_member hr]
  rfl

end

/-! ### Launches and snapshots -/

theorem Dev.lateWord_eq_false {d : Dev} {tick : Nat} (h : d.now + 108 ≤ tick) : d.lateWord tick = false := decide_eq_false (Nat.not_lt.mpr h)

theorem Dev.lateWord_eq_true {d : Dev} {tick : Nat} (h : tick < d.now + 108) : d.lateWord tick = true := decide_eq_true h

section
variable {d : Dev} (hr : d.clk.role = 3)
include hr

/-- A FIRE in time on a member with the binding: the launch takes the binding's place. -/
theorem Dev.onFire_bound {id scope tick : Nat} {l : Launch} (hl : d.firedOf id = some l) (hm : l.mode = 1) (ho : l.origin = false) (ht : d.now + 108 ≤ tick) :
    d.onFire id scope tick = (d.putLaunch (some l)
      { id := id, mode := 2, tick := some tick, scope := scope, apertures := l.apertures, fired := true, check := d.now }).avoidLaunches := by
  unfold Dev.onFire
  rw [hl]
  dsimp only
  rw [if_neg (by rw [hm]; simp), Dev.lateWord_eq_false ht, if_neg (by decide), ho, Bool.false_and]
  refine Dev.gather_member ?_ _ _ _ _ _ _
  exact hr

/-- A late FIRE on a member leaves the binding pending, under no tick. -/
theorem Dev.onFire_late {id scope tick : Nat} {l : Launch} (hl : d.firedOf id = some l) (hm : l.mode = 1) (ha : d.glob.applied = []) (ht : tick < d.now + 108) :
    d.onFire id scope tick = (d.noteLate id tick).putLaunch (some l) { l with mode := 1, tick := none, origin := false, fired := false } := by
  have hs : d.sameButReports (d.noteLate id tick) := d.sameButReports_raise _ _ _ _
  have hr' : (d.noteLate id tick).clk.role = 3 := by rw [hs.clk, hr]
  have ha' : (d.noteLate id tick).glob.applied = [] := by rw [hs.glob, ha]
  unfold Dev.onFire
  rw [hl]
  dsimp only
  rw [if_neg (by rw [hm]; simp), if_pos (Dev.lateWord_eq_true ht), Dev.gather_member hr']
  generalize d.noteLate id tick = y at ha' ⊢
  unfold Dev.closeGathers
  rw [show (y.putLaunch (some l) { l with mode := 1, tick := none, origin := false, fired := false }).glob.applied = [] from ha']
  rfl

omit hr in
theorem Dev.onCancel_pending {id tick : Nat} {l : Launch} (hl : d.firedOf id = some l) (ht : l.tick = some tick) (hin : d.now + 108 ≤ tick) :
    d.onCancel id tick = (d.dropGather id tick).removeLaunch l := by
  unfold Dev.onCancel
  rw [Dev.lateWord_eq_false hin, if_neg (by decide)]
  dsimp only
  rw [show (d.dropGather id tick).firedOf id = some l from hl]
  exact if_pos ht

theorem Dev.onSnapFire_joined {id scope tick : Nat} {x : Snap} (hx : d.snapOf id = some x) (hm : x.mode = 1) (ho : x.origin = false) (ht : d.now + 108 ≤ tick) :
    d.onSnapFire id scope tick = d.putSnap (some x) { id := id, no := x.no, mode := 2, tick := some tick, scope := scope } := by
  unfold Dev.onSnapFire
  rw [hx]
  dsimp only
  rw [if_neg (by rw [hm]; simp), Dev.lateWord_eq_false ht, if_neg (by decide), ho, Bool.false_and]
  exact Dev.gather_member (d := Dev.putSnap _ _ _) hr _ _ _ _ _ _

omit hr in
theorem Dev.onResetFire_elsewhere {id scope tick : Nat} {time acq : Bool} {load : QWord} (ho : ∀ x ∈ d.glob.resets, x.origin = false) (ht : d.now + 108 ≤ tick) :
    d.onResetFire id scope tick time acq load = { d with glob := { d.glob with resets := d.glob.resets ++
      [{ id := id, tick := tick, scope := scope, time := time, acq := acq, load := load, origin := false }] } } := by
  have hnone : ∀ x ∈ d.glob.resets, (decide (x.id = id ∧ x.tick = tick) && x.origin && !x.fired) = false := fun x hx => by rw [ho x hx]; simp
  have hany : d.glob.resets.any (fun x => decide (x.id = id ∧ x.tick = tick) && x.origin && !x.fired) = false :=
    List.any_eq_false.mpr fun x hx => by rw [hnone x hx]; decide
  have hrest : d.glob.resets.filter (fun x => !(decide (x.id = id ∧ x.tick = tick) && x.origin && !x.fired)) = d.glob.resets :=
    List.filter_eq_self.mpr fun x hx => by rw [hnone x hx]; rfl
  unfold Dev.onResetFire
  rw [Dev.lateWord_eq_false ht, if_neg (by decide)]
  dsimp only
  rw [hany, hrest]
  rfl

/-! ### Broadcasts, counts and barriers -/

theorem Dev.onBcastPart_kept {w : SyncWord} (hp : w.arg / 2 ^ 24 % 256 < 3) : d.onBcastPart 0 w = d.setLink 0
    { d.link 0 with parts := (d.link 0).parts.filter (fun p => decide (p.1 ≠ w.id ∨ p.2.1 ≠ w.arg / 2 ^ 24 % 256)) ++
      [(w.id, w.arg / 2 ^ 24 % 256, w.tick.toNat + 2 ^ 64 * (w.arg % 2 ^ 24))] } := by
  unfold Dev.onBcastPart
  rw [Dev.downLinks_member hr]
  exact if_pos hp

theorem Dev.onBcastPart_whole {w : SyncWord} {v : Nat} (hp : w.arg / 2 ^ 24 % 256 = 3) (hv : (d.link 0).bcastWhole w.id = some v) :
    (d.onBcastPart 0 w).glob.bcasts = d.glob.bcasts ++
      [{ id := w.id, tick := w.tick.toNat, payload := (List.range 8).map (fun j => BitVec.ofNat 32 (v / 2 ^ (32 * j))), scope := 1, waits := [], count := 0,
         sender := false }] := by
  unfold Dev.onBcastPart
  rw [Dev.downLinks_member hr, hp, if_neg (by decide), hv]
  show d.glob.bcasts ++ [({ id := w.id, tick := w.tick.toNat, payload := (List.range 8).map (fun j => BitVec.ofNat 32 (v / 2 ^ (32 * j)))
                            scope := 1, waits := d.downLinks 1, count := 0, sender := false } : Bcast)] = _
  rw [Dev.downLinks_member hr]

theorem Dev.onApplied_fire {w : SyncWord} (hs : w.arg / 2 ^ 16 % 2 = 0) : d.onApplied 0 w =
    d.finish (.fire w.id w.tick.toNat) { result0 := BitVec.ofNat 64 w.tick.toNat, result1 := BitVec.ofNat 64 (w.arg % 2 ^ 16) } := by
  unfold Dev.onApplied
  dsimp only
  rw [if_pos (Dev.fromAbove_member hr), Dev.downLinks_member hr, hs]
  rfl

theorem Dev.onApplied_snap {w : SyncWord} (hs : w.arg / 2 ^ 16 % 2 = 1) : d.onApplied 0 w = d.updGlob (fun (x : Globals) =>
    { x with snaps := x.snaps.map (fun (y : Snap) =>
      if y.id = w.id ∧ y.tick = some w.tick.toNat ∧ y.origin then { y with applied := some (w.arg % 2 ^ 16) } else y) }) := by
  unfold Dev.onApplied
  dsimp only
  rw [if_pos (Dev.fromAbove_member hr), Dev.downLinks_member hr, hs]
  rfl

theorem Dev.releaseBarrier_member (id scope tick count : Nat) : d.releaseBarrier id scope tick count = { d with glob := { d.glob with
    barriers := d.glob.barriers.filter (fun c => !(decide (c.id = id ∧ c.scope = scope)))
    releases := d.glob.releases ++ [{ id := id, scope := scope, tick := tick, cycle := d.cyc + (tick - d.now) }] } } := by
  unfold Dev.releaseBarrier
  rw [Dev.downLinks_member hr]
  rfl

end

/-! ### The rows -/

/-- A word that is heard is acted on, on the device that has noted it. -/
theorem onWord_heard {s : State} {dt k : Nat} {w : SyncWord} (h : (s.after dt).hears k w = true) (f : Dev → Dev) :
    onWord dt k w f s = .next (s.onto (f ((s.after dt).heard k w))) := by
  unfold Dev.hears at h
  rw [Bool.and_eq_true, Bool.not_eq_true'] at h
  obtain ⟨hu, hs⟩ := h
  rw [onWord_up hu]
  refine congrArg (fun x => Host.Outcome.next (s.onto x)) ?_
  unfold Dev.acceptWord Dev.heard
  refine if_neg ?_
  unfold Dev.goodWord
  rw [Dev.link_setLink_same, hs]
  decide

/-- Settles O32: a member passes nothing on and gathers nothing, so each word does what its own lemma above says. -/
theorem wordsReachAMember : Obligations.WordsReachAMember := by
  unfold Obligations.WordsReachAMember
  refine ⟨fun dt w s => ?_, fun dt w s => ?_⟩
  · intro d r g tick scope bscope part others hrole hh
    have hr : r.clk.role = 3 := hrole
    have hpass (sc : Nat) (o : SyncOut) (f : Dev → Dev) : onWord dt 0 w (fun x => x.passWord 0 sc o f) s = .next (s.onto (f r)) :=
      (onWord_heard hh _).trans (congrArg (fun x => Host.Outcome.next (s.onto x)) (Dev.passWord_member hr _ _ _))
    have hword {f : Dev → Dev} {y : Dev} (h : f r = y) : onWord dt 0 w f s = .next (s.onto y) :=
      (onWord_heard hh f).trans (congrArg (fun x => Host.Outcome.next (s.onto x)) h)
    have habove : r.fromAbove 0 = true := Dev.fromAbove_member hr
    refine ⟨fun l hl hm ho ht => ?_, fun l hl htick ht => ?_, fun x hx hm ho ht => ?_, fun ht ho => ?_, fun hp => ?_, fun v hp hv => ?_,
      fun hs => ?_, fun hs => ?_, fun ht => ?_, ?_⟩
    · exact (hpass _ _ _).trans (congrArg (fun x => Host.Outcome.next (s.onto x)) (Dev.onFire_bound hr hl hm ho ht))
    · exact (hpass _ _ _).trans (congrArg (fun x => Host.Outcome.next (s.onto x)) (Dev.onCancel_pending hl htick ht))
    · exact (hpass _ _ _).trans (congrArg (fun x => Host.Outcome.next (s.onto x)) (Dev.onSnapFire_joined hr hx hm ho ht))
    · exact (hpass _ _ _).trans (congrArg (fun x => Host.Outcome.next (s.onto x)) (Dev.onResetFire_elsewhere ho ht))
    · exact hword ((if_pos habove).trans (Dev.onBcastPart_kept hr hp))
    · exact ⟨_, hword (if_pos habove), rfl, Dev.onBcastPart_whole hr hp hv⟩
    · exact hword (Dev.onApplied_fire hr hs)
    · exact hword (Dev.onApplied_snap hr hs)
    · refine hword ((if_neg (by rw [habove]; decide)).trans ((if_neg ?_).trans (Dev.releaseBarrier_member hr _ _ _ _)))
      rw [Dev.lateWord_eq_false (d := r) ht]
      decide
    · refine hword ((if_pos habove).trans ?_)
      rw [Dev.downLinks_member hr]
      rfl
  · intro d r hrole hh hlate
    have hr : r.clk.role = 3 := hrole
    refine ⟨fun l hl hm ha => ?_, ?_⟩
    · have hs : r.sameButReports (r.noteLate w.id w.tick.toNat) := r.sameButReports_raise _ _ _ _
      refine ⟨_, (onWord_heard hh _).trans (congrArg (fun x => Host.Outcome.next (s.onto x)) ((Dev.passWord_member hr _ _ _).trans
        (Dev.onFire_late hr hl hm ha hlate))), rfl, hs.aps, ?_⟩
      exact congrArg (fun y : Globals => { y with launches := y.launches.filter (fun x => decide (some x ≠ some l)) ++
        [{ l with mode := 1, tick := none, origin := false, fired := false }] }) hs.glob
    · have hs : r.sameButReports (r.noteLate w.id w.tick.toNat) := r.sameButReports_raise _ _ _ _
      refine ⟨s.onto (r.noteLate w.id w.tick.toNat), (onWord_heard hh _).trans (congrArg (fun x => Host.Outcome.next (s.onto x)) ?_), rfl, hs.glob,
        Dev.raiseAt_rings _ _ _ _ _ _ _⟩
      refine (if_neg ?_).trans (if_pos (Dev.lateWord_eq_true hlate))
      rw [show ((s.after dt).heard 0 w).fromAbove 0 = true from Dev.fromAbove_member hr]
      decide

end Sys2Proof.Machine
end

section
/-!
PROOF. O33: the words that come to a link's other end, and to the top of a scope (R125, R129, R145, R146, R149).
-/

namespace Sys2Proof.Machine

section
variable (d : Dev) (k : Nat)

theorem Dev.link_goodWord : (d.goodWord k).link k = { d.link k with bad := 0, goodAt := d.cyc } := Dev.link_setLink_same _ _ _

/-- The other end's link, as the word leaves it. -/
theorem Dev.link_heard (w : SyncWord) : (d.heard k w).link k =
    { d.link k with bad := 0, goodAt := d.cyc, rxSeen := (w.seq % 256 :: (d.link k).rxSeen).take 64 } := by
  refine (Dev.link_setLink_same _ _ _).trans ?_
  rw [Dev.link_goodWord]

/-! ### IDLE -/

theorem Dev.scopeUpdate_glob : d.scopeUpdate.glob = d.glob := by
  unfold Dev.scopeUpdate
  dsimp only
  split
  · rfl
  · split
    · rfl
    · split <;> rfl

/-- The scope-complete bits of a member whose link is up. -/
theorem Dev.scopeUpdate_member (hr : d.clk.role = 3) (hu : (d.link 0).up = true) :
    d.scopeUpdate.clk.scopeGroup = d.clk.scopeGroup ∧ d.scopeUpdate.clk.scopeSystem = d.clk.scopeSystem := by
  unfold Dev.scopeUpdate
  dsimp only
  rw [if_neg (by omega), if_neg (by omega), if_pos hr, hu, Bool.and_true, Bool.and_true]
  exact ⟨rfl, rfl⟩

/-- The device with the quality and the bit of an IDLE of link `k` kept, before the bits that it makes itself. -/
def Dev.idleKept (d : Dev) (k arg : Nat) : Dev :=
  let c := decide (arg / 4 % 2 = 1)
  let d := d.setLink k { d.link k with tq := arg % 4, complete := c }
  if d.fromAbove k then { d with clk := { d.clk with scopeSystem := c, scopeGroup := if d.clk.role = 3 then c else d.clk.scopeGroup } } else d

theorem Dev.idleKept_glob (arg : Nat) : (d.idleKept k arg).glob =
    (d.setLink k { d.link k with tq := arg % 4, complete := decide (arg / 4 % 2 = 1) }).glob := by
  unfold Dev.idleKept
  dsimp only
  split <;> rfl

theorem Dev.link_onIdle (arg : Nat) : (d.onIdle k arg).link k = { d.link k with tq := arg % 4, complete := decide (arg / 4 % 2 = 1) } := by
  have h : (d.onIdle k arg).glob = (d.setLink k { d.link k with tq := arg % 4, complete := decide (arg / 4 % 2 = 1) }).glob :=
    (Dev.scopeUpdate_glob (d.idleKept k arg)).trans (d.idleKept_glob k arg)
  exact (congrArg (fun g : Globals => Tbl.look ({} : SyncLink) g.links k) h).trans (Dev.link_setLink_same _ _ _)

theorem Dev.onIdle_member (arg : Nat) (hr : d.clk.role = 3) (hu : (d.link 0).up = true) :
    (d.onIdle 0 arg).clk.scopeGroup = decide (arg / 4 % 2 = 1) ∧ (d.onIdle 0 arg).clk.scopeSystem = decide (arg / 4 % 2 = 1) := by
  have hk : d.idleKept 0 arg = { d.setLink 0 { d.link 0 with tq := arg % 4, complete := decide (arg / 4 % 2 = 1) } with
      clk := { d.clk with scopeSystem := decide (arg / 4 % 2 = 1), scopeGroup := decide (arg / 4 % 2 = 1) } } := by
    unfold Dev.idleKept
    dsimp only
    rw [if_pos (Dev.fromAbove_member (d := Dev.setLink d 0 _) hr), if_pos (show (Dev.setLink d 0 _).clk.role = 3 from hr)]
    rfl
  have hup : ((d.idleKept 0 arg).link 0).up = true := by
    have hl : (d.idleKept 0 arg).link 0 = _ :=
      (congrArg (fun g : Globals => Tbl.look ({} : SyncLink) g.links 0) (d.idleKept_glob 0 arg)).trans (Dev.link_setLink_same _ _ _)
    rw [hl]
    exact hu
  have hrole : (d.idleKept 0 arg).clk.role = 3 := by
    rw [hk]
    exact hr
  obtain ⟨h1, h2⟩ := (d.idleKept 0 arg).scopeUpdate_member hrole hup
  exact ⟨h1.trans (by rw [hk]), h2.trans (by rw [hk])⟩

end

/-! ### A word on a link -/

/-- A word of launch class other than RESET_FIRE, on a link where none waits for its spacing and two find room: it and its repeat follow what waits. -/
theorem Dev.queueWord_launch {d : Dev} {k : Nat} {w : SyncOut} (hc : launchClass w.type = true) (hp : w.payload = []) (hs : (d.link k).spaced = [])
    (hq : (d.link k).launchQ.length ≤ 2) :
    ((d.queueWord k w).link k).launchQ = (d.link k).launchQ ++ [w, { w with flags := w.flags ||| 1 }] := by
  have hw : launchWords w = [w, { w with flags := w.flags ||| 1 }] := by
    unfold launchWords
    split
    · next h => exact absurd (hp.symm.trans h) (List.cons_ne_nil _ _).symm
    · cases w
      subst hp
      rfl
  unfold Dev.queueWord
  refine (congrArg SyncLink.launchQ ((Dev.link_setLink_same _ _ _).trans (if_pos hc))).trans ?_
  rw [hs, hw]
  unfold SyncLink.refill
  exact congrArg SyncLink.launchQ (if_pos (by simpa using hq))

/-! ### Barriers at the top of a group's scope -/

/-- The device with these barriers under way. -/
def Dev.withBarriers (d : Dev) (bs : List BarrierCount) : Dev := { d with glob := { d.glob with barriers := bs } }

section
variable {d : Dev} {k : Nat} (hr : d.clk.role = 1)
include hr

theorem Dev.isTop_root : d.isTop 1 = true := by
  unfold Dev.isTop
  rw [hr]
  rfl

theorem Dev.downLinks_root : d.downLinks 1 = d.groupLinks := by
  unfold Dev.downLinks
  rw [if_pos hr]
  rfl

theorem Dev.fromAbove_root : d.fromAbove k = false := by
  unfold Dev.fromAbove Dev.upLink
  rw [hr]
  rfl

omit hr in
theorem Dev.barrierOf_only {id : Nat} {c : BarrierCount} (hb : d.glob.barriers = [c]) (hid : c.id = id) (hs : c.scope = 1) : d.barrierOf id 1 = some c := by
  unfold Dev.barrierOf
  rw [hb]
  exact List.find?_cons_of_pos (decide_eq_true ⟨hid, hs⟩)

omit hr in
/-- The first arrival of a barrier, where the device's own host has not arrived. -/
theorem Dev.arriveBarrier_first {id n : Nat} (hb : d.glob.barriers = []) :
    d.arriveBarrier id 1 (some k) n = d.withBarriers [{ id := id, scope := 1, links := [(k, n)], own := false }] := by
  have harr : d.arriveBarrier id 1 (some k) n = (d.withBarriers [{ id := id, scope := 1, links := [(k, n)], own := false }]).barrierStep id 1 := by
    unfold Dev.arriveBarrier Dev.barrierOf
    rw [hb]
    rfl
  rw [harr]
  unfold Dev.barrierStep
  rw [Dev.barrierOf_only (d := d.withBarriers _) rfl rfl rfl]
  rfl

/-- A barrier at which every device below and this one's host have arrived is released at the top. -/
theorem Dev.barrierStep_full {id n : Nat} {c : BarrierCount} (hg : d.groupLinks = [k]) (hb : d.glob.barriers = [c]) (hid : c.id = id) (hs : c.scope = 1)
    (ho : c.own = true) (hl : c.links = [(k, n)]) : d.barrierStep id 1 = d.releaseBarrier id 1 (d.now + 1575) (n + 1) := by
  have hfull : d.barrierFull c = true := by
    unfold Dev.barrierFull
    rw [ho, hs, Dev.downLinks_root hr, hg, hl]
    simp
  have hcount : c.count = n + 1 := by
    unfold BarrierCount.count
    rw [ho, hl]
    simp
  unfold Dev.barrierStep
  rw [Dev.barrierOf_only hb hid hs]
  dsimp only
  rw [hfull, Dev.isTop_root hr, hcount]
  rfl

/-- The barrier whose last arrival has come is released at the top. -/
theorem Dev.arriveBarrier_last {id n : Nat} {c : BarrierCount} (hg : d.groupLinks = [k]) (hb : d.glob.barriers = [c]) (hid : c.id = id) (hs : c.scope = 1)
    (ho : c.own = true) (hl : c.links = []) :
    d.arriveBarrier id 1 (some k) n = (d.withBarriers [{ c with links := [(k, n)] }]).releaseBarrier id 1 (d.now + 1575) (n + 1) := by
  have hrest : d.glob.barriers.filter (fun (x : BarrierCount) => !(decide (x.id = id ∧ x.scope = 1))) = [] := by
    rw [hb]
    exact List.filter_cons_of_neg (by rw [decide_eq_true (⟨hid, hs⟩ : c.id = id ∧ c.scope = 1)]; decide)
  have harr : d.arriveBarrier id 1 (some k) n = (d.withBarriers [{ c with links := [(k, n)] }]).barrierStep id 1 := by
    unfold Dev.arriveBarrier
    rw [Dev.barrierOf_only hb hid hs, hrest]
    dsimp only [Option.getD]
    rw [hl]
    rfl
  rw [harr]
  exact Dev.barrierStep_full (d := d.withBarriers [{ c with links := [(k, n)] }]) (c := { c with links := [(k, n)] }) hr hg rfl hid hs ho rfl

/-- The release of the one barrier under way goes down the one link that is up, twice. -/
theorem Dev.releaseBarrier_only {id tick m : Nat} {c : BarrierCount} (hg : d.groupLinks = [k]) (hb : d.glob.barriers = [c]) (hid : c.id = id) (hs : c.scope = 1)
    (hu : (d.link k).up = true) (hsp : (d.link k).spaced = []) (hq : (d.link k).launchQ.length ≤ 2) :
    (d.releaseBarrier id 1 tick m).glob.barriers = [] ∧
    (d.releaseBarrier id 1 tick m).glob.releases = d.glob.releases ++ [{ id := id, scope := 1, tick := tick, cycle := d.cyc + (tick - d.now) }] ∧
    ((d.releaseBarrier id 1 tick m).link k).launchQ = (d.link k).launchQ ++
      [{ type := 0x22, id := id, arg := m % 2 ^ 16 + 2 ^ 16, tick := BitVec.ofNat 64 tick },
       { type := 0x22, id := id, arg := m % 2 ^ 16 + 2 ^ 16, tick := BitVec.ofNat 64 tick, flags := 1 }] := by
  have hwords : d.queueWords (d.downLinks 1) { type := 0x22, id := id, arg := barrierArg m 1, tick := BitVec.ofNat 64 tick } =
      d.queueWord k { type := 0x22, id := id, arg := m % 2 ^ 16 + 2 ^ 16, tick := BitVec.ofNat 64 tick } := by
    unfold Dev.queueWords
    rw [Dev.downLinks_root hr, hg, List.filter_cons_of_pos (by exact hu)]
    rfl
  have hfilter : d.glob.barriers.filter (fun c => !(decide (c.id = id ∧ c.scope = 1))) = [] := by
    rw [hb]
    exact List.filter_cons_of_neg (by rw [decide_eq_true (⟨hid, hs⟩ : c.id = id ∧ c.scope = 1)]; decide)
  have hsent : ((d.queueWord k { type := 0x22, id := id, arg := m % 2 ^ 16 + 2 ^ 16, tick := BitVec.ofNat 64 tick }).link k).launchQ =
      (d.link k).launchQ ++ [{ type := 0x22, id := id, arg := m % 2 ^ 16 + 2 ^ 16, tick := BitVec.ofNat 64 tick },
        { type := 0x22, id := id, arg := m % 2 ^ 16 + 2 ^ 16, tick := BitVec.ofNat 64 tick, flags := 1 }] :=
    Dev.queueWord_launch (w := { type := 0x22, id := id, arg := m % 2 ^ 16 + 2 ^ 16, tick := BitVec.ofNat 64 tick }) rfl rfl hsp hq |>.trans (by simp)
  unfold Dev.releaseBarrier
  rw [hwords]
  exact ⟨hfilter, rfl, hsent⟩

/-- What the last arrival leaves at the top. -/
theorem Dev.arriveBarrier_releases {id n : Nat} {c : BarrierCount} (hg : d.groupLinks = [k]) (hb : d.glob.barriers = [c]) (hid : c.id = id) (hs : c.scope = 1)
    (ho : c.own = true) (hl : c.links = []) (hu : (d.link k).up = true) (hsp : (d.link k).spaced = []) (hq : (d.link k).launchQ.length ≤ 2) :
    (d.arriveBarrier id 1 (some k) n).glob.barriers = [] ∧
    (d.arriveBarrier id 1 (some k) n).glob.releases = d.glob.releases ++ [{ id := id, scope := 1, tick := d.now + 1575, cycle := d.cyc + 1575 }] ∧
    ((d.arriveBarrier id 1 (some k) n).link k).launchQ = (d.link k).launchQ ++
      [{ type := 0x22, id := id, arg := (n + 1) % 2 ^ 16 + 2 ^ 16, tick := BitVec.ofNat 64 (d.now + 1575) },
       { type := 0x22, id := id, arg := (n + 1) % 2 ^ 16 + 2 ^ 16, tick := BitVec.ofNat 64 (d.now + 1575), flags := 1 }] := by
  rw [Dev.arriveBarrier_last hr hg hb hid hs ho hl]
  have h := Dev.releaseBarrier_only (d := d.withBarriers [{ c with links := [(k, n)] }]) (tick := d.now + 1575) (m := n + 1) hr hg rfl hid hs hu hsp hq
  rw [show (d.withBarriers [{ c with links := [(k, n)] }]).now = d.now from rfl, Nat.add_sub_cancel_left] at h
  exact h

/-- A withdrawal from a barrier that is not released is answered by the top. -/
theorem Dev.onWithdraw_top {id : Nat} {c c' : BarrierCount} (hrel : d.glob.releases = []) (hb : d.glob.barriers = [c]) (hid : c.id = id) (hs : c.scope = 1)
    (hc : c' = { c with links := c.links.filter (fun l => decide (l.1 ≠ k)), sentUp := false }) :
    d.onWithdraw k id 1 = (d.withBarriers [c']).queueWord k { type := 0x23, id := id, arg := c'.count % 2 ^ 16 + 2 ^ 16 } := by
  have hmap : d.updGlob (fun g => { g with barriers := g.barriers.map (fun (x : BarrierCount) =>
      if x = c then { x with links := x.links.filter (fun l => decide (l.1 ≠ k)), sentUp := false } else x) }) = d.withBarriers [c'] := by
    unfold Dev.updGlob
    dsimp only
    rw [hb, List.map_singleton, if_pos rfl, ← hc]
    rfl
  have harr : (d.withBarriers [c']).arrivals id 1 = c'.count := by
    unfold Dev.arrivals
    rw [Dev.barrierOf_only (d := d.withBarriers [c']) rfl (by rw [hc]; exact hid) (by rw [hc]; exact hs)]
  unfold Dev.onWithdraw
  rw [hrel, Dev.barrierOf_only hb hid hs]
  dsimp only
  rw [hmap, harr, Dev.isTop_root (d := d.withBarriers [c']) hr]
  rfl

omit hr in
theorem Dev.onAck_counted {id n : Nat} {x : Bcast} (hb : d.glob.bcasts = [x]) (hid : x.id = id) (hk : k ∈ x.waits) (hd : x.delivered = false) :
    d.onAck k id n = { d with glob := { d.glob with bcasts := [{ x with waits := x.waits.filter (· != k), count := x.count + n }] } } := by
  have hfind : d.glob.bcasts.find? (fun (x : Bcast) => decide (x.id = id) && x.waits.contains k) = some x := by
    rw [hb]
    exact List.find?_cons_of_pos (by rw [decide_eq_true hid, List.contains_iff_mem.mpr hk]; rfl)
  unfold Dev.onAck
  rw [hfind]
  dsimp only
  unfold Dev.closeBcast
  dsimp only
  rw [hd, Bool.false_and, if_neg (by decide)]
  unfold Dev.updGlob
  dsimp only
  rw [hb, List.map_singleton, if_pos rfl]

end

/-! ### The rows -/

theorem onLane_heard {s : State} {dt k : Nat} {w : SyncWord} (h : (s.after dt).hears k w = true) (f : Dev → Dev) :
    onLane dt k w f s = .next (s.onto (f ((s.after dt).heard k w))) := by
  have hu : ((s.after dt).link k).up = true := (Bool.and_eq_true_iff.mp h).1
  rw [onLane_up hu, ← onWord_up hu]
  exact onWord_heard h f

/-- Settles O33: each word by its own lemma above, on the device that has noted it. -/
theorem wordsReachTheTop : Obligations.WordsReachTheTop := by
  unfold Obligations.WordsReachTheTop
  intro dt k w s d r g n
  refine ⟨fun hu => ?_, fun hh => ?_⟩
  · have hlink := (d.goodWord k).link_onIdle k w.arg
    rw [Dev.link_goodWord] at hlink
    refine ⟨s.onto ((d.goodWord k).onIdle k w.arg), congrArg (fun x => Host.Outcome.next (s.onto x)) (if_pos hu), rfl, hlink, fun hr hk => ?_⟩
    subst hk
    exact (d.goodWord 0).onIdle_member w.arg hr (by rw [Dev.link_goodWord]; exact hu)
  · have hlink : r.link k = _ := d.link_heard k w
    have hword {f : Dev → Dev} {y : Dev} (h : f r = y) : onWord dt k w f s = .next (s.onto y) :=
      (onWord_heard hh f).trans (congrArg (fun x => Host.Outcome.next (s.onto x)) h)
    refine ⟨onLane_heard hh _, fun hreq => ?_, fun hr hs hb => ?_, fun hr hs hg hsp hq c hb hid hsc ho hl => ?_, fun hr hs hrel c hb hid hsc => ?_,
      fun hr x hb hid hk hd => ?_⟩
    · intro ms
      have hreq' : (r.link k).reqAt = some w.tick := by rw [hlink]; exact hreq
      have hm : ((r.setLink k ((r.link k).measure ((r.clk.count - w.tick).toNat - w.arg))).link k) = _ := Dev.link_setLink_same _ _ _
      refine ⟨_, (onLane_heard hh _).trans (congrArg (fun x => Host.Outcome.next (s.onto x)) (if_pos hreq')), rfl, ?_⟩
      rw [State.onto_dev, hm, hlink]
      exact ⟨rfl, rfl, rfl⟩
    · refine hword ?_
      rw [show argScope w.arg = 1 from hs]
      exact Dev.arriveBarrier_first (d := r) hb
    · intro out
      have hup : (r.link k).up = true := by
        rw [hlink]
        exact (Bool.and_eq_true_iff.mp hh).1
      obtain ⟨h1, h2, h3⟩ := Dev.arriveBarrier_releases (d := r) (n := n) hr hg hb hid hsc ho hl hup hsp hq
      exact ⟨s.onto (r.arriveBarrier w.id 1 (some k) n), hword (congrArg (fun i => r.arriveBarrier w.id i (some k) n) hs), rfl, h1, h2, h3⟩
    · refine hword ((if_neg (by rw [Dev.fromAbove_root (d := r) hr]; decide)).trans ?_)
      rw [show argScope w.arg = 1 from hs]
      exact Dev.onWithdraw_top (d := r) hr hrel hb hid hsc rfl
    · exact hword ((if_neg (by rw [Dev.fromAbove_root (d := r) hr]; decide)).trans (Dev.onAck_counted (d := r) hb hid hk hd))

end Sys2Proof.Machine
end

section
/-!
PROOF. O34: remote triggers and their verdicts (R305–R308), and what a lane sends and counts as its link comes and goes (R116, R122–R127).
-/

namespace Sys2Proof.Machine

/-! ### What a message to the trigger outputs leaves unchanged -/

/-- The same but for the trigger outputs and their registers. -/
def Dev.sameButOutputs (a b : Dev) : Prop :=
  b = { a with tos := b.tos, regs := b.regs, rcNow := b.rcNow } ∧ ∀ x, x < 0x4A1000 ∨ 0x4A1080 ≤ x → b.reg x = a.reg x

namespace Dev.sameButOutputs

theorem refl (d : Dev) : d.sameButOutputs d := ⟨rfl, fun _ _ => rfl⟩

theorem trans {a b c : Dev} (h : a.sameButOutputs b) (g : b.sameButOutputs c) : a.sameButOutputs c := by
  obtain ⟨h1, h2⟩ := h
  obtain ⟨g1, g2⟩ := g
  exact ⟨by rw [g1, h1], fun x hx => (g2 x hx).trans (h2 x hx)⟩

variable {a b : Dev} (h : a.sameButOutputs b)
include h

theorem aps : b.aps = a.aps := by rw [h.1]
theorem combs : b.combs = a.combs := by rw [h.1]
theorem remote : b.remote = a.remote := by rw [h.1]
theorem clk : b.clk = a.clk := by rw [h.1]
theorem rings : b.rings = a.rings := by rw [h.1]
theorem glob : b.glob = a.glob := by rw [h.1]

end Dev.sameButOutputs

section
variable (d : Dev)

theorem Dev.sameButOutputs_setTo (n : Nat) (x : TrigOut) : d.sameButOutputs (d.setTo n x) := ⟨rfl, fun _ _ => rfl⟩

theorem Dev.sameButOutputs_bump {n : Nat} (hn : n < 8) {off : Nat} (ho : off < 16) : d.sameButOutputs (d.bump (toReg n off)) :=
  ⟨rfl, fun x hx => d.reg_rcDo_ne _ _ _ (by unfold toReg; omega)⟩

theorem Dev.sameButOutputs_toOutputs (src wait : Nat) (early : Bool) (m : TrigMsg) : d.sameButOutputs (d.toOutputs src wait early m) := by
  unfold Dev.toOutputs
  refine List.foldlRecOn _ _ (.refl d) fun b hb n hn => hb.trans ?_
  have hn : n < 8 := List.mem_range.mp hn
  dsimp only
  cases m with
  | cand c =>
    dsimp only
    split
    · split
      · exact .refl b
      · split
        · exact (b.sameButOutputs_setTo n _).trans (Dev.sameButOutputs_bump _ hn (by decide))
        · exact b.sameButOutputs_setTo n _
    · exact .refl b
  | verdict s f ok =>
    dsimp only
    generalize hy : ((b.to n).takeVerdict (b.cyc + wait) s f ok) = y
    have h1 : b.sameButOutputs (if (b.to n).dropped.contains (s, f) then
        ((b.setTo n y).setTo n { y with dropped := y.dropped.filter (· != (s, f)) }).bump (toReg n 0x08) else b.setTo n y) := by
      split
      · exact ((b.sameButOutputs_setTo n y).trans (Dev.sameButOutputs_setTo _ n _)).trans (Dev.sameButOutputs_bump _ hn (by decide))
      · exact b.sameButOutputs_setTo n y
    split
    · exact h1.trans (Dev.sameButOutputs_bump _ hn (by decide))
    · exact h1

theorem Dev.sameButOutputs_leaveEarly (src wait : Nat) (m : TrigMsg) : d.sameButOutputs (d.leaveEarly src wait m) :=
  d.sameButOutputs_toOutputs src wait true m

end

/-! ### TRIG, VERDICT and their time limit -/

section
variable {d : Dev} {id fire tick k : Nat}

theorem Dev.receiveTrig_provisional (hn : d.remote.pending.length < 64) :
    (d.receiveTrig k id fire tick true).aps = d.aps ∧ (d.receiveTrig k id fire tick true).combs = d.combs ∧
      (d.receiveTrig k id fire tick true).remote = { d.remote with pending := d.remote.pending ++ [(id, fire, tick, d.clk.cycle, k)] } := by
  have h := d.sameButOutputs_leaveEarly (selRemote id) 30 (.cand { src := selRemote id, fire := fire, tick := tick, prov := true })
  unfold Dev.receiveTrig
  rw [if_neg (by decide)]
  generalize d.leaveEarly (selRemote id) 30 (.cand { src := selRemote id, fire := fire, tick := tick, prov := true }) = y at h ⊢
  dsimp only
  rw [if_pos (by rw [h.remote]; exact hn)]
  refine ⟨h.aps, h.combs, ?_⟩
  show ({ y.remote with pending := y.remote.pending ++ [(id, fire, tick, y.clk.cycle, k)] } : Remote) = _
  rw [h.remote, h.clk]

theorem Dev.receiveVerdict_unknown {ok : Bool} (hp : d.remote.pending = []) (hr : (id, fire) ∉ d.remote.resolved) :
    d.receiveVerdict id fire ok = d.bump 0x4A200C := by
  unfold Dev.receiveVerdict
  rw [hp]
  exact if_neg fun h => hr (List.contains_iff_mem.mp h)

theorem Dev.find_pending {p : Nat × Nat × Nat × Nat × Nat} (hp : d.remote.pending = [p]) :
    d.remote.pending.find? (fun r => decide (r.1 = p.1 ∧ r.2.1 = p.2.1)) = some p := by
  rw [hp]
  exact List.find?_cons_of_pos (decide_eq_true ⟨rfl, rfl⟩)

theorem Dev.drop_pending {p : Nat × Nat × Nat × Nat × Nat} (hp : d.remote.pending = [p]) : d.remote.pending.filter (· != p) = [] := by
  rw [hp]
  exact List.filter_cons_of_neg (by simp)

theorem Dev.receiveVerdict_cancelled {p : Nat × Nat × Nat × Nat × Nat} (hp : d.remote.pending = [p]) :
    (d.receiveVerdict p.1 p.2.1 false).aps = d.aps ∧ (d.receiveVerdict p.1 p.2.1 false).combs = d.combs ∧
      (d.receiveVerdict p.1 p.2.1 false).remote = { d.remote with pending := [] } := by
  unfold Dev.receiveVerdict
  rw [Dev.find_pending hp]
  dsimp only
  rw [Dev.drop_pending hp, if_pos (by decide)]
  have h := ({ d with remote := { d.remote with pending := [] } } : Dev).sameButOutputs_leaveEarly (selRemote p.1) 30 (.verdict (selRemote p.1) p.2.1 false)
  exact ⟨h.aps, h.combs, h.remote⟩

theorem Dev.unresolved_only {p : Nat × Nat × Nat × Nat × Nat} (hp : d.remote.pending = [p]) :
    (d.unresolved p.1 p.2.1).remote = { pending := [], resolved := d.remote.resolved ++ [(p.1, p.2.1)] } ∧
      (d.unresolved p.1 p.2.1).reg 0x4A2004 = d.reg 0x4A2004 + 1 := by
  unfold Dev.unresolved
  rw [Dev.find_pending hp]
  dsimp only
  rw [Dev.drop_pending hp]
  have h := ({ d with remote := { pending := [], resolved := d.remote.resolved ++ [(p.1, p.2.1)] } } : Dev).sameButOutputs_leaveEarly
    (selRemote p.1) 0 (.verdict (selRemote p.1) p.2.1 false)
  generalize Dev.leaveEarly _ (selRemote p.1) 0 (.verdict (selRemote p.1) p.2.1 false) = y at h ⊢
  have hreg : y.reg 0x4A2004 = d.reg 0x4A2004 := h.2 0x4A2004 (Or.inr (by decide))
  refine ⟨h.remote, ?_⟩
  rw [Dev.reg_bump_same, hreg]

end

/-! ### A lane's slot -/

section
variable {d : Dev} {k : Nat}

theorem Dev.closeGathers_none (h : d.glob.applied = []) : d.closeGathers = d := by
  unfold Dev.closeGathers
  rw [h]
  rfl

theorem SyncLink.refill_none {n : Nat} {l : SyncLink} (h : l.spaced = []) : l.refill n = l := by
  cases n with
  | zero => rfl
  | succ n =>
    unfold SyncLink.refill
    rw [h]

/-- The first copy of a word with its repeat takes SEQ, and its repeat the same one. -/
theorem sendHead_pair (seq : Nat) (w : SyncOut) (rest : List SyncOut) :
    sendHead seq ({ w with flags := 0, seq := none } :: { w with flags := 1, seq := none } :: rest) =
      some ({ w with flags := 0, seq := some seq }, { w with flags := 1, seq := some seq } :: rest) := rfl

theorem SyncOut.leave_plain {w : SyncOut} {c : QWord} (h1 : w.type ≠ 0x01) (h2 : w.type ≠ 0x02) : w.leave c = w := by
  unfold SyncOut.leave
  rw [if_neg h1, if_neg h2]

/-- The word that a slot of the lane sends, with the link as it is left; none where no queue has one. -/
def Dev.slotPick (d : Dev) (k : Nat) : Option (SyncOut × SyncLink) :=
  let l := d.link k
  let seq := (l.txSeq + 1) % 256
  match sendHead seq l.launchQ with
  | some (w, t) => some (w, ({ l with launchQ := t } : SyncLink).refill (l.spaced.length + 1))
  | none => match sendReady d.cyc seq l.trigQ with
    | some (w, t) => some (w, { l with trigQ := t })
    | none => (sendHead seq l.otherQ).map (fun r => (r.1, { l with otherQ := r.2 }))

/-- The device with the picked word sent, or an IDLE. -/
def Dev.slotSend (d : Dev) (k : Nat) (pick : Option (SyncOut × SyncLink)) : Dev :=
  match pick with
  | some (w, l) =>
    let l := if w.flags % 2 = 0 then { l with txSeq := ((d.link k).txSeq + 1) % 256 } else l
    let v := w.leave d.clk.count
    let l := if w.type = 0x01 then { l with reqAt := some d.clk.count } else l
    (d.setLink k l).sendWord k (v.seq.getD 0) v
  | none => d.sendWord k (d.link k).txSeq { type := 0x00, arg := d.clk.tq.code + 4 * (d.idleBit k).toNat, tick := d.clk.count }

theorem Dev.wordSlot_up (hu : (d.link k).up = true) : d.wordSlot k = (d.slotSend k (d.slotPick k)).closeGathers.settleCancels :=
  if_neg (by rw [hu]; simp)

theorem Dev.slotPick_launch {w : SyncOut} {rest : List SyncOut}
    (hq : (d.link k).launchQ = { w with flags := 0, seq := none } :: { w with flags := 1, seq := none } :: rest) (hs : (d.link k).spaced = []) :
    d.slotPick k = some ({ w with flags := 0, seq := some (((d.link k).txSeq + 1) % 256) },
      { d.link k with launchQ := { w with flags := 1, seq := some (((d.link k).txSeq + 1) % 256) } :: rest }) := by
  unfold Dev.slotPick
  dsimp only
  rw [hq, sendHead_pair]
  dsimp only
  rw [SyncLink.refill_none (by exact hs)]

theorem Dev.slotSend_first {w : SyncOut} {l : SyncLink} (hf : w.flags = 0) (h1 : w.type ≠ 0x01) (h2 : w.type ≠ 0x02) :
    d.slotSend k (some (w, l)) = (d.setLink k { l with txSeq := ((d.link k).txSeq + 1) % 256 }).sendWord k (w.seq.getD 0) w := by
  unfold Dev.slotSend
  dsimp only
  rw [SyncOut.leave_plain h1 h2, if_neg h1, if_pos (by rw [hf])]

theorem Dev.wordSlot_launch {w : SyncOut} {rest : List SyncOut} (hu : (d.link k).up = true) (ha : d.glob.applied = [])
    (hq : (d.link k).launchQ = { w with flags := 0, seq := none } :: { w with flags := 1, seq := none } :: rest) (h1 : w.type ≠ 0x01) (h2 : w.type ≠ 0x02)
    (hs : (d.link k).spaced = []) :
    d.wordSlot k = ((d.setLink k { d.link k with txSeq := ((d.link k).txSeq + 1) % 256, launchQ := { w with flags := 1, seq := some (((d.link k).txSeq + 1) % 256) } :: rest }).emit
      (.sync k w.type (((d.link k).txSeq + 1) % 256) 0 w.id w.arg w.tick (wordCrc (wordBits w.type (((d.link k).txSeq + 1) % 256) 0 w.id w.arg w.tick)))).settleCancels := by
  rw [Dev.wordSlot_up hu, Dev.slotPick_launch hq hs]
  exact (congrArg (fun y : Dev => y.closeGathers.settleCancels) (Dev.slotSend_first
    (w := { w with flags := 0, seq := some (((d.link k).txSeq + 1) % 256) }) rfl h1 h2)).trans (congrArg Dev.settleCancels (Dev.closeGathers_none ha))

theorem Dev.wordSlot_idle (hu : (d.link k).up = true) (ha : d.glob.applied = []) (hq : (d.link k).launchQ = []) (ht : (d.link k).trigQ = [])
    (ho : (d.link k).otherQ = []) :
    d.wordSlot k = (d.emit (.sync k 0x00 (d.link k).txSeq 0 0 (d.clk.tq.code + 4 * (d.idleBit k).toNat) d.clk.count
      (wordCrc (wordBits 0x00 (d.link k).txSeq 0 0 (d.clk.tq.code + 4 * (d.idleBit k).toNat) d.clk.count)))).settleCancels := by
  have hpick : d.slotPick k = none := by
    unfold Dev.slotPick
    dsimp only
    rw [hq, ht, ho]
    rfl
  rw [Dev.wordSlot_up hu, hpick]
  exact congrArg Dev.settleCancels (Dev.closeGathers_none ha)

/-! ### Ranging and CRC errors -/

/-- Ranging where its second is over, as `due` says. -/
def Dev.rangeIf (d : Dev) (k : Nat) (due : Bool) : Dev :=
  if ((d.link k).up && due) || (!(d.link k).up && d.linkUsed k) then (d.setLink k { d.link k with rangedAt := some d.cyc }).queueWord k { type := 0x01 } else d

theorem Dev.rangeNow_due {b : Bool} (h : (match (d.link k).rangedAt with | some t => decide (t + 3000000000 ≤ d.cyc) | none => true) = b) :
    d.rangeNow k = d.rangeIf k b := congrArg (d.rangeIf k) h

theorem Dev.rangeIf_true (hu : (d.link k).up = true) :
    d.rangeIf k true = (d.setLink k { d.link k with rangedAt := some d.cyc }).queueWord k { type := 0x01 } := if_pos (by rw [hu]; rfl)

theorem Dev.rangeIf_false (hu : (d.link k).up = true) : d.rangeIf k false = d := if_neg (by rw [hu]; simp)

theorem Dev.badWord_counted (hu : (d.link k).up = true) (hb : (d.link k).bad < 15) :
    d.badWord k = ({ d with clk := { d.clk with linkErr := d.clk.linkErr + 1 } } : Dev).setLink k { d.link k with bad := (d.link k).bad + 1 } := by
  unfold Dev.badWord
  rw [hu, if_neg (by decide)]
  dsimp only
  rw [Dev.link_setLink_same]
  refine if_neg ?_
  show ¬ 16 ≤ (d.link k).bad + 1
  omega

end

/-! ### A link comes up -/

theorem Dev.refBack_keeps (d : Dev) : d.refBack.clk.count = d.clk.count ∧ d.refBack.rings = d.rings ∧ d.refBack.glob = d.glob := by
  unfold Dev.refBack
  split
  · exact ⟨d.slew_clk.1.2.1, d.slew_rings, d.slew_glob⟩
  · exact ⟨rfl, rfl, rfl⟩

theorem Dev.loadTime_links (d : Dev) (v : QWord) : (d.loadTime v).glob.links = d.glob.links := by
  obtain ⟨-, hlg⟩ := Dev.cancelLaunches_clk_glob d.glob.launches d.unscheduled
  rw [Dev.loadTime_eq, Dev.withCount_glob, (Dev.cutMarkers_keeps _).2.1, (Dev.cancelOwn_keeps _).2.1, (Dev.sameButReports_cancelSnapsAndResets _ _).glob, hlg]
  rfl

section
variable {d : Dev} {k ps : Nat} {up : QWord}

/-- The device as a link with no measurement comes up with the delay `ps`, before the count. -/
def Dev.linkedUp (d : Dev) (k ps : Nat) : Dev :=
  ((d.setLink k { ({} : SyncLink) with up := true, delayPs := ps, meas := [ps], txSeq := (d.link k).txSeq, rangedAt := some d.cyc, goodAt := d.cyc }).scopeUpdate).raise
    (evSyncLinkUp + d.linkUnit k) (d.linkUnit k) (k % 8) ps

theorem Dev.scopeUpdate_only (d : Dev) : ∃ g s, d.scopeUpdate = { d with clk := { d.clk with scopeGroup := g, scopeSystem := s } } := by
  unfold Dev.scopeUpdate
  dsimp only
  split
  · exact ⟨_, _, rfl⟩
  · split
    · exact ⟨_, _, rfl⟩
    · split <;> exact ⟨_, _, rfl⟩

theorem Dev.scopeUpdate_keeps (d : Dev) : d.scopeUpdate.glob = d.glob ∧ d.scopeUpdate.aps = d.aps ∧ d.scopeUpdate.clk.role = d.clk.role ∧
    d.scopeUpdate.clk.count = d.clk.count ∧ d.scopeUpdate.rings = d.rings := by
  obtain ⟨g, s, h⟩ := d.scopeUpdate_only
  rw [h]
  exact ⟨rfl, rfl, rfl, rfl, rfl⟩

theorem Dev.linkedUp_keeps : (d.linkedUp k ps).glob = (d.setLink k { ({} : SyncLink) with up := true, delayPs := ps, meas := [ps], txSeq := (d.link k).txSeq, rangedAt := some d.cyc, goodAt := d.cyc }).glob ∧
    (d.linkedUp k ps).aps = d.aps ∧ (d.linkedUp k ps).clk.role = d.clk.role ∧ (d.linkedUp k ps).clk.count = d.clk.count ∧ (d.linkedUp k ps).rings = d.rings := by
  unfold Dev.linkedUp
  generalize hy : d.setLink k { ({} : SyncLink) with up := true, delayPs := ps, meas := [ps], txSeq := (d.link k).txSeq, rangedAt := some d.cyc, goodAt := d.cyc } = y
  obtain ⟨h1, h2, h3, h4, h5⟩ := y.scopeUpdate_keeps
  have hr := y.scopeUpdate.sameButReports_raise (evSyncLinkUp + d.linkUnit k) (d.linkUnit k) (k % 8) ps
  exact ⟨hr.glob.trans h1, hr.aps.trans (h2.trans (by rw [← hy]; rfl)), (congrArg Clock.role hr.clk).trans (h3.trans (by rw [← hy]; rfl)),
    (congrArg Clock.count hr.clk).trans (h4.trans (by rw [← hy]; rfl)), (Dev.raiseAt_rings _ _ _ _ _ _ _).trans (h5.trans (by rw [← hy]; rfl))⟩

theorem Dev.linkedUp_noneHeld (hn : d.noneHeld) : (d.linkedUp k ps).noneHeld := Dev.noneHeld_of_rings Dev.linkedUp_keeps.2.2.2.2 hn

theorem Dev.linkedUp_link : (d.linkedUp k ps).link k =
    { ({} : SyncLink) with up := true, delayPs := ps, meas := [ps], txSeq := (d.link k).txSeq, rangedAt := some d.cyc, goodAt := d.cyc } :=
  (congrArg (fun g : Globals => Tbl.look ({} : SyncLink) g.links k) Dev.linkedUp_keeps.1).trans (Dev.link_setLink_same _ _ _)

theorem Dev.fromAbove_of_role {a b : Dev} (h : b.clk.role = a.clk.role) (k : Nat) : b.fromAbove k = a.fromAbove k := by
  unfold Dev.fromAbove Dev.upLink
  rw [h]

section
variable (hu : (d.link k).up = false) (hused : d.linkUsed k = true) (hm : (d.link k).meas = []) (hps : ps ≤ (if k < 8 then 250000 else 775000))
include hu hused hm hps

theorem Dev.linkUp_within : d.linkUp k ps up = if d.fromAbove k then
    (if d.anyLive then (d.linkedUp k ps).slew else ((d.linkedUp k ps).loadTime (up + BitVec.ofNat 64 (ps * 3 / 1000))).refBack) else d.linkedUp k ps := by
  have hdelay : (d.link k).delayAtUp ps = ps := by
    unfold SyncLink.delayAtUp
    rw [hm]
    rfl
  have habove : (d.linkedUp k ps).fromAbove k = d.fromAbove k := Dev.fromAbove_of_role Dev.linkedUp_keeps.2.2.1 k
  have hlive : (d.linkedUp k ps).anyLive = d.anyLive := congrArg (fun l : Tbl Aperture => l.any (fun (p : Nat × Aperture) => decide (p.2.state = 3))) Dev.linkedUp_keeps.2.1
  have hbefore : d.linkUp k ps up = if (d.linkedUp k ps).fromAbove k then
      (if (d.linkedUp k ps).anyLive then (d.linkedUp k ps).slew else ((d.linkedUp k ps).loadTime (up + BitVec.ofNat 64 (ps * 3 / 1000))).refBack) else d.linkedUp k ps := by
    unfold Dev.linkUp
    extract_lets l p _ d1 d2
    have hp : p = ps := hdelay
    clear_value p
    subst hp
    rw [if_neg (by rw [show l.up = false from hu, hused]; decide), if_neg (show ¬ cableAllowance k < p from Nat.not_lt.mpr hps)]
    have hmeas : (if l.meas.isEmpty then [p] else l.meas) = [p] := by rw [show l.meas = [] from hm]; rfl
    have hd : d2 = d.linkedUp k p := congrArg (fun m => (d.setLink k { ({} : SyncLink) with
      up := true, delayPs := p, meas := m, txSeq := (d.link k).txSeq, rangedAt := some d.cyc, goodAt := d.cyc }).scopeUpdate.raise
        (evSyncLinkUp + d.linkUnit k) (d.linkUnit k) (k % 8) p) hmeas
    clear_value d2
    rw [hd]
  rw [hbefore, habove, hlive]

theorem Dev.linkLoads_within : d.linkLoads k ps = (d.fromAbove k && !d.anyLive) := by
  have hdelay : (d.link k).delayAtUp ps = ps := by
    unfold SyncLink.delayAtUp
    rw [hm]
    rfl
  unfold Dev.linkLoads
  rw [hu, hused, hdelay, decide_eq_true (show ps ≤ cableAllowance k from hps)]
  rfl

/-- On a link that leads down nothing but the link and its bits changes. -/
theorem Dev.linkUp_below (hf : d.fromAbove k = false) (hn : d.noneHeld) : d.linkLoads k ps = false ∧ (d.linkUp k ps up).noneHeld ∧
    (d.linkUp k ps up).link k = { ({} : SyncLink) with up := true, delayPs := ps, meas := [ps], txSeq := (d.link k).txSeq, rangedAt := some d.cyc, goodAt := d.cyc } := by
  rw [Dev.linkLoads_within hu hused hm hps, Dev.linkUp_within hu hused hm hps, hf, if_neg (by decide)]
  exact ⟨rfl, Dev.linkedUp_noneHeld hn, Dev.linkedUp_link⟩

/-- The upstream link loads the count of a device with no LIVE aperture. -/
theorem Dev.linkUp_loads (hf : d.fromAbove k = true) (hlive : ∀ p ∈ d.aps, p.2.state ≠ 3) (hn : d.noneHeld) : (d.linkUp k ps up).noneHeld ∧
    ((d.linkUp k ps up).link k).up = true ∧ (d.linkUp k ps up).clk.count = up + BitVec.ofNat 64 (ps * 3 / 1000) := by
  have hany : d.anyLive = false := List.any_eq_false.mpr fun p hp => by simpa using hlive p hp
  rw [Dev.linkUp_within hu hused hm hps, hf, hany, if_pos rfl, if_neg (by decide)]
  obtain ⟨h1, h2, h3⟩ := ((d.linkedUp k ps).loadTime (up + BitVec.ofNat 64 (ps * 3 / 1000))).refBack_keeps
  have hl : (((d.linkedUp k ps).loadTime (up + BitVec.ofNat 64 (ps * 3 / 1000))).refBack.link k) = (d.linkedUp k ps).link k :=
    congrArg (fun l => Tbl.look ({} : SyncLink) l k) ((congrArg Globals.links h3).trans (Dev.loadTime_links _ _))
  refine ⟨Dev.noneHeld_of_rings h2 (Dev.loadTime_noneHeld (Dev.linkedUp_noneHeld hn) _), ?_, h1.trans (Dev.loadTime_clk _ _).1⟩
  rw [hl, Dev.linkedUp_link]

/-- The upstream link slews the count of a device with a LIVE aperture. -/
theorem Dev.linkUp_slews (hf : d.fromAbove k = true) (hlive : ∃ p ∈ d.aps, p.2.state = 3) (hn : d.noneHeld) : d.linkLoads k ps = false ∧
    (d.linkUp k ps up).noneHeld ∧ (d.linkUp k ps up).clk.count = d.clk.count ∧ (d.linkUp k ps up).clk.tq = Tq.slewing := by
  have hany : d.anyLive = true := by
    obtain ⟨p, hp, h3⟩ := hlive
    exact List.any_eq_true.mpr ⟨p, hp, decide_eq_true h3⟩
  rw [Dev.linkLoads_within hu hused hm hps, Dev.linkUp_within hu hused hm hps, hf, hany, if_pos rfl, if_pos rfl]
  obtain ⟨⟨h1, h2, -⟩, -⟩ := (d.linkedUp k ps).slew_clk
  exact ⟨rfl, Dev.noneHeld_of_rings (Dev.slew_rings _) (Dev.linkedUp_noneHeld hn), h2.trans Dev.linkedUp_keeps.2.2.2.1, h1⟩

end

end

/-- The row of a link that comes up, where nothing acts before it and no command is held. -/
theorem exec_syncLinkUp_alone {dt k ps : Nat} {up : QWord} {s : State}
    (hdue : (s.after dt).linkLoads k ps = true → (s.after dt).actionsDue = false) (hn : ((s.after dt).linkUp k ps up).noneHeld) :
    exec (.syncLinkUp dt k ps up) s = .next (s.onto ((s.after dt).linkUp k ps up)) := by
  have hx : (if (s.after dt).linkLoads k ps then settleDue (s.after dt, s.mem) else (s.after dt, s.mem)) = (s.after dt, s.mem) := by
    split
    · next h =>
      unfold settleDue
      exact if_neg (by rw [hdue h]; decide)
    · rfl
  have hrow : exec (.syncLinkUp dt k ps up) s = .next (s.ontoAll (
      let x := if (s.after dt).linkLoads k ps then settleDue (s.after dt, s.mem) else (s.after dt, s.mem)
      ((x.1.linkUp k ps up).runHeldAll, x.2))) := rfl
  rw [hrow, hx]
  dsimp only
  rw [Dev.runHeldAll_of_noneHeld hn]
  rfl

/-! ### A link goes down -/

theorem Dev.settleCancels_glob (d : Dev) : d.settleCancels.glob = d.glob := by
  refine foldl_keeps (fun y : Dev => y.glob = d.glob) _ _ _ rfl fun y p hy => ?_
  split
  · split
    · split
      · exact hy
      · exact (Dev.sameButReports_finish _ _ _).glob.trans ((Dev.sameButReports_finish _ _ _).glob.trans hy)
    · exact hy
  · exact hy

theorem Dev.unresolved_glob (d : Dev) (id fire : Nat) : (d.unresolved id fire).glob = d.glob := by
  unfold Dev.unresolved
  split
  · next p h =>
    have h := ({ d with remote := { pending := d.remote.pending.filter (· != p), resolved := d.remote.resolved ++ [(id, fire)] } } : Dev).sameButOutputs_leaveEarly
      (selRemote id) 0 (.verdict (selRemote id) fire false)
    dsimp only
    generalize Dev.leaveEarly _ (selRemote id) 0 (.verdict (selRemote id) fire false) = y at h ⊢
    exact h.glob
  · rfl

theorem Dev.unresolvedAll_glob (ps : List (Nat × Nat × Nat × Nat × Nat)) (d : Dev) : (ps.foldl (fun (d : Dev) p => d.unresolved p.1 p.2.1) d).glob = d.glob :=
  foldl_keeps (fun y : Dev => y.glob = d.glob) _ ps d rfl fun y p hy => (y.unresolved_glob p.1 p.2.1).trans hy

theorem Dev.cutLink_glob (d : Dev) (k : Nat) :
    (d.cutLink k).glob.links = (d.setLink k { ({} : SyncLink) with delayPs := (d.link k).delayPs, txSeq := (d.link k).txSeq }).glob.links ∧
      (d.cutLink k).glob.applied = d.glob.applied.map (fun (c : AppliedCount) => { c with waits := c.waits.filter (· != k) }) := by
  unfold Dev.cutLink
  rw [Dev.settleCancels_glob]
  dsimp only [Dev.updGlob]
  rw [Dev.unresolvedAll_glob]
  exact ⟨rfl, rfl⟩

/-- A link that is cut keeps its delay and its SEQ. -/
theorem Dev.cutLink_link (d : Dev) (k : Nat) : (d.cutLink k).link k = { ({} : SyncLink) with delayPs := (d.link k).delayPs, txSeq := (d.link k).txSeq } :=
  (congrArg (fun l => Tbl.look ({} : SyncLink) l k) (d.cutLink_glob k).1).trans (Dev.link_setLink_same _ _ _)

theorem Dev.cutLink_applied (d : Dev) (k : Nat) (h : d.glob.applied = []) : (d.cutLink k).glob.applied = [] := by
  rw [(d.cutLink_glob k).2, h]
  rfl

/-- What a link that goes down leaves. -/
theorem Dev.linkDown_cut {d : Dev} {k cause : Nat} (hu : (d.link k).up = true) (hused : d.linkUsed k = true) (ha : d.glob.applied = [])
    (hc : cause = 1 → (d.link k).goodAt + 720 ≤ d.clk.cycle ∨ 16 ≤ (d.link k).bad) :
    (d.linkDown k cause).link k = { ({} : SyncLink) with delayPs := (d.link k).delayPs, txSeq := (d.link k).txSeq } ∧
      (d.fromAbove k = true → (d.linkDown k cause).clk.tq = Tq.holdover) := by
  have hgo : ¬(cause = 1 ∧ d.cyc < (d.link k).goodAt + 720 ∧ (d.link k).bad < 16) := fun ⟨h1, h2, h3⟩ => by
    have : d.cyc = d.clk.cycle := rfl
    have := hc h1
    omega
  unfold Dev.linkDown
  dsimp only
  rw [hused, hu, if_neg (by decide), if_neg (by decide), if_neg hgo]
  obtain ⟨g, s, hs⟩ := (d.cutLink k).scopeUpdate_only
  have hr := (d.cutLink k).scopeUpdate.sameButReports_raise (evSyncLinkDown + d.linkUnit k) (d.linkUnit k) (k % 8 + cause % 256 * 256) (d.link k).delayPs
  generalize ((d.cutLink k).scopeUpdate).raise (evSyncLinkDown + d.linkUnit k) (d.linkUnit k) (k % 8 + cause % 256 * 256) (d.link k).delayPs = y at hr ⊢
  have hglob : y.glob = (d.cutLink k).glob := hr.glob.trans (Dev.scopeUpdate_glob _)
  have hrole : y.clk.role = d.clk.role := by rw [hr.clk, hs, ← Dev.cutLink_clk d k]
  have hlink : y.link k = _ := (congrArg (fun g : Globals => Tbl.look ({} : SyncLink) g.links k) hglob).trans (d.cutLink_link k)
  rw [Dev.closeGathers_none (by rw [hglob]; exact d.cutLink_applied k ha), Dev.fromAbove_of_role hrole]
  split
  · next h => exact ⟨(congrArg (fun g : Globals => Tbl.look ({} : SyncLink) g.links k) (Dev.sameButReports_raise _ _ _ _ _).glob).trans hlink,
      fun _ => congrArg Clock.tq (Dev.enterHoldover_clk _ _)⟩
  · next h => exact ⟨hlink, fun hf => absurd hf h⟩

/-- Settles O34: words by their rows, lanes and links by their own lemmas above. -/
theorem remoteTriggersAndLanes : Obligations.RemoteTriggersAndLanes := by
  unfold Obligations.RemoteTriggersAndLanes
  refine ⟨fun dt w s => ?_, fun dt k s => ?_⟩
  · intro d r fire src
    refine ⟨fun hrole hh => ?_, fun p hp ht => ?_⟩
    · have hr : r.clk.role = 3 := hrole
      have hpass (sc : Nat) (o : SyncOut) (f : Dev → Dev) : onWord dt 0 w (fun x => x.passWord 0 sc o f) s = .next (s.onto (f r)) :=
        (onWord_heard hh _).trans (congrArg (fun x => Host.Outcome.next (s.onto x)) (Dev.passWord_member hr _ _ _))
      have haps : r.aps = d.aps := rfl
      have hcombs : r.combs = d.combs := rfl
      have hrem : r.remote = d.remote := rfl
      have hclk : r.clk = d.clk := rfl
      have htrig : exec (.trig dt 0 w) s = .next (s.onto (r.receiveTrig 0 w.id fire w.tick.toNat w.prov)) := hpass _ _ _
      have hverdict : exec (.verdict dt 0 w) s = .next (s.onto (r.receiveVerdict w.id fire (decide (w.arg / 2 ^ 10 % 2 = 1)))) := hpass _ _ _
      clear_value r
      rw [htrig, hverdict, ← haps, ← hcombs, ← hrem, ← hclk]
      refine ⟨fun hp => ?_, fun hp hn => ?_, fun hp hres => ?_, fun p hp h1 h2 hok => ?_⟩
      · rw [hp]
        rfl
      · rw [hp]
        refine ⟨_, rfl, State.onto_mem _ _, ?_⟩
        rw [State.onto_dev]
        exact Dev.receiveTrig_provisional (id := w.id) (fire := fire) (tick := w.tick.toNat) (k := 0) hn
      · rw [Dev.receiveVerdict_unknown hp hres]
      · rw [← h1, ← h2, hok]
        refine ⟨_, rfl, State.onto_mem _ _, ?_⟩
        rw [State.onto_dev]
        exact Dev.receiveVerdict_cancelled hp
    · obtain ⟨h1, h2⟩ := Dev.unresolved_only (d := d) hp
      refine ⟨s.onto (d.unresolved p.1 p.2.1), ?_, rfl, h1, h2⟩
      have hrow : exec (.remoteTrigTimeout dt p.1 p.2.1) s = .next (s.onto (
          match d.remote.pending.find? (fun r => decide (r.1 = p.1 ∧ r.2.1 = p.2.1)) with
          | some p' => if p'.2.2.2.1 + 16384 < d.cyc then d.unresolved p.1 p.2.1 else d
          | none => d)) := rfl
      rw [hrow, Dev.find_pending hp]
      exact congrArg (fun x => Host.Outcome.next (s.onto x)) (if_pos ht)
  · intro d l seq idle
    have hrow {y : Dev} {f : Dev → Dev} (h : f d = y) : (Host.Outcome.next (s.onto (f d)) : Host.Outcome State Fault Refusal) = .next (s.onto y) :=
      congrArg (fun x => Host.Outcome.next (s.onto x)) h
    refine ⟨fun hu ha => ⟨fun w rest hq h1 h2 hs => ?_, fun hq ht ho => ?_⟩, fun hu => ⟨fun hn => ?_, fun t0 ht => ⟨fun hd => ?_, fun hd => ?_⟩, fun hb => ?_⟩,
      fun ps up hu hused hm hps hh => ?_, fun cause hu hused ha hc => ?_⟩
    · exact congrArg (fun x => Host.Outcome.next (s.onto x)) (Dev.wordSlot_launch (d := d) hu ha hq h1 h2 hs)
    · exact congrArg (fun x => Host.Outcome.next (s.onto x)) (Dev.wordSlot_idle (d := d) hu ha hq ht ho)
    · exact congrArg (fun x => Host.Outcome.next (s.onto x)) ((Dev.rangeNow_due (d := d) (b := true) (by rw [show (d.link k).rangedAt = none from hn])).trans (Dev.rangeIf_true hu))
    · exact congrArg (fun x => Host.Outcome.next (s.onto x)) ((Dev.rangeNow_due (d := d) (b := true) (by
        rw [show (d.link k).rangedAt = some t0 from ht]; exact decide_eq_true hd)).trans (Dev.rangeIf_true hu))
    · exact congrArg (fun x => Host.Outcome.next (s.onto x)) ((Dev.rangeNow_due (d := d) (b := false) (by
        rw [show (d.link k).rangedAt = some t0 from ht]; exact decide_eq_false (Nat.not_le.mpr hd))).trans (Dev.rangeIf_false hu))
    · exact congrArg (fun x => Host.Outcome.next (s.onto x)) (Dev.badWord_counted (d := d) hu hb)
    · have hn : d.noneHeld := (Dev.noneHeld_iff d).mpr hh
      refine ⟨fun hf => ?_, fun hf hlive hdue => ?_, fun hf hlive => ?_⟩
      · obtain ⟨h1, h2, h3⟩ := Dev.linkUp_below (d := d) (up := up) hu hused hm hps hf hn
        exact ⟨s.onto (d.linkUp k ps up), exec_syncLinkUp_alone (fun h => absurd h (by rw [h1]; decide)) h2, rfl, h3⟩
      · obtain ⟨h2, h3⟩ := Dev.linkUp_loads (d := d) (up := up) hu hused hm hps hf hlive hn
        exact ⟨s.onto (d.linkUp k ps up), exec_syncLinkUp_alone (fun _ => hdue) h2, rfl, h3⟩
      · obtain ⟨h1, h2, h3⟩ := Dev.linkUp_slews (d := d) (up := up) hu hused hm hps hf hlive hn
        exact ⟨s.onto (d.linkUp k ps up), exec_syncLinkUp_alone (fun h => absurd h (by rw [h1]; decide)) h2, rfl, h3⟩
    · exact ⟨s.onto (d.linkDown k cause), rfl, rfl, Dev.linkDown_cut (d := d) hu hused ha hc⟩

end Sys2Proof.Machine
end

section
/-!
PROOF. O36: snapshots, RESET_ATs and broadcasts at their ticks (R143, R147–R150).
-/

namespace Sys2Proof.Machine

/-! ### What a restart leaves unchanged -/

/-- Two devices agree in the clock and in what is scheduled. -/
def Dev.sameSchedule (a b : Dev) : Prop := b.clk = a.clk ∧ b.glob = a.glob

namespace Dev.sameSchedule

theorem refl (d : Dev) : d.sameSchedule d := ⟨rfl, rfl⟩

theorem trans {a b c : Dev} (h : a.sameSchedule b) (g : b.sameSchedule c) : a.sameSchedule c := ⟨g.1.trans h.1, g.2.trans h.2⟩

theorem ofReports {a b : Dev} (h : a.sameButReports b) : a.sameSchedule b := ⟨h.clk, h.glob⟩

theorem ofCourse {a b : Dev} (h : a.sameCourse b) : a.sameSchedule b := h.2

theorem foldl {α : Type} {f : Dev → α → Dev} (h : ∀ (d : Dev) x, d.sameSchedule (f d x)) (l : List α) (d : Dev) : d.sameSchedule (l.foldl f d) :=
  foldl_keeps (fun y : Dev => d.sameSchedule y) f l d (refl d) fun y x hy => hy.trans (h y x)

end Dev.sameSchedule

theorem Dev.sameSchedule_enterSub (d : Dev) (a sub : Nat) : d.sameSchedule (d.enterSub a sub) := ⟨d.enterSub_clk a sub, d.enterSub_glob a sub⟩

theorem Dev.sameSchedule_enterSubAt (d : Dev) (a sub t : Nat) : d.sameSchedule (d.enterSubAt a sub t) :=
  Dev.sameSchedule.trans (b := d.updAp a (fun p => { p with acq := { p.acq with sub := sub, since := t } })) ⟨rfl, rfl⟩
    (.ofReports (Dev.sameButReports_wakeWaits _ a))

theorem Dev.sameSchedule_beginRearm (d : Dev) (a : Nat) : d.sameSchedule (d.beginRearm a) := (d.updAcq a _).sameSchedule_enterSub a 6

theorem Dev.sameSchedule_checkArmed (d : Dev) (a : Nat) : d.sameSchedule (d.checkArmed a) := by
  unfold Dev.checkArmed
  dsimp only
  split
  · exact d.sameSchedule_enterSub a 2
  · exact .refl d

theorem Dev.sameSchedule_endSequence (d : Dev) (a recno : Nat) (whole : Bool) : d.sameSchedule (d.endSequence a recno whole) := by
  unfold Dev.endSequence
  extract_lets x d1 d2
  have h2 : d.sameSchedule d2 := (d.sameSchedule_enterSub a 5).trans (.ofReports (d1.sameButReports_raise _ _ _ _))
  clear_value d2
  split
  · split
    · exact h2.trans (d2.sameSchedule_beginRearm a)
    · exact h2
  · exact h2

theorem closeRecord_sameSchedule (a : Nat) (r : Rec) (cut before : Nat) (x : Dev × Mems) : x.1.sameSchedule (closeRecord a r cut before x).1 := by
  unfold closeRecord
  extract_lets d p q header
  split
  · exact .refl _
  · extract_lets descs o descs2 valid d1 d2 r2 segs exps d3 d4 d5 d6
    have h1 : d.sameSchedule d1 := by
      unfold d1
      split
      · exact .ofCourse (d.openDescs_sameCourse descs)
      · exact .ofCourse (d.openDescs_sameCourse descs)
    have h3 : d.sameSchedule d3 := h1
    have h4 : d3.sameSchedule d4 := .foldl (fun y slot => by
      split
      · exact .ofCourse (Dev.queueHeader_sameCourse _ _ _ _ _ _ _)
      · exact .refl y) _ _
    have h5 : d4.sameSchedule d5 := by
      unfold d5
      split
      · exact .ofReports (Dev.sameButReports_raise d4 _ _ _ _)
      · exact .refl d4
    have h6 : d5.sameSchedule d6 := by
      unfold d6
      split
      · exact .ofReports (Dev.sameButReports_raise d5 _ _ _ _)
      · exact .refl d5
    exact (((h3.trans h4).trans h5).trans h6).trans (.ofCourse (capWrite_sameCourse header (bytesOfWords r2.words) (d6, x.2)))

theorem completeDue_sameSchedule (a : Nat) (x : Dev × Mems) : x.1.sameSchedule (completeDue a x).1 := by
  unfold completeDue
  dsimp only
  split
  · exact .refl _
  · split
    · exact .refl _
    · next r _ =>
      have h := closeRecord_sameSchedule a r 0 (2 ^ 64) x
      split
      · exact h.trans (Dev.sameSchedule_endSequence _ a r.recno true)
      · exact h

theorem cutRecords_sameSchedule (a cut : Nat) (x : Dev × Mems) : x.1.sameSchedule (cutRecords a cut x).1 := by
  unfold cutRecords
  have h := (completeDue_sameSchedule a x).trans (completeDue_sameSchedule a (completeDue a x))
  exact foldl_keeps (fun y : Dev × Mems => x.1.sameSchedule y.1) (fun y r => closeRecord a r cut y.1.now y) _ _ h
    fun y r hy => hy.trans (closeRecord_sameSchedule a r cut y.1.now y)

theorem Dev.sameSchedule_countLost (d : Dev) (a tick cause : Nat) : d.sameSchedule (d.countLost a tick cause) :=
  .ofReports ((d.sameButReports_rcDo _ _).trans (Dev.sameButReports_raiseAt _ _ _ _ _ _ _))

theorem Dev.sameSchedule_discardCandidates (d : Dev) (a : Nat) : d.sameSchedule (d.discardCandidates a) := by
  unfold Dev.discardCandidates
  extract_lets x cur all open_ now d1
  have h1 : d.sameSchedule d1 := ⟨rfl, rfl⟩
  clear_value d1
  have hstep : ∀ (y : Dev) (h : Candidate × Option Bool), y.sameSchedule (y.countLost a h.1.tick 5) := fun y h => y.sameSchedule_countLost a h.1.tick 5
  exact h1.trans (Dev.sameSchedule.foldl hstep now d1)

theorem Dev.sameSchedule_startSequence (d : Dev) (a : Nat) : d.sameSchedule (d.startSequence a) := by
  unfold Dev.startSequence Dev.startSequenceAt
  split
  · exact ⟨rfl, rfl⟩
  · extract_lets d1
    have h1 : d.sameSchedule d1 := ⟨rfl, rfl⟩
    clear_value d1
    exact (h1.trans (d1.sameSchedule_enterSubAt a 1 d.now)).trans (Dev.sameSchedule_checkArmed _ a)

/-- A restart is of its aperture alone: the clock and the schedule stay. -/
theorem restartAcq_sameSchedule (a : Nat) (x : Dev × Mems) : x.1.sameSchedule (restartAcq a x).1 := by
  have h := cutRecords_sameSchedule a 3 x
  unfold restartAcq
  generalize cutRecords a 3 x = y at h ⊢
  exact (h.trans (y.1.sameSchedule_discardCandidates a)).trans (Dev.sameSchedule_startSequence _ a)

/-! ### Snapshots -/

section
variable {d : Dev} {id q t : Nat} {x : Snap} (hid : x.id = id) (ht : x.tick = some t) (hs : d.glob.snaps = [x]) (hq : d.ringsOn (.snapshot id x.no) = [q])
include hid ht hs hq

theorem Dev.snapshotTick_latches (hm : x.mode = 0) (hl : x.latched = none) (hf : x.fired = true) (hdue : t ≤ d.now) (hb : d.launchesBy t = false) :
    d.snapshotTick id = { d with glob := { d.glob with snaps :=
      [{ x with
          latched := some (((d.aps.filter (fun (p : Nat × Aperture) => decide (p.2.state ≠ 0))).map (·.1)).map d.snapEntry, d.clk.tq.code, d.clk.epoch)
          waits := ((d.aps.filter (fun (p : Nat × Aperture) => decide (p.2.state ≠ 0))).map (·.1)).flatMap (fun a => (d.ap a).acq.unresolved a) }] } } := by
  have hfind : d.glob.snaps.find? (fun (x : Snap) => decide (x.id = id) && x.latched.isNone && x.fired && cameBy x.tick d.now) = some x := by
    rw [hs]
    exact List.find?_cons_of_pos (by rw [decide_eq_true hid, hl, hf, ht]; exact decide_eq_true hdue)
  have hrest : d.glob.snaps.filter (fun z => decide (z ≠ x)) = [] := by
    rw [hs]
    exact List.filter_cons_of_neg (by simp)
  unfold Dev.snapshotTick
  rw [hfind]
  dsimp only
  rw [ht, Option.getD_some, hb, if_neg (by decide), if_pos hm, hq]
  unfold Dev.updGlob
  dsimp only
  rw [hrest]
  rfl

theorem Dev.snapshotOut_writes {es : List (List Word)} {tq epoch : Nat} {b : Busy} (hl : x.latched = some (es, tq, epoch)) (hw : x.waits = []) (ha : x.applied = none)
    (hb : (d.ring q).busy = some b) {f : Dev} (hf : f = (d.writeOut b.outPtr b.outLen
      ((qwords t ++ [Word.place 15 0 es.length ||| Word.place 17 16 tq ||| Word.place 20 18 d.clk.group ||| Word.place 23 21 d.clk.pos, BitVec.ofNat 32 epoch]) ++
        (es.take (if b.outLen < 16 then 0 else min es.length ((b.outLen - 16) / 32))).flatten)).finishRing q
      { result0 := BitVec.ofNat 64 t, result1 := BitVec.ofNat 64 (if b.outLen < 16 then 0 else min es.length ((b.outLen - 16) / 32)) }) :
    d.snapshotOut id = if (f.ringsOn (.snapFire id t)).isEmpty then
      { f with glob := { f.glob with snaps := f.glob.snaps.filter (fun y => decide (y ≠ x)) } } else f := by
  have hfind : d.glob.snaps.find? (fun (x : Snap) => decide (x.id = id) && x.latched.isSome && x.waits.isEmpty) = some x := by
    rw [hs]
    exact List.find?_cons_of_pos (by rw [decide_eq_true hid, hl, hw]; rfl)
  have hwrite : d.writeSnapshot x q 0 = f := by
    unfold Dev.writeSnapshot
    rw [hb, hl, ht, hf]
    rfl
  unfold Dev.snapshotOut
  rw [hfind]
  dsimp only
  rw [hq, List.foldl_cons, List.foldl_nil, hwrite, ha, ht]
  rfl

end

/-! ### RESET_AT -/

/-- The RESET_AT `r` after the restarts that it asks for. -/
def ResetAct.restarted (r : ResetAct) : ResetAct := if r.acq then { r with acq := false } else r

theorem ResetAct.restarted_keeps (r : ResetAct) : r.restarted.id = r.id ∧ r.restarted.tick = r.tick ∧ r.restarted.fired = r.fired ∧ r.restarted.time = r.time ∧
    r.restarted.load = r.load := by
  unfold ResetAct.restarted
  split <;> exact ⟨rfl, rfl, rfl, rfl, rfl⟩

/-- The apertures of `live` restarted, where `acq` asks for it. -/
def restarts (acq : Bool) (live : List Nat) (x : Dev × Mems) : Dev × Mems := if acq then live.foldl (fun z a => restartAcq a z) x else x

theorem restarts_sameSchedule (acq : Bool) (live : List Nat) (x : Dev × Mems) : x.1.sameSchedule (restarts acq live x).1 := by
  unfold restarts
  split
  · exact foldl_keeps (fun z : Dev × Mems => x.1.sameSchedule z.1) (fun z a => restartAcq a z) live x (.refl _)
      fun z a hz => hz.trans (restartAcq_sameSchedule a z)
  · exact .refl _

/-- The apertures that are LIVE. -/
def Dev.liveAps (d : Dev) : List Nat := (d.aps.filter (fun (p : Nat × Aperture) => decide (p.2.state = 3))).map (·.1)

section
variable {x : Dev × Mems} {r : ResetAct} (hr : x.1.glob.resets = [r]) (ht : r.tick ≤ x.1.now) (hf : r.fired = true)
include hr ht hf

/-- The restarts of the only RESET_AT, where its tick has come. -/
theorem resetRestarts_only : resetRestarts x =
    ((restarts r.acq x.1.liveAps x).1.updGlob (fun g => { g with resets := [r.restarted] }), (restarts r.acq x.1.liveAps x).2) := by
  have hdue : (r.fired && r.acq && decide (r.tick ≤ x.1.now)) = r.acq := by rw [hf, decide_eq_true ht, Bool.true_and, Bool.and_true]
  have hrun : (x.1.glob.resets.filter (fun r => r.fired && r.acq && decide (r.tick ≤ x.1.now))).foldl (fun y _ =>
      ((y.1.aps.filter (fun (p : Nat × Aperture) => decide (p.2.state = 3))).map (·.1)).foldl (fun y a => restartAcq a y) y) x = restarts r.acq x.1.liveAps x := by
    rw [hr]
    unfold restarts
    cases ha : r.acq with
    | true => rw [List.filter_cons_of_pos (by rw [hdue, ha])]; rfl
    | false => rw [List.filter_cons_of_neg (by rw [hdue, ha]; decide)]; rfl
  have hres : (restarts r.acq x.1.liveAps x).1.glob.resets = [r] := by rw [(restarts_sameSchedule _ _ x).2, hr]
  unfold resetRestarts
  dsimp only
  rw [hrun]
  generalize restarts r.acq x.1.liveAps x = y at hres ⊢
  unfold Dev.updGlob
  dsimp only
  rw [hres, List.map_singleton]
  have hif : (if r.fired && r.acq && decide (r.tick ≤ x.1.now) then { r with acq := false } else r) = r.restarted := by rw [hdue]; rfl
  exact congrArg (fun z => (y.1.updGlob (fun g => { g with resets := [z] }), y.2)) hif

/-- The only RESET_AT, at its tick: the restarts, its command's completion, the load. -/
theorem resetTick_only {id : Nat} (hid : r.id = id) (hl : x.1.launchesBy x.1.now = false) (hs : x.1.snapsBy x.1.now = false) {y : Dev × Mems} {c : Dev}
    (hy : y = restarts r.acq x.1.liveAps x)
    (hc : c = (y.1.updGlob (fun g => { g with resets := [] })).finish (.reset r.id r.tick) { doneTb := some (BitVec.ofNat 64 r.tick) }) :
    resetTick id x = (if r.time then c.loadTime (r.load + BitVec.ofNat 64 (x.1.now - r.tick)) else c, y.2) := by
  obtain ⟨h1, h2, h3, h4, h5⟩ := r.restarted_keeps
  have hnow : y.1.now = x.1.now := by
    unfold Dev.now
    rw [hy, (restarts_sameSchedule _ _ x).1]
  have hrest : resetRestarts x = (y.1.updGlob (fun g => { g with resets := [r.restarted] }), y.2) := by rw [resetRestarts_only hr ht hf, hy]
  have hdone : (y.1.updGlob (fun g => { g with resets := [r.restarted] })).resetDone r.restarted = c := by
    have hnone : [r.restarted].filter (fun z => decide (z ≠ r.restarted)) = [] := List.filter_cons_of_neg (by simp)
    unfold Dev.resetDone
    rw [h1, h2, hc]
    exact congrArg (fun l => (y.1.updGlob (fun g => { g with resets := l })).finish (.reset r.id r.tick) { doneTb := some (BitVec.ofNat 64 r.tick) }) hnone
  have hfind : (y.1.updGlob (fun g => { g with resets := [r.restarted] })).glob.resets.find? (fun (z : ResetAct) =>
      decide (z.id = id ∧ z.tick ≤ (y.1.updGlob (fun g => { g with resets := [r.restarted] })).now)) = some r.restarted :=
    List.find?_cons_of_pos (decide_eq_true (by rw [h1, h2]; exact ⟨hid, ht.trans_eq hnow.symm⟩))
  unfold resetTick
  rw [hl, hs, if_neg (by decide)]
  dsimp only
  rw [hrest]
  dsimp only
  rw [hfind]
  dsimp only
  rw [h3, hf, h4, h5, h2, show (y.1.updGlob (fun g => { g with resets := [r.restarted] })).now = x.1.now from hnow]
  cases htime : r.time with
  | false => exact congrArg (fun z => (z, y.2)) hdone
  | true =>
    have hothers : (y.1.updGlob (fun g => { g with resets := [r.restarted] })).glob.resets.filter (fun (z : ResetAct) =>
        decide (z.tick ≤ x.1.now) && !(z.fired && z.time)) = [] :=
      List.filter_cons_of_neg (by rw [h3, hf, h4, htime]; simp)
    rw [hothers]
    exact congrArg (fun z : Dev => (z.loadTime (r.load + BitVec.ofNat 64 (x.1.now - r.tick)), y.2)) hdone

end

/-! ### Broadcasts -/

theorem Dev.bcastDelivery_waits {d : Dev} {b : Bcast} (hb : d.glob.bcasts = [b]) (hd : b.delivered = false) (ht : b.tick ≤ d.now) (hw : b.waits ≠ []) :
    d.bcastDelivery = { d with glob := { d.glob with bcasts := [{ b with delivered := true }] }, clk := { d.clk with bcast := b.payload, bcastSeq := d.clk.bcastSeq + 1 } } := by
  have hdue : d.glob.bcasts.filter (fun (x : Bcast) => !x.delivered && decide (x.tick ≤ d.now)) = [b] := by
    rw [hb]
    exact List.filter_cons_of_pos (by rw [hd, decide_eq_true ht]; rfl)
  have hmap : d.glob.bcasts.map (fun z => if z = b then { b with delivered := true } else z) = [{ b with delivered := true }] := by
    rw [hb, List.map_singleton, if_pos rfl]
  have hopen : b.waits.isEmpty = false := by simpa using hw
  unfold Dev.bcastDelivery
  rw [hdue, List.foldl_cons, List.foldl_nil]
  unfold Dev.updGlob
  dsimp only
  rw [hmap]
  unfold Dev.closeBcast
  dsimp only
  rw [hopen]
  rfl

/-- Settles O36: each row by its own lemma above. -/
theorem scheduledActionsHappen : Obligations.ScheduledActionsHappen := by
  unfold Obligations.ScheduledActionsHappen
  refine ⟨fun dt id q t x s => ?_, fun dt id r b s => ?_⟩
  · intro d hid ht hs hq
    refine ⟨fun hm hl hf hdue hb => ?_, fun es tq epoch b hl hw ha hb => ?_⟩
    · exact congrArg (fun y => Host.Outcome.next (s.onto y)) (Dev.snapshotTick_latches (d := d) hid ht hs hq hm hl hf hdue hb)
    · exact congrArg (fun y => Host.Outcome.next (s.onto y)) (Dev.snapshotOut_writes (d := d) hid ht hs hq hl hw ha hb rfl)
  · intro d
    refine ⟨fun hid ht hf hr hl hs => ?_, fun hb hd ht hw => ?_⟩
    · exact congrArg (fun z : Dev × Mems => Host.Outcome.next (s.ontoAll (z.1.runHeldAll, z.2)))
        (resetTick_only (x := (d, s.mem)) hr ht hf hid hl hs rfl rfl)
    · exact congrArg (fun y => Host.Outcome.next (s.onto y)) (Dev.bcastDelivery_waits (d := d) hb hd ht hw)

end Sys2Proof.Machine
end

section
/-!
PROOF. O37: the decisions of mask units and combiners (R284–R293, R296, R317).
-/

namespace Sys2Proof.Machine

/-! ### What a message that leaves its source leaves unchanged -/

/-- The same but for the trace processors and their registers. -/
def Dev.sameButFeeds (a b : Dev) : Prop := b = { a with tps := b.tps, regs := b.regs, rcNow := b.rcNow } ∧ ∀ x, x < 0x540000 → b.reg x = a.reg x

namespace Dev.sameButFeeds

theorem refl (d : Dev) : d.sameButFeeds d := ⟨rfl, fun _ _ => rfl⟩

theorem trans {a b c : Dev} (h : a.sameButFeeds b) (g : b.sameButFeeds c) : a.sameButFeeds c := by
  obtain ⟨h1, h2⟩ := h
  obtain ⟨g1, g2⟩ := g
  exact ⟨by rw [g1, h1], fun x hx => (g2 x hx).trans (h2 x hx)⟩

theorem foldl {α : Type} {f : Dev → α → Dev} (h : ∀ (d : Dev) x, d.sameButFeeds (f d x)) (l : List α) (d : Dev) : d.sameButFeeds (l.foldl f d) :=
  foldl_keeps (fun y => d.sameButFeeds y) _ _ _ (refl d) fun y x hy => hy.trans (h y x)

end Dev.sameButFeeds

section
variable (d : Dev)

theorem Dev.sameButFeeds_setTp (n : Nat) (x : Tp) : d.sameButFeeds (d.setTp n x) := ⟨rfl, fun _ _ => rfl⟩

theorem Dev.sameButFeeds_bump {a : Nat} (ha : 0x540000 ≤ a) : d.sameButFeeds (d.bump a) := ⟨rfl, fun x hx => d.reg_rcDo_ne _ _ _ (by omega)⟩

theorem Dev.sameButFeeds_feedConfirmed (n f : Nat) (w : List Word) (wait : Nat) (c : Candidate) : d.sameButFeeds (d.feedConfirmed n f w wait c) := by
  unfold Dev.feedConfirmed
  extract_lets t x near i
  clear_value near
  split
  · exact (d.sameButFeeds_setTp n _).trans (Dev.sameButFeeds_bump _ (by unfold tpReg; omega))
  · exact d.sameButFeeds_setTp n _

theorem Dev.sameButFeeds_feedTrigger (src wait : Nat) (m : TrigMsg) : d.sameButFeeds (d.feedTrigger src wait m) := by
  refine .foldl (fun d p => ?_) _ _
  dsimp only
  split
  · split
    · exact .refl d
    · refine .foldl (fun d f => ?_) _ _
      split
      · exact .refl d
      · split
        · split
          · exact d.sameButFeeds_setTp _ _
          · exact d.sameButFeeds_feedConfirmed _ _ _ _ _
        · split
          · split
            · exact (d.sameButFeeds_setTp _ _).trans (Dev.sameButFeeds_feedConfirmed _ _ _ _ _ _)
            · exact d.sameButFeeds_setTp _ _
          · exact .refl d
  · exact .refl d

/-- Combiner `k` with the state of its sequence and its count of outputs, and the clock and what is still to be told of outputs. -/
def Dev.sameComb (k : Nat) (a b : Dev) : Prop :=
  (b.comb k).seq = (a.comb k).seq ∧ (b.comb k).fires = (a.comb k).fires ∧ b.combTold = a.combTold ∧ b.clk = a.clk

theorem Dev.sameComb.trans {k : Nat} {a b c : Dev} (h : a.sameComb k b) (g : b.sameComb k c) : a.sameComb k c :=
  ⟨g.1.trans h.1, g.2.1.trans h.2.1, g.2.2.1.trans h.2.2.1, g.2.2.2.trans h.2.2.2⟩

/-- A combiner with a message of source `src` at the inputs that its block names it for, from tick `t` on. -/
def Combiner.receives (t src : Nat) (m : TrigMsg) (x : Combiner) : Combiner :=
  match x.block with
  | some b =>
    let ins := (List.range 8).filter (fun i => decide (fldAt b.words (0x10 + 4 * (i / 2)) (16 * (i % 2) + 15) (16 * (i % 2)) = src))
    { x with inbox := ins.foldl (fun l i => insertAfter arrivalKey (t, i, m) l) x.inbox }
  | none => x

theorem Combiner.receives_seq (t src : Nat) (m : TrigMsg) (x : Combiner) : (x.receives t src m).seq = x.seq ∧ (x.receives t src m).fires = x.fires := by
  unfold Combiner.receives
  split <;> exact ⟨rfl, rfl⟩

/-- The device whose combiners and apertures have a message that leaves, before the outputs and the feeds. -/
def Dev.toCombsAndAps (d : Dev) (src wait : Nat) (m : TrigMsg) : Dev :=
  let t := d.cyc + wait
  let d := { d with combs := d.combs.map (fun (p : Nat × Combiner) =>
    match p.2.block with
    | some b =>
      let ins := (List.range 8).filter (fun i => decide (fldAt b.words (0x10 + 4 * (i / 2)) (16 * (i % 2) + 15) (16 * (i % 2)) = src))
      (p.1, { p.2 with inbox := ins.foldl (fun l i => insertAfter arrivalKey (t, i, m) l) p.2.inbox })
    | none => p) }
  { d with aps := d.aps.map (fun (p : Nat × Aperture) =>
    if p.2.state = 3 ∧ p.2.source = some src ∨ d.awaitsVerdict p.1 p.2.acq m then (p.1, { p.2 with acq := { p.2.acq with inbox := p.2.acq.inbox ++ [(t + 4, m)] } }) else p) }

theorem Dev.leave_eq (src wait : Nat) (m : TrigMsg) : d.leave src wait m = ((d.toCombsAndAps src wait m).toOutputs src wait false m).feedTrigger src wait m := rfl

theorem Dev.toCombsAndAps_combs (src wait : Nat) (m : TrigMsg) :
    (d.toCombsAndAps src wait m).combs = d.combs.map (fun p => (p.1, p.2.receives (d.cyc + wait) src m)) := by
  refine List.map_congr_left fun p _ => ?_
  unfold Combiner.receives
  split
  · rfl
  · rfl

theorem Dev.leave_combs (src wait : Nat) (m : TrigMsg) : (d.leave src wait m).combs = d.combs.map (fun p => (p.1, p.2.receives (d.cyc + wait) src m)) := by
  have h1 := (d.toCombsAndAps src wait m).sameButOutputs_toOutputs src wait false m
  have h2 := ((d.toCombsAndAps src wait m).toOutputs src wait false m).sameButFeeds_feedTrigger src wait m
  rw [Dev.leave_eq, h2.1]
  exact h1.combs.trans (d.toCombsAndAps_combs src wait m)

theorem Dev.leave_reg (src wait : Nat) (m : TrigMsg) {x : Nat} (hx : x < 0x4A1000 ∨ 0x4A1080 ≤ x) (ht : x < 0x540000) : (d.leave src wait m).reg x = d.reg x := by
  have h1 := (d.toCombsAndAps src wait m).sameButOutputs_toOutputs src wait false m
  have h2 := ((d.toCombsAndAps src wait m).toOutputs src wait false m).sameButFeeds_feedTrigger src wait m
  rw [Dev.leave_eq]
  exact (h2.2 x ht).trans (h1.2 x hx)

theorem Dev.sameComb_leave (k src wait : Nat) (m : TrigMsg) : d.sameComb k (d.leave src wait m) := by
  have hc := d.sameButConsumers_leave src wait m
  have hmap {β : Type} (g : Combiner → β) (h : ∀ x : Combiner, g (x.receives (d.cyc + wait) src m) = g x) : g ((d.leave src wait m).comb k) = g (d.comb k) := by
    unfold Dev.comb
    rw [d.leave_combs]
    exact Tbl.look_map_of_eq h {} d.combs k
  refine ⟨hmap Combiner.seq fun x => (x.receives_seq _ _ _).1, hmap Combiner.fires fun x => (x.receives_seq _ _ _).2, ?_, hc.clk⟩
  unfold Dev.sameButConsumers at hc
  rw [hc]

theorem Dev.leave_masks (src wait : Nat) (m : TrigMsg) : (d.leave src wait m).masks = d.masks := by
  have hc := d.sameButConsumers_leave src wait m
  unfold Dev.sameButConsumers at hc
  rw [hc]

/-! ### Mask units -/

/-- What mask unit `u` and its registers show: the frames that wait, the history, and the registers FRAMES, HITS and HIST. -/
def Dev.maskShows (u : Nat) (frames : List MaskFrame) (hist : List Bool) (n hits h : Word) : Prop :=
  (d.mask u).frames = frames ∧ (d.mask u).hist = hist ∧ d.reg (maskReg u 0x00) = n ∧ d.reg (maskReg u 0x04) = hits ∧ d.reg (maskReg u 0x18) = h

end

section
variable {d : Dev} {u : Nat} {frames : List MaskFrame} {hist : List Bool} {n hits h : Word} (hs : d.maskShows u frames hist n hits h)
include hs

theorem Dev.maskShows.rcDo {off : Nat} (o : RcOp) (h0 : off ≠ 0x00) (h4 : off ≠ 0x04) (h18 : off ≠ 0x18) :
    (d.rcDo (maskReg u off) o).maskShows u frames hist n hits h := by
  obtain ⟨h1, h2, h3, h5, h6⟩ := hs
  exact ⟨h1, h2, (d.reg_rcDo_ne _ _ _ (by unfold maskReg; omega)).trans h3, (d.reg_rcDo_ne _ _ _ (by unfold maskReg; omega)).trans h5,
    (d.reg_rcDo_ne _ _ _ (by unfold maskReg; omega)).trans h6⟩

theorem Dev.maskShows.rcDoIf (p : Prop) [Decidable p] {off : Nat} (o : RcOp) (h0 : off ≠ 0x00) (h4 : off ≠ 0x04) (h18 : off ≠ 0x18) :
    (if p then d.rcDo (maskReg u off) o else d).maskShows u frames hist n hits h := by
  split
  · exact hs.rcDo o h0 h4 h18
  · exact hs

theorem Dev.maskShows.bumpFrames : (d.bump (maskReg u 0x00)).maskShows u frames hist (n + 1) hits h := by
  obtain ⟨h1, h2, h3, h5, h6⟩ := hs
  exact ⟨h1, h2, (d.reg_bump_same _).trans (congrArg (· + 1) h3), (d.reg_rcDo_ne _ _ _ (by unfold maskReg; omega)).trans h5,
    (d.reg_rcDo_ne _ _ _ (by unfold maskReg; omega)).trans h6⟩

theorem Dev.maskShows.bumpHits : (d.bump (maskReg u 0x04)).maskShows u frames hist n (hits + 1) h := by
  obtain ⟨h1, h2, h3, h5, h6⟩ := hs
  exact ⟨h1, h2, (d.reg_rcDo_ne _ _ _ (by unfold maskReg; omega)).trans h3, (d.reg_bump_same _).trans (congrArg (· + 1) h5),
    (d.reg_rcDo_ne _ _ _ (by unfold maskReg; omega)).trans h6⟩

theorem Dev.maskShows.setHist (v : Word) : (d.setReg (maskReg u 0x18) v).maskShows u frames hist n hits v := by
  obtain ⟨h1, h2, h3, h5, h6⟩ := hs
  exact ⟨h1, h2, (d.reg_setReg _ _ _).trans ((if_neg (by unfold maskReg; omega)).trans h3), (d.reg_setReg _ _ _).trans ((if_neg (by unfold maskReg; omega)).trans h5),
    d.reg_setReg_same _ _⟩

theorem Dev.maskShows.raiseAt (id sev unit arg : Nat) (data tb : QWord) : (d.raiseAt id sev unit arg data tb).maskShows u frames hist n hits h := by
  have hr := d.sameButReports_raiseAt id sev unit arg data tb
  have hm : (d.raiseAt id sev unit arg data tb).masks = d.masks := by unfold Dev.sameButReports at hr; rw [hr]
  have hreg (a : Nat) : (d.raiseAt id sev unit arg data tb).reg a = d.reg a := congrArg (fun r => Tbl.look (RegMap.resetOf a) r a) (Dev.produce_regs d _)
  unfold Dev.maskShows Dev.mask
  rw [hm, hreg, hreg, hreg]
  exact hs

theorem Dev.maskShows.leave (hu : u < 256) (src wait : Nat) (m : TrigMsg) : (d.leave src wait m).maskShows u frames hist n hits h := by
  have hreg {off : Nat} (ho : off < 32) : (d.leave src wait m).reg (maskReg u off) = d.reg (maskReg u off) :=
    d.leave_reg src wait m (by unfold maskReg; omega) (by unfold maskReg; omega)
  unfold Dev.maskShows Dev.mask
  rw [d.leave_masks, hreg (by decide), hreg (by decide), hreg (by decide)]
  exact hs

end

theorem Dev.maskVerdict_early {d : Dev} {u : Nat} {f : MaskFrame} {rest : List MaskFrame} (hx : (d.mask u).frames = f :: rest)
    (hdue : d.clk.cycle < f.d + f.n / 8 + 48) : d.maskVerdict u = d := by
  unfold Dev.maskVerdict
  extract_lets x
  rw [show x.frames = f :: rest from hx]
  exact if_pos hdue

/-- The decision on the oldest frame. -/
theorem Dev.maskVerdict_decides {d : Dev} {u : Nat} (hu : u < 256) {f : MaskFrame} {rest : List MaskFrame} (hx : (d.mask u).frames = f :: rest)
    (hdue : f.d + f.n / 8 + 48 ≤ d.clk.cycle) {hit : Bool} {hist : List Bool}
    (hhit : hit = (decide (mkBinsMin f.block.words ≤ f.viol) && !f.excluded && !(f.poison || f.checkFails) && !(bitAt f.block.words 0x08 11 && f.ovr)))
    (hhist : hist = (hit :: (if f.restart then [] else (d.mask u).hist)).take 64) :
    (d.maskVerdict u).maskShows u rest hist (d.reg (maskReg u 0x00) + 1) (d.reg (maskReg u 0x04) + (if hit then 1 else 0)) (histWord hist) := by
  unfold Dev.maskVerdict
  extract_lets x
  rw [show x.frames = f :: rest from hx]
  dsimp -zeta only
  rw [if_neg (show ¬ d.cyc < f.d + f.n / 8 + 48 from Nat.not_lt.mpr hdue)]
  extract_lets w old prevQ poison enough blockOvr hit' qualIf mode fireIf qual fires wouldPoison wouldOvr hist' d0 d1 d2 d3 d4 d5 d6 d7 ev data d8
  have hh : hit' = hit := hhit.symm
  have hhs : hist' = hist := by rw [hhist]; exact congrArg (fun b => (b :: old).take 64) hh
  have h0 : d0.maskShows u rest hist (d.reg (maskReg u 0x00)) (d.reg (maskReg u 0x04)) (d.reg (maskReg u 0x18)) := by
    refine ⟨congrArg MaskUnit.frames (Dev.mask_setMask_same _ _ _), (congrArg MaskUnit.hist (Dev.mask_setMask_same _ _ _)).trans hhs, rfl, rfl, rfl⟩
  have h1 : d1.maskShows u _ _ _ _ _ := h0.bumpFrames
  have h2 : d2.maskShows u rest hist (d.reg (maskReg u 0x00) + 1) (d.reg (maskReg u 0x04) + (if hit then 1 else 0)) (d.reg (maskReg u 0x18)) := by
    unfold d2
    rw [hh]
    cases hit with
    | true => exact h1.bumpHits
    | false => exact (BitVec.add_zero (d.reg (maskReg u 0x04))).symm ▸ h1
  clear_value d2
  have h3 : d3.maskShows u rest hist _ _ _ := h2.rcDoIf _ _ (by decide) (by decide) (by decide)
  have h4 : d4.maskShows u rest hist _ _ _ := h3.rcDoIf _ _ (by decide) (by decide) (by decide)
  have h5 : d5.maskShows u rest hist _ _ _ := h4.rcDoIf _ _ (by decide) (by decide) (by decide)
  have h6 : d6.maskShows u rest hist _ _ (histWord hist') := h5.setHist (histWord hist')
  rw [hhs] at h6
  clear_value d6
  have h7 : d7.maskShows u rest hist (d.reg (maskReg u 0x00) + 1) (d.reg (maskReg u 0x04) + (if hit then 1 else 0)) (histWord hist) := by
    unfold d7
    split
    · exact h6.rcDo _ (by decide) (by decide) (by decide)
    · exact h6.rcDoIf _ _ (by decide) (by decide) (by decide)
  clear_value d7
  have h8 : d8.maskShows u rest hist (d.reg (maskReg u 0x00) + 1) (d.reg (maskReg u 0x04) + (if hit then 1 else 0)) (histWord hist) := by
    unfold d8
    split
    · exact h7.raiseAt _ _ _ _ _ _
    · exact h7
  clear_value d8
  split
  · exact h8.leave hu _ _ _
  · split
    · exact h8.leave hu _ _ _
    · exact h8

/-! ### Combiners -/

theorem Dev.setComb_setComb (d : Dev) (k : Nat) (x y : Combiner) : (d.setComb k x).setComb k y = d.setComb k y :=
  congrArg (fun t => { d with combs := t }) (Tbl.put_put k y x d.combs)

theorem Dev.queueWords_only (d : Dev) (ks : List Nat) (w : SyncOut) : ∃ g, d.queueWords ks w = { d with glob := g } :=
  foldl_keeps (fun y : Dev => ∃ g, y = { d with glob := g }) (fun d k => d.queueWord k w) _ d ⟨d.glob, rfl⟩ fun y k ⟨g, hy⟩ => by
    rw [hy]
    exact ⟨_, rfl⟩

theorem Dev.exportWord_only (d : Dev) (scope : Nat) (w : SyncOut) : ∃ g, d.exportWord scope w = { d with glob := g } := by
  unfold Dev.exportWord
  split
  · exact d.queueWords_only _ w
  · unfold Dev.queueUp
    split
    · exact d.queueWords_only _ w
    · exact ⟨d.glob, rfl⟩

theorem Dev.receiveTrig_confirmed (d : Dev) (k id fire tick : Nat) : d.receiveTrig k id fire tick false =
    (d.bump 0x4A2000).leave (selRemote id) 30 (.cand { src := selRemote id, fire := fire, tick := tick, prov := false }) := if_pos rfl

section
variable {d : Dev} {k : Nat}

/-- Exporting a confirmed output leaves its combiner's sequence and what is to be told. -/
theorem Dev.sameComb_exportOutput (w : List Word) (tick : Nat) : d.sameComb k (d.exportOutput k w tick false).1 := by
  unfold Dev.exportOutput
  split
  · exact ⟨rfl, rfl, rfl, rfl⟩
  · extract_lets x ok n d1 word d2
    split
    · exact ⟨rfl, rfl, rfl, rfl⟩
    · have hc : d1.comb k = { d.comb k with exports := (d.comb k).exports + 1, exportAt := some d.cyc } := Dev.comb_setComb_same _ _ _
      have h1 : d.sameComb k d1 := ⟨by rw [hc], by rw [hc], rfl, rfl⟩
      have h2 : d1.sameComb k d2 := by
        obtain ⟨g, hg⟩ := d1.exportWord_only (cbScope w) word
        unfold d2
        rw [hg]
        exact ⟨rfl, rfl, rfl, rfl⟩
      clear_value d2 d1
      have h3 : d2.sameComb k (d2.receiveTrig 16 (cbExportId w) n tick false) := by
        rw [Dev.receiveTrig_confirmed]
        exact (d2.bump 0x4A2000).sameComb_leave k _ _ _
      dsimp only
      split
      · exact (h1.trans h2).trans h3
      · exact h1.trans h2

/-- A confirmed output is counted and is to be told, 6 ticks on. -/
theorem Dev.combOutput_told (w : List Word) (tick : Nat) : ∃ e, ((d.combOutput k w tick).comb k).seq = (d.comb k).seq ∧
    ((d.combOutput k w tick).comb k).fires = (d.comb k).fires + 1 ∧ (d.combOutput k w tick).combTold = d.combTold ++ [e] ∧
    e.k = k ∧ e.cycle = d.cyc + 6 ∧ e.fire = (d.comb k).fires ∧ e.tick = tick ∧ e.ok = true := by
  unfold Dev.combOutput
  extract_lets x d1 e d2
  have h1 : d1.comb k = { d.comb k with fires := (d.comb k).fires + 1 } := Dev.comb_setComb_same _ _ _
  obtain ⟨hs, hf, ht, -⟩ := (Dev.sameComb_exportOutput w tick : d1.sameComb k e.1)
  obtain ⟨ls, lf, lt, -⟩ := d2.sameComb_leave k (selComb k) 6 (.cand { src := selComb k, fire := x.fires, tick := tick, prov := false })
  have h1s : (d1.comb k).seq = (d.comb k).seq := by rw [h1]
  have h1f : (d1.comb k).fires = (d.comb k).fires + 1 := by rw [h1]
  refine ⟨_, ls.trans (hs.trans h1s), lf.trans (hf.trans h1f), lt.trans (congrArg (· ++ _) ht), rfl,
    rfl, rfl, rfl, rfl⟩

end

theorem Dev.combStat_comb (d : Dev) (k j : Nat) : (d.combStat k).comb j = d.comb j := rfl
theorem Dev.combStat_told (d : Dev) (k : Nat) : (d.combStat k).combTold = d.combTold := rfl

/-- What the row of a candidate that has arrived at a combiner does. -/
theorem exec_combinerEvent_arrived {s : State} {dt k i at_ : Nat} {b : Block} {c : Candidate} {rest : List (Nat × Nat × TrigMsg)}
    (hb : ((s.after dt).comb k).block = some b) (hat : at_ ≤ (s.after dt).clk.cycle) (hi : ((s.after dt).comb k).inbox = (at_, i, .cand c) :: rest) :
    exec (.combinerEvent dt k) s = .next (s.onto
      ((((s.after dt).setComb k { (s.after dt).comb k with inbox := rest }).combEvent k b.words i c).combStat k)) := by
  have hrow : exec (.combinerEvent dt k) s = .next (s.onto (
      match ((s.after dt).comb k).block, ((s.after dt).comb k).inbox with
      | some b, (t, i, .cand c) :: rest =>
        if (s.after dt).cyc < t then s.after dt else (((s.after dt).setComb k { (s.after dt).comb k with inbox := rest }).combEvent k b.words i c).combStat k
      | _, _ => s.after dt)) := rfl
  rw [hrow, hb, hi]
  exact congrArg (fun y => Host.Outcome.next (s.onto y)) (if_neg (Nat.not_lt.mpr hat))

theorem exec_combinerVerdict_arrived {s : State} {dt k i at_ src fire : Nat} {ok : Bool} {b : Block} {rest : List (Nat × Nat × TrigMsg)}
    (hb : ((s.after dt).comb k).block = some b) (hat : at_ ≤ (s.after dt).clk.cycle) (hi : ((s.after dt).comb k).inbox = (at_, i, .verdict src fire ok) :: rest) :
    exec (.combinerVerdict dt k) s = .next (s.onto
      ((((s.after dt).setComb k { (s.after dt).comb k with inbox := rest }).combVerdict k b.words src fire ok).combStat k)) := by
  have hrow : exec (.combinerVerdict dt k) s = .next (s.onto (
      match ((s.after dt).comb k).block, ((s.after dt).comb k).inbox with
      | some b, (t, _, .verdict src fire ok) :: rest =>
        if (s.after dt).cyc < t then s.after dt else (((s.after dt).setComb k { (s.after dt).comb k with inbox := rest }).combVerdict k b.words src fire ok).combStat k
      | _, _ => s.after dt)) := rfl
  rw [hrow, hb, hi]
  exact congrArg (fun y => Host.Outcome.next (s.onto y)) (if_neg (Nat.not_lt.mpr hat))

section
variable {d : Dev} {k i : Nat} {w : List Word} {c : Candidate}

theorem Dev.combEvent_early (h : c.tick < (d.comb k).from_) : d.combEvent k w i c = d := if_pos h

section
variable (h : (d.comb k).from_ ≤ c.tick) (hp : (d.comb k).prov = none) (hc : c.prov = false)
include h hp hc

/-- A confirmed event at a combiner without a provisional output moves its sequence on. -/
theorem Dev.combEvent_counts (hr : ((d.comb k).seq.take w i c.tick).2 = none) :
    d.combEvent k w i c = d.setComb k { d.comb k with seq := ((d.comb k).seq.take w i c.tick).1 } := by
  unfold Dev.combEvent
  generalize hy : d.setComb k { d.comb k with seq := ((d.comb k).seq.take w i c.tick).1 } = y
  dsimp only
  rw [if_neg (Nat.not_lt.mpr h), hp]
  dsimp only
  rw [hc, if_pos (by decide), hr, ← hy]
  dsimp only
  rw [hp]

/-- The event that satisfies the last stage makes an output. -/
theorem Dev.combEvent_outputs {t : Nat} (hr : ((d.comb k).seq.take w i c.tick).2 = some t) :
    d.combEvent k w i c = (d.setComb k { d.comb k with seq := ((d.comb k).seq.take w i c.tick).1 }).combOutput k w t := by
  unfold Dev.combEvent
  generalize hy : (d.setComb k { d.comb k with seq := ((d.comb k).seq.take w i c.tick).1 }) = y
  dsimp only
  rw [if_neg (Nat.not_lt.mpr h), hp]
  dsimp only
  rw [hc, if_pos (by decide), hr, ← hy]
  dsimp only
  rw [hp]

end

/-- A held event that is cancelled is gone. -/
theorem Dev.combVerdict_cancels {src fire : Nat} {h : Nat × Candidate} (hp : (d.comb k).prov = none) (hd : (d.comb k).dropped = []) (hh : (d.comb k).held = [h])
    (hs : h.2.src = src) (hf : h.2.fire = fire) : d.combVerdict k w src fire false = d.setComb k { d.comb k with held := [] } := by
  have hfind : [h].find? (fun (h : Nat × Candidate) => decide (h.2.src = src ∧ h.2.fire = fire)) = some h := List.find?_cons_of_pos (decide_eq_true ⟨hs, hf⟩)
  have hrest : [h].filter (fun (g : Nat × Candidate) => !(decide (g.2.src = src ∧ g.2.fire = fire))) = [] :=
    List.filter_cons_of_neg (by rw [decide_eq_true (⟨hs, hf⟩ : h.2.src = src ∧ h.2.fire = fire)]; decide)
  unfold Dev.combVerdict
  generalize hz : d.setComb k { d.comb k with held := [] } = z
  dsimp only
  rw [hd, hp]
  dsimp only [List.find?_nil]
  rw [hh, hfind, hrest]
  dsimp only
  rw [if_neg (by decide), ← hz]

end

/-! ### What is told of an output -/

theorem Dev.combTells_fires (d : Dev) {e : CombTold} (he : e.ok = true) : (d.combTells e).reg (combReg e.k 0x04) = d.reg (combReg e.k 0x04) + 1 := by
  have hrec (y : Dev) (arg tick : Nat) : (y.combRecord e.k arg tick).reg (combReg e.k 0x04) = y.reg (combReg e.k 0x04) :=
    congrArg (fun r => Tbl.look (RegMap.resetOf _) r _) (Dev.produce_regs y _)
  have hrc (y : Dev) {off : Nat} (o : RcOp) (h : off ≠ 0x04) : (y.rcDo (combReg e.k off) o).reg (combReg e.k 0x04) = y.reg (combReg e.k 0x04) :=
    y.reg_rcDo_ne _ _ _ (by unfold combReg; omega)
  unfold Dev.combTells
  rw [if_pos he]
  extract_lets d1 d2 d3
  have h1 : d1.reg (combReg e.k 0x04) = _ := d.reg_bump_same _
  have h2 : d2.reg (combReg e.k 0x04) = d1.reg (combReg e.k 0x04) := by
    unfold d2
    split
    · exact hrec _ _ _
    · rfl
  have h3 : d3.reg (combReg e.k 0x04) = d2.reg (combReg e.k 0x04) := by
    unfold d3
    split
    · exact hrc _ _ (by decide)
    · split
      · exact hrc _ _ (by decide)
      · rfl
  refine Eq.trans ?_ (h3.trans (h2.trans h1))
  clear_value d3
  split
  · unfold Dev.combOverflow
    rw [if_neg (show ¬ (3 : Nat) = 2 by decide)]
    dsimp only
    split
    · exact (hrec _ _ _).trans (hrc _ _ (by decide))
    · exact hrc _ _ (by decide)
  · rfl

/-- Settles O37: the rows of mask units and combiners by their own lemmas above. -/
theorem masksAndCombiners : Obligations.MasksAndCombiners := by
  unfold Obligations.MasksAndCombiners
  refine ⟨fun dt u f rest s => ?_, fun dt k i b c at_ rest s => ?_, fun d e he => d.combTells_fires he⟩
  · intro d x hu hx
    refine ⟨fun hdue => ?_, fun hdue => ?_⟩
    · exact congrArg (fun y => Host.Outcome.next (s.onto y)) (Dev.maskVerdict_early (d := d) hx hdue)
    · intro hit hist
      obtain ⟨h1, h2, h3, h4, h5⟩ := Dev.maskVerdict_decides (d := d) hu hx hdue (hit := hit) (hist := hist) rfl rfl
      exact ⟨s.onto (d.maskVerdict u), rfl, State.onto_mem _ _, h1, h2, h3, h5, h4⟩
  · intro d x hk hb hat
    have hcomb (y : Combiner) : (d.setComb k y).comb k = y := Dev.comb_setComb_same _ _ _
    refine ⟨fun hi he => ?_, fun hi hf hp hc => ?_, fun src fire h hi hp hd hh hs hf => ?_⟩
    · rw [exec_combinerEvent_arrived hb hat hi, Dev.combEvent_early (d := d.setComb k { x with inbox := rest }) (by rw [hcomb]; exact he)]
    · intro r
      have hx (z : Combiner) : (d.setComb k { x with inbox := rest }).setComb k z = d.setComb k z := d.setComb_setComb k _ z
      refine ⟨fun hr => ?_, fun tick hr => ?_⟩
      · have hev := Dev.combEvent_counts (d := d.setComb k { x with inbox := rest }) (w := b.words) (i := i) (by rw [hcomb]; exact hf) (by rw [hcomb]; exact hp) hc
          (by rw [hcomb]; exact hr)
        rw [hcomb, hx] at hev
        refine ⟨_, (exec_combinerEvent_arrived hb hat hi).trans (by rw [hev]), State.onto_mem _ _, ?_, fun j hj => ?_⟩
        · rw [State.onto_dev, Dev.combStat_comb, hcomb]
        · rw [State.onto_dev, Dev.combStat_comb, Dev.comb_setComb, if_neg hj]
      · have hev := Dev.combEvent_outputs (d := d.setComb k { x with inbox := rest }) (w := b.words) (i := i) (t := tick) (by rw [hcomb]; exact hf)
          (by rw [hcomb]; exact hp) hc (by rw [hcomb]; exact hr)
        rw [hcomb, hx] at hev
        obtain ⟨e, h1, h2, h3, h4⟩ := Dev.combOutput_told (d := d.setComb k { x with inbox := rest, seq := r.1 }) (k := k) b.words tick
        rw [hcomb] at h1 h2 h4
        refine ⟨_, e, (exec_combinerEvent_arrived hb hat hi).trans (by rw [hev]), State.onto_mem _ _, ?_⟩
        rw [State.onto_dev, Dev.combStat_comb, Dev.combStat_told]
        exact ⟨h1, h2, h3, h4⟩
    · refine ⟨_, (exec_combinerVerdict_arrived hb hat hi).trans (by
        rw [Dev.combVerdict_cancels (d := d.setComb k { x with inbox := rest }) (by rw [hcomb]; exact hp) (by rw [hcomb]; exact hd) (by rw [hcomb]; exact hh) hs hf, hcomb]),
        State.onto_mem _ _, ?_⟩
      rw [State.onto_dev, Dev.combStat_comb, Dev.comb_setComb_same]

end Sys2Proof.Machine
end

section
/-!
PROOF. O38: the pulses and codes of the trigger outputs (R299–R301).
-/

namespace Sys2Proof.Machine

section
variable {d : Dev} {n : Nat} {r : PulseReq} {rest : List PulseReq}

theorem Dev.startPulse_due (hq : (d.to n).queue = r :: rest) (hd : r.due ≤ d.clk.cycle) (he : r.early = false) :
    d.startPulse n = ((d.setTo n { d.to n with queue := rest, active := true, endAt := r.due + r.width }).bump (0x4A1000 + 16 * n)).emit (.pulse n true) := by
  have hgo : ¬(d.cyc < r.due ∨ (r.early ∧ d.cyc < (d.to n).freeAt)) := fun h => h.elim (Nat.not_lt.mpr hd) fun h => absurd h.1 (by rw [he]; decide)
  unfold Dev.startPulse
  extract_lets x
  rw [show x.queue = r :: rest from hq]
  exact (if_neg hgo).trans (if_neg (by rw [he]; decide))

theorem Dev.startPulse_early (hq : (d.to n).queue = r :: rest) (hd : r.due ≤ d.clk.cycle) (hf : (d.to n).freeAt ≤ d.clk.cycle) (he : r.early = true)
    (hv : r.verdict = none) :
    d.startPulse n = (d.setTo n { d.to n with
      queue := rest, active := true, endAt := d.clk.cycle + 6, freeAt := d.clk.cycle + 9, num := ((d.to n).num + 1) % 16
      sent := (d.to n).sent ++ [{ src := r.src, fire := r.fire, num := (d.to n).num, start := d.clk.cycle, verdict := none, verdictAt := r.verdictAt }] }).emit (.pulse n true) := by
  have hgo : ¬(d.cyc < r.due ∨ (r.early ∧ d.cyc < (d.to n).freeAt)) := fun h => h.elim (Nat.not_lt.mpr hd) fun h => Nat.not_lt.mpr hf h.2
  unfold Dev.startPulse
  extract_lets x
  rw [show x.queue = r :: rest from hq]
  refine (if_neg hgo).trans ((if_pos he).trans ?_)
  rw [hv]
  rfl

/-- The code of the pulse whose verdict came first, cancelled or not. -/
theorem Dev.startCode_due {p : PulseSent} {ok : Bool} (hp : leastBy (fun (y : PulseSent) => y.verdictAt) ((d.to n).sent.filter (fun y => y.verdict.isSome)) = some p)
    (h1 : p.verdictAt + 18 ≤ d.clk.cycle) (h2 : p.start + 6 ≤ d.clk.cycle) (h3 : (d.to n).codeFreeAt ≤ d.clk.cycle) (hok : p.verdict = some ok) :
    d.startCode n = (if ok then d.setTo n { d.to n with sent := (d.to n).sent.filter (· != p), codeFreeAt := d.clk.cycle + 8 }
      else (d.setTo n { d.to n with sent := (d.to n).sent.filter (· != p), codeFreeAt := d.clk.cycle + 8 }).bump (toReg n 0x04)).emit (.code n p.num (!ok)) := by
  have hgo : ¬(d.cyc < p.verdictAt + 18 ∨ d.cyc < p.start + 6 ∨ d.cyc < (d.to n).codeFreeAt) := by
    have : d.cyc = d.clk.cycle := rfl
    omega
  unfold Dev.startCode
  extract_lets x
  rw [show leastBy (fun (y : PulseSent) => y.verdictAt) (x.sent.filter (fun y => y.verdict.isSome)) = some p from hp]
  refine (if_neg hgo).trans ?_
  rw [hok]
  rfl

end

/-- Settles O38: the rows of an output by their own lemmas above. -/
theorem triggerOutputsPulse : Obligations.TriggerOutputsPulse := by
  unfold Obligations.TriggerOutputsPulse
  intro dt n r rest p s d x cyc
  refine ⟨fun hq hd he => ?_, fun hq hd hf he hv => ?_, fun ha he => ?_, fun hp h1 h2 h3 => ⟨fun hv => ?_, fun hv => ?_⟩⟩
  · exact congrArg (fun y => Host.Outcome.next (s.onto y)) (Dev.startPulse_due (d := d) hq hd he)
  · exact congrArg (fun y => Host.Outcome.next (s.onto y)) (Dev.startPulse_early (d := d) hq hd hf he hv)
  · exact congrArg (fun y => Host.Outcome.next (s.onto y)) (if_pos (Bool.and_eq_true_iff.mpr ⟨ha, decide_eq_true he⟩))
  · exact congrArg (fun y => Host.Outcome.next (s.onto y)) (Dev.startCode_due (d := d) hp h1 h2 h3 hv)
  · exact congrArg (fun y => Host.Outcome.next (s.onto y)) (Dev.startCode_due (d := d) hp h1 h2 h3 hv)

end Sys2Proof.Machine
end

section
/-!
PROOF. O39: candidates and verdicts at an aperture that captures (R310, R311, R333).
-/

namespace Sys2Proof.Machine

/-! ### The registers that completions write -/

section
variable {d : Dev} {x : Nat} (h0 : x ≠ 0x54) (h1 : x ≠ 0x5C0008)
include h0 h1

omit h1 in
theorem Dev.setFld_reg_ne (d : Dev) (hi lo v : Nat) : (d.setFld 0x54 hi lo v).reg x = d.reg x := (d.reg_setReg _ _ _).trans (if_neg h0)

omit h0 in
theorem Dev.post_reg (d : Dev) (q : Nat) (c : Completion) : (d.post q c).reg x = d.reg x := by
  have hnote : (d.noteTurnaround c).reg x = d.reg x := by
    unfold Dev.noteTurnaround
    split
    · exact d.reg_rcDo_ne _ _ _ h1
    · rfl
  have hwrite : (d.writeCompletion q c).reg x = d.reg x := by
    unfold Dev.writeCompletion
    extract_lets r wraps d1 d2
    have h2 : d2.reg x = d.reg x := hnote
    clear_value d2
    split
    · exact h2
    · exact (congrArg (fun t => Tbl.look (RegMap.resetOf x) t x) (d2.sendVector_regs r.vector)).trans h2
  unfold Dev.post
  split
  · rfl
  · split
    · rfl
    · exact hwrite

omit h1 in
theorem Dev.faultRing_reg (d : Dev) (q arg : Nat) (data : QWord) : (d.faultRing q arg data).reg x = d.reg x := by
  unfold Dev.faultRing
  extract_lets r d1 d2
  have h2 : d2.reg x = d.reg x := by
    unfold d2
    split
    · exact Dev.setFld_reg_ne h0 d1 1 1 1
    · rfl
  exact (congrArg (fun t => Tbl.look (RegMap.resetOf x) t x) (d2.produce_regs _)).trans h2

omit h1 in
theorem Dev.dropRing_reg (d : Dev) (q : Nat) : (d.dropRing q).reg x = d.reg x := by
  have hsample (y : Dev) : y.sampleRing0.reg x = y.reg x := by
    unfold Dev.sampleRing0
    dsimp only
    split
    · exact Dev.setFld_reg_ne h0 (y.setRing 0 _) 0 0 1
    · exact Dev.faultRing_reg h0 y 0 3 0
  have hset (y : Dev) : ((y.setFld 0x54 0 0 0).setFld 0x54 1 1 0).reg x = y.reg x := (Dev.setFld_reg_ne h0 _ _ _ _).trans (Dev.setFld_reg_ne h0 _ _ _ _)
  unfold Dev.dropRing
  extract_lets d1 d2
  have h2 : d2.reg x = d.reg x := hset d1
  split
  · split
    · exact (hsample d2).trans h2
    · exact h2
  · rfl

theorem Dev.ringSettled_reg (d : Dev) (q : Nat) : (d.ringSettled q).reg x = d.reg x := by
  unfold Dev.ringSettled
  dsimp only
  split
  · refine foldl_keeps (fun y : Dev => y.reg x = d.reg x) _ _ _ (Dev.dropRing_reg h0 d q) fun y k hy => ?_
    split
    · exact (Dev.post_reg h1 _ _ _).trans hy
    · exact hy
  · rfl

theorem Dev.finishRing_reg (d : Dev) (q : Nat) (w : Answer) : (d.finishRing q w).reg x = d.reg x := by
  unfold Dev.finishRing
  split
  · exact (Dev.ringSettled_reg h0 h1 _ _).trans (Dev.post_reg h1 _ _ _)
  · rfl

theorem Dev.wakeWaits_reg (d : Dev) (a : Nat) : (d.wakeWaits a).reg x = d.reg x := by
  unfold Dev.wakeWaits
  refine foldl_keeps (fun y : Dev => y.reg x = d.reg x) _ _ _ rfl fun y p hy => ?_
  split
  · split
    · split
      · exact (Dev.finishRing_reg h0 h1 _ _ _).trans hy
      · exact hy
    · exact hy
  · exact hy

theorem Dev.enterSub_reg (d : Dev) (a sub : Nat) : (d.enterSub a sub).reg x = d.reg x :=
  Dev.wakeWaits_reg h0 h1 (d.updAp a (fun p => { p with acq := { p.acq with sub := sub, since := d.now } })) a

end

/-! ### A record that is open -/

/-- Whether a record is done turns on the numbers of its sub-rings alone. -/
theorem Acq.recordDone_eq (x : Acq) (unbounded : Bool) (r : Rec) :
    x.recordDone unbounded r = ((x.subs.map SubRing.post).zipIdx).all (fun p => !unbounded && decide (p.1 ≤ r.posts.getD p.2 0)) := by
  unfold Acq.recordDone
  rw [List.zipIdx_map, List.all_map]
  rfl

/-- An entry that is still to come leaves the record open. -/
theorem Acq.recordDone_eq_false {x : Acq} {unbounded : Bool} {r : Rec} {f : SubRing → Nat} {subs : List SubRing} (hs : x.subs.map SubRing.post = subs.map SubRing.post)
    (hp : r.posts = subs.map f) (h : ∃ s ∈ subs, f s < s.post) : x.recordDone unbounded r = false := by
  obtain ⟨s, hmem, hlt⟩ := h
  obtain ⟨i, hi⟩ := List.mem_iff_getElem?.mp hmem
  rw [Acq.recordDone_eq, hs, hp]
  refine List.all_eq_false.mpr ⟨(s.post, i), List.mk_mem_zipIdx_iff_getElem?.mpr (by rw [List.getElem?_map, hi]; rfl), ?_⟩
  have hget : (subs.map f).getD i 0 = f s := by rw [List.getD_eq_getElem?_getD, List.getElem?_map, hi]; rfl
  rw [hget, decide_eq_false (Nat.not_le.mpr hlt)]
  simp

theorem completeDue_pending {a : Nat} {x : Dev × Mems} (h : ∀ r ∈ (x.1.ap a).acq.opened, ∀ u, (x.1.ap a).acq.recordDone u r = false) : completeDue a x = x := by
  unfold completeDue
  extract_lets p
  split
  · rfl
  · next w _ =>
    rw [List.find?_eq_none.mpr fun r hr => by rw [h r hr]; decide]

theorem completeFull_pending {a : Nat} {x : Dev × Mems} (h : ∀ r ∈ (x.1.ap a).acq.opened, ∀ u, (x.1.ap a).acq.recordDone u r = false) : completeFull a x = x := by
  unfold completeFull
  rw [completeDue_pending h, completeDue_pending h, ite_self]

/-- The record that is accepted, and the sub-rings, whose numbers of entries after the trigger stay. -/
theorem Dev.openRecord_acq {d : Dev} {a : Nat} (hc : (d.ap a).capture ≠ none) (trig : Nat) (nt : Bool) :
    ∃ r subs, ((d.openRecord a trig nt).ap a) = { d.ap a with acq := { (d.ap a).acq with
        recno := (d.ap a).acq.recno + 1, triggered := (d.ap a).acq.triggered + 1, opened := (d.ap a).acq.opened ++ [r], subs := subs } } ∧
      r.recno = (d.ap a).acq.recno ∧ r.noTrigger = nt ∧ r.trigTick = trig ∧
      r.posts = (d.ap a).acq.subs.map (fun s => (s.held.filter (fun e => decide (trig ≤ e.stamp))).length) ∧
      subs.map SubRing.post = (d.ap a).acq.subs.map SubRing.post := by
  obtain ⟨w, hw⟩ := Option.ne_none_iff_exists'.mp hc
  unfold Dev.openRecord
  dsimp only
  rw [hw]
  refine ⟨_, _, (Dev.ap_setAp _ _ _ _).trans (if_pos rfl), rfl, rfl, rfl, rfl, ?_⟩
  split
  · exact List.map_map
  · rfl

/-! ### A candidate and its verdict -/

section
variable {d : Dev} {a : Nat} {c : Candidate}

/-- What a confirmed candidate that is accepted leaves of the acquisition `x`. -/
structure Accepted (x x' : Acq) (tick : Nat) : Prop where
  sub : x'.sub = 4
  triggered : x'.triggered = x.triggered + 1
  recno : x'.recno = x.recno + 1
  inbox : x'.inbox = x.inbox
  prov : x'.prov = x.prov
  opened : ∃ r, x'.opened = x.opened ++ [r] ∧ r.recno = x.recno ∧ r.trigTick = tick ∧ r.noTrigger = false ∧
    r.posts = x.subs.map (fun s => (s.held.filter (fun e => decide (tick ≤ e.stamp))).length)
  posts : x'.subs.map SubRing.post = x.subs.map SubRing.post

theorem Dev.accept_acq (hc : (d.ap a).capture ≠ none) (hs : (d.ap a).acq.sub ≠ 4) (tick : Nat) : Accepted (d.ap a).acq ((d.accept a tick).ap a).acq tick := by
  obtain ⟨r, subs, hap, hr1, hr2, hr3, hr4, hr5⟩ := Dev.openRecord_acq (d := d.bump (acqReg a 0x08)) hc tick false
  have hsub : ((((d.bump (acqReg a 0x08)).openRecord a tick false)).ap a).acq.sub ≠ 4 := by rw [hap]; exact hs
  unfold Dev.accept
  dsimp only
  rw [if_neg hsub, Dev.enterSub_acq, hap]
  exact ⟨rfl, rfl, rfl, rfl, rfl, ⟨r, rfl, hr1, hr3, hr2, hr4⟩, hr5⟩

theorem Dev.openRecord_reg (trig : Nat) (nt : Bool) (x : Nat) : (d.openRecord a trig nt).reg x = d.reg x := by
  unfold Dev.openRecord
  dsimp only
  split <;> rfl

theorem Dev.accept_reg (ha : a < 1024) (tick : Nat) : (d.accept a tick).reg (acqReg a 0x08) = d.reg (acqReg a 0x08) + 1 := by
  have hopen : ((d.bump (acqReg a 0x08)).openRecord a tick false).reg (acqReg a 0x08) = d.reg (acqReg a 0x08) + 1 :=
    (Dev.openRecord_reg _ _ _).trans (d.reg_bump_same _)
  unfold Dev.accept
  dsimp only
  split
  · exact hopen
  · exact (Dev.enterSub_reg (by unfold acqReg; omega) (by unfold acqReg; omega) _ a 4).trans hopen

theorem Dev.accept_noneHeld (hn : d.noneHeld) (tick : Nat) : (d.accept a tick).noneHeld := by
  have hopen : ((d.bump (acqReg a 0x08)).openRecord a tick false).noneHeld := by
    refine Dev.noneHeld_of_rings ?_ hn
    unfold Dev.openRecord
    dsimp only
    split <;> rfl
  unfold Dev.accept
  dsimp only
  split
  · exact hopen
  · exact Dev.noneHeld.wakeWaits (d := Dev.updAp _ _ _) hopen a

section
variable (hs : (d.ap a).state = 3) (hc : (d.ap a).capture ≠ none) (hp : (d.ap a).acq.prov = none)
include hs hc hp

theorem Dev.meetCandidate_accepts (h12 : (d.ap a).acq.sub = 1 ∨ (d.ap a).acq.sub = 2) (hv : c.prov = false) : d.meetCandidate a c = d.accept a c.tick := by
  unfold Dev.meetCandidate
  dsimp only
  rw [if_neg (by simpa using ⟨hs, hc⟩), if_neg (by rw [hp]; decide), if_pos (by rw [decide_eq_true h12]; rfl), if_neg (by rw [hv]; decide)]

theorem Dev.meetCandidate_provisional (h12 : (d.ap a).acq.sub = 1 ∨ (d.ap a).acq.sub = 2) (hv : c.prov = true) :
    d.meetCandidate a c = d.updAcq a (fun x => { x with prov := some (c, x.sub) }) := by
  unfold Dev.meetCandidate
  dsimp only
  rw [if_neg (by simpa using ⟨hs, hc⟩), if_neg (by rw [hp]; decide), if_pos (by rw [decide_eq_true h12]; rfl), if_pos hv]

theorem Dev.meetCandidate_ignored (h56 : (d.ap a).acq.sub = 5 ∨ (d.ap a).acq.sub = 6) (hv : c.prov = false) : ∃ cause, d.meetCandidate a c = d.countLost a c.tick cause := by
  unfold Dev.meetCandidate
  dsimp only
  rw [if_neg (by simpa using ⟨hs, hc⟩), if_neg (by rw [hp]; decide), if_neg, if_neg (by rw [hv]; decide)]
  · exact ⟨_, rfl⟩
  · rw [decide_eq_false (by omega), decide_eq_false (by omega)]
    simp

end

theorem Dev.countLost_ap (tick cause k : Nat) : (d.countLost a tick cause).ap k = d.ap k :=
  ((d.sameButReports_rcDo _ _).trans (Dev.sameButReports_raiseAt _ _ _ _ _ _ _)).ap k

theorem Dev.countLost_reg (tick cause : Nat) : (d.countLost a tick cause).reg (acqReg a 0x0C) = d.reg (acqReg a 0x0C) + 1 :=
  (congrArg (fun t => Tbl.look (RegMap.resetOf (acqReg a 0x0C)) t (acqReg a 0x0C)) ((d.bump (acqReg a 0x0C)).produce_regs _)).trans (d.reg_bump_same _)

end

/-- An accepted record of which an entry is still to come stays open. -/
theorem Accepted.pending {x x' : Acq} {tick : Nat} (h : Accepted x x' tick) (ho : x.opened = [])
    (hm : ∃ r ∈ x.subs, (r.held.filter (fun e => decide (tick ≤ e.stamp))).length < r.post) : ∀ r ∈ x'.opened, ∀ u, x'.recordDone u r = false := by
  obtain ⟨r0, hr0, -, -, -, hposts⟩ := h.opened
  rw [hr0, ho]
  intro r hr u
  rw [List.nil_append, List.mem_singleton] at hr
  rw [hr]
  exact Acq.recordDone_eq_false h.posts hposts hm

/-! ### The rows -/

/-- The device with the message that heads the queue of aperture `a` taken from it. -/
def Dev.withInbox (d : Dev) (a : Nat) (rest : List (Nat × TrigMsg)) : Dev := d.updAcq a (fun z => { z with inbox := rest })

theorem Dev.withInbox_acq (d : Dev) (a : Nat) (rest : List (Nat × TrigMsg)) : ((d.withInbox a rest).ap a).acq = { (d.ap a).acq with inbox := rest } := d.updAcq_acq a _

theorem Dev.withInbox_ap (d : Dev) (a : Nat) (rest : List (Nat × TrigMsg)) : (d.withInbox a rest).ap a = { d.ap a with acq := { (d.ap a).acq with inbox := rest } } :=
  (d.updAcq_ap a _ a).trans (if_pos rfl)

section
variable {s : State} {dt a at_ : Nat} {c : Candidate} {rest : List (Nat × TrigMsg)} (hs : ((s.after dt).ap a).state = 3) (hat : at_ ≤ (s.after dt).clk.cycle)
include hs hat

/-- The row of a candidate at an aperture that does not change of itself on this tick. -/
theorem exec_apertureCandidate_met (hi : ((s.after dt).ap a).acq.inbox = (at_, .cand c) :: rest) (hp : ((s.after dt).ap a).acq.prov = none)
    (h4 : ((s.after dt).ap a).acq.sub ≠ 4) (h6 : ((s.after dt).ap a).acq.sub = 6 → (s.after dt).clk.cycle < ((s.after dt).ap a).acq.rearmAt + 384) :
    exec (.apertureCandidate dt a) s = .next (s.ontoAll (completeFull a (((s.after dt).withInbox a rest).meetCandidate a c, s.mem))) := by
  have hrow : exec (.apertureCandidate dt a) s = .next (s.ontoAll (
      match ((s.after dt).ap a).acq.inbox with
      | (t, .cand c) :: rest =>
        if (s.after dt).cyc < t then (s.after dt, s.mem)
        else
          let x := if ((s.after dt).ap a).state = 3 then settleSub a ((s.after dt).withInbox a rest, s.mem) else ((s.after dt).withInbox a rest, s.mem)
          completeFull a (x.1.meetCandidate a c, x.2)
      | _ => (s.after dt, s.mem))) := rfl
  have hsettle : settleSub a ((s.after dt).withInbox a rest, s.mem) = ((s.after dt).withInbox a rest, s.mem) := by
    have hacq := (s.after dt).withInbox_acq a rest
    have hover : ((s.after dt).withInbox a rest).rearmOver a = (s.after dt).withInbox a rest := by
      unfold Dev.rearmOver
      dsimp only
      rw [hacq]
      exact if_neg fun h => Nat.not_lt.mpr h.2 (h6 h.1)
    unfold settleSub
    dsimp only
    rw [hacq]
    dsimp only
    rw [hp, if_neg (by decide), if_neg h4, hover]
  rw [hrow, hi]
  dsimp only
  rw [if_neg (show ¬ (s.after dt).cyc < at_ from Nat.not_lt.mpr hat), if_pos hs, hsettle]

omit hs in
theorem exec_apertureVerdict_met {src fire : Nat} {ok : Bool} (hi : ((s.after dt).ap a).acq.inbox = (at_, .verdict src fire ok) :: rest) :
    exec (.apertureVerdict dt a) s = .next (s.ontoAll (completeFull a (((s.after dt).withInbox a rest).meetVerdict a src fire ok, s.mem))) := by
  have hrow : exec (.apertureVerdict dt a) s = .next (s.ontoAll (
      match ((s.after dt).ap a).acq.inbox with
      | (t, .verdict src fire ok) :: rest =>
        if (s.after dt).cyc < t then (s.after dt, s.mem) else completeFull a (((s.after dt).withInbox a rest).meetVerdict a src fire ok, s.mem)
      | _ => (s.after dt, s.mem))) := rfl
  rw [hrow, hi]
  dsimp only
  rw [if_neg (show ¬ (s.after dt).cyc < at_ from Nat.not_lt.mpr hat)]

end

/-- The device on which no candidate is provisional at aperture `a`. -/
def Dev.provEnded (d : Dev) (a : Nat) : Dev := d.updAcq a (fun x => { x with prov := none, held := [] })

theorem Dev.provEnded_ap (d : Dev) (a : Nat) : (d.provEnded a).ap a = { d.ap a with acq := { (d.ap a).acq with prov := none, held := [] } } :=
  (d.updAcq_ap a _ a).trans (if_pos rfl)

/-- The verdict of the candidate that is provisional, where none other waits and no command is held. -/
theorem Dev.meetVerdict_current {d : Dev} {a m : Nat} {c : Candidate} (hp : (d.ap a).acq.prov = some (c, m)) (hl : (d.ap a).acq.lost = []) (hh : (d.ap a).acq.held = [])
    (ok : Bool) : d.meetVerdict a c.src c.fire ok =
      (if ok then ((d.settleSnaps a c.src c.fire ok).provEnded a).meetCandidate a { c with prov := false }
        else (d.settleSnaps a c.src c.fire ok).provEnded a).runHeldAll := by
  have hap : (d.settleSnaps a c.src c.fire ok).ap a = d.ap a := rfl
  unfold Dev.meetVerdict
  generalize d.settleSnaps a c.src c.fire ok = y at hap ⊢
  dsimp only
  rw [hap, hl, hp]
  dsimp only [List.find?_nil]
  refine (if_pos (decide_eq_true ⟨rfl, rfl⟩)).trans ?_
  unfold Dev.resolveAp
  dsimp only
  rw [hap, hh]
  rfl

/-- Settles O39: what each candidate and verdict finds at the aperture, by the lemmas above. -/
theorem candidatesAtAnAperture : Obligations.CandidatesAtAnAperture := by
  unfold Obligations.CandidatesAtAnAperture
  intro dt a c at_ rest s d p x y more ha hs hc hat ho
  have hap : y.ap a = { p with acq := { x with inbox := rest } } := d.withInbox_ap a rest
  have hacq : (y.ap a).acq = { x with inbox := rest } := d.withInbox_acq a rest
  have hys : (y.ap a).state = 3 := by rw [hap]; exact hs
  have hyc : (y.ap a).capture ≠ none := by rw [hap]; exact hc
  have hreg (b : Nat) : y.reg b = d.reg b := rfl
  refine ⟨fun hi hp => ⟨fun hv h12 hm => ?_, fun hv h12 => ?_, fun hv h56 => ?_⟩, fun m ok hi hp hl hh hheld h12 hm => ?_⟩
  · have h4 : x.sub ≠ 4 := by omega
    have h6 : x.sub = 6 → d.clk.cycle < x.rearmAt + 384 := by omega
    have hrow : _ = Host.Outcome.next (s.ontoAll (completeFull a (y.meetCandidate a c, s.mem))) :=
      exec_apertureCandidate_met (s := s) (dt := dt) hs hat hi hp h4 h6
    have h12y : (y.ap a).acq.sub = 1 ∨ (y.ap a).acq.sub = 2 := by rw [hacq]; exact h12
    have hpy : (y.ap a).acq.prov = none := by rw [hacq]; exact hp
    rw [← hreg]
    clear_value y
    have hacc := y.accept_acq hyc (by rw [hacq]; exact h4) c.tick
    have hregs := y.accept_reg ha c.tick
    rw [hacq] at hacc
    obtain ⟨r, hr, h1, h2, h3, -⟩ := hacc.opened
    rw [ho, List.nil_append] at hr
    rw [hrow, Dev.meetCandidate_accepts hys hyc hpy h12y hv, completeFull_pending (x := (y.accept a c.tick, s.mem)) (hacc.pending ho hm)]
    exact ⟨s.onto (y.accept a c.tick), rfl, State.onto_mem _ _, hacc.sub, hacc.triggered, hacc.recno, hacc.inbox, hregs, r, hr, h1, h2, h3⟩
  · have h4 : x.sub ≠ 4 := by omega
    have h6 : x.sub = 6 → d.clk.cycle < x.rearmAt + 384 := by omega
    have hrow : _ = Host.Outcome.next (s.ontoAll (completeFull a (y.meetCandidate a c, s.mem))) :=
      exec_apertureCandidate_met (s := s) (dt := dt) hs hat hi hp h4 h6
    have h12y : (y.ap a).acq.sub = 1 ∨ (y.ap a).acq.sub = 2 := by rw [hacq]; exact h12
    have hpy : (y.ap a).acq.prov = none := by rw [hacq]; exact hp
    have hopen : ((y.updAcq a (fun z => { z with prov := some (c, z.sub) })).ap a).acq.opened = [] := by rw [Dev.updAcq_acq, hacq]; exact ho
    have hsub : y.updAcq a (fun z => { z with prov := some (c, z.sub) }) = y.updAcq a (fun z => { z with prov := some (c, x.sub) }) := by
      unfold Dev.updAcq Dev.updAp
      dsimp only
      rw [hacq]
    rw [hrow, Dev.meetCandidate_provisional hys hyc hpy h12y hv, completeFull_none (x := (y.updAcq a _, s.mem)) hopen, hsub]
    rfl
  · have h4 : x.sub ≠ 4 := by omega
    have h6 : x.sub = 6 → d.clk.cycle < x.rearmAt + 384 := by omega
    have hrow : _ = Host.Outcome.next (s.ontoAll (completeFull a (y.meetCandidate a c, s.mem))) :=
      exec_apertureCandidate_met (s := s) (dt := dt) hs hat hi hp h4 h6
    have hpy : (y.ap a).acq.prov = none := by rw [hacq]; exact hp
    obtain ⟨cause, hcause⟩ := Dev.meetCandidate_ignored (c := c) hys hyc hpy (by rw [hacq]; dsimp only; omega) hv
    rw [← hreg]
    clear_value y
    have hopen : ((y.countLost a c.tick cause).ap a).acq.opened = [] := by rw [Dev.countLost_ap, hacq]; exact ho
    rw [hrow, hcause, completeFull_none (x := (y.countLost a c.tick cause, s.mem)) hopen]
    refine ⟨s.onto (y.countLost a c.tick cause), rfl, State.onto_mem _ _, ?_, Dev.countLost_reg _ _⟩
    rw [State.onto_dev, Dev.countLost_ap, hacq]
  · have hrow : _ = Host.Outcome.next (s.ontoAll (completeFull a (y.meetVerdict a c.src c.fire ok, s.mem))) :=
      exec_apertureVerdict_met (s := s) (dt := dt) hat hi
    have hny : y.noneHeld := (Dev.noneHeld_iff d).mpr hheld
    rw [hrow, Dev.meetVerdict_current (m := m) (by rw [hacq]; exact hp) (by rw [hacq]; exact hl) (by rw [hacq]; exact hh)]
    have hz : (y.settleSnaps a c.src c.fire ok).ap a = y.ap a := rfl
    have hnz : (y.settleSnaps a c.src c.fire ok).noneHeld := hny
    rw [hap] at hz
    clear_value y
    generalize y.settleSnaps a c.src c.fire ok = z at hz hnz ⊢
    have hz1 := z.provEnded_ap a
    rw [hz] at hz1
    have hn1 : (z.provEnded a).noneHeld := hnz
    cases ok with
    | false =>
      have hopen : ((z.provEnded a).ap a).acq.opened = [] := by rw [hz1]; exact ho
      rw [if_neg (by decide), Dev.runHeldAll_of_noneHeld hn1, completeFull_none (x := (z.provEnded a, s.mem)) hopen]
      refine ⟨s.onto (z.provEnded a), rfl, State.onto_mem _ _, ?_⟩
      rw [State.onto_dev, hz1]
      exact ⟨rfl, rfl, fun _ => ⟨rfl, ho⟩, nofun⟩
    | true =>
      have hacc := (z.provEnded a).accept_acq (a := a) (by rw [hz1]; exact hc) (by rw [hz1]; show x.sub ≠ 4; omega) c.tick
      have hmeet := Dev.meetCandidate_accepts (d := z.provEnded a) (a := a) (c := { c with prov := false }) (by rw [hz1]; exact hs) (by rw [hz1]; exact hc)
        (by rw [hz1]) (by rw [hz1]; exact h12) rfl
      rw [hz1] at hacc
      rw [if_pos rfl, hmeet, Dev.runHeldAll_of_noneHeld (Dev.accept_noneHeld hn1 c.tick),
        completeFull_pending (x := ((z.provEnded a).accept a c.tick, s.mem)) (hacc.pending ho hm)]
      exact ⟨s.onto ((z.provEnded a).accept a c.tick), rfl, State.onto_mem _ _, hacc.prov, hacc.inbox, nofun, fun _ => ⟨hacc.sub, hacc.triggered⟩⟩

end Sys2Proof.Machine
end

section
/-!
PROOF. Streams and JESD204C links (R169–R193, R647).
-/

namespace Sys2Proof.Machine

variable {d : Dev}

namespace Dev.sameButReports

variable {a b : Dev} (h : a.sameButReports b)
include h

theorem streams : b.streams = a.streams := by unfold Dev.sameButReports at h; rw [h]
theorem jesd : b.jesd = a.jesd := by unfold Dev.sameButReports at h; rw [h]
theorem pads : b.pads = a.pads := by unfold Dev.sameButReports at h; rw [h]
theorem ain : b.ain = a.ain := by unfold Dev.sameButReports at h; rw [h]

end Dev.sameButReports

theorem Dev.jlink_setJlink (i j : Nat) (x : JesdLink) : (d.setJlink i x).jlink j = if j = i then x else d.jlink j := Tbl.look_put _ _ _ _ _

/-! ### Streams -/

theorem Dev.sameButReports_streamEvent (s cause data : Nat) : d.sameButReports (d.streamEvent s cause data) := by
  unfold Dev.streamEvent
  split
  · split
    · exact Dev.sameButReports_raise _ _ _ _ _
    · split
      · exact .refl _
      · exact Dev.sameButReports_raise _ _ _ _ _
  · exact Dev.sameButReports_raise _ _ _ _ _

theorem Dev.streamDown_stream (s data k : Nat) :
    (d.streamDown s data).stream k = if k = s then { d.stream s with state := 3, anchored := false, held := [] } else d.stream k :=
  ((Dev.sameButReports_streamEvent _ _ _).stream k).trans (Dev.stream_setStream _ _ _ _)

theorem Dev.withdrawnSample_none (h : ∀ c, (d.chan c).withdrawn = none) (s : Nat) : d.withdrawnSample s = d := by
  unfold Dev.withdrawnSample
  refine foldl_keeps (fun y : Dev => y = d) _ _ d rfl fun y p hy => ?_
  subst hy
  dsimp only
  rw [h]

/-- A PSL stream with nothing in the Splitter and no sequence of substitutes: its next position is replaced when it is due, whatever its state. -/
theorem Dev.substituteDue_next {s : Nat} {w : List Word} (hk : rtKind w = 0) (hf : (d.stream s).fifo = []) (hs : (d.stream s).subSeq = none)
    (hd : (d.stream s).dueAfter w (d.jlink (rtLink w)).lemc ((d.stream s).instantOf (rtRate w) (d.stream s).nextPos) ≤ (d.now : Int)) :
    d.substituteDue s w = d.deliverSubstitute s w ((d.stream s).instantOf (rtRate w) (d.stream s).nextPos) := by
  have hsame : (d.stream s).instantAt w (d.stream s).nextPos = (d.stream s).instantOf (rtRate w) (d.stream s).nextPos := by
    unfold Stream.instantAt rtExact
    rw [if_neg (by rw [hk]; decide)]
    rfl
  have htransit : (d.stream s).inTransit = none := by unfold Stream.inTransit; rw [hf]; rfl
  unfold Dev.substituteDue
  dsimp only
  rw [hsame, hs, htransit, hf]
  dsimp only
  rw [if_neg (show ¬ rtKind w = 1 by rw [hk]; decide)]
  split
  · exact (if_pos (decide_eq_true hd)).trans (if_pos rfl)
  · exact if_pos (decide_eq_true hd)

theorem Dev.splitterHead_early {s : Nat} {w : List Word} {e : InSplitter} {rest : List InSplitter} (hr : (d.stream s).rt = some w)
    (hf : (d.stream s).fifo = e :: rest) (hs : e.sub = false) (ht : d.clk.cycle < e.enter + 12) : d.splitterHead s = d := by
  unfold Dev.splitterHead
  dsimp only
  rw [hf, hr]
  dsimp only
  rw [hs]
  have hlt : d.cyc < e.enter + 12 := ht
  exact if_pos (by rw [Bool.false_and, Bool.false_and, decide_eq_true hlt]; rfl)

/-- A sample that is no anchor and whose position no substitute has taken leaves for its ports. -/
theorem Dev.deliverSample_plain {s : Nat} {w : List Word} {e : InSplitter} (hret : (d.stream s).returning = false) (ha : e.anchor = false) (hs : e.sub = false)
    (hp : (d.stream s).outPos ≤ e.pos) :
    d.deliverSample s w e = (d.setStream s { (d.stream s).counted d.cyc with outPos := e.pos + 1 }).toPorts s w e.dest e.smp := by
  have hnot : (d.stream s).substituted e = false := by
    unfold Stream.substituted
    rw [hret, if_neg Bool.false_ne_true]
    exact decide_eq_false (Nat.not_lt.mpr hp)
  unfold Dev.deliverSample
  rw [ha, Bool.false_and, if_neg Bool.false_ne_true]
  extract_lets e0 x e1 e2 y v z
  have h1 : e1 = d := if_neg Bool.false_ne_true
  have h2 : e2 = e1 := if_neg (by rw [show x.returning = false from hret]; exact Bool.false_ne_true)
  have hv : v = y.counted e2.cyc := if_neg (by rw [hs]; exact Bool.false_ne_true)
  rw [show x.substituted e = false from hnot, if_neg Bool.false_ne_true]
  clear_value v e2 e1
  subst hv h2 h1
  rfl

theorem Dev.splitterHead_delivers {s : Nat} {w : List Word} {e : InSplitter} {rest : List InSplitter} (hr : (d.stream s).rt = some w)
    (hf : (d.stream s).fifo = e :: rest) (hret : (d.stream s).returning = false) (ha : e.anchor = false) (ho : e.old = false) (hs : e.sub = false)
    (hp : (d.stream s).outPos ≤ e.pos) (ht : e.enter + 12 ≤ d.clk.cycle) :
    d.splitterHead s =
      ((d.setStream s { d.stream s with fifo := rest }).setStream s
        { ({ d.stream s with fifo := rest } : Stream).counted d.clk.cycle with outPos := e.pos + 1 }).toPorts s w e.dest e.smp := by
  have hlate : ¬ ((decide (d.cyc < e.enter + 12)) && !(e.sub && !e.old && decide ((d.stream s).dueAfter w (d.jlink (rtLink w)).lemc e.smp.instant ≤ (d.now : Int)))) = true := by
    rw [decide_eq_false (show ¬ d.cyc < e.enter + 12 from Nat.not_lt.mpr ht), Bool.false_and]
    exact Bool.false_ne_true
  have hgoes (x : Stream) (hx : x.returning = false) (hxp : x.outPos ≤ e.pos) :
      (d.setStream s x).deliverSample s w e = ((d.setStream s x).setStream s { x.counted d.clk.cycle with outPos := e.pos + 1 }).toPorts s w e.dest e.smp := by
    have hset := Dev.stream_setStream_same d s x
    have h := Dev.deliverSample_plain (d := d.setStream s x) (s := s) (w := w) (e := e) (by rw [hset]; exact hx) ha hs (by rw [hset]; exact hxp)
    rw [hset] at h
    exact h
  rw [← hgoes { d.stream s with fifo := rest } hret hp]
  unfold Dev.splitterHead
  dsimp only
  rw [hf, hr]
  dsimp only
  rw [if_neg hlate, ho, if_neg Bool.false_ne_true]

theorem Dev.overRange_counts {n : Nat} (hs : d.sweeping n = false) (hf : d.fw.stage = 0x3F) :
    ((d.overRange n).ainOf n).ovrAt = some d.clk.cycle ∧ (d.overRange n).reg (0x420000 + 32 * n + 8) = d.reg (0x420000 + 32 * n + 8) + 1 := by
  have hset (x : Ain) : ((d.bump (ainReg n 0x08)).setAin n x).ainOf n = x := Tbl.look_put_same _ _ _ _
  have hreg (x : Ain) : ((d.bump (ainReg n 0x08)).setAin n x).reg (0x420000 + 32 * n + 8) = d.reg (0x420000 + 32 * n + 8) + 1 :=
    Dev.reg_bump_same d (ainReg n 0x08)
  have hain {a b : Dev} (h : a.sameButReports b) : b.ainOf n = a.ainOf n := by unfold Dev.ainOf; rw [h.ain]
  unfold Dev.overRange
  extract_lets x quiet on e since
  rw [if_neg (by simp [hs, hf])]
  split
  · exact ⟨(congrArg Ain.ovrAt (hain (Dev.sameButReports_raise _ _ _ _ _))).trans (congrArg Ain.ovrAt (hset _)), (Dev.raise_reg _ _ _ _ _ _).trans (hreg _)⟩
  · exact ⟨congrArg Ain.ovrAt (hset _), hreg _⟩

theorem Dev.toPorts_room {s dest : Nat} {w : List Word} {smp : Sample} (hd : dest ≠ 0)
    (h : ∀ p ∈ portsOf dest, (d.setStream s ((d.stream s).queued w d.cyc dest)).portHeld p ≤ 8192 * 3000000) :
    d.toPorts s w dest smp =
      (d.setStream s { (d.stream s).queued w d.cyc dest with poisonNext := false, dropped := 0, lastOut := some smp.instant }).portSample s dest
        { smp with poison := smp.poison || (d.stream s).poisonNext } := by
  have hnone : (portsOf dest).filter (fun p => decide (8192 * 3000000 < (d.setStream s ((d.stream s).queued w d.cyc dest)).portHeld p)) = [] :=
    List.filter_eq_nil_iff.mpr fun p hp => by simpa using h p hp
  unfold Dev.toPorts
  extract_lets x full rest y e
  have hfull : full = [] := hnone
  have hrest : rest = dest := by show full.foldl _ dest = dest; rw [hfull]; rfl
  rw [if_neg (by rw [hrest]; exact hd)]
  show Dev.portSample (if full.isEmpty then _ else _) s rest _ = _
  rw [hfull]
  exact congrArg (fun m => (d.setStream s { x.queued w d.cyc m with poisonNext := false, dropped := 0, lastOut := some smp.instant }).portSample s m
    { smp with poison := smp.poison || x.poisonNext }) hrest

/-! ### Links -/

theorem Dev.linkRoute_of_streams {a b : Dev} (h : b.streams = a.streams) (l : Nat) : b.linkRoute l = a.linkRoute l := by
  unfold Dev.linkRoute Dev.streamsOfLink Dev.stream
  rw [h]

/-- A link comes up, or stays as it is: the first block released is the next to begin. -/
theorem Dev.jesdCheckUp_cases (l : Nat) :
    d.jesdCheckUp l = d ∨ ∃ w base, (d.jlink l).lemc = some base ∧
      d.jesdCheckUp l = d.setJlink l { d.jlink l with up := true, blocks := ceilDiv (d.now - base) (lemcPeriod w) } := by
  unfold Dev.jesdCheckUp
  split
  · next w base _ hb =>
    split
    · exact .inr ⟨w, base, hb, rfl⟩
    · exact .inl rfl
  · exact .inl rfl

theorem Dev.jesdCheckUp_pads (l : Nat) : (d.jesdCheckUp l).pads = d.pads := by
  obtain h | ⟨_, _, -, h⟩ := d.jesdCheckUp_cases l <;> rw [h]
  rfl

/-- What an edge at other links leaves of link `l`. -/
def Dev.sameLink (l : Nat) (a b : Dev) : Prop := b.jlink l = a.jlink l ∧ b.streams = a.streams ∧ b.clk = a.clk

namespace Dev.sameLink

theorem refl (l : Nat) (d : Dev) : sameLink l d d := ⟨rfl, rfl, rfl⟩

theorem trans {l : Nat} {a b c : Dev} (h : sameLink l a b) (g : sameLink l b c) : sameLink l a c :=
  ⟨g.1.trans h.1, g.2.1.trans h.2.1, g.2.2.trans h.2.2⟩

theorem setJlink {l k : Nat} (h : l ≠ k) (d : Dev) (x : JesdLink) : sameLink l d (d.setJlink k x) :=
  ⟨(Dev.jlink_setJlink _ _ _).trans (if_neg h), rfl, rfl⟩

theorem ofReports (l : Nat) {a b : Dev} (h : a.sameButReports b) : sameLink l a b :=
  ⟨by unfold Dev.jlink; rw [h.jesd], h.streams, h.clk⟩

theorem checkUp {l k : Nat} (h : l ≠ k) (d : Dev) : sameLink l d (d.jesdCheckUp k) := by
  obtain e | ⟨_, _, -, e⟩ := d.jesdCheckUp_cases k <;> rw [e]
  · exact refl l d
  · exact setJlink h d _

end Dev.sameLink

/-- What an edge of SYSREF does to one link. -/
def Dev.sysrefAt (src : Nat) (d : Dev) (l : Nat) : Dev :=
  match d.linkRoute l with
  | some w =>
    if rtSysref w ≠ src then d
    else match (d.jlink l).lemc with
      | none => (d.setJlink l { d.jlink l with lemc := some d.now, blocks := 0 }).jesdCheckUp l
      | some b =>
        let p := lemcPeriod w
        let off := (d.now + p - b % p) % p
        if rtOneshot w ∨ off ≤ 1 ∨ off + 1 ≥ p then d else d.raise (evJesdLink + l) l 3 off
  | none => d

theorem Dev.sysref_eq (src : Nat) : d.sysref src = (List.range 24).foldl (Dev.sysrefAt src) d := rfl

theorem Dev.sysrefAt_other {l k : Nat} (h : l ≠ k) (src : Nat) (d : Dev) : Dev.sameLink l d (Dev.sysrefAt src d k) := by
  unfold Dev.sysrefAt
  split
  · split
    · exact .refl l d
    · split
      · exact (Dev.sameLink.setJlink h d _).trans (Dev.sameLink.checkUp h _)
      · dsimp only
        split
        · exact .refl l d
        · exact .ofReports l (Dev.sameButReports_raise _ _ _ _ _)
  · exact .refl l d

theorem Dev.sysrefAt_aligns {l src : Nat} {w : List Word} (hr : d.linkRoute l = some w) (hs : rtSysref w = src) (hl : (d.jlink l).lemc = none) :
    ((Dev.sysrefAt src d l).jlink l).lemc = some d.now ∧ ((Dev.sysrefAt src d l).jlink l).blocks = 0 := by
  unfold Dev.sysrefAt
  rw [hr]
  dsimp only
  rw [if_neg (not_not.mpr hs), hl]
  dsimp only
  have hset (y : Dev) (x : JesdLink) : (y.setJlink l x).jlink l = x := (Dev.jlink_setJlink _ _ _).trans (if_pos rfl)
  obtain h | ⟨w', base, hb, h⟩ := (d.setJlink l { d.jlink l with lemc := some d.now, blocks := 0 }).jesdCheckUp_cases l <;> rw [h]
  · rw [hset]
    exact ⟨rfl, rfl⟩
  · rw [hset] at hb
    obtain rfl : d.now = base := Option.some.inj hb
    rw [hset, hset]
    refine ⟨rfl, ?_⟩
    show ceilDiv (d.now - d.now) (lemcPeriod w') = 0
    rw [Nat.sub_self]
    unfold ceilDiv
    rcases Nat.eq_zero_or_pos (lemcPeriod w') with h0 | h0
    · rw [h0]
    · exact Nat.div_eq_of_lt (by omega)

theorem Dev.sysref_aligns {l src : Nat} {w : List Word} (h24 : l < 24) (hr : d.linkRoute l = some w) (hs : rtSysref w = src) (hl : (d.jlink l).lemc = none) :
    ((d.sysref src).jlink l).lemc = some d.now ∧ ((d.sysref src).jlink l).blocks = 0 := by
  have hkeep (ks : List Nat) (hk : l ∉ ks) (y : Dev) : Dev.sameLink l y (ks.foldl (Dev.sysrefAt src) y) := by
    induction ks generalizing y with
    | nil => exact .refl l y
    | cons k ks ih =>
      exact (Dev.sysrefAt_other (List.ne_of_not_mem_cons hk) src y).trans (ih (List.not_mem_of_not_mem_cons hk) _)
  obtain ⟨before, after, hsplit⟩ := List.append_of_mem (List.mem_range.mpr h24)
  have hnodup : (before ++ l :: after).Nodup := hsplit ▸ List.nodup_range
  obtain ⟨-, htail, hdisj⟩ := List.nodup_append.mp hnodup
  have hb : l ∉ before := fun e => hdisj l e l List.mem_cons_self rfl
  have ha : l ∉ after := (List.nodup_cons.mp htail).1
  rw [Dev.sysref_eq, hsplit, List.foldl_append, List.foldl_cons]
  obtain ⟨hj, hst, hc⟩ := hkeep before hb d
  generalize before.foldl (Dev.sysrefAt src) d = y at hj hst hc
  have hy := Dev.sysrefAt_aligns (d := y) ((Dev.linkRoute_of_streams hst l).trans hr) hs (by rw [hj]; exact hl)
  rw [(hkeep after ha _).1]
  exact ⟨hy.1.trans (congrArg (fun c : Clock => some c.count.toNat) hc), hy.2⟩

/-- A property of one index that every step keeps and the step of its own index brings about. -/
theorem foldl_brings {α δ : Type} {f : δ → α → δ} {P : α → δ → Prop} (hkeep : ∀ y l k, P k y → P k (f y l)) (hown : ∀ y l, P l (f y l)) (ls : List α)
    (y : δ) {k : α} (h : k ∈ ls) : P k (ls.foldl f y) := by
  induction ls generalizing y with
  | nil => exact absurd h List.not_mem_nil
  | cons l ls ih =>
    rcases List.mem_cons.mp h with rfl | h
    · exact foldl_keeps (P k) f ls _ (hown y k) fun z x hz => hkeep z x k hz
    · exact ih _ h

/-- What the loss of a lane does to one of its links. -/
def Dev.linkLost (pad : Nat) (d : Dev) (l : Nat) : Dev :=
  if (d.jlink l).up then
    let d := (d.setJlink l { d.jlink l with up := false }).raise (evJesdLink + l) l 2 pad
    (d.streamsOfLink l).foldl (fun d s => if (d.stream s).state = 2 then d.streamDown s pad else d) d
  else d

theorem Dev.laneLost_eq {pad : Nat} (hm : (d.pad pad).mode = 2) (ha : (d.pad pad).aligned = true) :
    ∃ y : Dev, y.pads = Tbl.put pad { d.pad pad with aligned := false } d.pads ∧ y.streams = d.streams ∧
      d.laneLost pad = (y.linksOfPad pad).foldl (Dev.linkLost pad) y := by
  unfold Dev.laneLost
  rw [if_pos ⟨hm, ha⟩]
  extract_lets x e y
  exact ⟨y, (Dev.sameButReports_raise _ _ _ _ _).pads, (Dev.sameButReports_raise _ _ _ _ _).streams, rfl⟩

theorem Dev.linkLost_jesd_pads (pad l : Nat) (d : Dev) :
    (Dev.linkLost pad d l).jesd = (if (d.jlink l).up then Tbl.put l { d.jlink l with up := false } d.jesd else d.jesd) ∧ (Dev.linkLost pad d l).pads = d.pads := by
  unfold Dev.linkLost
  split
  · next h =>
    extract_lets x y
    have hy : y.jesd = Tbl.put l { d.jlink l with up := false } d.jesd ∧ y.pads = d.pads :=
      ⟨(Dev.sameButReports_raise _ _ _ _ _).jesd, (Dev.sameButReports_raise _ _ _ _ _).pads⟩
    refine foldl_keeps (fun z : Dev => z.jesd = Tbl.put l { d.jlink l with up := false } d.jesd ∧ z.pads = d.pads) _ _ y hy fun z s hz => ?_
    dsimp only
    split
    · exact ⟨(Dev.sameButReports_streamEvent _ _ _).jesd.trans hz.1, (Dev.sameButReports_streamEvent _ _ _).pads.trans hz.2⟩
    · exact hz
  · exact ⟨rfl, rfl⟩

theorem Dev.linkLost_down (pad l : Nat) (d : Dev) : ((Dev.linkLost pad d l).jlink l).up = false := by
  unfold Dev.jlink
  rw [(Dev.linkLost_jesd_pads pad l d).1]
  split
  · rw [Tbl.look_put_same]
  · next h => exact Bool.eq_false_iff.mpr h

theorem Dev.linkLost_keeps_down {pad l k : Nat} {d : Dev} (h : (d.jlink k).up = false) : ((Dev.linkLost pad d l).jlink k).up = false := by
  by_cases hk : k = l
  · rw [hk]
    exact Dev.linkLost_down pad l d
  · have hj : (Dev.linkLost pad d l).jlink k = d.jlink k := by
      unfold Dev.jlink
      rw [(Dev.linkLost_jesd_pads pad l d).1]
      split
      · exact Tbl.look_put_ne _ _ _ hk
      · rfl
    rw [hj]
    exact h

theorem Dev.laneLost_takesDown {pad : Nat} (hm : (d.pad pad).mode = 2) (ha : (d.pad pad).aligned = true) :
    ((d.laneLost pad).pad pad).aligned = false ∧ ∀ k ∈ d.linksOfPad pad, ((d.laneLost pad).jlink k).up = false := by
  obtain ⟨y, hp, hs, h⟩ := Dev.laneLost_eq hm ha
  have hlinks : y.linksOfPad pad = d.linksOfPad pad := by
    unfold Dev.linksOfPad
    exact List.filter_congr fun l _ => by rw [Dev.linkRoute_of_streams hs]
  have hpads (ls : List Nat) : (ls.foldl (Dev.linkLost pad) y).pads = y.pads :=
    foldl_keeps (fun z : Dev => z.pads = y.pads) _ _ y rfl fun z l hz => (Dev.linkLost_jesd_pads pad l z).2.trans hz
  rw [h, hlinks]
  refine ⟨?_, fun k hk => foldl_brings (P := fun k (z : Dev) => (z.jlink k).up = false) (fun z l k => Dev.linkLost_keeps_down) (fun z l => Dev.linkLost_down pad l z) _ y hk⟩
  unfold Dev.pad
  rw [hpads, hp, Tbl.look_put_same]

theorem Dev.jesdAligned_pad (pad : Nat) (x : Pad) : (((d.setPad pad x).linksOfPad pad).foldl (fun d l => d.jesdCheckUp l) (d.setPad pad x)).pad pad = x := by
  have hpads : (((d.setPad pad x).linksOfPad pad).foldl (fun d l => d.jesdCheckUp l) (d.setPad pad x)).pads = (d.setPad pad x).pads :=
    foldl_keeps (fun z : Dev => z.pads = (d.setPad pad x).pads) _ _ _ rfl fun z l hz => z.jesdCheckUp_pads l |>.trans hz
  unfold Dev.pad
  rw [hpads]
  exact Tbl.look_put_same _ _ _ _

/-! ### Multiblocks -/

/-- Streams whose Splitter holds `n` more, with everything else about when and where as it was. -/
def Dev.streamGrows (s n : Nat) (a b : Dev) : Prop :=
  (b.stream s).fifo.length = (a.stream s).fifo.length + n ∧ (b.stream s).lastGood = (a.stream s).lastGood ∧ b.jesd = a.jesd

theorem Dev.streamGrows.foldl {α : Type} {s : Nat} {f : Dev → α → Dev} (h : ∀ y x, Dev.streamGrows s 1 y (f y x)) (ls : List α) (y : Dev) :
    Dev.streamGrows s ls.length y (ls.foldl f y) := by
  induction ls generalizing y with
  | nil => exact ⟨rfl, rfl, rfl⟩
  | cons x ls ih =>
    obtain ⟨h1, h2, h3⟩ := h y x
    obtain ⟨g1, g2, g3⟩ := ih (f y x)
    exact ⟨by rw [List.foldl_cons, g1, h1, List.length_cons]; omega, g2.trans h2, g3.trans h3⟩

theorem Dev.intoSplitter_grows (s : Nat) (e : InSplitter) : Dev.streamGrows s 1 d (d.intoSplitter s e) := by
  unfold Dev.streamGrows Dev.intoSplitter
  dsimp only
  rw [Dev.stream_setStream_same]
  exact ⟨List.length_append, rfl, rfl⟩

theorem Dev.jesdPlace_stream (s b : Nat) (w : List Word) :
    ((d.jesdPlace s w b true).stream s).fifo = (d.stream s).fifo ∧ ((d.jesdPlace s w b true).stream s).lastGood = d.clk.cycle ∧
      (d.jesdPlace s w b true).jesd = d.jesd := by
  unfold Dev.jesdPlace
  dsimp only
  rw [Dev.stream_setStream_same]
  split <;> exact ⟨rfl, rfl, rfl⟩

theorem Dev.jesdStream_brings {s b : Nat} {w : List Word} {convs : List (List Word)} (hr : rtReal w = false) :
    ((d.jesdStream s w b convs).stream s).fifo.length = (d.stream s).fifo.length + jesdCount w ∧
      ((d.jesdStream s w b convs).stream s).lastGood = d.clk.cycle ∧ (d.jesdStream s w b convs).jesd = d.jesd := by
  obtain ⟨hf, hg, hj⟩ := d.jesdPlace_stream s b w
  unfold Dev.jesdStream
  extract_lets first e start mark
  obtain ⟨h1, h2, h3⟩ := Dev.streamGrows.foldl (s := s)
    (f := fun (d : Dev) (j : Nat) =>
      let a := jesdSample w ((convs.getD (rtConv w) []).getD j 0)
      if rtReal w then d.enterReal s w a.1 a.2 false false mark 36
      else
        let q := jesdSample w ((convs.getD (rtConv w + 1) []).getD j 0)
        d.intoSplitter s { smp := { i := a.1, q := q.1, poison := false, ovr := a.2 || q.2, instant := (d.stream s).instantAt w (start + j) },
                           pos := start + j, anchor := decide (start + j = mark), enter := d.cyc, dest := rtDest w })
    (fun y j => by dsimp only; rw [if_neg (by rw [hr]; exact Bool.false_ne_true)]; exact Dev.intoSplitter_grows _ _) (List.range (jesdCount w)) e
  rw [List.length_range] at h1
  exact ⟨h1.trans (by rw [show (e.stream s).fifo = _ from hf]), h2.trans hg, h3.trans hj⟩

theorem Dev.jesdRelease_good {l sid base : Nat} {w : List Word} {convs : List (List Word)} (hl : d.streamsOfLink l = [sid]) (hw : (d.stream sid).rt = some w)
    (hr : rtReal w = false) (hb : (d.jlink l).lemc = some base) (hu : (d.jlink l).up = true)
    (ht : base + (d.jlink l).blocks * lemcPeriod w + rtRelease w ≤ d.now) :
    ((d.jesdRelease l .good convs).jlink l).blocks = (d.jlink l).blocks + 1 ∧
      ((d.jesdRelease l .good convs).stream sid).fifo.length = (d.stream sid).fifo.length + jesdCount w ∧
      ((d.jesdRelease l .good convs).stream sid).lastGood = d.clk.cycle := by
  have hroute : d.linkRoute l = some w := by unfold Dev.linkRoute; rw [hl]; exact hw
  have hin : ¬ (!(d.jlink l).up || decide (d.now < base + (d.jlink l).blocks * lemcPeriod w + rtRelease w)) = true := by
    rw [hu, decide_eq_false (Nat.not_lt.mpr ht)]
    decide
  obtain ⟨h1, h2, h3⟩ := Dev.jesdStream_brings (d := d.setJlink l { d.jlink l with blocks := (d.jlink l).blocks + 1 }) (s := sid)
    (b := base + (d.jlink l).blocks * lemcPeriod w) (convs := convs) hr
  have heq : d.jesdRelease l .good convs =
      (d.setJlink l { d.jlink l with blocks := (d.jlink l).blocks + 1 }).jesdStream sid w (base + (d.jlink l).blocks * lemcPeriod w) convs := by
    unfold Dev.jesdRelease
    dsimp only
    rw [hroute, hb]
    dsimp only
    rw [if_neg hin, show ∀ x, (d.setJlink l x).streamsOfLink l = [sid] from fun _ => hl, List.foldl_cons, List.foldl_nil,
      show ∀ x, ((d.setJlink l x).stream sid).rt = some w from fun _ => hw]
  rw [heq]
  exact ⟨(congrArg (fun t => (Tbl.look ({} : JesdLink) t l).blocks) h3).trans (congrArg JesdLink.blocks (Tbl.look_put_same _ _ _ _)), h1, h2⟩

/-- Settles O42: each row by its own lemma above. -/
theorem streamsAndJesdLinks : Obligations.StreamsAndJesdLinks := by
  unfold Obligations.StreamsAndJesdLinks
  refine ⟨⟨fun dt sid n w e rest r0 r1 s => ?_, fun d sid dest w smp => ?_⟩, fun dt l pad sid w convs s => ?_⟩
  · intro d x
    refine ⟨fun hs h2 ht => ?_, fun hr hk h0 hf hs hw => ?_, fun hs hr hf hret ha ho he hp => ?_, fun code hn hc hs hf => ?_⟩
    · have hrow : exec (.streamDownTimeout dt sid) s = .next (s.onto (d.streamDown sid)) :=
        congrArg (fun y => Host.Outcome.next (s.onto y)) (if_pos ⟨h2, ht, hs⟩)
      refine ⟨s.onto (d.streamDown sid), hrow, State.onto_mem _ _, ?_, fun k hk => ?_⟩
      · rw [State.onto_dev]
        exact (Dev.streamDown_stream (d := d) sid 0 sid).trans (if_pos rfl)
      · rw [State.onto_dev]
        exact (Dev.streamDown_stream (d := d) sid 0 k).trans (if_neg hk)
    · intro at_ y hd
      have hdue := Dev.substituteDue_next (d := d) hk hf hs hd
      have hrow : exec (.substituteDue dt sid) s = .next (s.onto (match ((d.withdrawnSample sid).stream sid).rt with
        | some w => if ((d.withdrawnSample sid).stream sid).state ≠ 0 ∧ rtKind w ≠ 2 then (d.withdrawnSample sid).substituteDue sid w else d.withdrawnSample sid
        | none => d.withdrawnSample sid)) := rfl
      rw [hrow, Dev.withdrawnSample_none hw, show (d.stream sid).rt = some w from hr]
      dsimp only
      rw [if_pos ⟨h0, by rw [hk]; decide⟩, hdue]
      rfl
    · intro y
      have hrow : exec (.splitterDelivery dt sid r0 r1) s = .next (s.onto (d.splitterHead sid)) :=
        congrArg (fun y => Host.Outcome.next (s.onto y)) (if_neg (by omega))
      exact ⟨fun ht => hrow.trans (congrArg (fun y => Host.Outcome.next (s.onto y)) (Dev.splitterHead_early (d := d) hr hf he ht)),
        fun ht => hrow.trans (congrArg (fun y => Host.Outcome.next (s.onto y)) (Dev.splitterHead_delivers (d := d) hr hf hret ha ho he hp ht))⟩
    · have hrow : exec (.overRangeSample dt n code) s = .next (s.onto (d.overRange n)) :=
        congrArg (fun y => Host.Outcome.next (s.onto y)) (if_pos hc)
      refine ⟨s.onto (d.overRange n), hrow, State.onto_mem _ _, ?_⟩
      rw [State.onto_dev]
      exact Dev.overRange_counts (d := d) hs hf
  · intro x q hd hp
    exact Dev.toPorts_room hd hp
  · intro d
    refine ⟨fun hl hr hs hb => ?_, fun hm hr => ?_, fun hm ha => ?_, fun base hl hw hr hb hu ht => ?_⟩
    · refine ⟨s.onto (d.sysref 0), rfl, State.onto_mem _ _, ?_⟩
      rw [State.onto_dev]
      exact Dev.sysref_aligns (d := d) hl hr hs hb
    · have hgo : (decide ((d.pad pad).mode = 2) && !(d.rxDead (d.pad pad).rx)) = true := by rw [hm, hr]; rfl
      have hrow : exec (.jesdLaneAligned dt pad) s = .next (s.onto (((d.setPad pad { d.pad pad with aligned := true, everAligned := true }).linksOfPad pad).foldl
          (fun d l => d.jesdCheckUp l) (d.setPad pad { d.pad pad with aligned := true, everAligned := true }))) :=
        congrArg (fun y => Host.Outcome.next (s.onto y)) (if_pos hgo)
      refine ⟨_, hrow, State.onto_mem _ _, ?_⟩
      rw [State.onto_dev]
      exact congrArg Pad.aligned (Dev.jesdAligned_pad (d := d) pad _)
    · refine ⟨s.onto (d.laneLost pad), rfl, State.onto_mem _ _, ?_⟩
      rw [State.onto_dev]
      exact Dev.laneLost_takesDown (d := d) hm ha
    · refine ⟨s.onto (d.jesdRelease l .good convs), rfl, State.onto_mem _ _, ?_⟩
      rw [State.onto_dev]
      exact Dev.jesdRelease_good (d := d) hl hw hr hb hu ht

end Sys2Proof.Machine
end

section
/-!
PROOF. Channel outputs, frames and spectra (R226–R242, R256–R270).
-/

namespace Sys2Proof

theorem QWord.ofHalves_lo_hi (v : QWord) : QWord.ofHalves v.lo v.hi = v := by
  unfold QWord.ofHalves QWord.lo QWord.hi
  refine BitVec.eq_of_getLsbD_eq fun i hi => ?_
  rw [BitVec.getLsbD_append]
  by_cases h : i < 32
  · simp [h]
  · have h32 : i - 32 < 32 := by omega
    simp [h, h32, show 32 + (i - 32) = i by omega]

namespace Machine

/-! ### 64-bit counters -/

section
variable (d : Dev)

theorem Dev.reg_setReg_ne (v : Word) {a b : Nat} (h : b ≠ a) : (d.setReg a v).reg b = d.reg b := by rw [Dev.reg_setReg, if_neg h]

theorem Dev.reg64_bump64 (a n : Nat) : (d.bump64 a n).reg64 a = d.reg64 a + BitVec.ofNat 64 n := by
  unfold Dev.bump64 Dev.setReg64
  generalize d.reg64 a + BitVec.ofNat 64 n = v
  unfold Dev.reg64
  rw [Dev.reg_setReg_same, Dev.reg_setReg_ne _ _ (by omega), Dev.reg_setReg_same, QWord.ofHalves_lo_hi]

theorem Dev.reg_bump64_ne (n : Nat) {a b : Nat} (h : b ≠ a) (h' : b ≠ a + 4) : (d.bump64 a n).reg b = d.reg b := by
  unfold Dev.bump64 Dev.setReg64
  rw [Dev.reg_setReg_ne _ _ h', Dev.reg_setReg_ne _ _ h]

theorem Dev.reg64_of_reg {d e : Dev} {a : Nat} (h : e.reg a = d.reg a) (h' : e.reg (a + 4) = d.reg (a + 4)) : e.reg64 a = d.reg64 a := by
  unfold Dev.reg64
  rw [h, h']

/-! ### What keeps every channel -/

/-- The same channels, engines and clock. -/
def Dev.sameChans (a b : Dev) : Prop := b.chans = a.chans ∧ b.clk = a.clk

namespace Dev.sameChans

theorem refl (d : Dev) : d.sameChans d := ⟨rfl, rfl⟩

theorem trans {a b c : Dev} (h : a.sameChans b) (g : b.sameChans c) : a.sameChans c := ⟨g.1.trans h.1, g.2.trans h.2⟩

theorem foldl {α : Type} {f : Dev → α → Dev} (h : ∀ (d : Dev) x, d.sameChans (f d x)) (l : List α) (d : Dev) : d.sameChans (l.foldl f d) :=
  foldl_keeps (fun y => d.sameChans y) _ _ _ (refl d) fun y x hy => hy.trans (h y x)

theorem ofReports {a b : Dev} (h : a.sameButReports b) : a.sameChans b := ⟨by unfold Dev.sameButReports at h; rw [h], h.clk⟩

theorem ofConsumers {a b : Dev} (h : a.sameButConsumers b) : a.sameChans b := ⟨by unfold Dev.sameButConsumers at h; rw [h], h.clk⟩

/-- In the order in which the last step is known first. -/
theorem since {a b c : Dev} (g : b.sameChans c) (h : a.sameChans b) : a.sameChans c := h.trans g

theorem ite {p : Prop} [Decidable p] {a b c : Dev} (h : a.sameChans b) (g : a.sameChans c) : a.sameChans (if p then b else c) := by
  split
  · exact h
  · exact g

theorem chan {a b : Dev} (h : a.sameChans b) (c : Nat) : b.chan c = a.chan c := by unfold Dev.chan; rw [h.1]

end Dev.sameChans

theorem Dev.sameChans_countMark (g r a : Nat) (p : Bool) : d.sameChans (d.countMark g r a p) := by
  unfold Dev.countMark Dev.ueEvent
  split
  · exact ⟨rfl, rfl⟩
  · extract_lets q quiet n
    split
    · exact .since (.ofReports (Dev.sameButReports_raise _ _ _ _ _)) ⟨rfl, rfl⟩
    · exact ⟨rfl, rfl⟩

theorem Dev.sameChans_meets (r : Nat) : d.sameChans (d.meets r).2 := by
  unfold Dev.meets
  refine foldl_keeps (fun x : List Nat × Dev => d.sameChans x.2) _ _ _ (.refl d) fun x p hx => ?_
  dsimp only
  split
  · exact hx.trans (.since (Dev.sameChans_countMark _ _ _ _ _) ⟨rfl, rfl⟩)
  · exact hx.trans ⟨rfl, rfl⟩

theorem Dev.sameChans_reduce (c : Nat) (f : SubRing → List Word → Nat → SubRing) : d.sameChans (d.reduce c f) := by
  unfold Dev.reduce
  have hread (y : Dev) (a i : Nat) : y.sameChans (y.stateRead a i) := by
    unfold Dev.stateRead
    dsimp only
    split
    · exact y.sameChans_meets 2
    · exact (y.sameChans_meets 2).trans ⟨rfl, rfl⟩
  refine .trans (b := (d.aps.filter (fun (p : Nat × Aperture) => decide (p.2.state = 3))).foldl _ d) (.foldl (fun y p => .foldl (fun z r => ?_) _ _) _ _) ⟨rfl, rfl⟩
  exact .ite (hread _ _ _) (.refl z)

theorem Dev.sameChans_leSample (c : Nat) (o : ChanOut) : d.sameChans (d.leSample c o) := by
  unfold Dev.leSample
  extract_lets u u'
  clear_value u'
  split
  · exact ⟨rfl, rfl⟩
  · split
    · exact ⟨rfl, rfl⟩
    · extract_lets r v
      split
      · exact ⟨rfl, rfl⟩
      · split
        · exact ⟨rfl, rfl⟩
        · exact .since (.ofConsumers (Dev.sameButConsumers_leave _ _ _ _)) ⟨rfl, rfl⟩

theorem Dev.sameChans_maskBin (u c dd : Nat) (j l : Int) : d.sameChans (d.maskBin u c dd j l) := by
  unfold Dev.maskBin
  extract_lets x
  split
  · exact .refl d
  · extract_lets r earlier fire g x' e
    split
    · exact .since (.ofConsumers (Dev.sameButConsumers_leave _ _ _ _)) ⟨rfl, rfl⟩
    · exact ⟨rfl, rfl⟩

theorem Dev.sameChans_cellRead (p k : Nat) : d.sameChans (d.cellRead p k) := by
  unfold Dev.cellRead
  dsimp only
  split
  · exact (d.sameChans_countMark _ _ _ _).trans ⟨rfl, rfl⟩
  · exact .refl d

theorem Dev.sameChans_decaySweep (p : Nat) : d.sameChans (d.decaySweep p) := by
  unfold Dev.decaySweep
  dsimp only
  split
  · split
    · refine .trans ?_ ⟨rfl, rfl⟩
      split
      · exact ⟨rfl, rfl⟩
      · exact .foldl (fun y k => y.sameChans_cellRead p k) _ _
    · exact .refl d
  · exact .refl d

theorem Dev.sameChans_densityBin (c stamp : Nat) (j l : Int) : d.sameChans (d.densityBin c stamp j l) := by
  unfold Dev.densityBin
  refine .foldl (fun y p => ?_) _ _
  dsimp only
  split
  · split
    · split
      · exact ((y.sameChans_decaySweep p).trans (Dev.sameChans_cellRead _ _ _)).trans ⟨rfl, rfl⟩
      · exact .refl y
    · exact .refl y
  · exact .refl y

theorem Dev.densitySkip_keeps (c stamp : Nat) : d.sameChans (d.densitySkip c stamp) ∧ ∀ x, x < 0x520000 → (d.densitySkip c stamp).reg x = d.reg x := by
  unfold Dev.densitySkip
  refine foldl_keeps (fun y : Dev => d.sameChans y ∧ ∀ x, x < 0x520000 → y.reg x = d.reg x) _ _ d ⟨.refl d, fun _ _ => rfl⟩ fun y p hy => ?_
  split
  · exact ⟨hy.1.trans ⟨rfl, rfl⟩, fun x hx => (Dev.reg_rcDo_ne _ _ _ _ (by unfold feedReg; omega)).trans (hy.2 x hx)⟩
  · exact hy

end

/-! ### The write of an output -/

/-- A channel with the same outputs, frames and rings. -/
def Chan.sameStaging (x y : Chan) : Prop :=
  y.outq = x.outq ∧ y.pending = x.pending ∧ y.state = x.state ∧ y.frames = x.frames ∧ y.framesNext = x.framesNext ∧ y.done = x.done ∧ y.rings = x.rings

/-- What the end of a write leaves of channel `c`, and the registers of the channels. -/
def Dev.sameStaging (c : Nat) (a b : Dev) : Prop := (a.chan c).sameStaging (b.chan c) ∧ ∀ x, x < 0x460000 → b.reg x = a.reg x

namespace Dev.sameStaging

theorem refl (c : Nat) (d : Dev) : sameStaging c d d := ⟨⟨rfl, rfl, rfl, rfl, rfl, rfl, rfl⟩, fun _ _ => rfl⟩

theorem trans {c : Nat} {x y z : Dev} (h : sameStaging c x y) (g : sameStaging c y z) : sameStaging c x z := by
  obtain ⟨⟨h1, h2, h3, h4, h5, h6, h7⟩, hr⟩ := h
  obtain ⟨⟨g1, g2, g3, g4, g5, g6, g7⟩, gr⟩ := g
  exact ⟨⟨g1.trans h1, g2.trans h2, g3.trans h3, g4.trans h4, g5.trans h5, g6.trans h6, g7.trans h7⟩, fun a ha => (gr a ha).trans (hr a ha)⟩

theorem foldl {α : Type} {c : Nat} {f : Dev → α → Dev} (h : ∀ (d : Dev) x, sameStaging c d (f d x)) (l : List α) (d : Dev) : sameStaging c d (l.foldl f d) :=
  foldl_keeps (fun y => sameStaging c d y) _ _ _ (refl c d) fun y x hy => hy.trans (h y x)

theorem setChan {c : Nat} {d : Dev} {x : Chan} (h : (d.chan c).sameStaging x) : sameStaging c d (d.setChan c x) :=
  ⟨by rw [Dev.chan_setChan_same]; exact h, fun _ _ => rfl⟩

theorem setChan_ne {c k : Nat} (h : c ≠ k) (d : Dev) (x : Chan) : sameStaging c d (d.setChan k x) :=
  ⟨by rw [Dev.chan_setChan, if_neg h]; exact (refl c d).1, fun _ _ => rfl⟩

theorem raise {c : Nat} (d : Dev) (id unit arg data : Nat) : sameStaging c d (d.raise id unit arg data) :=
  ⟨by rw [(Dev.sameChans.ofReports (d.sameButReports_raise id unit arg data)).chan]; exact (refl c d).1, fun _ _ => Dev.raise_reg _ _ _ _ _ _⟩

theorem clipEvent (c n : Nat) (on : Bool) (d : Dev) : sameStaging c d (d.clipEvent c n on) := by
  unfold Dev.clipEvent
  split
  · exact refl c d
  · extract_lets x quiet total
    split
    · exact trans (y := d.setChan c { x with clipAt := some d.cyc, clipSince := 0 }) (setChan ⟨rfl, rfl, rfl, rfl, rfl, rfl, rfl⟩) (raise _ _ _ _ _)
    · exact setChan ⟨rfl, rfl, rfl, rfl, rfl, rfl, rfl⟩

/-- A channel is no Loupe child of its own. -/
theorem ne_of_anyTakes {c : Nat} {p : Nat × Chan} {x : Chan} (h : x.anyTakes (fun ch => ch.childOf p.1 c) = true) : c ≠ p.1 := by
  rintro rfl
  have hnone : (fun ch : Chain => ch.childOf p.1 p.1) = fun _ => false := by
    funext ch
    unfold Chain.childOf
    rw [decide_eq_false (not_not.mpr rfl), Bool.and_false]
  rw [hnone] at h
  unfold Chan.anyTakes at h
  simp at h

theorem feedChildren (c : Nat) (o : ChanOut) (d : Dev) : sameStaging c d (d.feedChildren c o) := by
  unfold Dev.feedChildren
  refine foldl (fun y p => ?_) _ _
  extract_lets x takes
  split
  · next h => exact setChan_ne (ne_of_anyTakes h) _ _
  · exact refl c y

theorem nextFrames_ne {c k : Nat} (h : c ≠ k) (f : Option FrameSeq) (rest : List (Nat × Option FrameSeq)) (d : Dev) : sameStaging c d (d.nextFrames k f rest) := by
  unfold Dev.nextFrames
  exact (setChan_ne h d _).trans ⟨(refl c _).1, fun x hx => Dev.reg_rcDo_ne _ _ _ _ (by unfold xformReg; omega)⟩

theorem channelEnded_ne {c k : Nat} (h : c ≠ k) (d : Dev) : sameStaging c d (d.channelEnded k) := by
  unfold Dev.channelEnded
  extract_lets x gone dry e
  have he : sameStaging c d e := by
    show sameStaging c d (if gone then d else _)
    split
    · exact refl c d
    · exact setChan_ne h d _
  split
  · split
    · exact he.trans (nextFrames_ne h _ _ _)
    · exact he
  · exact refl c d

theorem channelEnded_own {c : Nat} {d : Dev} (h : (d.chan c).framesNext = []) : sameStaging c d (d.channelEnded c) := by
  unfold Dev.channelEnded
  extract_lets x gone dry e
  have he : sameStaging c d e := by
    show sameStaging c d (if gone then d else _)
    split
    · exact refl c d
    · exact setChan ⟨rfl, rfl, rfl, rfl, rfl, rfl, rfl⟩
  split
  · rw [show x.framesNext = [] from h]
    exact he
  · exact refl c d

theorem familyEnded {c : Nat} {d : Dev} (h : (d.chan c).framesNext = []) : sameStaging c d (d.familyEnded c) := by
  unfold Dev.familyEnded
  refine (channelEnded_own h).trans (foldl (fun y p => ?_) _ _)
  split
  · next h => exact channelEnded_ne (ne_of_anyTakes h) _
  · exact refl c y

end Dev.sameStaging

/-- A sample written to staging: what comes of it depends on the frames and rings alone, and leaves the outputs. -/
theorem Chan.stage_of_frames {x y : Chan} (o : ChanOut) (cycle : Nat) (tq : Nat → Nat) (hf : y.frames = x.frames) (hr : y.rings = x.rings) (hd : y.done = x.done) :
    (y.stage o cycle tq).frames = (x.stage o cycle tq).frames ∧ (y.stage o cycle tq).done = (x.stage o cycle tq).done ∧
      (y.stage o cycle tq).rings = (x.stage o cycle tq).rings ∧ (y.stage o cycle tq).outq = y.outq ∧ (y.stage o cycle tq).pending = y.pending ∧
      (y.stage o cycle tq).state = y.state ∧ (y.stage o cycle tq).framesNext = y.framesNext := by
  unfold Chan.stage Chan.ring
  rw [hf, hr, hd]
  cases x.frames with
  | none => exact ⟨hf, hd, hr, rfl, rfl, rfl, rfl⟩
  | some f =>
    dsimp only
    split
    · exact ⟨hf, hd, hr, rfl, rfl, rfl, rfl⟩
    · split
      · exact ⟨rfl, rfl, rfl, rfl, rfl, rfl, rfl⟩
      · exact ⟨rfl, rfl, rfl, rfl, rfl, rfl, rfl⟩

/-- The channel with its next output written. -/
def Chan.written (x : Chan) (o : ChanOut) (rest : List ChanOut) (cycle : Nat) : Chan :=
  { x with
    outq := rest
    pending := x.pending ++ [{ o with due := cycle + 8 }]
    state := if o.first ∧ x.state = 1 ∧ o.start = x.switchAt then 2 else x.state }

theorem Dev.writeOutput_stages {d : Dev} {c : Nat} {o : ChanOut} {rest : List ChanOut} (hq : (d.chan c).outq = o :: rest) (ht : o.due ≤ d.clk.cycle)
    (hn : (d.chan c).framesNext = []) :
    ∃ e : Dev, d.writeOutput c = ((e.clipEvent c o.clips o.clipEv).feedChildren c o).familyEnded c ∧
      e.chan c = ((d.chan c).written o rest d.clk.cycle).stage o d.clk.cycle d.tqAt ∧
      e.reg64 (chanReg c 0x10) = d.reg64 (chanReg c 0x10) + 1 := by
  have hdue : d.framesDue c o.instant = d := by
    unfold Dev.framesDue
    dsimp only
    rw [hn]
    rfl
  unfold Dev.writeOutput
  extract_lets x
  rw [show x.outq = o :: rest from hq]
  dsimp -zeta only
  rw [if_neg (show ¬ d.cyc < o.due from Nat.not_lt.mpr ht)]
  extract_lets broke e0 x1 x2 e1 e2 e3 e4 e5
  have hbroke : broke = false := by
    show x.framesNext.any _ = false
    rw [show x.framesNext = [] from hn]
    rfl
  have hx2 : x2 = (d.chan c).written o rest d.clk.cycle := by
    show ({ (e0.chan c) with
        outq := rest
        pending := (e0.chan c).pending ++ [{ o with due := e0.cyc + 8, first := o.first || broke }]
        state := if o.first ∧ (e0.chan c).state = 1 ∧ o.start = (e0.chan c).switchAt then 2 else (e0.chan c).state } : Chan) = _
    rw [show e0 = d from hdue, hbroke, Bool.or_false]
    rfl
  have h1 : e1.chan c = ((d.chan c).written o rest d.clk.cycle).stage o d.clk.cycle d.tqAt := by
    rw [← hx2]
    show (e0.setChan c (x2.stage o e0.cyc e0.tqAt)).chan c = _
    rw [show e0 = d from hdue]
    exact Dev.chan_setChan_same _ _ _
  have hkeep (y : Dev) (b : Bool) (a n : Nat) : (if b then y.bump a n else y).chan c = y.chan c := by
    split <;> rfl
  have hreg (y : Dev) (b : Bool) (a x : Nat) (h : x ≠ a) : (if b then y.bump a else y).reg x = y.reg x := by
    split
    · exact y.reg_rcDo_ne _ _ _ h
    · rfl
  have hreg4 (x : Nat) (h4 : x ≠ chanReg c 0x04) (h8 : x ≠ chanReg c 0x08) (hC : x ≠ chanReg c 0x0C) : e4.reg x = d.reg x :=
    (hreg e3 _ _ x hC).trans ((hreg e2 _ _ x h8).trans ((e1.reg_rcDo_ne _ _ _ h4).trans (show e0.reg x = d.reg x from congrArg (fun y : Dev => y.reg x) hdue)))
  have hchan4 : e4.chan c = e1.chan c := (hkeep e3 _ _ _).trans (hkeep e2 _ _ _)
  refine ⟨e5, rfl, hchan4.trans h1, (e4.reg64_bump64 _ _).trans (congrArg (· + 1) (Dev.reg64_of_reg (hreg4 _ ?_ ?_ ?_) (hreg4 _ ?_ ?_ ?_)))⟩
  all_goals unfold chanReg; omega

/-- The write of a channel's next output, with no change of its frames to come. -/
theorem Dev.writeOutput_shows {d : Dev} {c : Nat} {o : ChanOut} {rest : List ChanOut} (hc : c < 512) (hq : (d.chan c).outq = o :: rest)
    (ht : o.due ≤ d.clk.cycle) (hn : (d.chan c).framesNext = []) :
    ((d.writeOutput c).chan c).outq = rest ∧ ((d.writeOutput c).chan c).pending = (d.chan c).pending ++ [{ o with due := d.clk.cycle + 8 }] ∧
      (o.first = true → (d.chan c).state = 1 → o.start = (d.chan c).switchAt → ((d.writeOutput c).chan c).state = 2) ∧
      ((d.writeOutput c).chan c).frames = ((d.chan c).stage o d.clk.cycle d.tqAt).frames ∧
      ((d.writeOutput c).chan c).done = ((d.chan c).stage o d.clk.cycle d.tqAt).done ∧
      ((d.writeOutput c).chan c).rings = ((d.chan c).stage o d.clk.cycle d.tqAt).rings ∧
      (d.writeOutput c).reg64 (chanReg c 0x10) = d.reg64 (chanReg c 0x10) + 1 := by
  obtain ⟨e, hw, he, hreg⟩ := Dev.writeOutput_stages hq ht hn
  obtain ⟨hf, hd, hr, ho, hp, hs, hx⟩ := Chan.stage_of_frames (x := d.chan c) (y := (d.chan c).written o rest d.clk.cycle) o d.clk.cycle d.tqAt rfl rfl rfl
  rw [← he] at hf hd hr ho hp hs hx
  have h1 : Dev.sameStaging c e ((e.clipEvent c o.clips o.clipEv).feedChildren c o) := (Dev.sameStaging.clipEvent c _ _ e).trans (.feedChildren c o _)
  have h2 := h1.trans (Dev.sameStaging.familyEnded (h1.1.2.2.2.2.1.trans (hx.trans hn)))
  rw [← hw] at h2
  obtain ⟨⟨g1, g2, g3, g4, -, g6, g7⟩, gr⟩ := h2
  refine ⟨g1.trans ho, g2.trans hp, fun hfirst h1 hstart => (g3.trans hs).trans (if_pos ⟨hfirst, h1, hstart⟩), g4.trans hf, g6.trans hd, g7.trans hr, ?_⟩
  exact (Dev.reg64_of_reg (gr _ (by unfold chanReg; omega)) (gr _ (by unfold chanReg; omega))).trans hreg

theorem Dev.deliverTimeSample_chan {d : Dev} {c : Nat} {o : ChanOut} {rest : List ChanOut} (hp : (d.chan c).pending = o :: rest) (ht : o.due ≤ d.clk.cycle) :
    (d.deliverTimeSample c).chan c = { d.chan c with pending := rest, since := if o.first then 1 else (d.chan c).since + 1 } := by
  unfold Dev.deliverTimeSample
  extract_lets ch
  rw [show ch.pending = o :: rest from hp]
  dsimp -zeta only
  rw [if_neg (show ¬ d.cyc < o.due from Nat.not_lt.mpr ht)]
  extract_lets e1 e2 e3
  have h12 : e1.sameChans e2 := e1.sameChans_leSample c o
  have h23 : e2.sameChans e3 := e2.sameChans_reduce c _
  have hset : e1.chan c = { d.chan c with pending := rest, since := if o.first then 1 else (d.chan c).since + 1 } := Dev.chan_setChan_same _ _ _
  exact ((h12.trans h23).chan c).trans hset

/-! ### Frames -/

theorem Dev.framesOf_of_chans {a b : Dev} (h : b.chans = a.chans) (sector : Nat) (list : Chan → List Frame) (p : Frame → Bool) :
    b.framesOf sector list p = a.framesOf sector list p := by
  unfold Dev.framesOf
  rw [h]

theorem Frame.read_marks (f : Frame) (r : Staging) : (f.read r []).flatMap (·.2) = [] := by
  refine List.flatMap_eq_nil_iff.mpr fun y hy => ?_
  obtain ⟨k, -, rfl⟩ := List.mem_map.mp hy
  split
  · unfold readStaged
    dsimp only
    rw [if_pos (by simp)]
  · rfl

/-- A frame read without an upset bit. -/
theorem Dev.frameRead_reads {d : Dev} {sector engine c : Nat} {f : Frame} {r : Staging} (hr : ((d.serve sector).engine engine).role = 0)
    (hs : ((d.serve sector).engine engine).sector = sector)
    (hf : leastBy (fun (p : Nat × Frame) => p.2.c + p.2.a) ((d.serve sector).framesOf sector (·.done) (fun _ => true)) = some (c, f))
    (hring : ((d.serve sector).chan c).ring f.ring = some r) :
    d.frameRead sector engine [] = (d.serve sector).setChan c { (d.serve sector).chan c with
      done := ((d.serve sector).chan c).done.filter (fun g => decide (g ≠ f))
      reading := insertAfter Frame.delivery { f with samples := (f.read r []).map (·.1), readError := false, left := tfN f.block.words / 8, engine := engine }
        ((d.serve sector).chan c).reading } := by
  unfold Dev.frameRead
  generalize d.serve sector = y at *
  extract_lets y0 e
  rw [if_neg (show ¬ (e.role ≠ 0 ∨ e.sector ≠ sector) from fun h => h.elim (fun h => h hr) (fun h => h hs)),
    show leastBy (fun (p : Nat × Frame) => p.2.deadline) (y.framesOf sector (·.done) (fun _ => true)) = some (c, f) from hf]
  dsimp only
  rw [hring]
  dsimp only
  rw [f.read_marks r]
  rfl

/-- One frame is late, and nothing else is to be read. -/
theorem Dev.serve_late {d : Dev} {sector c : Nat} {f : Frame} (hr : d.framesOf sector (·.reading) (fun g => decide (g.left ≠ 0)) = [])
    (hd : d.framesOf sector (·.done) (fun g => decide (g.c + g.a ≤ d.clk.cycle)) = [(c, f)]) :
    d.serve sector = ({ d with pairAt := Tbl.put sector d.clk.cycle d.pairAt } : Dev).lateFrame c f := by
  unfold Dev.serve
  extract_lets rate due e
  have hdue : due = [] := hr
  have he : e = { d with pairAt := Tbl.put sector d.clk.cycle d.pairAt } := by
    show Dev.serveFrom sector rate due.length _ _ = _
    rw [hdue]
    rfl
  rw [he, show Dev.framesOf { d with pairAt := Tbl.put sector d.clk.cycle d.pairAt } sector (·.done)
    (fun f => decide (f.deadline ≤ Dev.cyc { d with pairAt := Tbl.put sector d.clk.cycle d.pairAt })) = [(c, f)] from hd]
  rfl

theorem Dev.lateFrame_shows {d : Dev} {c : Nat} {f : Frame} (hc : c < 512) :
    f ∉ ((d.lateFrame c f).chan c).done ∧ (d.lateFrame c f).reg (sectorReg (c / 64) 0x08) = d.reg (sectorReg (c / 64) 0x08) + 1 ∧
      (d.lateFrame c f).reg (xformReg c 0x08) = d.reg (xformReg c 0x08) + 1 := by
  have hne : sectorReg (c / 64) 0x08 ≠ xformReg c 0x08 := by unfold sectorReg xformReg; omega
  have hdone : ((d.lateFrame c f).chan c).done = (d.chan c).done.filter (fun g => decide (g ≠ f)) := congrArg Chan.done (Dev.chan_setChan_same _ _ _)
  unfold Dev.lateFrame at *
  dsimp only at *
  refine ⟨by rw [hdone]; simp, ?_, ?_⟩
  · rw [show ∀ (y : Dev) a n, y.bump a n = y.rcDo a (.count n) from fun _ _ _ => rfl, Dev.reg_rcDo_ne _ _ _ _ hne]
    exact Dev.reg_bump_same _ _
  · rw [Dev.reg_bump_same]
    exact congrArg (· + 1) (Dev.reg_rcDo_ne _ _ _ _ hne.symm)

theorem Dev.serveFrom_clk (sector rate n p : Nat) (d : Dev) : (Dev.serveFrom sector rate n p d).clk = d.clk := by
  induction n generalizing p d with
  | zero => rfl
  | succ n ih =>
    unfold Dev.serveFrom
    split
    · rfl
    · dsimp only
      split
      · exact ih _ _
      · split
        · exact ih _ _
        · rfl

theorem Dev.serve_clk (d : Dev) (sector : Nat) : (d.serve sector).clk = d.clk := by
  unfold Dev.serve
  extract_lets rate due e
  exact foldl_keeps (fun y : Dev => y.clk = d.clk) _ _ e (Dev.serveFrom_clk _ _ _ _ _) fun y p hy => hy

/-! ### Spectra and bins -/

/-- What the delivery of a spectrum leaves alone after it has been put in its channel. -/
def Dev.sameSpectra (c : Nat) (a b : Dev) : Prop := a.sameChans b ∧ b.reg64 (xformReg c 0x00) = a.reg64 (xformReg c 0x00)

theorem Dev.sameSpectra.trans {c : Nat} {x y z : Dev} (h : Dev.sameSpectra c x y) (g : Dev.sameSpectra c y z) : Dev.sameSpectra c x z :=
  ⟨h.1.trans g.1, g.2.trans h.2⟩

theorem Dev.sameSpectra.bumpIf {c : Nat} {d : Dev} {b : Bool} {a n : Nat} (h : xformReg c 0x04 < a) : Dev.sameSpectra c d (if b then d.bump a n else d) := by
  split
  · exact ⟨⟨rfl, rfl⟩, Dev.reg64_of_reg (d.reg_rcDo_ne _ _ _ (by unfold xformReg at *; omega)) (d.reg_rcDo_ne _ _ _ (by unfold xformReg at *; omega))⟩
  · exact ⟨.refl d, rfl⟩

theorem Dev.deliverSpectrum_shows {d : Dev} {c : Nat} {f : Frame} {fs : List Frame} {fails : Bool} (hc : c < 512)
    (hr : ((d.serve (c / 64)).chan c).reading = f :: fs) (hl : f.left = 0) (ht : f.c + f.a + engineLatency f.block.words ≤ d.clk.cycle) :
    (d.deliverSpectrum c fails).chan c = { (d.serve (c / 64)).chan c with
        reading := fs
        spectra := insertAfter Spectrum.nextTick (spectrumOf c f fails d.clk.cycle) ((d.serve (c / 64)).chan c).spectra } ∧
      (d.deliverSpectrum c fails).reg64 (xformReg c 0x00) = (d.serve (c / 64)).reg64 (xformReg c 0x00) + 1 := by
  have hclk := d.serve_clk (c / 64)
  unfold Dev.deliverSpectrum
  generalize d.serve (c / 64) = z at *
  extract_lets z0 ch
  rw [show ch.reading = f :: fs from hr]
  dsimp -zeta only
  have hcyc : z.cyc = d.clk.cycle := congrArg Clock.cycle hclk
  rw [if_neg (show ¬ (z.cyc < f.delivery ∨ f.left ≠ 0) from fun h => h.elim (fun h => absurd ht (Nat.not_le.mpr (hcyc ▸ h))) (fun h => h hl))]
  extract_lets x y0 y1 y2 y3 y4 y5 y6 y7
  have h0 : y0.chan c = { z.chan c with
        reading := fs
        spectra := insertAfter Spectrum.nextTick (spectrumOf c f fails d.clk.cycle) (z.chan c).spectra } := by
    rw [← hcyc]
    exact Dev.chan_setChan_same _ _ _
  have h1 : y1.reg64 (xformReg c 0x00) = z.reg64 (xformReg c 0x00) + 1 := y0.reg64_bump64 _ _
  have h23 : Dev.sameSpectra c y1 y3 := (Dev.sameSpectra.bumpIf (b := x.poison) (by unfold xformReg; omega)).trans (.bumpIf (b := x.ovr) (by unfold xformReg; omega))
  have h4 : Dev.sameSpectra c y3 y4 := .bumpIf (b := fails) (by unfold xformReg engReg; omega)
  have h5 : Dev.sameSpectra c y4 y5 :=
    ⟨⟨rfl, rfl⟩, Dev.reg64_of_reg (y4.reg_bump64_ne _ (by unfold xformReg engReg; omega) (by unfold xformReg engReg; omega))
      (y4.reg_bump64_ne _ (by unfold xformReg engReg; omega) (by unfold xformReg engReg; omega))⟩
  have h6 : Dev.sameSpectra c y5 y6 := by
    show Dev.sameSpectra c y5 (if x.poison then y5.densitySkip c x.stamp else y5)
    obtain ⟨hk, hreg⟩ := y5.densitySkip_keeps c x.stamp
    split
    · exact ⟨hk, Dev.reg64_of_reg (hreg _ (by unfold xformReg; omega)) (hreg _ (by unfold xformReg; omega))⟩
    · exact ⟨.refl _, rfl⟩
  have hall := ((h23.trans h4).trans h5).trans h6
  have h7 : y7.chan c = y6.chan c ∧ y7.reg64 (xformReg c 0x00) = y6.reg64 (xformReg c 0x00) := ⟨rfl, rfl⟩
  exact ⟨h7.1.trans ((hall.1.chan c).trans h0), h7.2.trans (hall.2.trans h1)⟩

theorem Dev.emitBin_chan {d : Dev} {c : Nat} {x : Spectrum} {xs : List Spectrum} (hs : (d.chan c).spectra = x :: xs) (ht : x.nextTick ≤ d.clk.cycle) :
    (d.emitBin c).chan c = { d.chan c with
      spectra := if x.bins.length ≤ x.emitted + 1 then xs else insertBy Spectrum.nextTick { x with emitted := x.emitted + 1 } xs } := by
  unfold Dev.emitBin
  extract_lets ch
  rw [show ch.spectra = x :: xs from hs]
  dsimp -zeta only
  rw [if_neg (show ¬ d.cyc < x.nextTick from Nat.not_lt.mpr ht)]
  extract_lets m p l last y0 y1 y2
  have h0 : y0.chan c = { d.chan c with
      spectra := if x.bins.length ≤ x.emitted + 1 then xs else insertBy Spectrum.nextTick { x with emitted := x.emitted + 1 } xs } := by
    refine (Dev.chan_setChan_same _ _ _).trans ?_
    have hlast : (if last then xs else insertBy Spectrum.nextTick { x with emitted := x.emitted + 1 } xs) =
        if x.bins.length ≤ x.emitted + 1 then xs else insertBy Spectrum.nextTick { x with emitted := x.emitted + 1 } xs := by
      show (if decide (x.bins.length ≤ x.emitted + 1) = true then _ else _) = _
      by_cases h : x.bins.length ≤ x.emitted + 1
      · rw [if_pos h, if_pos (decide_eq_true h)]
      · rw [if_neg h, if_neg (by simpa using h)]
    exact congrArg (fun l => { d.chan c with spectra := l }) hlast
  have h1 : y0.sameChans y1 := .foldl (fun y u => y.sameChans_maskBin _ _ _ _ _) _ _
  have h2 : y1.sameChans y2 := .ite (.refl y1) (y1.sameChans_densityBin _ _ _ _)
  have h3 (f : SubRing → List Word → Nat → SubRing) : y2.sameChans (if last then y2.reduce c f else y2) := .ite (y2.sameChans_reduce _ _) (.refl y2)
  exact (((h1.trans h2).trans (h3 _)).chan c).trans h0

/-- Settles O43: each row by its own lemma above. -/
theorem channelsAndFrames : Obligations.ChannelsAndFrames := by
  unfold Obligations.ChannelsAndFrames
  refine ⟨fun dt c o rest s => ?_, fun dt c sector engine f r x fs xs fails s => ?_⟩
  · intro d x y
    refine ⟨fun hc hq ht hn => ?_, fun hp ht => ?_⟩
    · refine ⟨s.onto (d.writeOutput c), rfl, State.onto_mem _ _, ?_⟩
      rw [State.onto_dev]
      exact Dev.writeOutput_shows (d := d) hc hq ht hn
    · refine ⟨s.onto (d.deliverTimeSample c), rfl, State.onto_mem _ _, ?_⟩
      rw [State.onto_dev]
      exact Dev.deliverTimeSample_chan (d := d) hp ht
  · intro d y z ch
    refine ⟨fun hr hs hf hring => ?_, fun hr hd => ?_, fun hc hr he hl ht => ?_, fun hs ht => ?_⟩
    · exact congrArg (fun y => Host.Outcome.next (s.onto y)) (Dev.frameRead_reads (d := d) hr hs hf hring)
    · have hy := Dev.serve_late (d := d) hr hd
      refine ⟨hy, fun hc => ?_⟩
      rw [show y = _ from hy]
      exact Dev.lateFrame_shows hc
    · refine ⟨s.onto (d.deliverSpectrum c fails), rfl, State.onto_mem _ _, ?_⟩
      rw [State.onto_dev]
      exact Dev.deliverSpectrum_shows (d := d) hc hr hl ht
    · refine ⟨s.onto (d.emitBin c), rfl, State.onto_mem _ _, ?_⟩
      rw [State.onto_dev]
      exact Dev.emitBin_chan (d := d) hs ht

end Machine

end Sys2Proof
end

section
/-!
PROOF. O44: the slots of the capture-memory controller (R362–R373, R399).
-/

namespace Sys2Proof.Machine

section
variable {d : Dev} {x : Nat}

theorem Dev.pc_setPc (i j : Nat) (p : Pc) : (d.setPc i p).pc j = if j = i then p else d.pc j := by
  unfold Dev.pc Dev.setPc
  dsimp only
  rw [Tbl.look_put]

theorem Dev.pc_setPc_same (i : Nat) (p : Pc) : (d.setPc i p).pc i = p := (Dev.pc_setPc i i p).trans (if_pos rfl)

/-- The use of a slot changes the record of use alone. -/
theorem Dev.useSlot_pc (k : SlotKind) : ∃ u, (d.useSlot x k).pc x = { d.pc x with slots := u } := ⟨_, Dev.pc_setPc_same _ _⟩

theorem Dev.scheduledSlot_moves {l : Nat} {w : Nat × Nat} (hm : d.maySlot x .scheduled = true) (hl : d.drains x = some l)
    (hw : d.cmc.wbuf.find? (fun (v : Nat × Nat) => decide (d.pcOfBlock v.1 = l)) = some w) :
    d.scheduledSlot x =
      (({ d with cmc := { d.cmc with wbuf := d.cmc.wbuf.filter (fun (v : Nat × Nat) => decide (v.1 ≠ w.1)) } } : Dev).useSlot x .scheduled).activate x (d.indexOfBlock w.1) := by
  unfold Dev.scheduledSlot
  rw [if_pos hm, hl]
  dsimp only
  rw [hw]
  rfl

theorem Dev.scheduledSlot_used (hm : d.maySlot x .scheduled = false) : d.scheduledSlot x = d := by
  unfold Dev.scheduledSlot
  rw [if_neg (by rw [hm]; exact Bool.false_ne_true)]

theorem Dev.refreshSlot_refreshes (hm : d.maySlot x .refresh = true) :
    ∃ r, r < 2 ∧ d.refreshSlot x = ({ d.useSlot x .refresh with free := d.free + 1 } : Dev).setPc x
      { ((d.useSlot x .refresh).pc x).touch r d.clk.cycle with refreshed := ((d.pc x).refreshed + 1) % 65536 } := by
  obtain ⟨u, hu⟩ := Dev.useSlot_pc (d := d) (x := x) .refresh
  refine ⟨(d.useSlot x .refresh).fresh.1.toNat % 2, Nat.mod_lt _ (by decide), ?_⟩
  have hr : (d.pc x).refreshed = ((d.useSlot x .refresh).pc x).refreshed := (congrArg Pc.refreshed hu).symm
  unfold Dev.refreshSlot
  rw [if_neg (by rw [hm]; decide), hr]
  rfl

theorem Dev.refreshSlot_used (hm : d.maySlot x .refresh = false) : d.refreshSlot x = d := if_pos (by rw [hm]; rfl)

theorem Dev.neighbourSlot_refreshes {i : Nat} {rest : List Nat} (hm : d.maySlot x .neighbour = true) (hq : (d.pc x).nrq = i :: rest) :
    d.neighbourSlot x = ((d.useSlot x .neighbour).setPc x
      { ((d.useSlot x .neighbour).pc x).touch (rankOf i) d.clk.cycle with nrq := rest }).bump (pcReg x 0x18) := by
  obtain ⟨u, hu⟩ := Dev.useSlot_pc (d := d) (x := x) .neighbour
  unfold Dev.neighbourSlot
  rw [if_neg (by rw [hm]; decide)]
  dsimp only
  rw [show ((d.useSlot x .neighbour).pc x).nrq = i :: rest from (congrArg Pc.nrq hu).trans hq]
  rfl

theorem Dev.writeBack_next {b c : Nat} {more : List (Nat × Nat)} (hw : (d.pc x).wbq = (b, c) :: more) :
    d.writeBack x = (d.setPc x { d.pc x with wbq := more }).activate x (d.indexOfBlock b) := by
  unfold Dev.writeBack
  dsimp only
  rw [hw]

theorem Dev.writeBack_none (hw : (d.pc x).wbq = []) : d.writeBack x = d := by
  unfold Dev.writeBack
  dsimp only
  rw [hw]

/-- With no refresh queued, a neighbour slot serves the corrections. -/
theorem Dev.neighbourSlot_noRefresh (hm : d.maySlot x .neighbour = true) (hq : (d.pc x).nrq = []) :
    d.neighbourSlot x = (d.useSlot x .neighbour).writeBack x ∧ ((d.useSlot x .neighbour).pc x).wbq = (d.pc x).wbq := by
  obtain ⟨u, hu⟩ := Dev.useSlot_pc (d := d) (x := x) .neighbour
  refine ⟨?_, by rw [hu]⟩
  unfold Dev.neighbourSlot
  rw [if_neg (by rw [hm]; decide)]
  dsimp only
  rw [show ((d.useSlot x .neighbour).pc x).nrq = [] from (congrArg Pc.nrq hu).trans hq]

theorem Dev.neighbourSlot_writesBack {b c : Nat} {more : List (Nat × Nat)} (hm : d.maySlot x .neighbour = true) (hq : (d.pc x).nrq = [])
    (hw : (d.pc x).wbq = (b, c) :: more) :
    d.neighbourSlot x = ((d.useSlot x .neighbour).setPc x { (d.useSlot x .neighbour).pc x with wbq := more }).activate x (d.indexOfBlock b) :=
  (Dev.neighbourSlot_noRefresh hm hq).1.trans (Dev.writeBack_next ((Dev.neighbourSlot_noRefresh hm hq).2.trans hw))

theorem Dev.neighbourSlot_idle (hm : d.maySlot x .neighbour = true) (hq : (d.pc x).nrq = []) (hw : (d.pc x).wbq = []) :
    d.neighbourSlot x = d.useSlot x .neighbour :=
  (Dev.neighbourSlot_noRefresh hm hq).1.trans (Dev.writeBack_none ((Dev.neighbourSlot_noRefresh hm hq).2.trans hw))

theorem Dev.neighbourSlot_used (hm : d.maySlot x .neighbour = false) : d.neighbourSlot x = d := if_pos (by rw [hm]; rfl)

theorem leftoverSlot_refreshes {i : Nat} {rest : List Nat} {m : Mems} {errs : List Upset} (hf : (d.useSlot x .leftover).fetchOn x = none)
    (hq : (d.pc x).nrOver = i :: rest) :
    leftoverSlot x errs (d, m) = (((d.useSlot x .leftover).setPc x
      { ((d.useSlot x .leftover).pc x).touch (rankOf i) d.clk.cycle with nrOver := rest }).bump (pcReg x 0x18), m) := by
  obtain ⟨u, hu⟩ := Dev.useSlot_pc (d := d) (x := x) .leftover
  unfold leftoverSlot
  dsimp only
  rw [hf, show ((d.useSlot x .leftover).pc x).nrOver = i :: rest from (congrArg Pc.nrOver hu).trans hq]
  rfl

theorem Dev.powerDown_rank0 (hp : d.cmc.pdIdle ≠ 0) (ht : (d.pc x).used0 + d.cmc.pdIdle * slotTicks d.cmc.rate ≤ d.clk.cycle) :
    d.powerDown x 0 = d.setPc x { d.pc x with pd0 := true } :=
  (if_neg hp).trans ((if_pos rfl).trans (if_pos ht))

theorem Dev.powerDown_rank1 (hp : d.cmc.pdIdle ≠ 0) (ht : (d.pc x).used1 + d.cmc.pdIdle * slotTicks d.cmc.rate ≤ d.clk.cycle) :
    d.powerDown x 1 = d.setPc x { d.pc x with pd1 := true } :=
  (if_neg hp).trans ((if_neg (by decide)).trans ((if_pos rfl).trans (if_pos ht)))

theorem Dev.ceWriteback_writes {addr : Nat} (hx : d.physOf (d.pcOfBlock (addr / 512)) = some x)
    (hw : (d.pc x).wbq.any (fun (v : Nat × Nat) => decide (v.1 = addr / 512)) = true) :
    d.ceWriteback addr = (d.dropWriteBack (addr / 512)).activate x (d.indexOfBlock (addr / 512)) := by
  unfold Dev.ceWriteback
  dsimp only
  rw [hx]
  exact if_pos hw

end

/-- Settles O44: each slot by its own lemma above. -/
theorem controllerSlots : Obligations.ControllerSlots := by
  unfold Obligations.ControllerSlots
  intro dt x i l addr w rest s d p used q cyc
  have hnext {a b : Dev} (h : a = b) : Host.Outcome.next (s.onto a) = (Host.Outcome.next (s.onto b) : Host.Outcome State Fault Refusal) :=
    congrArg (fun y => Host.Outcome.next (s.onto y)) h
  refine ⟨fun hm hl hw => hnext (Dev.scheduledSlot_moves (d := d) hm hl hw), fun hm => hnext (Dev.scheduledSlot_used (d := d) hm), fun hm => ?_,
    fun hm => hnext (Dev.refreshSlot_used (d := d) hm), fun hm => ⟨fun hq => hnext (Dev.neighbourSlot_refreshes (d := d) hm hq), fun hq v hv => ?_⟩,
    fun hm => hnext (Dev.neighbourSlot_used (d := d) hm), fun hm hf hq => ?_, fun hm => ?_, fun hp ht => hnext (Dev.powerDown_rank0 (d := d) hp ht),
    fun hp ht => hnext (Dev.powerDown_rank1 (d := d) hp ht), fun hx hw => hnext (Dev.ceWriteback_writes (d := d) hx hw)⟩
  · obtain ⟨r, hr, h⟩ := Dev.refreshSlot_refreshes (d := d) hm
    exact ⟨r, hr, hnext h⟩
  · match v, hv with
    | (b, c) :: more, hv => exact hnext (Dev.neighbourSlot_writesBack (d := d) hm hq hv)
    | [], hv => exact hnext (Dev.neighbourSlot_idle (d := d) hm hq hv)
  · have hrow : exec (.leftoverSlot dt ⟨x, []⟩) s = .next (s.ontoAll (leftoverSlot x [] (d, s.mem))) :=
      congrArg (fun y => Host.Outcome.next (s.ontoAll y)) (if_pos hm)
    rw [hrow, leftoverSlot_refreshes (d := d) hf hq]
    rfl
  · exact congrArg (fun y => Host.Outcome.next (s.ontoAll y)) (if_neg (Bool.eq_false_iff.mp hm))

end Sys2Proof.Machine
end

section
/-!
PROOF. O45: the period boundary, the stacks' temperatures and training (R365, R370, R374–R380).
-/

namespace Sys2Proof.Machine

/-! ### Folds that set one pseudo-channel at a time -/

section
variable {c : Pc → Prop} [DecidablePred c] {f : Pc → Pc}

/-- Of a list of distinct pseudo-channels those of a kind have been set from what they were; the others are as they were. -/
theorem foldl_setPcIf_pc (xs : List Nat) (h : xs.Nodup) (d : Dev) (y : Nat) :
    (xs.foldl (fun d x => if c (d.pc x) then d.setPc x (f (d.pc x)) else d) d).pc y = if y ∈ xs ∧ c (d.pc y) then f (d.pc y) else d.pc y := by
  induction xs generalizing d with
  | nil => simp
  | cons x xs ih =>
    obtain ⟨hx, hn⟩ := List.nodup_cons.mp h
    have hone : (if c (d.pc x) then d.setPc x (f (d.pc x)) else d).pc y = if y = x ∧ c (d.pc y) then f (d.pc y) else d.pc y := by
      by_cases hc : c (d.pc x)
      · rw [if_pos hc, Dev.pc_setPc]
        by_cases hy : y = x
        · subst hy
          rw [if_pos rfl, if_pos ⟨rfl, hc⟩]
        · rw [if_neg hy, if_neg (fun e => hy e.1)]
      · rw [if_neg hc, if_neg]
        rintro ⟨rfl, hy⟩
        exact hc hy
    rw [List.foldl_cons, ih hn, hone]
    by_cases hy : y = x
    · subst hy
      simp [hx]
    · simp [hy]

theorem foldl_setPcIf_keeps (xs : List Nat) (d : Dev) :
    (xs.foldl (fun d x => if c (d.pc x) then d.setPc x (f (d.pc x)) else d) d).cmc.rate = d.cmc.rate ∧
      (xs.foldl (fun d x => if c (d.pc x) then d.setPc x (f (d.pc x)) else d) d).cmc.relock = d.cmc.relock ∧
      (xs.foldl (fun d x => if c (d.pc x) then d.setPc x (f (d.pc x)) else d) d).cmc.temps = d.cmc.temps := by
  refine foldl_keeps (fun y : Dev => y.cmc.rate = d.cmc.rate ∧ y.cmc.relock = d.cmc.relock ∧ y.cmc.temps = d.cmc.temps) _ _ d ⟨rfl, rfl, rfl⟩ fun y x hy => ?_
  split
  · exact hy
  · exact hy

end

/-! ### The period boundary -/

section
variable {d : Dev}

theorem Dev.redirect_keeps : d.redirect.cmc.pdIdle = d.cmc.pdIdle ∧ d.redirect.cmc.nrLog2 = d.cmc.nrLog2 ∧ d.redirect.cmc.pcs = d.cmc.pcs ∧
    d.redirect.regs = d.regs := by
  unfold Dev.redirect
  split
  · split
    · exact ⟨rfl, rfl, rfl, rfl⟩
    · exact ⟨rfl, rfl, rfl, rfl⟩
  · exact ⟨rfl, rfl, rfl, rfl⟩

theorem Dev.periodBoundary_other (h : d.clk.cycle % 9000 ≠ 0) : d.periodBoundary = d := if_pos h

/-- The settings of the controller are taken over at a boundary. -/
def Dev.settingsApplied (d : Dev) : Dev :=
  let nr := d.fld 0x4E2008 15 12
  let d := d.setFld 0x4E201C 13 0 (d.now % 9000)
  d.updCmc (fun c => { c with
    pdIdle := d.fld 0x4E2008 11 0
    nrLog2 := if nr < 6 then 6 else if 12 < nr then 12 else nr
    pcs := c.pcs.map (fun (p : Nat × Pc) => (p.1, { p.2 with setting := none })) })

/-- A compiled schedule whose tick has come is in force. -/
def Dev.scheduleApplied (d : Dev) : Dev :=
  match d.cmc.schedNext with
  | some (t, n) => if t ≤ d.now then (d.updCmc (fun c => { c with schedNext := none })).setFld 0x4E200C 7 0 n else d
  | none => d

theorem Dev.periodBoundary_eq (h : d.clk.cycle % 9000 = 0) : d.periodBoundary = d.settingsApplied.scheduleApplied.redirect := if_neg (not_not.mpr h)

theorem Dev.scheduleApplied_keeps : d.scheduleApplied.cmc.pdIdle = d.cmc.pdIdle ∧ d.scheduleApplied.cmc.nrLog2 = d.cmc.nrLog2 ∧
    d.scheduleApplied.cmc.pcs = d.cmc.pcs ∧ d.scheduleApplied.reg 0x4E201C = d.reg 0x4E201C := by
  unfold Dev.scheduleApplied
  split
  · split
    · exact ⟨rfl, rfl, rfl, Dev.reg_setReg_ne _ _ (by decide)⟩
    · exact ⟨rfl, rfl, rfl, rfl⟩
  · exact ⟨rfl, rfl, rfl, rfl⟩

theorem Pc.setting_of_cleared (t : Tbl Pc) (x : Nat) :
    (Tbl.look (Pc.initial x) (t.map (fun (p : Nat × Pc) => (p.1, { p.2 with setting := none }))) x).setting = none := by
  induction t with
  | nil =>
    unfold Pc.initial
    simp only [List.map_nil, Tbl.look]
    split <;> rfl
  | cons q t ih =>
    simp only [List.map_cons, Tbl.look]
    split
    · rfl
    · exact ih

theorem Dev.periodBoundary_applies (h : d.clk.cycle % 9000 = 0) :
    d.periodBoundary.cmc.pdIdle = d.fld 0x4E2008 11 0 ∧ d.periodBoundary.cmc.nrLog2 = max 6 (min 12 (d.fld 0x4E2008 15 12)) ∧
      (∀ x, (d.periodBoundary.pc x).setting = none) ∧ d.periodBoundary.fld 0x4E201C 13 0 = d.now % 9000 := by
  obtain ⟨hr1, hr2, hr3, hr4⟩ := Dev.redirect_keeps (d := d.settingsApplied.scheduleApplied)
  obtain ⟨hs1, hs2, hs3, hs4⟩ := Dev.scheduleApplied_keeps (d := d.settingsApplied)
  rw [Dev.periodBoundary_eq h]
  refine ⟨(hr1.trans hs1).trans (Dev.fld_setFld_ne _ _ _ _ _ _ _ _ (by decide)), (hr2.trans hs2).trans ?_, fun x => ?_, ?_⟩
  · show (if d.fld 0x4E2008 15 12 < 6 then 6 else if 12 < d.fld 0x4E2008 15 12 then 12 else d.fld 0x4E2008 15 12) = _
    generalize d.fld 0x4E2008 15 12 = n
    split
    · omega
    · split <;> omega
  · unfold Dev.pc
    rw [hr3.trans hs3]
    exact (Pc.setting_of_cleared _ _)
  · have hreg : d.settingsApplied.scheduleApplied.redirect.reg 0x4E201C = d.settingsApplied.reg 0x4E201C :=
      (congrArg (fun t => Tbl.look (0 : Word) t 0x4E201C) hr4).trans hs4
    unfold Dev.fld
    rw [hreg]
    refine (Dev.fld_setFld_same (d := d) 0x4E201C (hi := 13) (lo := 0) (d.now % 9000) (by decide) (by decide)).trans (Nat.mod_eq_of_lt ?_)
    exact Nat.lt_trans (Nat.mod_lt _ (by decide)) (by decide)

/-! ### Temperatures -/

theorem Dev.stackTemp_eq (stack : Nat) (t : Int) :
    d.stackTemp stack t = ((List.range 32).map (32 * stack + ·)).foldl
      (fun d x => if ¬ (83 < t ∧ t ≤ 85) then d.setPc x { d.pc x with hot := decide (85 < t) } else d)
      (d.updCmc (fun c => { c with temps := Tbl.put stack t c.temps })) := by
  unfold Dev.stackTemp
  refine congrArg (fun f => List.foldl f _ _) (funext fun y => funext fun x => ?_)
  dsimp only
  by_cases h : 85 < t
  · rw [if_pos h, if_pos (by omega), decide_eq_true h]
  · rw [if_neg h, decide_eq_false h]
    by_cases h' : t ≤ 83
    · rw [if_pos h', if_pos (by omega)]
    · rw [if_neg h', if_neg (by omega)]

theorem Dev.mem_stack (stack x : Nat) : x ∈ (List.range 32).map (32 * stack + ·) ↔ x / 32 = stack := by
  rw [List.mem_map]
  constructor
  · rintro ⟨k, hk, rfl⟩
    have := List.mem_range.mp hk
    omega
  · intro hx
    exact ⟨x % 32, List.mem_range.mpr (Nat.mod_lt _ (by decide)), by omega⟩

theorem Dev.stackTemp_hot (stack : Nat) (t : Int) :
    Tbl.look 0 (d.stackTemp stack t).cmc.temps stack = t ∧
      ∀ x, ((d.stackTemp stack t).pc x).hot = if x / 32 = stack then (if 85 < t then true else if t ≤ 83 then false else (d.pc x).hot) else (d.pc x).hot := by
  generalize hy : d.updCmc (fun c => { c with temps := Tbl.put stack t c.temps }) = y
  have hp (x : Nat) : y.pc x = d.pc x := by rw [← hy]; rfl
  have ht : Tbl.look 0 y.cmc.temps stack = t := by rw [← hy]; exact Tbl.look_put_same _ _ _ _
  have hn : ((List.range 32).map (32 * stack + ·)).Nodup := List.nodup_range.map (fun a b e => Nat.add_left_cancel e)
  obtain ⟨-, -, htemps⟩ := foldl_setPcIf_keeps (c := fun _ => ¬ (83 < t ∧ t ≤ 85)) (f := fun p => { p with hot := decide (85 < t) }) ((List.range 32).map (32 * stack + ·)) y
  rw [Dev.stackTemp_eq, hy]
  refine ⟨by rw [htemps]; exact ht, fun x => ?_⟩
  rw [foldl_setPcIf_pc (c := fun _ => ¬ (83 < t ∧ t ≤ 85)) (f := fun p => { p with hot := decide (85 < t) }) _ hn y x, hp]
  have hmem := Dev.mem_stack stack x
  by_cases hx : x / 32 = stack
  · rw [if_pos hx]
    by_cases h85 : 85 < t
    · rw [if_pos h85, if_pos ⟨hmem.mpr hx, by omega⟩]
      exact decide_eq_true h85
    · rw [if_neg h85]
      by_cases h83 : t ≤ 83
      · rw [if_pos h83, if_pos ⟨hmem.mpr hx, by omega⟩]
        exact decide_eq_false h85
      · rw [if_neg h83, if_neg (fun h => h.2 ⟨by omega, by omega⟩)]
  · rw [if_neg hx, if_neg (fun h => hx (hmem.mp h.1))]

/-! ### Training -/

theorem Dev.retrainStart_begins {x c s : Nat} {moved err : Bool} (hr : (d.pc x).role = 0 ∨ (d.pc x).role = 1) (ht : (d.pc x).train = none)
    (hl : d.cmc.relock = none) (hm : decide (10 ≤ (Tbl.look 0 d.cmc.temps (x / 32) - (d.pc x).trainTemp).natAbs) = moved)
    (he : d.mc.crossed.any (fun (c : Nat × Nat × Nat) => decide (c.1 = 7 ∧ c.2.1 = x ∧ c.2.2 = 0)) = err)
    (hdue : moved = true ∨ err = true ∨ (d.pc x).trainSec ≠ d.clk.cycle / 3000000000 + 1)
    (hc : (if moved then 2 else if err then 3 else 0) = c) (hs : (if moved || err then (d.pc x).trainSec else d.clk.cycle / 3000000000 + 1) = s) :
    d.retrainStart x = d.setPc x { d.pc x with train := some { cause := c }, trainSec := s } := by
  have hgo : ¬ (!moved && !err && decide ((d.pc x).trainSec = d.cyc / 3000000000 + 1)) = true := by
    rcases hdue with h | h | h
    · rw [h]; simp
    · rw [h]; simp
    · rw [show decide ((d.pc x).trainSec = d.cyc / 3000000000 + 1) = false from decide_eq_false h]; simp
  unfold Dev.retrainStart
  dsimp only
  rw [if_neg (by rw [ht, hl]; rcases hr with h | h <;> rw [h] <;> simp), he, show decide (10 ≤ (d.stackTempOf x - (d.pc x).trainTemp).natAbs) = moved from hm,
    if_neg hgo, hc, ← hs]
  rfl

theorem Dev.retrainStart_idle {x : Nat} (hm : decide (10 ≤ (Tbl.look 0 d.cmc.temps (x / 32) - (d.pc x).trainTemp).natAbs) = false)
    (he : d.mc.crossed.any (fun (c : Nat × Nat × Nat) => decide (c.1 = 7 ∧ c.2.1 = x ∧ c.2.2 = 0)) = false)
    (hs : (d.pc x).trainSec = d.clk.cycle / 3000000000 + 1) : d.retrainStart x = d := by
  unfold Dev.retrainStart
  dsimp only
  split
  · rfl
  · rw [he, show decide (10 ≤ (d.stackTempOf x - (d.pc x).trainTemp).natAbs) = false from hm,
      show decide ((d.pc x).trainSec = d.cyc / 3000000000 + 1) = true from decide_eq_true hs]
    rfl

/-- Without a change of rate that waits, the end of a step is that of its training alone. -/
theorem Dev.trainingStepEnd_eq {x w h : Nat} {ok : Bool} {t : Training} (ht : (d.pc x).train = some t) (hr : d.cmc.rateReq = none) :
    d.trainingStepEnd x w h ok =
      if !ok then
        if 3 ≤ t.tries then d.trainingFailed x
        else (d.setPc x { d.pc x with train := some { t with tries := t.tries + 1 } }).bump (pcReg x 0x0C)
      else if t.step + 1 < 4 then d.setPc x { d.pc x with train := some { t with step := t.step + 1, tries := 0, eyeW := min t.eyeW w, eyeH := min t.eyeH h } }
      else d.trainingDone x { t with step := t.step + 1, tries := 0, eyeW := min t.eyeW w, eyeH := min t.eyeH h } := by
  unfold Dev.trainingStepEnd
  rw [ht]
  dsimp only
  rw [hr]

theorem Dev.trainingDone_pc {x : Nat} {t : Training} (hm : hasMargin d.cmc.rate t.eyeW t.eyeH = true) :
    (d.trainingDone x t).pc x = { d.pc x with train := none, setting := some t, trainTemp := d.stackTempOf x } := by
  have hset (p : Pc) : (d.setPc x p).pc x = p := Dev.pc_setPc_same _ _
  have hraise (y : Dev) (c w h : Nat) : (y.retrainEvent x c w h).pc x = y.pc x := by
    unfold Dev.pc Dev.retrainEvent
    rw [(Dev.sameButReports_raise y _ _ _ _).cmc]
  unfold Dev.trainingDone
  rw [if_pos hm]
  dsimp only
  split
  · exact hset _
  · split
    · exact (hraise _ _ _ _).trans (hset _)
    · split
      · exact (hraise _ _ _ _).trans (hset _)
      · exact hset _

/-- The PHY has relocked at a rate, with none requested any more. -/
def Dev.relocked (d : Dev) (r : Nat) : Dev :=
  ({ d.updCmc (fun c => { c with rate := r, relock := none }) with pwr := { d.pwr with untrained := [] } } : Dev).updCmc (fun c => { c with rateReq := none })

theorem Dev.relockDone_eq {r : Nat} (hl : d.cmc.relock = some r) (hr : d.cmc.rateReq = none) :
    d.relockDone = (List.range 192).foldl
      (fun (d : Dev) x => if (d.pc x).role = 0 ∨ (d.pc x).role = 1 then d.setPc x { d.pc x with train := some { cause := 0 } } else d) (d.relocked r) := by
  unfold Dev.relockDone
  rw [hl]
  dsimp -zeta only
  extract_lets e newer
  have hn : newer = none := by
    show (match d.cmc.rateReq with | some r' => if r' = r then none else some r' | none => none) = none
    rw [hr]
  rw [hn]
  rfl

theorem Dev.relockDone_restarts {r : Nat} (hl : d.cmc.relock = some r) (hr : d.cmc.rateReq = none) :
    d.relockDone.cmc.rate = r ∧ d.relockDone.cmc.relock = none ∧
      ∀ y, y < 192 → ((d.pc y).role = 0 ∨ (d.pc y).role = 1) → (d.relockDone.pc y).train = some { cause := 0 } := by
  have hn : (List.range 192).Nodup := List.nodup_range
  have hmem (y : Nat) (hy : y < 192) : y ∈ List.range 192 := List.mem_range.mpr hy
  rw [Dev.relockDone_eq hl hr]
  generalize List.range 192 = xs at hn hmem ⊢
  obtain ⟨h1, h2, -⟩ := foldl_setPcIf_keeps (c := fun p => p.role = 0 ∨ p.role = 1) (f := fun p => { p with train := some { cause := 0 } }) xs (d.relocked r)
  refine ⟨h1, h2, fun y hy hrole => ?_⟩
  rw [foldl_setPcIf_pc (c := fun p => p.role = 0 ∨ p.role = 1) (f := fun p => { p with train := some { cause := 0 } }) _ hn (d.relocked r) y,
    if_pos ⟨hmem y hy, hrole⟩]

end

/-- Settles O45: each row by its own lemma above. -/
theorem settingsAndTraining : Obligations.SettingsAndTraining := by
  unfold Obligations.SettingsAndTraining
  refine ⟨fun dt stack temp s => ?_, fun dt x w h u s => ?_⟩
  · intro d
    refine ⟨fun hc => ?_, fun hc => ?_, fun hs => ?_⟩
    · refine ⟨s.onto d.periodBoundary, rfl, State.onto_mem _ _, ?_⟩
      rw [State.onto_dev]
      exact Dev.periodBoundary_applies (d := d) hc
    · exact congrArg (fun y => Host.Outcome.next (s.onto y)) (Dev.periodBoundary_other (d := d) hc)
    · have hrow : exec (.stackTemperatureSample dt stack temp) s = .next (s.onto (d.stackTemp stack temp)) :=
        congrArg (fun y => Host.Outcome.next (s.onto y)) (if_pos hs)
      refine ⟨s.onto (d.stackTemp stack temp), hrow, State.onto_mem _ _, ?_⟩
      rw [State.onto_dev]
      exact Dev.stackTemp_hot (d := d) stack temp
  · intro d p moved err sec
    have hnext {a b : Dev} (h : a = b) : Host.Outcome.next (s.onto a) = (Host.Outcome.next (s.onto b) : Host.Outcome State Fault Refusal) :=
      congrArg (fun y => Host.Outcome.next (s.onto y)) h
    refine ⟨fun hr ht hl => ⟨fun hm => ?_, fun hm he => ?_, fun hm he => ⟨fun hs => ?_, fun hs => ?_⟩⟩, fun ht hr => ⟨fun hs => ?_, fun hs => ?_, fun hs hm => ?_⟩, fun r hl hr => ?_⟩
    · exact hnext (Dev.retrainStart_begins (d := d) hr ht hl hm rfl (.inl rfl) rfl rfl)
    · exact hnext (Dev.retrainStart_begins (d := d) hr ht hl hm he (.inr (.inl rfl)) rfl rfl)
    · exact hnext (Dev.retrainStart_begins (d := d) hr ht hl hm he (.inr (.inr hs)) rfl rfl)
    · exact hnext (Dev.retrainStart_idle (d := d) hm he hs)
    · exact hnext ((Dev.trainingStepEnd_eq (d := d) (ok := true) ht hr).trans ((if_neg (by decide)).trans (if_pos (by omega))))
    · exact hnext ((Dev.trainingStepEnd_eq (d := d) (ok := false) ht hr).trans ((if_pos (by decide)).trans (if_neg (by omega))))
    · have hend : d.trainingStepEnd x w h true = d.trainingDone x { u with step := 4, tries := 0, eyeW := min u.eyeW w, eyeH := min u.eyeH h } := by
        refine (Dev.trainingStepEnd_eq (d := d) (ok := true) ht hr).trans ((if_neg (by decide)).trans ((if_neg (by omega)).trans ?_))
        rw [hs]
      have hrow : exec (.trainingStepEnd dt x w h true) s = .next (s.onto (d.trainingStepEnd x w h true)) := rfl
      refine ⟨s.onto (d.trainingStepEnd x w h true), hrow, State.onto_mem _ _, ?_⟩
      rw [State.onto_dev, hend, Dev.trainingDone_pc (d := d) hm]
      exact ⟨rfl, rfl, rfl⟩
    · refine ⟨s.onto d.relockDone, rfl, State.onto_mem _ _, ?_⟩
      rw [State.onto_dev]
      exact Dev.relockDone_restarts (d := d) hl hr

end Sys2Proof.Machine
end

section
/-!
PROOF. O48: marker inputs, their stamps, entries and intervals (R491–R505).
-/

namespace Sys2Proof.Machine

/-- `foldl_keeps` for steps that keep the property at the elements of the list. -/
theorem foldl_keeps_mem {α β : Type} (p : β → Prop) (f : β → α → β) (l : List α) (x : β) (h : p x) (k : ∀ y, ∀ a ∈ l, p y → p (f y a)) : p (l.foldl f x) := by
  induction l generalizing x with
  | nil => exact h
  | cons a t ih => exact ih (f x a) (k x a List.mem_cons_self h) fun y b hb => k y b (List.mem_cons_of_mem a hb)

/-! ### What leaves a marker and its count of edges alone -/

/-- The same marker `n`, with the same count of edges, and the clock. -/
def Dev.sameMarker (n : Nat) (a b : Dev) : Prop := b.marker n = a.marker n ∧ b.reg (mkReg n 0x04) = a.reg (mkReg n 0x04) ∧ b.clk = a.clk

namespace Dev.sameMarker

variable {n : Nat}

theorem refl (n : Nat) (d : Dev) : sameMarker n d d := ⟨rfl, rfl, rfl⟩

theorem trans {a b c : Dev} (h : sameMarker n a b) (g : sameMarker n b c) : sameMarker n a c := ⟨g.1.trans h.1, g.2.1.trans h.2.1, g.2.2.trans h.2.2⟩

theorem ite {p : Prop} [Decidable p] {a b c : Dev} (h : sameMarker n a b) (g : sameMarker n a c) : sameMarker n a (if p then b else c) := by
  split
  · exact h
  · exact g

theorem foldl {α : Type} {f : Dev → α → Dev} (l : List α) (h : ∀ d, ∀ x ∈ l, sameMarker n d (f d x)) (d : Dev) : sameMarker n d (l.foldl f d) :=
  foldl_keeps_mem (fun y => sameMarker n d y) _ _ _ (refl n d) fun y x hx hy => hy.trans (h y x hx)

theorem rcDo {a : Nat} (h : mkReg n 0x04 ≠ a) (d : Dev) (o : RcOp) : sameMarker n d (d.rcDo a o) := ⟨rfl, d.reg_rcDo_ne _ _ _ h, rfl⟩

theorem setMarker {m : Nat} (h : n ≠ m) (d : Dev) (x : Marker) : sameMarker n d (d.setMarker m x) := ⟨(Dev.marker_setMarker _ _ _ _).trans (if_neg h), rfl, rfl⟩

theorem raise (d : Dev) (id unit arg data : Nat) : sameMarker n d (d.raise id unit arg data) := by
  refine ⟨?_, Dev.raise_reg _ _ _ _ _ _, (d.sameButReports_raise id unit arg data).clk⟩
  have h := d.sameButReports_raise id unit arg data
  unfold Dev.sameButReports at h
  rw [h]
  rfl

theorem takeEdge {m : Nat} (h : n ≠ m) (e : MkEdge) (d : Dev) : sameMarker n d (d.takeEdge m e) := by
  have hclose (y : Dev) : sameMarker n y (y.closeTimeout m) := by
    unfold Dev.closeTimeout
    dsimp only
    split
    · exact setMarker h _ _
    · exact refl n y
  have hstop (y : Dev) : sameMarker n y (y.takeStop m e.st) := by
    unfold Dev.takeStop
    dsimp only
    split
    · exact ite (rcDo (by unfold mkReg; omega) _ _) (setMarker h _ _)
    · exact rcDo (by unfold mkReg; omega) _ _
  have hstart (y : Dev) : sameMarker n y (y.takeStart m e.st) := by
    unfold Dev.takeStart
    exact (ite (rcDo (by unfold mkReg; omega) _ _) (refl n y)).trans (setMarker h _ _)
  unfold Dev.takeEdge
  extract_lets e1 e2
  have h1 : sameMarker n d e1 := ite (hclose d) (refl n d)
  have h2 : sameMarker n e1 e2 := ite (hstop e1) (refl n e1)
  exact (h1.trans h2).trans (ite (hstart e2) (refl n e2))

theorem keepMarker {m : Nat} (h : n ≠ m) (e : MkEdge) (d : Dev) : sameMarker n d (d.keepMarker m e) := by
  have hsettle : sameMarker n d (d.settleMarker m) := by
    unfold Dev.settleMarker Dev.settleBy
    dsimp only
    exact ite (refl n d) ((setMarker h _ _).trans (foldl _ (fun y x _ => takeEdge h x y) _))
  unfold Dev.keepMarker
  exact hsettle.trans (setMarker h _ _)

theorem jesdCheckUp (l : Nat) (d : Dev) : sameMarker n d (d.jesdCheckUp l) := by
  obtain e | ⟨_, _, -, e⟩ := d.jesdCheckUp_cases l <;> rw [e]
  · exact refl n d
  · exact ⟨rfl, rfl, rfl⟩

theorem sysref (src : Nat) (d : Dev) : sameMarker n d (d.sysref src) := by
  rw [Dev.sysref_eq]
  refine foldl _ (fun y l _ => ?_) d
  unfold Dev.sysrefAt
  split
  · refine ite (refl n y) ?_
    split
    · exact trans (b := y.setJlink l { y.jlink l with lemc := some y.now, blocks := 0 }) ⟨rfl, rfl, rfl⟩ (jesdCheckUp l _)
    · exact ite (refl n y) (raise _ _ _ _ _)
  · exact refl n y

/-- The registers of the trace feeds lie in the upper half of their processor's 64 bytes. -/
theorem feedTrigger (src wait : Nat) (m : TrigMsg) (d : Dev) : (d.feedTrigger src wait m).reg (mkReg n 0x04) = d.reg (mkReg n 0x04) := by
  have hconf (y : Dev) (p f : Nat) (w : List Word) (c : Candidate) (hf : f < 8) : (y.feedConfirmed p f w wait c).reg (mkReg n 0x04) = y.reg (mkReg n 0x04) := by
    unfold Dev.feedConfirmed
    extract_lets t x near i
    clear_value near
    split
    · exact Dev.reg_rcDo_ne _ _ _ _ (by unfold mkReg tpReg; omega)
    · rfl
  unfold Dev.feedTrigger
  refine foldl_keeps (fun y : Dev => y.reg (mkReg n 0x04) = d.reg (mkReg n 0x04)) _ _ d rfl fun y p hy => ?_
  dsimp only
  split
  · split
    · exact hy
    · refine foldl_keeps_mem (fun z : Dev => z.reg (mkReg n 0x04) = d.reg (mkReg n 0x04)) _ _ y hy fun z f hf hz => ?_
      have h8 := List.mem_range.mp hf
      split
      · exact hz
      · split
        · split
          · exact hz
          · exact (hconf z _ _ _ _ h8).trans hz
        · split
          · split
            · exact (hconf _ _ _ _ _ h8).trans hz
            · exact hz
          · exact hz
  · exact hy

theorem leave (src wait : Nat) (m : TrigMsg) (d : Dev) : sameMarker n d (d.leave src wait m) := by
  refine ⟨?_, ?_, (d.sameButConsumers_leave src wait m).clk⟩
  · have h := d.sameButConsumers_leave src wait m
    unfold Dev.sameButConsumers at h
    rw [h]
    rfl
  · rw [Dev.leave_eq]
    exact (feedTrigger _ _ _ _).trans ((Dev.sameButOutputs_toOutputs _ _ _ _ _).2 _ (by unfold mkReg; omega))

end Dev.sameMarker

/-! ### Edges -/

section
variable {d : Dev} {n : Nat} {falling : Bool} {at_ : Int} {w : List Word}

theorem Marker.mem_wait (x : Marker) (e : MkEntry) : e ∈ (x.wait_ e).entries := by
  unfold Marker.wait_
  simp

/-- An edge taken in TIMESTAMP mode, with no edge taken before it. -/
theorem Dev.acceptedEdge_stamps (ht : (d.marker n).lastTaken = none) (hm : mbMode w = 1) (hs : slopeTakes (mbSlope w) falling = true) :
    ((d.acceptedEdge n w at_ falling).marker n).level = (d.marker n).level ∧ ((d.acceptedEdge n w at_ falling).marker n).lastTaken = some at_ ∧
      { due := d.clk.cycle + 40, words := mkWords (edgeStamp d w at_ falling) 0 false false 0, tick := (edgeStamp d w at_ falling).tick, ev := mbEv w } ∈
        ((d.acceptedEdge n w at_ falling).marker n).entries ∧
      (d.acceptedEdge n w at_ falling).reg (mkReg n 0x04) = d.reg (mkReg n 0x04) + 1 := by
  unfold Dev.acceptedEdge
  extract_lets x st taken off stops e1 own cut starts e2 e3 e4 y e6 e7 e8
  have htaken : taken = true := hs
  have hoff : off = false := by
    show (taken && match (d.marker n).lastTaken with | some l => decide (at_ < l + mbHoldoff w * 256) | none => false) = false
    rw [ht, Bool.and_false]
  have hown : own = false := by
    show (!off && decide (mbMode w = 2)) = false
    rw [hm]
    exact Bool.and_false _
  have h1 : sameMarker n d e1 := .foldl _ (fun z m hz => .keepMarker (Ne.symm (of_decide_eq_true (p := m ≠ n) (List.mem_filter.mp hz).2)) _ z) d
  have h2 : e2 = e1 := if_neg (by rw [hown]; exact Bool.false_ne_true)
  have h3 : e3 = e2 := if_neg (by rw [hown]; exact Bool.false_ne_true)
  have h13 : sameMarker n d e3 := by rw [h3, h2]; exact h1
  have h4 : e4.marker n = d.marker n ∧ e4.reg (mkReg n 0x04) = d.reg (mkReg n 0x04) + 1 ∧ e4.clk = d.clk :=
    ⟨h13.1, (e3.reg_bump_same _).trans (congrArg (· + 1) h13.2.1), h13.2.2⟩
  have h6 : e6.marker n = { d.marker n with lastTaken := some at_ } := (Dev.marker_setMarker_same _ _ _).trans (congrArg (fun z : Marker => { z with lastTaken := some at_ }) h4.1)
  have h7 : e7 = e6.setMarker n ((e6.marker n).wait_ { due := e6.cyc + 40, words := mkWords st 0 false false 0, tick := st.tick, ev := mbEv w }) := if_pos hm
  have hcyc : e6.cyc = d.clk.cycle := congrArg Clock.cycle h4.2.2
  have h8 : sameMarker n e7 e8 := .ite (.refl n e7) (.sysref _ e7)
  rw [if_neg (show ¬ off = true by rw [hoff]; exact Bool.false_ne_true), if_neg (show ¬ (!taken) = true by rw [htaken]; exact Bool.false_ne_true)]
  obtain ⟨hk, hr, -⟩ := h8.trans (.leave (selMarker n) 36 (.cand { src := selMarker n, fire := st.tick, tick := st.tick, prov := false }) e8)
  have hmk : e7.marker n = ({ d.marker n with lastTaken := some at_ } : Marker).wait_
      { due := d.clk.cycle + 40, words := mkWords st 0 false false 0, tick := st.tick, ev := mbEv w } := by
    rw [h7, Dev.marker_setMarker_same, h6, hcyc]
  have hreg : e7.reg (mkReg n 0x04) = d.reg (mkReg n 0x04) + 1 := by rw [h7]; exact h4.2.1
  rw [hk, hmk, hr, hreg]
  exact ⟨rfl, rfl, Marker.mem_wait _ _, rfl⟩

/-- The block of an edge does not depend on the levels and edges seen. -/
theorem Dev.markerEdge_taken {sub : Nat} (hat : at_ = (d.now * 256 + sub % 256 : Nat)) (hb : (d.marker n).blockAt at_ = some w)
    (hl : ∀ l, (if falling then (d.marker n).lastFall else (d.marker n).lastRise) = some l → l + 768 ≤ at_) :
    ∃ e : Dev, d.markerEdge n falling sub = e.acceptedEdge n w at_ falling ∧ (e.marker n).level = !falling ∧ (e.marker n).lastTaken = (d.marker n).lastTaken ∧
      e.clk = d.clk ∧ e.regs = d.regs := by
  subst hat
  unfold Dev.markerEdge
  extract_lets y0 e x t last
  have hx : x = { d.marker n with level := !falling } := Dev.marker_setMarker_same _ _ _
  rw [show x.blockAt t = some w by rw [hx]; exact hb]
  dsimp only
  have hlast : last = if falling then (d.marker n).lastFall else (d.marker n).lastRise := by
    show (if falling then x.lastFall else x.lastRise) = _
    rw [hx]
  rw [hlast]
  refine ⟨e.setMarker n (if falling then { x with lastFall := some t } else { x with lastRise := some t }), ?_, ?_, ?_, rfl, rfl⟩
  · split
    · next l h => exact if_neg (show ¬ t < l + 768 from Int.not_lt.mpr (hl l h))
    · rfl
  · rw [Dev.marker_setMarker_same, hx]
    cases falling <;> rfl
  · rw [Dev.marker_setMarker_same, hx]
    cases falling <;> rfl

theorem Dev.markerEdge_dead {sub : Nat} {l : Int} (hat : at_ = (d.now * 256 + sub % 256 : Nat)) (hb : (d.marker n).blockAt at_ = some w)
    (hl : (if falling then (d.marker n).lastFall else (d.marker n).lastRise) = some l) (ht : at_ < l + 768) :
    d.markerEdge n falling sub = (d.setMarker n { d.marker n with level := !falling }).bumpSat (mkReg n 0x08) 15 0 := by
  subst hat
  unfold Dev.markerEdge
  extract_lets y0 e x t last
  have hx : x = { d.marker n with level := !falling } := Dev.marker_setMarker_same _ _ _
  rw [show x.blockAt t = some w by rw [hx]; exact hb]
  dsimp only
  have hlast : last = some l := by
    show (if falling then x.lastFall else x.lastRise) = some l
    rw [hx]
    exact hl
  rw [hlast]
  exact if_pos ht

theorem Dev.markerEdge_noBlock {sub : Nat} (hat : at_ = (d.now * 256 + sub % 256 : Nat)) (hb : (d.marker n).blockAt at_ = none) :
    d.markerEdge n falling sub = d.setMarker n { d.marker n with level := !falling } := by
  subst hat
  unfold Dev.markerEdge
  extract_lets y0 e x t last
  have hx : x = { d.marker n with level := !falling } := Dev.marker_setMarker_same _ _ _
  rw [show x.blockAt t = none by rw [hx]; exact hb]

/-! ### Entries and intervals -/

theorem Dev.settleMarker_none (h : (d.marker n).edges = []) : d.settleMarker n = d := by
  unfold Dev.settleMarker Dev.settleBy
  dsimp only
  rw [h]
  rfl

/-- The words of an entry as they go into the queue. -/
def entryItems (x : Marker) (e : MkEntry) : List (Nat × Bool) :=
  [((e.words.getD 0 0 ||| Word.place 15 15 x.loss.toNat ||| Word.place 31 16 x.seq).toNat, false), ((e.words.getD 1 0).toNat, false),
   ((e.words.getD 2 0).toNat, false), ((e.words.getD 3 0).toNat, true)]

/-- Four words into a queue with room for them. -/
theorem Queue.push_four {q : Queue} {c : Nat} {a0 a1 a2 a3 : Word} (hd : q.dropping = false) (ht : q.tight = false) (hl : q.items.length + 4 ≤ 1024) :
    ∃ q' : Queue, (([a0, a1, a2, a3].zipIdx).foldl (fun (a : Queue × Bool) (p : Word × Nat) =>
        let b := a.1.push 1024 c p.1.toNat (decide (p.2 = 3))
        (b.1, a.2 || b.2)) (q, false)) = (q', false) ∧
      q'.items = q.items ++ [(a0.toNat, false), (a1.toNat, false), (a2.toNat, false), (a3.toNat, true)] := by
  have hstep (p : Queue) (v : Nat) (e : Bool) (hd : p.dropping = false) (ht : p.tight = false) (hl : p.items.length < 1024) :
      ∃ p' : Queue, p.push 1024 c v e = (p', false) ∧ p'.dropping = false ∧ p'.tight = false ∧ p'.items = p.items ++ [(v, e)] :=
    ⟨_, Queue.push_of_room p 1024 c v e hd ht hl, hd, rfl, rfl⟩
  obtain ⟨q1, h1, d1, t1, i1⟩ := hstep q a0.toNat false hd ht (by omega)
  obtain ⟨q2, h2, d2, t2, i2⟩ := hstep q1 a1.toNat false d1 t1 (by rw [i1, List.length_append]; simp; omega)
  obtain ⟨q3, h3, d3, t3, i3⟩ := hstep q2 a2.toNat false d2 t2 (by rw [i2, i1]; simp; omega)
  obtain ⟨q4, h4, -, -, i4⟩ := hstep q3 a3.toNat true d3 t3 (by rw [i3, i2, i1]; simp; omega)
  refine ⟨q4, ?_, by rw [i4, i3, i2, i1]; simp⟩
  simp [h1, h2, h3, h4]

/-- What the events of an entry leave of its marker. -/
def Marker.sameQueue (x y : Marker) : Prop := y.entries = x.entries ∧ y.seq = x.seq ∧ y.loss = x.loss ∧ y.q = x.q

theorem Marker.sameQueue.shows {x y : Marker} {es : List MkEntry} {s : Nat} {l : Bool} {is : List (Nat × Bool)} (h : x.sameQueue y)
    (hx : x.entries = es ∧ x.seq = s ∧ x.loss = l ∧ x.q.items = is) : y.entries = es ∧ y.seq = s ∧ y.loss = l ∧ y.q.items = is := by
  obtain ⟨h1, h2, h3, h4⟩ := h
  rw [h1, h2, h3, h4]
  exact hx

theorem Dev.pushEntry_items {e : MkEntry} (hd : (d.marker n).q.dropping = false) (ht : (d.marker n).q.tight = false) (hl : (d.marker n).q.items.length + 4 ≤ 1024) :
    ((d.pushEntry n e).marker n).entries = (d.marker n).entries ∧ ((d.pushEntry n e).marker n).seq = ((d.marker n).seq + 1) % 2 ^ 16 ∧
      ((d.pushEntry n e).marker n).loss = false ∧ ((d.pushEntry n e).marker n).q.items = (d.marker n).q.items ++ entryItems (d.marker n) e := by
  have hraise (y : Dev) (id sev unit arg : Nat) (data tb : QWord) : (y.raiseAt id sev unit arg data tb).marker n = y.marker n := by
    have h := y.sameButReports_raiseAt id sev unit arg data tb
    unfold Dev.sameButReports at h
    rw [h]
    rfl
  obtain ⟨q', hq, hi⟩ := Queue.push_four (q := (d.marker n).q) (c := d.cyc)
    (a0 := e.words.getD 0 0 ||| Word.place 15 15 (d.marker n).loss.toNat ||| Word.place 31 16 (d.marker n).seq) (a1 := e.words.getD 1 0)
    (a2 := e.words.getD 2 0) (a3 := e.words.getD 3 0) hd ht hl
  unfold Dev.pushEntry
  extract_lets x w0 ws r e1 e2 y quiet k e3 e4 z quiet' k'
  have hr : r = (q', false) := hq
  have h2 : e2 = e1 := if_neg (by rw [hr]; exact Bool.false_ne_true)
  have h1 : e1.marker n = { d.marker n with q := q', seq := ((d.marker n).seq + 1) % 2 ^ 16, loss := false } := by
    refine (Dev.marker_setMarker_same _ _ _).trans ?_
    rw [hr]
  have h13 : (e2.marker n).sameQueue (e3.marker n) := by
    show Marker.sameQueue _ (Dev.marker (if e.ev && quiet then _ else _) n)
    split
    · rw [hraise, Dev.marker_setMarker_same]
      exact ⟨rfl, rfl, rfl, rfl⟩
    · rw [Dev.marker_setMarker_same]
      exact ⟨rfl, rfl, rfl, rfl⟩
  rw [h2, h1] at h13
  refine Marker.sameQueue.shows (x := e3.marker n) ?_ (h13.shows ⟨rfl, rfl, rfl, hi⟩)
  split
  · exact ⟨rfl, rfl, rfl, rfl⟩
  · split
    · rw [hraise, Dev.marker_setMarker_same]
      exact ⟨rfl, rfl, rfl, rfl⟩
    · rw [Dev.marker_setMarker_same]
      exact ⟨rfl, rfl, rfl, rfl⟩

theorem Dev.markerPush_items {e : MkEntry} {rest : List MkEntry} (he : (d.marker n).edges = []) (hq : (d.marker n).entries = e :: rest) (ht : e.due ≤ d.clk.cycle)
    (hd : (d.marker n).q.dropping = false) (hti : (d.marker n).q.tight = false) (hl : (d.marker n).q.items.length + 4 ≤ 1024) :
    ((d.markerPush n).marker n).entries = rest ∧ ((d.markerPush n).marker n).seq = ((d.marker n).seq + 1) % 2 ^ 16 ∧ ((d.markerPush n).marker n).loss = false ∧
      ((d.markerPush n).marker n).q.items = (d.marker n).q.items ++ entryItems (d.marker n) e := by
  have hset : (d.setMarker n { d.marker n with entries := rest }).marker n = { d.marker n with entries := rest } := Dev.marker_setMarker_same _ _ _
  have hpush : d.markerPush n = (d.setMarker n { d.marker n with entries := rest }).pushEntry n e := by
    unfold Dev.markerPush
    rw [Dev.settleMarker_none he]
    dsimp only
    rw [hq]
    exact if_neg (Nat.not_lt.mpr ht)
  have h := Dev.pushEntry_items (d := d.setMarker n { d.marker n with entries := rest }) (n := n) (e := e)
  rw [hset] at h
  rw [hpush]
  exact h hd hti hl

theorem Dev.intervalTimeout_closes {a : Nat} {b : Block} {p : MkStamp} (he : (d.marker n).edges = []) (hb : (d.marker n).block = some (a, b))
    (hp : (d.marker n).pending = some p) (ht : p.tick + mbTimeout b.words + 36 ≤ d.now) :
    d.intervalTimeout n = d.setMarker n (({ d.marker n with pending := none } : Marker).wait_ (mkInterval b.words p
      (if ((d.clk.cycle : Int) + 4 + (p.tick + mbTimeout b.words + 36 : Nat) - d.now).toNat ≤ d.clk.cycle then d.clk.cycle + 4
        else ((d.clk.cycle : Int) + 4 + (p.tick + mbTimeout b.words + 36 : Nat) - d.now).toNat) false true 0)) := by
  generalize hy : Dev.setMarker d n (Marker.wait_ _ _) = y
  unfold Dev.intervalTimeout
  rw [Dev.settleMarker_none he]
  dsimp only
  rw [hp, hb]
  dsimp only
  rw [if_pos ht, ← hy]
  unfold Dev.closeTimeout
  dsimp only
  generalize d.marker n = x at hp hb
  obtain ⟨⟩ := x
  dsimp only at hp hb
  subst hp hb
  rfl

end

/-- Settles O48: each row by its own lemma above. -/
theorem markersStampTheirEdges : Obligations.MarkersStampTheirEdges := by
  unfold Obligations.MarkersStampTheirEdges
  intro dt n sub a falling b e rest p w s d x at_ last limit due _
  have hnext {a b : Dev} (h : a = b) : Host.Outcome.next (s.onto a) = (Host.Outcome.next (s.onto b) : Host.Outcome State Fault Refusal) :=
    congrArg (fun y => Host.Outcome.next (s.onto y)) h
  refine ⟨fun hb => ⟨fun hl ht hm hs => ?_, fun l hl ht => ?_⟩, fun hb => ?_, fun he => ⟨fun hq hdue hd hti hlen => ?_, fun hb hp ht => ?_⟩⟩
  · obtain ⟨y, hy, hlev, hlast, hclk, hregs⟩ := Dev.markerEdge_taken (d := d) (at_ := at_) rfl hb hl
    obtain ⟨h1, h2, h3, h4⟩ := Dev.acceptedEdge_stamps (d := y) (at_ := at_) (falling := falling) (hlast.trans ht) hm hs
    have hreg : y.reg (mkReg n 0x04) = d.reg (mkReg n 0x04) := by
      unfold Dev.reg
      rw [hregs]
    refine ⟨s.onto (d.markerEdge n falling sub), rfl, State.onto_mem _ _, ?_⟩
    rw [State.onto_dev, hy]
    refine ⟨h1.trans hlev, h2, ?_, h4.trans (congrArg (· + 1) hreg)⟩
    have hst : edgeStamp y w at_ falling = edgeStamp d w at_ falling := by
      unfold edgeStamp Dev.tqAt Dev.cyc
      rw [hclk]
    rw [hst, hclk] at h3
    exact h3
  · exact hnext (Dev.markerEdge_dead (d := d) (at_ := at_) rfl hb hl ht)
  · exact hnext (Dev.markerEdge_noBlock (d := d) (at_ := at_) rfl hb)
  · refine ⟨s.onto (d.markerPush n), rfl, State.onto_mem _ _, ?_⟩
    rw [State.onto_dev]
    exact Dev.markerPush_items (d := d) he hq hdue hd hti hlen
  · exact hnext (Dev.intervalTimeout_closes (d := d) he hb hp ht)

end Sys2Proof.Machine
end

section
/-!
PROOF. O50: Relay streams (R546–R549).
-/

namespace Sys2Proof.Machine

section
variable {d : Dev} {st slot : Nat} {b : Nat × Block} {c : NvmeCmd}

theorem Dev.relayEvent_keeps (cause st' slba status : Nat) :
    (d.relayEvent slot cause st' slba status).drives = d.drives ∧ (d.relayEvent slot cause st' slba status).relays = d.relays ∧
      (d.relayEvent slot cause st' slba status).dma = d.dma ∧ (d.relayEvent slot cause st' slba status).clk = d.clk ∧
      ∀ a, (d.relayEvent slot cause st' slba status).reg a = d.reg a := by
  have h := d.sameButReports_raise (evRelay + slot) slot (cause + 2 ^ 8 * st') (slba % 2 ^ 48 + 2 ^ 48 * status)
  refine ⟨?_, ?_, ?_, h.clk, fun a => Dev.raise_reg _ _ _ _ _ _⟩ <;> unfold Dev.relayEvent <;> unfold Dev.sameButReports at h <;> rw [h]

/-- What a command that is sent leaves of the device: its drive has one command more. -/
theorem Dev.sendNvme_shows (st' : Nat) (chunk : Option Nat) (slba addr len tries : Nat) (fua : Bool) :
    (d.sendNvme slot st' chunk slba addr len tries fua).drive slot = { d.drive slot with
        cmds := (d.drive slot).cmds ++
          [{ cid := (d.drive slot).sqTail, stream := st', chunk := chunk, slba := slba, addr := addr, len := len, tries := tries, cycle := d.clk.cycle }]
        sqTail := ((d.drive slot).sqTail + 1) % (dsSqM1 (d.drive slot).block + 1) } ∧
      (d.sendNvme slot st' chunk slba addr len tries fua).relays = d.relays ∧ (d.sendNvme slot st' chunk slba addr len tries fua).dma = d.dma ∧
      ∀ a, (d.sendNvme slot st' chunk slba addr len tries fua).reg a = d.reg a := by
  unfold Dev.sendNvme
  extract_lets x w cid at_ pages e1 e2 e3 tail e4 cmd
  have h1 : e1.clk = d.clk ∧ e1.relays = d.relays ∧ e1.dma = d.dma ∧ e1.regs = d.regs := by
    show Dev.clk (if _ then _ else _) = _ ∧ Dev.relays (if _ then _ else _) = _ ∧ Dev.dma (if _ then _ else _) = _ ∧ Dev.regs (if _ then _ else _) = _
    split <;> exact ⟨rfl, rfl, rfl, rfl⟩
  obtain ⟨hc, hr, hd, hg⟩ := h1
  clear_value e1
  have h4 : e4.cyc = d.clk.cycle ∧ e4.relays = d.relays ∧ e4.dma = d.dma ∧ ∀ a, e4.reg a = d.reg a :=
    ⟨congrArg Clock.cycle hc, hr, hd, fun a => by unfold Dev.reg; rw [show e4.regs = d.regs from hg]⟩
  have hcmd : cmd = { cid := (d.drive slot).sqTail, stream := st', chunk := chunk, slba := slba, addr := addr, len := len, tries := tries, cycle := e4.cyc } := rfl
  rw [h4.1] at hcmd
  clear_value cmd e4
  subst hcmd
  exact ⟨Dev.drive_setDrive_same _ _ _, h4.2.1, h4.2.2.1, h4.2.2.2⟩

theorem Dev.flushDrive_off (st' : Nat) : d.flushDrive slot st' 0 = d := by
  unfold Dev.flushDrive
  exact if_neg (fun h => h.1 rfl)

theorem Dev.chunkSubmit_submits {slba : Nat} (hb : (d.relay st).block = some b) (hr : (d.relay st).running = true)
    (ht : ((d.relay st).next + 1) * 2 ^ rlChunkLog b.2.words ≤ (d.dmaCh (rlChan b.2.words)).tail)
    (hp : chunkPlace b.2.words (d.streamLba b.2.words (d.relay st).next) (d.relay st).next = some (slot, slba)) (hf : rlFlushChunks b.2.words = 0)
    (hs : (d.drive slot).state = 2) (hroom : (d.drive slot).room = true) :
    (d.chunkSubmit st).relay st = { d.relay st with next := (d.relay st).next + 1 } ∧
      ((d.chunkSubmit st).drive slot).sqTail = ((d.drive slot).sqTail + 1) % (dsSqM1 (d.drive slot).block + 1) ∧
      ((d.chunkSubmit st).drive slot).cmds = (d.drive slot).cmds ++
        [{ cid := (d.drive slot).sqTail, stream := st, chunk := some (d.relay st).next, slba := slba,
           addr := (d.relay st).base + (d.relay st).next * 2 ^ rlChunkLog b.2.words % (d.relay st).size, len := 2 ^ rlChunkLog b.2.words, tries := 0,
           cycle := d.clk.cycle }] := by
  have hgo : ¬ ((!((d.relay st).running || ((d.relay st).stopping && (d.relay st).pad && !(d.relay st).padded))) = true ∨
      (d.dmaCh (rlChan b.2.words)).tail < ((d.relay st).next + 1) * 2 ^ rlChunkLog b.2.words) := by
    rw [hr]
    exact fun h => h.elim (fun h => by simp at h) (Nat.not_lt.mpr ht)
  obtain ⟨h1, -, -, -⟩ := Dev.sendNvme_shows (d := d) (slot := slot) st (some (d.relay st).next) slba
    ((d.relay st).base + (d.relay st).next * 2 ^ rlChunkLog b.2.words % (d.relay st).size) (2 ^ rlChunkLog b.2.words) 0 (rlFua b.2.words)
  have heq : d.chunkSubmit st =
      ((d.sendNvme slot st (some (d.relay st).next) slba ((d.relay st).base + (d.relay st).next * 2 ^ rlChunkLog b.2.words % (d.relay st).size)
          (2 ^ rlChunkLog b.2.words) 0 (rlFua b.2.words)).setDrive slot
        { (d.sendNvme slot st (some (d.relay st).next) slba ((d.relay st).base + (d.relay st).next * 2 ^ rlChunkLog b.2.words % (d.relay st).size)
            (2 ^ rlChunkLog b.2.words) 0 (rlFua b.2.words)).drive slot with sinceFlush := (d.drive slot).sinceFlush + 1 }).setRelay st
        { d.relay st with next := (d.relay st).next + 1 } := by
    generalize hy : Dev.setRelay _ st _ = y
    unfold Dev.chunkSubmit
    dsimp only
    rw [hb]
    dsimp only
    rw [if_neg hgo, hp]
    dsimp only
    rw [hf, Dev.flushDrive_off, if_neg (by rw [hs, hroom]; decide), Dev.flushDrive_off]
    rw [← hb]
    exact hy
  rw [heq]
  refine ⟨Dev.relay_setRelay_same _ _ _, ?_, ?_⟩
  · exact (congrArg DriveSlot.sqTail (Dev.drive_setDrive_same _ _ _)).trans (congrArg DriveSlot.sqTail h1)
  · exact (congrArg DriveSlot.cmds (Dev.drive_setDrive_same _ _ _)).trans (congrArg DriveSlot.cmds h1)

theorem Dev.relayAdvance_running (h : (d.relay st).stopping = false) : d.relayAdvance st = d := by
  unfold Dev.relayAdvance
  dsimp only
  split
  · rfl
  · rw [h]
    rfl

theorem RelayStream.advance_stopping (n : Nat) (x : RelayStream) : (x.advance n).stopping = x.stopping := by
  induction n generalizing x with
  | zero => rfl
  | succ n ih =>
    unfold RelayStream.advance
    split
    · exact ih _
    · rfl

theorem NvmeCmd.find_own (c : NvmeCmd) : [c].find? (fun (z : NvmeCmd) => decide (z.cid = c.cid)) = some c := List.find?_cons_of_pos (decide_eq_true rfl)

theorem NvmeCmd.filter_own (c : NvmeCmd) : [c].filter (fun (z : NvmeCmd) => decide (z.cid ≠ c.cid)) = [] := List.filter_cons_of_neg (by simp)

theorem Dev.chunkDone_shows {k : Nat} (hb : (d.relay c.stream).block = some b) (hk : c.chunk = some k) :
    (d.chunkDone c slot).drives = d.drives ∧ (d.chunkDone c slot).out = d.out ∧
      (d.chunkDone c slot).reg (relayReg slot 0x04) = d.reg (relayReg slot 0x04) + 1 ∧
      ((d.chunkDone c slot).relay c.stream).stopping = (d.relay c.stream).stopping := by
  unfold Dev.chunkDone
  dsimp only
  rw [hk, hb]
  dsimp only
  refine ⟨rfl, rfl, d.reg_bump_same _, ?_⟩
  refine (congrArg RelayStream.stopping (Dev.relay_setRelay_same _ _ _)).trans ((RelayStream.advance_stopping _ _).trans rfl)

theorem Dev.nvmeDone_completes {k : Nat} (hb : (d.relay st).block = some b) (hs : (d.relay st).stopping = false) (h0 : (d.drive slot).state ≠ 0)
    (hc : (d.drive slot).cmds = [c]) (hst : c.stream = st) (hk : c.chunk = some k) :
    ((d.nvmeDone slot c.cid 0).drive slot).cmds = [] ∧
      ((d.nvmeDone slot c.cid 0).drive slot).cqHead = (if (d.drive slot).cqHead = dsCqM1 (d.drive slot).block then 0 else (d.drive slot).cqHead + 1) ∧
      .write (dsCqDb (d.drive slot).block) [BitVec.ofNat 32 (if (d.drive slot).cqHead = dsCqM1 (d.drive slot).block then 0 else (d.drive slot).cqHead + 1)] {} ∈
        (d.nvmeDone slot c.cid 0).out ∧
      (d.nvmeDone slot c.cid 0).reg (relayReg slot 0x04) = d.reg (relayReg slot 0x04) + 1 := by
  subst hst
  unfold Dev.nvmeDone
  extract_lets x wraps head x' e1 e2
  have hhead : head = if (d.drive slot).cqHead = dsCqM1 (d.drive slot).block then 0 else (d.drive slot).cqHead + 1 := by
    show (if decide ((d.drive slot).cqHead = dsCqM1 (d.drive slot).block) = true then _ else _) = _
    by_cases h : (d.drive slot).cqHead = dsCqM1 (d.drive slot).block
    · rw [if_pos h, if_pos (decide_eq_true h)]
    · rw [if_neg h, if_neg (by simpa using h)]
  rw [← hhead]
  have hcmds : x'.cmds = [c] := hc
  have h2 : e2.drive slot = { x' with cmds := x'.cmds.filter (fun (y : NvmeCmd) => decide (y.cid ≠ c.cid)) } := Dev.drive_setDrive_same _ _ _
  have hcq : x'.cqHead = head := rfl
  have hout : .write (dsCqDb (d.drive slot).block) [BitVec.ofNat 32 head] {} ∈ e2.out := List.mem_append_right _ List.mem_cons_self
  have hreg : e2.reg (relayReg slot 0x04) = d.reg (relayReg slot 0x04) := rfl
  have hrelay : e2.relay c.stream = d.relay c.stream := rfl
  rw [if_neg (show ¬ x.state = 0 from h0), hcmds, c.find_own]
  dsimp only
  rw [if_pos rfl]
  clear_value e2 head x' x
  obtain ⟨g1, g2, g3, g4⟩ := Dev.chunkDone_shows (d := e2) (slot := slot) (c := c) (b := b) (by rw [hrelay]; exact hb) hk
  have gd : (e2.chunkDone c slot).drive slot = e2.drive slot := by unfold Dev.drive; rw [g1]
  rw [Dev.relayAdvance_running (g4.trans (by rw [hrelay]; exact hs)), gd, g2, h2]
  refine ⟨?_, hcq, hout, g3.trans (congrArg (· + 1) hreg)⟩
  rw [hcmds]
  exact c.filter_own

theorem Dev.commandFailed_repeats {e : List Word} (hb : (d.relay c.stream).block = some b) (h3 : (d.drive slot).state ≠ 3)
    (he : (d.dmaCh (rlChan b.2.words)).words = some e) (hr : c.tries < exRetry e) :
    d.commandFailed slot c 0 true =
      ((d.bump (relayReg slot 0x08)).relayEvent slot 4 c.stream c.slba 0).sendNvme slot c.stream c.chunk c.slba c.addr c.len (c.tries + 1) (rlFua b.2.words) := by
  have hdrive : (((d.bump (relayReg slot 0x08)).relayEvent slot 4 c.stream c.slba 0).drive slot).state = (d.drive slot).state := by
    unfold Dev.drive
    rw [(Dev.relayEvent_keeps _ _ _ _).1]
    rfl
  unfold Dev.commandFailed
  extract_lets y
  rw [show (y.relay c.stream).block = some b from hb]
  dsimp only
  rw [show (y.dmaCh (rlChan b.2.words)).words = some e from he, if_neg (show ¬ ((if true = true then y.relayEvent slot 4 c.stream c.slba 0 else y).drive slot).state = 3 by
    rw [if_pos rfl]
    exact fun h => h3 (hdrive.symm.trans h)), if_pos hr]
  rfl

theorem Dev.nvmeTimeout_repeats {e : List Word} (hb : (d.relay st).block = some b) (hs : (d.relay st).stopping = false) (h3 : (d.drive slot).state ≠ 3)
    (hc : (d.drive slot).cmds = [c]) (hst : c.stream = st) (ht : c.cycle + 6000000000 < d.clk.cycle) (he : (d.dmaCh (rlChan b.2.words)).words = some e)
    (hr : c.tries < exRetry e) :
    ((d.nvmeTimeout slot c.cid).drive slot).late = c.cid :: (d.drive slot).late ∧
      ((d.nvmeTimeout slot c.cid).drive slot).cmds =
        [{ c with cid := (d.drive slot).sqTail, stream := st, tries := c.tries + 1, cycle := d.clk.cycle }] ∧
      (d.nvmeTimeout slot c.cid).reg (relayReg slot 0x08) = d.reg (relayReg slot 0x08) + 1 := by
  subst hst
  unfold Dev.nvmeTimeout
  extract_lets x e1
  have h1 : e1.drive slot = { d.drive slot with cmds := [], late := c.cid :: (d.drive slot).late } := by
    refine (Dev.drive_setDrive_same _ _ _).trans ?_
    rw [show x.cmds = [c] from hc, c.filter_own]
  have hrelay : e1.relay c.stream = d.relay c.stream := rfl
  have hdma : e1.dmaCh (rlChan b.2.words) = d.dmaCh (rlChan b.2.words) := rfl
  have hreg : e1.reg (relayReg slot 0x08) = d.reg (relayReg slot 0x08) := rfl
  have hclk : e1.clk = d.clk := rfl
  rw [show x.cmds = [c] from hc, c.find_own]
  dsimp only
  rw [if_neg (show ¬ d.cyc ≤ c.cycle + 6000000000 from Nat.not_le.mpr ht)]
  clear_value e1
  rw [Dev.commandFailed_repeats (d := e1) (b := b) (by rw [hrelay]; exact hb) (by rw [h1]; exact h3) (by rw [hdma]; exact he) hr]
  obtain ⟨k1, k2, -, k4, k5⟩ := Dev.relayEvent_keeps (d := e1.bump (relayReg slot 0x08)) (slot := slot) 4 c.stream c.slba 0
  generalize (e1.bump (relayReg slot 0x08)).relayEvent slot 4 c.stream c.slba 0 = y at k1 k2 k4 k5 ⊢
  obtain ⟨s1, s2, -, s4⟩ := Dev.sendNvme_shows (d := y) (slot := slot) c.stream c.chunk c.slba c.addr c.len (c.tries + 1) (rlFua b.2.words)
  have hy : y.drive slot = { d.drive slot with cmds := [], late := c.cid :: (d.drive slot).late } := by
    rw [← h1]
    unfold Dev.drive
    rw [k1]
    rfl
  have hrun : ((y.sendNvme slot c.stream c.chunk c.slba c.addr c.len (c.tries + 1) (rlFua b.2.words)).relay c.stream).stopping = false := by
    have hsame : (y.sendNvme slot c.stream c.chunk c.slba c.addr c.len (c.tries + 1) (rlFua b.2.words)).relay c.stream = e1.relay c.stream := by
      unfold Dev.relay
      rw [s2, k2]
      rfl
    rw [hsame, hrelay]
    exact hs
  have hcyc : y.clk = d.clk := k4.trans hclk
  rw [Dev.relayAdvance_running hrun, s1, hy, hcyc, s4, k5]
  exact ⟨rfl, rfl, (e1.reg_bump_same _).trans (congrArg (· + 1) hreg)⟩

theorem Dev.relayDrain_ends (hb : (d.relay st).block = some b) (hs : (d.relay st).stopping = true) (hf : (d.relay st).flushed = true) (hbusy : d.relayBusy st = false) :
    (d.relayDrain st).relays = Tbl.drop st d.relays ∧ ∀ n ∈ rlDrives b.2.words, (d.drive n).state = 2 → ((d.relayDrain st).drive n).state = 1 := by
  have hadv : d.relayAdvance st = d := by
    unfold Dev.relayAdvance
    dsimp only
    split
    · rfl
    · exact if_pos (by rw [hf]; simp)
  have hrelays (y : Dev) (s : Nat) : ((y.setDrive s { y.drive s with state := 1 }).relayEvent s 5 st 0 0).relays = y.relays :=
    (Dev.relayEvent_keeps _ _ _ _).2.1
  have hdrive (y : Dev) (s k : Nat) : (((y.setDrive s { y.drive s with state := 1 }).relayEvent s 5 st 0 0).drive k).state = if k = s then 1 else (y.drive k).state := by
    refine (congrArg (fun t => (Tbl.look ({} : DriveSlot) t k).state) (Dev.relayEvent_keeps _ _ _ _).1).trans ?_
    refine (congrArg DriveSlot.state (Dev.drive_setDrive y s k _)).trans ?_
    split <;> rfl
  unfold Dev.relayDrain
  rw [hadv]
  dsimp only
  rw [hb]
  dsimp only
  rw [hs, hf, hbusy, if_neg (by decide)]
  refine ⟨congrArg (Tbl.drop st) (foldl_keeps (fun y : Dev => y.relays = d.relays) _ _ d rfl fun y s hy => (hrelays y s).trans hy), fun n hn h2 => ?_⟩
  refine foldl_brings (P := fun n (y : Dev) => (y.drive n).state = 1) (fun y l k hk => ?_) (fun y l => ?_) _ d (List.mem_filter.mpr ⟨hn, decide_eq_true h2⟩)
  · refine (hdrive y l k).trans ?_
    split
    · rfl
    · exact hk
  · exact (hdrive y l l).trans (if_pos rfl)

end

/-- Settles O50: each row by its own lemma above. -/
theorem relayStreamsChunks : Obligations.RelayStreamsChunks := by
  unfold Obligations.RelayStreamsChunks
  intro dt st slot k b c s d x w y hb
  refine ⟨fun slba hr ht hp hf hs hroom => ?_, fun _ hs h0 hc hst hk => ?_, fun e _ hs hc hst h3 ht he hr => ?_, fun hs hf hbusy => ?_⟩
  · refine ⟨s.onto (d.chunkSubmit st), rfl, State.onto_mem _ _, ?_⟩
    rw [State.onto_dev]
    exact Dev.chunkSubmit_submits (d := d) hb hr ht hp hf hs hroom
  · refine ⟨s.onto (d.nvmeDone slot c.cid 0), rfl, State.onto_mem _ _, ?_⟩
    rw [State.onto_dev]
    exact Dev.nvmeDone_completes (d := d) hb hs h0 hc hst hk
  · refine ⟨s.onto (d.nvmeTimeout slot c.cid), rfl, State.onto_mem _ _, ?_⟩
    rw [State.onto_dev]
    exact Dev.nvmeTimeout_repeats (d := d) hb hs h3 hc hst ht he hr
  · refine ⟨s.onto (d.relayDrain st), rfl, State.onto_mem _ _, ?_⟩
    rw [State.onto_dev]
    exact Dev.relayDrain_ends (d := d) hb hs hf hbusy

end Sys2Proof.Machine
end

section
/-!
PROOF. The density engine: sweeps and renders of a feed (R428, R432–R434).
-/

namespace Sys2Proof.Machine

section
variable (d : Dev)

/-! ### A plane without marks -/

theorem Dev.markedCells_clean {d : Dev} (h : d.cmc.facet = []) (p : Nat) : d.markedCells p = [] := by
  unfold Dev.markedCells
  rw [h]
  rfl

theorem Dev.facetHeal_clean {d : Dev} (h : d.cmc.facet = []) (g a n : Nat) : d.facetHeal g a n = d := by
  have hc : ({ d.cmc with facet := d.cmc.facet.filter (fun (p : Nat × Nat) => !(decide (p.1 = g ∧ a ≤ p.2 ∧ p.2 < a + n))) } : Cmc) = d.cmc := by
    rw [h, List.filter_nil, ← h]
  exact congrArg (fun c => ({ d with cmc := c } : Dev)) hc

/-! ### Sweeps -/

/-- The feed after its next sweep under the block's words `w`: every cell decays, and those at 0 are gone. -/
def Feed.swept (x : Feed) (w : List Word) : Feed :=
  { x with
    cells := if dfDecay w = 2 then [] else (x.cells.map (fun (c : Nat × Nat) => (c.1, c.2 - ceilDiv c.2 (2 ^ dfShift w)))).filter (fun c => decide (c.2 ≠ 0))
    nextSweep := x.nextSweep + 1 }

theorem Dev.decaySweep_clean {d : Dev} {p a : Nat} {b : Block} (hb : (d.feed p).block = some (a, b)) (hr : (d.feed p).running = true)
    (hh : dfHost b.words = false) (hd : dfDecay b.words ≠ 0) (ht : (d.feed p).start + (d.feed p).nextSweep * dfDecayTicks b.words ≤ d.now)
    (hf : d.cmc.facet = []) : d.decaySweep p = d.setFeed p ((d.feed p).swept b.words) := by
  have hlook : (if dfDecay b.words = 2 then d.facetHeal 1 (p * 2 ^ 22) (4 * dfWidth b.words * dfHeight b.words)
      else (d.markedCells p).foldl (fun d k => d.cellRead p k) d) = d := by
    rw [Dev.facetHeal_clean hf, Dev.markedCells_clean hf, List.foldl_nil, ite_self]
  unfold Dev.decaySweep
  dsimp only
  rw [hb]
  dsimp only
  rw [hr, hh, decide_eq_true hd, decide_eq_true ht, hlook]
  rfl

/-! ### Renders -/

theorem Dev.renderComplete_due {d : Dev} {p a k : Nat} {b : Block} (hb : (d.feed p).block = some (a, b)) (hr : (d.feed p).running = true)
    (hk : (d.feed p).rendering = some k) (ht : (d.feed p).start + (k + 1) * dfRenderTicks b.words ≤ d.now) (hf : dfAutoFlip b.words = false) :
    d.renderComplete p = (d.setFeed p { d.feed p with rendering := none }).bump (feedReg p 0x00) := by
  unfold Dev.renderComplete
  dsimp only
  rw [hb, hk]
  dsimp only
  rw [hr, decide_eq_true ht, hf]
  rfl

/-- The check of a render's target counts and reports; it changes nothing else. -/
theorem Dev.sameButReports_checkTarget (p k nbuf : Nat) : d.sameButReports (d.checkTarget p k nbuf) := by
  unfold Dev.checkTarget
  dsimp only
  split
  · exact .refl d
  · split
    · exact (d.sameButReports_rcDo _ _).trans (Dev.sameButReports_raise _ _ _ _ _)
    · exact .refl d

/-- Writes of capture memory one after another, while no block is lost: each puts its bytes in memory. -/
theorem capWrites_written (at_ : Nat → Nat) (bytes : Nat → List Byte) (l : List Nat) (x : Dev × Mems) (h : x.1.noBlockLost) :
    let y := l.foldl (fun y r => capWrite (at_ r) (bytes r) y) x
    x.1.sameButCmc y.1 ∧ y.2.tp = x.2.tp ∧ y.2.cap = l.foldl (fun (m : Memory) r => m.writeBytes (at_ r) (bytes r)) x.2.cap := by
  induction l generalizing x with
  | nil => exact ⟨rfl, rfl, rfl⟩
  | cons r t ih =>
    obtain ⟨hdev, htp, hcap⟩ := ih (capWrite (at_ r) (bytes r) x) (capWrite_noBlockLost _ _ _ h)
    rw [capWrite_cap h] at hcap
    exact ⟨(capWrite_sameButCmc _ _ _).trans hdev, htp.trans (capWrite_tp _ _ _), hcap⟩

theorem Dev.sameButReports.feed {a b : Dev} (h : a.sameButReports b) (p : Nat) : b.feed p = a.feed p := by
  unfold Dev.sameButReports at h
  rw [h]
  rfl

/-- A render that is due and whose plane holds no mark: its target is checked, its feed marked, and the buffer of its turn written line by line. -/
theorem renderStart_due {x : Dev × Mems} {v : Dev} {p a : Nat} {b : Block} (hv : (x.1.renderComplete p).decaySweep p = v)
    (hb : (v.feed p).block = some (a, b)) (hr : (v.feed p).running = true) (hf : v.cmc.facet = []) (hh : dfHost b.words = false)
    (hd : dfRenderTicks b.words ≠ 0) (hn : (v.feed p).rendering = none) (ht : (v.feed p).start + (v.feed p).nextRender * dfRenderTicks b.words ≤ v.now) :
    renderStart p x = (List.range (dfHeight b.words)).foldl (fun z r => capWrite ((v.feed p).bufs.getD ((v.feed p).nextRender % dfNbuf b.words) 0 + r * dfPitch b.words)
        ((v.feed p).lineBytes b.words r) z)
      ((v.checkTarget p (v.feed p).nextRender (dfNbuf b.words)).setFeed p
        { v.feed p with rendering := some (v.feed p).nextRender, nextRender := (v.feed p).nextRender + 1 }, x.2) := by
  have hrep := v.sameButReports_checkTarget p (v.feed p).nextRender (dfNbuf b.words)
  have hmark := Dev.markedCells_clean (hrep.cmc.symm ▸ hf) p
  have hcond : ((v.feed p).running && !dfHost b.words && decide (dfRenderTicks b.words ≠ 0) && (v.feed p).rendering.isNone &&
      decide ((v.feed p).start + (v.feed p).nextRender * dfRenderTicks b.words ≤ v.now)) = true := by
    rw [hr, hh, hn, decide_eq_true hd, decide_eq_true ht]
    rfl
  unfold renderStart
  rw [hv]
  dsimp only
  rw [hb]
  dsimp only
  rw [if_pos hcond, hmark, List.foldl_nil, hrep.feed, ← hb]

/-- Such a render marks its feed and writes its bytes. -/
theorem renderStart_writes {x : Dev × Mems} {v : Dev} {p a : Nat} {b : Block} (hv : (x.1.renderComplete p).decaySweep p = v)
    (hb : (v.feed p).block = some (a, b)) (hr : (v.feed p).running = true) (hf : v.cmc.facet = []) (hh : dfHost b.words = false)
    (hd : dfRenderTicks b.words ≠ 0) (hn : (v.feed p).rendering = none) (ht : (v.feed p).start + (v.feed p).nextRender * dfRenderTicks b.words ≤ v.now)
    (hl : v.noBlockLost) :
    (renderStart p x).1.feed p = { v.feed p with rendering := some (v.feed p).nextRender, nextRender := (v.feed p).nextRender + 1 } ∧
      (renderStart p x).2.tp = x.2.tp ∧
      (renderStart p x).2.cap = (List.range (dfHeight b.words)).foldl (fun (m : Memory) r =>
        m.writeBytes ((v.feed p).bufs.getD ((v.feed p).nextRender % dfNbuf b.words) 0 + r * dfPitch b.words) ((v.feed p).lineBytes b.words r)) x.2.cap := by
  rw [renderStart_due hv hb hr hf hh hd hn ht]
  have hrep := v.sameButReports_checkTarget p (v.feed p).nextRender (dfNbuf b.words)
  generalize v.checkTarget p (v.feed p).nextRender (dfNbuf b.words) = c at hrep ⊢
  have hlost : c.noBlockLost := by
    unfold Dev.sameButReports at hrep
    rw [hrep]
    exact hl
  obtain ⟨hdev, htp, hcap⟩ := capWrites_written (fun r => (v.feed p).bufs.getD ((v.feed p).nextRender % dfNbuf b.words) 0 + r * dfPitch b.words)
    (fun r => (v.feed p).lineBytes b.words r) (List.range (dfHeight b.words))
    (c.setFeed p { v.feed p with rendering := some (v.feed p).nextRender, nextRender := (v.feed p).nextRender + 1 }, x.2) hlost
  refine ⟨?_, htp, hcap⟩
  unfold Dev.sameButCmc at hdev
  rw [hdev]
  exact Dev.feed_setFeed_same _ _ _

end

end Sys2Proof.Machine
end

section
/-!
PROOF. The raster and DisplayPort: vertical blanking, active lines and the sink (R439, R441, R446, R448, R451).
-/

namespace Sys2Proof.Machine

section
variable (d : Dev)

/-! ### What leaves the raster alone -/

theorem Dev.sameButReports.raster {a b : Dev} (h : a.sameButReports b) : b.raster = a.raster := by
  unfold Dev.sameButReports at h
  rw [h]

theorem foldl_raster {α : Type} {f : Dev → α → Dev} (h : ∀ d a, (f d a).raster = d.raster) (l : List α) (d : Dev) : (l.foldl f d).raster = d.raster :=
  foldl_keeps (fun y : Dev => y.raster = d.raster) f l d rfl fun y a hy => (h y a).trans hy

@[simp] theorem Dev.raise_raster (id unit arg data : Nat) : (d.raise id unit arg data).raster = d.raster :=
  (d.sameButReports_raise _ _ _ _).raster

@[simp] theorem Dev.finish_raster (w : Wait) (a : Answer) : (d.finish w a).raster = d.raster := (d.sameButReports_finish _ _).raster

theorem Dev.requestFlip_raster (n b : Nat) : (d.requestFlip n b).raster = d.raster := by
  unfold Dev.requestFlip
  dsimp only
  split <;> rfl

theorem Dev.renderComplete_raster (p : Nat) : (d.renderComplete p).raster = d.raster := by
  unfold Dev.renderComplete
  dsimp only
  split
  · split
    · split
      · refine (foldl_raster (fun e n => ?_) _ _).trans rfl
        split
        · exact e.requestFlip_raster _ _
        · rfl
      · rfl
    · rfl
  · rfl

theorem Dev.frameDone_raster : d.frameDone.raster = d.raster := by
  refine foldl_raster (fun e n => ?_) _ _
  dsimp only
  split
  · split
    · exact e.raise_raster _ _ _ _
    · rfl
  · rfl

theorem Dev.latchLayers_raster : d.latchLayers.raster = d.raster := by
  refine foldl_raster (fun e n => ?_) _ _
  dsimp only
  rw [Dev.finish_raster, Dev.finish_raster]
  split <;> rfl

/-- The fill registers and the panic follow the fill; raster and output stay. -/
theorem Dev.fillChanged_shows : d.fillChanged.raster = d.raster ∧ d.fillChanged.out = d.out := by
  unfold Dev.fillChanged
  refine foldl_keeps (fun y : Dev => y.raster = d.raster ∧ y.out = d.out) _ _ d ⟨rfl, rfl⟩ fun y n hy => ?_
  dsimp only
  split
  · exact hy
  · exact hy

theorem Dev.consume_shows (y : Nat) : (d.consume y).raster = d.raster ∧ (d.consume y).out = d.out := by
  unfold Dev.consume
  refine foldl_keeps (fun y : Dev => y.raster = d.raster ∧ y.out = d.out) _ _ d ⟨rfl, rfl⟩ fun y n hy => ?_
  split
  · extract_lets x sent upto
    split
    · exact hy
    · exact hy
  · exact hy

/-! ### The link -/

theorem Dev.dpEvent_raster (c : Nat) : (d.dpEvent c).raster = d.raster := d.raise_raster _ _ _ _

theorem Dev.trainLink_allowed {d : Dev} (h : sinkAllows (bytesOfWords [d.reg 0x521200]) d.raster.mode = true) :
    d.trainLink = d.updRaster (fun r => { r with linkUp := false, training := true }) := if_pos h

/-- Training changes nothing of the raster but the state of the link. -/
theorem Dev.trainLink_raster : ∃ t, d.trainLink.raster = { d.raster with linkUp := false, training := t } := by
  unfold Dev.trainLink
  split
  · exact ⟨true, rfl⟩
  · exact ⟨false, Dev.dpEvent_raster _ _⟩

theorem Dev.modeLink_raster (old new : List Word) : ∃ u t, (d.modeLink old new).raster = { d.raster with linkUp := u, training := t } := by
  unfold Dev.modeLink
  split
  · obtain ⟨t, ht⟩ := d.trainLink_raster
    exact ⟨false, t, ht⟩
  · exact ⟨d.raster.linkUp, d.raster.training, rfl⟩

/-! ### The start of a frame -/

/-- The raster at the start of frame `number` at instant `t`. -/
def Raster.begin_ (r : Raster) (t : Frac) (number : Nat) (black : Bool) : Raster :=
  { r with frame := number % 2 ^ 32, frameAt := t, black := black, nextLine := 0, aborted := false, sending := none, underruns := 0 }

theorem Dev.beginFrame_raster (t : Frac) (number : Nat) (black : Bool) : (d.beginFrame t number black).raster = d.raster.begin_ t number black := by
  unfold Dev.beginFrame
  rw [(Dev.fillChanged_shows _).1, Dev.latchLayers_raster]
  rfl

/-- The instant at which the next vertical blanking of a raster begins. -/
def Raster.blankAt (r : Raster) : Frac := Frac.add r.frameAt (dmLines r.mode (dmVBlank r.mode + dmVActive r.mode))

/-- What the raster becomes at a start of vertical blanking, up to the state of the link. -/
theorem Dev.vblank_due {x d : Dev} (hx : x.scan.lineHeld = d) (hr : d.raster.running = true) (ht : Frac.le d.raster.blankAt (Frac.ofInt d.clk.cycle) = true) :
    (d.raster.waiting = none → x.vblank.raster = d.raster.begin_ d.raster.blankAt (d.raster.frame + 1) false) ∧
    (∀ m, d.raster.waiting = some m → dmEnable m = true →
      ∃ u t, x.vblank.raster = ({ d.raster with mode := m, waiting := none, linkUp := u, training := t } : Raster).begin_ d.raster.blankAt (d.raster.frame + 1) true) ∧
    (∀ m, d.raster.waiting = some m → dmEnable m = false → x.vblank.raster = { d.raster with waiting := none, running := false, black := false }) := by
  have hgo : (!d.raster.running || !Frac.le d.raster.blankAt (Frac.ofInt d.cyc)) = false := by
    rw [hr, show Frac.le d.raster.blankAt (Frac.ofInt d.cyc) = true from ht]
    rfl
  have hbefore : (((List.range 8).foldl (fun d p => d.renderComplete p) d).frameDone.raise evBlank 0 d.raster.underruns (d.raster.frame + 1)).raster = d.raster := by
    rw [Dev.raise_raster, Dev.frameDone_raster]
    exact foldl_raster (fun e p => e.renderComplete_raster p) _ _
  generalize hb : ((List.range 8).foldl (fun d p => d.renderComplete p) d).frameDone.raise evBlank 0 d.raster.underruns (d.raster.frame + 1) = b at hbefore
  have hv : x.vblank = (match d.raster.waiting with
      | some m =>
        if dmEnable m then
          ((((b.updRaster (fun r => { r with mode := m, waiting := none })).modeLink d.raster.mode m).beginFrame d.raster.blankAt (d.raster.frame + 1) true).raise
            evModeChanged 0 1 (dmPclk m)).finish .displayMode {}
        else ((b.updRaster (fun r => { r with waiting := none, running := false, black := false })).latchLayers.fillChanged.raise
            evModeChanged 0 3 (dmPclk m)).finish .displayMode {}
      | none => b.beginFrame d.raster.blankAt (d.raster.frame + 1) false) := by
    unfold Dev.vblank
    rw [hx, ← hb]
    exact if_neg (fun h => Bool.false_ne_true (hgo.symm.trans h))
  rw [hv]
  refine ⟨fun hw => ?_, fun m hw he => ?_, fun m hw he => ?_⟩
  · rw [hw]
    exact (b.beginFrame_raster _ _ _).trans (by rw [hbefore])
  · rw [hw]
    dsimp only
    obtain ⟨u, t, hlink⟩ := (b.updRaster (fun r => { r with mode := m, waiting := none })).modeLink_raster d.raster.mode m
    refine ⟨u, t, ?_⟩
    rw [if_pos he, Dev.finish_raster, Dev.raise_raster, Dev.beginFrame_raster, hlink]
    unfold Dev.updRaster
    rw [hbefore]
  · rw [hw]
    dsimp only
    rw [if_neg (by simp [he]), Dev.finish_raster, Dev.raise_raster, (Dev.fillChanged_shows _).1, Dev.latchLayers_raster]
    unfold Dev.updRaster
    rw [hbefore]

/-- The lock of the pixel clock starts the raster with a black frame 0 under the mode that waits. -/
theorem Dev.pixelLock_raster {d : Dev} {m : List Word} (hl : d.raster.locking = true) (hw : d.raster.waiting = some m) : ∃ u t i,
    d.pixelLock.raster = ({ d.raster with running := true, locking := false, mode := m, waiting := none, linkUp := u, training := t } : Raster).begin_ i 0 true := by
  obtain ⟨u, t, hlink⟩ := (d.updRaster (fun r => { r with running := true, locking := false, mode := m, waiting := none })).modeLink_raster [] m
  unfold Dev.pixelLock
  rw [hl, hw]
  dsimp only
  rw [Dev.finish_raster, Dev.raise_raster, Dev.beginFrame_raster, Dev.raise_raster, hlink]
  exact ⟨u, t, _, rfl⟩

/-! ### Active lines -/

/-- The instant at which the next active line of a raster begins. -/
def Raster.lineAt (r : Raster) : Frac := Frac.add r.frameAt (dmLines r.mode (dmVBlank r.mode + r.nextLine))

/-- The next active line, due and without an event of its own. -/
theorem Dev.activeLine_due {x d : Dev} (hx : x.scan.lineHeld = d) (hr : d.raster.running = true) (hy : d.raster.nextLine < dmVActive d.raster.mode)
    (ht : Frac.le d.raster.lineAt (Frac.ofInt d.clk.cycle) = true) (hl : dmLmEn d.raster.mode = false) :
    x.activeLine = if d.raster.black || d.raster.aborted then
        (d.updRaster (fun r => { r with nextLine := d.raster.nextLine + 1 })).emit (.line d.raster.nextLine (List.replicate (dmHActive d.raster.mode) 0))
      else ((d.updRaster (fun r => { r with nextLine := d.raster.nextLine + 1 })).updRaster
        (fun r => { r with sending := some (d.raster.nextLine, d.raster.lineAt) })).lineHeld.scan := by
  have hgo : (!d.raster.running || decide (dmVActive d.raster.mode ≤ d.raster.nextLine) || !Frac.le d.raster.lineAt (Frac.ofInt d.cyc)) = false := by
    rw [hr, show Frac.le d.raster.lineAt (Frac.ofInt d.cyc) = true from ht, decide_eq_false (by omega)]
    rfl
  unfold Dev.activeLine
  rw [hx]
  refine (if_neg (fun h => Bool.false_ne_true (hgo.symm.trans h))).trans ?_
  rw [hl]
  rfl

/-- A line whose pixels are all held goes out whole. -/
theorem Dev.lineHeld_sends {d : Dev} {y : Nat} {t : Frac} (hs : d.raster.sending = some (y, t)) (hm : d.firstMissing y (dmHActive d.raster.mode) = none) :
    d.lineHeld.scan.raster = { d.raster with sending := none } ∧ d.lineHeld.scan.out = d.out ++ [.line y (d.linePixels y (dmHActive d.raster.mode))] := by
  have hsent : d.lineHeld = d.sendLine y := by
    unfold Dev.lineHeld
    rw [hs]
    exact if_pos (by rw [hm]; rfl)
  obtain ⟨hfr, hfo⟩ := Dev.fillChanged_shows (((d.updRaster (fun r => { r with sending := none })).emit (.line y (d.linePixels y (dmHActive d.raster.mode)))).consume y)
  obtain ⟨hcr, hco⟩ := Dev.consume_shows ((d.updRaster (fun r => { r with sending := none })).emit (.line y (d.linePixels y (dmHActive d.raster.mode)))) y
  have hraster : (d.sendLine y).raster = { d.raster with sending := none } := hfr.trans hcr
  have hscan : (d.sendLine y).scan = d.sendLine y := by
    unfold Dev.scan
    rw [hraster]
  rw [hsent, hscan]
  exact ⟨hraster, hfo.trans hco⟩

/-- A line of which a pixel is not held, none of them due yet, waits. -/
theorem Dev.lineHeld_waits {d : Dev} {y : Nat} {t : Frac} (hs : d.raster.sending = some (y, t)) (hm : d.firstMissing y (dmHActive d.raster.mode) ≠ none)
    (hc : d.firstMissing y (d.columnsDue t) = none) : d.lineHeld.scan = d := by
  have hheld : d.lineHeld = d := by
    unfold Dev.lineHeld
    rw [hs]
    exact if_neg (by rw [Option.isNone_iff_eq_none]; exact hm)
  rw [hheld]
  unfold Dev.scan
  rw [hs]
  dsimp only
  rw [hc]

/-! ### The sink -/

theorem Dev.setWindow_concat (base : Nat) (ws : List Word) (w : Word) :
    d.setWindow base (ws ++ [w]) = (d.setWindow base ws).setReg (base + 4 * ws.length) w := by
  unfold Dev.setWindow
  rw [List.zipIdx_append, List.foldl_append, Nat.zero_add]
  rfl

/-- The words of a window stand at its registers. -/
theorem Dev.setWindow_reg (base : Nat) (ws : List Word) {i : Nat} (h : i < ws.length) : (d.setWindow base ws).reg (base + 4 * i) = ws.getD i 0 := by
  induction ws using List.reverseRecOn with
  | nil => exact absurd h (Nat.not_lt_zero i)
  | append_singleton ws w ih =>
    rw [Dev.setWindow_concat, Dev.reg_setReg]
    rw [List.length_append, List.length_singleton] at h
    by_cases hi : i = ws.length
    · subst hi
      rw [if_pos rfl, List.getD_append_right _ _ _ _ (Nat.le_refl _), Nat.sub_self]
      rfl
    · rw [if_neg (by omega), ih (by omega), List.getD_append _ _ _ _ (by omega)]

/-- A window changes no register below it. -/
theorem Dev.setWindow_reg_below {base x : Nat} (h : x < base) (ws : List Word) : (d.setWindow base ws).reg x = d.reg x :=
  foldl_keeps (fun y : Dev => y.reg x = d.reg x) _ _ _ rfl fun y p hy => (y.reg_setReg_ne _ (by omega)).trans hy

theorem Dev.setWindow_raster (base : Nat) (ws : List Word) : (d.setWindow base ws).raster = d.raster :=
  foldl_raster (f := fun (d : Dev) (p : Word × Nat) => d.setReg (base + 4 * p.2) p.1) (fun _ _ => rfl) _ _

end

/-! ### Bytes of a window -/

theorem takePad_length {α : Type} (z : α) (n : Nat) (l : List α) : (takePad z n l).length = n := by
  induction n generalizing l with
  | zero => rfl
  | succ n ih => cases l <;> exact congrArg (· + 1) (ih _)

theorem takePad_succ {α : Type} (z : α) (n : Nat) (l : List α) : takePad z (n + 1) l = l.getD 0 z :: takePad z n l.tail := by
  cases l <;> rfl

theorem wordsOfBytes_length (bs : List Byte) : (wordsOfBytes bs).length = (bs.length + 3) / 4 := by
  fun_induction wordsOfBytes bs with
  | case1 => rfl
  | case2 => simp
  | case3 => simp
  | case4 => simp
  | case5 a b c e t ih =>
    rw [List.length_cons, ih]
    simp only [List.length_cons]
    omega

theorem bytesOfWord_append (a b c e : Byte) : bytesOfWord (e ++ c ++ b ++ a) = [a, b, c, e] := by
  have hbyte (k : Nat) (x : Byte) (h : ∀ i, i < 8 → (e ++ c ++ b ++ a).getLsbD (k + i) = x.getLsbD i) : ((e ++ c ++ b ++ a) >>> k).setWidth 8 = x :=
    BitVec.eq_of_getLsbD_eq fun i hi => by rw [BitVec.getLsbD_setWidth, BitVec.getLsbD_ushiftRight, h i hi, decide_eq_true hi, Bool.true_and]
  have h0 : (e ++ c ++ b ++ a).setWidth 8 = a := BitVec.eq_of_getLsbD_eq fun i hi => by
    rw [BitVec.getLsbD_setWidth, BitVec.getLsbD_append, if_pos hi, decide_eq_true hi, Bool.true_and]
  have h1 := hbyte 8 b fun i hi => by
    rw [BitVec.getLsbD_append, if_neg (by omega), BitVec.getLsbD_append, if_pos (by omega), Nat.add_sub_cancel_left]
  have h2 := hbyte 16 c fun i hi => by
    rw [BitVec.getLsbD_append, if_neg (by omega), BitVec.getLsbD_append, if_neg (by omega), BitVec.getLsbD_append, if_pos (by omega)]
    exact congrArg _ (by omega)
  have h3 := hbyte 24 e fun i hi => by
    rw [BitVec.getLsbD_append, if_neg (by omega), BitVec.getLsbD_append, if_neg (by omega), BitVec.getLsbD_append, if_neg (by omega)]
    exact congrArg _ (by omega)
  unfold bytesOfWord
  rw [h0, h1, h2, h3]

/-- What a sink allows depends on the two bytes of its capabilities alone, which are in the first word of its window. -/
theorem sinkAllows_window (dpcd : List Byte) (w : List Word) :
    sinkAllows (bytesOfWords [(wordsOfBytes (padBytes 16 dpcd)).getD 0 0]) w = sinkAllows dpcd w := by
  have htail (l : List Byte) (i : Nat) : l.tail.getD i 0 = l.getD (i + 1) 0 := by cases l <;> rfl
  have hfirst : bytesOfWords [(wordsOfBytes (padBytes 16 dpcd)).getD 0 0] = [dpcd.getD 0 0, dpcd.getD 1 0, dpcd.getD 2 0, dpcd.getD 3 0] := by
    unfold padBytes
    rw [takePad_succ, takePad_succ, takePad_succ, takePad_succ]
    unfold wordsOfBytes
    rw [List.getD_cons_zero, htail, htail, htail, htail, htail, htail]
    exact (List.append_nil _).trans (bytesOfWord_append _ _ _ _)
  rw [hfirst]
  rfl

/-- What firmware reads from the sink stands in its windows. -/
def Dev.sinkRead (d : Dev) (edid dpcd : List Byte) : Dev :=
  (d.setWindow 0x521000 (wordsOfBytes (padBytes 512 edid))).setWindow 0x521200 (wordsOfBytes (padBytes 16 dpcd))

theorem Dev.sinkRead_raster (d : Dev) (edid dpcd : List Byte) : (d.sinkRead edid dpcd).raster = d.raster :=
  (Dev.setWindow_raster _ _ _).trans (Dev.setWindow_raster _ _ _)

theorem Dev.sinkRead_edid (d : Dev) (edid dpcd : List Byte) {i : Nat} (h : i < 128) :
    (d.sinkRead edid dpcd).reg (0x521000 + 4 * i) = (wordsOfBytes (padBytes 512 edid)).getD i 0 :=
  (Dev.setWindow_reg_below _ (by omega) _).trans (Dev.setWindow_reg _ _ _ (by rw [wordsOfBytes_length, padBytes, takePad_length]; exact h))

theorem Dev.sinkRead_allows (d : Dev) (edid dpcd : List Byte) (w : List Word) :
    sinkAllows (bytesOfWords [(d.sinkRead edid dpcd).reg 0x521200]) w = sinkAllows dpcd w := by
  have hreg : (d.sinkRead edid dpcd).reg 0x521200 = (wordsOfBytes (padBytes 16 dpcd)).getD 0 0 :=
    Dev.setWindow_reg _ 0x521200 _ (i := 0) (by rw [wordsOfBytes_length, padBytes, takePad_length]; decide)
  rw [hreg, sinkAllows_window]

/-- A sink that comes up and allows the mode is trained. -/
theorem Dev.hpdRise_trains {d : Dev} {edid dpcd : List Byte} (h : sinkAllows dpcd d.raster.mode = true) :
    ((d.sinkRead edid dpcd).updRaster (fun r => { r with hpd := true })).trainLink =
      (d.sinkRead edid dpcd).updRaster (fun r => { r with hpd := true, linkUp := false, training := true }) :=
  Dev.trainLink_allowed ((d.sinkRead_allows edid dpcd _).trans (by rw [← h, ← d.sinkRead_raster edid dpcd]; rfl))

/-- An interrupt of the sink finds the link up, or retrains one that is without lock. -/
def Dev.irqHpd (d : Dev) (locked : Bool) : Dev :=
  if (locked && (d.dpEvent 3).raster.linkUp) || (d.dpEvent 3).raster.training then d.dpEvent 3 else (d.dpEvent 3).trainLink

theorem exec_irqHpd {s : State} {dt : Nat} (locked : Bool) (h : (s.after dt).raster.hpd = true) :
    exec (.irqHpd dt locked) s = .next (s.onto ((s.after dt).irqHpd locked)) := by
  have hrow : exec (.irqHpd dt locked) s = .next (s.onto (if !(s.after dt).raster.hpd then s.after dt else (s.after dt).irqHpd locked)) := rfl
  rw [hrow, h]
  rfl

theorem Dev.irqHpd_up {d : Dev} (h : d.raster.linkUp = true) : (d.irqHpd true).raster = d.raster := by
  unfold Dev.irqHpd
  rw [if_pos (by rw [Dev.dpEvent_raster, h]; rfl), Dev.dpEvent_raster]

theorem Dev.irqHpd_retrains {d : Dev} (ht : d.raster.training = false) (ha : sinkAllows (bytesOfWords [d.reg 0x521200]) d.raster.mode = true) :
    (d.irqHpd false).raster = { d.raster with linkUp := false, training := true } := by
  unfold Dev.irqHpd
  rw [if_neg (by rw [Dev.dpEvent_raster, ht]; exact Bool.false_ne_true), Dev.trainLink_allowed (by rw [Dev.dpEvent_raster, show (d.dpEvent 3).reg 0x521200 = _ from d.raise_reg _ _ _ _ _]; exact ha)]
  exact congrArg (fun r : Raster => { r with linkUp := false, training := true }) (d.dpEvent_raster 3)

/-- Settles O47: a feed's sweep and render with no mark in its plane, the raster's three kinds of line, and the sink's events, each as its definition's branch says. -/
theorem densityAndDisplay : Obligations.DensityAndDisplay := by
  unfold Obligations.DensityAndDisplay
  have hnext {s : State} {a b : Dev} (h : a = b) : Host.Outcome.next (s.onto a) = (Host.Outcome.next (s.onto b) : Host.Outcome State Fault Refusal) :=
    congrArg (fun z => Host.Outcome.next (s.onto z)) h
  refine ⟨fun dt p a b s => ?_, fun dt m s => ?_, fun dt edid dpcd ok s => ?_⟩
  · intro d x w v y
    refine ⟨fun hb hr => ⟨fun hh hd ht hf => ?_, fun k hk ht hf => ?_⟩, fun hb hr hf hh hd hn ht hl => ?_⟩
    · exact hnext (Dev.decaySweep_clean hb hr hh hd ht hf)
    · exact hnext (Dev.renderComplete_due hb hr hk ht hf)
    · obtain ⟨hfeed, htp, hcap⟩ := renderStart_writes (x := (d.vblank, s.mem)) rfl hb hr hf hh hd hn ht hl
      refine ⟨s.ontoAll (renderStart p (d.vblank, s.mem)), rfl, ?_, ?_, htp, hcap.trans ?_⟩
      · exact congrArg Feed.rendering hfeed
      · exact congrArg Feed.nextRender hfeed
      · change _ = (List.range (dfHeight w)).foldl (fun (m : Memory) r => m.writeBytes _ (Feed.lineBytes ((renderStart p (d.vblank, s.mem)).1.feed p) w r)) s.mem.cap
        rw [hfeed]
        rfl
  · intro d r w vb y at_
    refine ⟨fun hr ht => ?_, fun hl hw => ?_, fun hr hy ht hl => ⟨fun hb => ?_, fun hb ha => ⟨fun hm => ?_, fun hm hc => ?_⟩⟩⟩
    · obtain ⟨hnone, hon, hoff⟩ := Dev.vblank_due (x := s.after dt) rfl hr ht
      refine ⟨fun hw => ⟨s.onto (s.after dt).vblank, rfl, State.onto_mem _ _, ?_⟩, fun hw he => ⟨s.onto (s.after dt).vblank, rfl, State.onto_mem _ _, ?_⟩,
        fun hw he => ⟨s.onto (s.after dt).vblank, rfl, State.onto_mem _ _, ?_⟩⟩
      · rw [State.onto_dev]
        exact hnone hw
      · rw [State.onto_dev]
        obtain ⟨u, t, hraster⟩ := hon m hw he
        rw [hraster]
        exact ⟨rfl, rfl, rfl, rfl, rfl⟩
      · rw [State.onto_dev]
        exact hoff m hw he
    · obtain ⟨u, t, i, hraster⟩ := Dev.pixelLock_raster hl hw
      refine ⟨s.onto (s.after dt).pixelLock, rfl, State.onto_mem _ _, ?_⟩
      rw [State.onto_dev, hraster]
      exact ⟨rfl, rfl, rfl, rfl, rfl, rfl⟩
    · refine hnext ((Dev.activeLine_due (x := s.after dt) rfl hr hy ht hl).trans (if_pos ?_))
      rw [Bool.or_eq_true]
      exact hb
    · have hline := (Dev.activeLine_due (x := s.after dt) rfl hr hy ht hl).trans (if_neg (by simp [d, r, hb, ha]))
      obtain ⟨hraster, hout⟩ := Dev.lineHeld_sends (d := { d with raster := { r with nextLine := y + 1, sending := some (y, at_) } }) rfl hm
      refine ⟨s.onto (s.after dt).activeLine, rfl, State.onto_mem _ _, ?_⟩
      rw [State.onto_dev, hline]
      exact ⟨hraster, hout⟩
    · have hline := (Dev.activeLine_due (x := s.after dt) rfl hr hy ht hl).trans (if_neg (by simp [d, r, hb, ha]))
      exact hnext (hline.trans (Dev.lineHeld_waits (d := { d with raster := { r with nextLine := y + 1, sending := some (y, at_) } }) rfl hm hc))
  · intro d r
    refine ⟨fun ha => ?_, fun hh => ⟨fun hu => ?_, fun ht ha => ?_, ?_⟩, fun ht => ?_⟩
    · refine ⟨s.onto ((d.sinkRead edid dpcd).updRaster (fun r => { r with hpd := true })).trainLink, rfl, State.onto_mem _ _, ?_⟩
      rw [State.onto_dev, Dev.hpdRise_trains ha]
      exact ⟨congrArg (fun r : Raster => { r with hpd := true, linkUp := false, training := true }) (d.sinkRead_raster edid dpcd),
        fun i hi => d.sinkRead_edid edid dpcd hi⟩
    · refine ⟨s.onto (d.irqHpd true), exec_irqHpd true hh, State.onto_mem _ _, ?_⟩
      rw [State.onto_dev]
      exact Dev.irqHpd_up hu
    · refine ⟨s.onto (d.irqHpd false), exec_irqHpd false hh, State.onto_mem _ _, ?_⟩
      rw [State.onto_dev]
      exact Dev.irqHpd_retrains ht ha
    · refine ⟨s.onto ((d.updRaster (fun r => { r with hpd := false, linkUp := false, training := false })).dpEvent 2), hnext (if_pos hh), State.onto_mem _ _, ?_⟩
      rw [State.onto_dev]
      exact Dev.dpEvent_raster _ _
    · refine ⟨s.onto ((d.updRaster (fun r => { r with training := false, linkUp := ok })).dpEvent (if ok then 1 else 4)), hnext (if_pos ht), State.onto_mem _ _, ?_⟩
      rw [State.onto_dev]
      exact Dev.dpEvent_raster _ _

end Sys2Proof.Machine
end

section
/-!
PROOF. R569, R570: a restart of the MC finds the log's write buffer one record short of full, with records dropped. The record that counts those dropped takes
the last place, so that record 0x100B of the restart is dropped itself.
-/

namespace Sys2Proof.Machine

/-- The last place of the write buffer goes to record 0x1006, once records have been dropped: of the record itself nothing is written. -/
theorem Dev.logRecord_lastPlace {d : Dev} (hl : d.mc.buf.length = 511) (hd : d.mc.dropped ≠ 0) (r x : LogRec) (h : x ∈ (d.logRecord r).mc.buf) :
    x ∈ d.mc.buf ∨ x.code = 0x1006 := by
  unfold Dev.logRecord at h
  dsimp only at h
  rw [if_neg (by omega), if_neg hd, List.length_singleton, hl, decide_eq_true (Nat.le_refl 512)] at h
  simp only [if_true, List.append_nil, List.mem_append, List.mem_singleton] at h
  exact h.imp id fun hx => congrArg LogRec.code hx

/-- While more than 65,536 leaves are left, no event tells of them. -/
theorem Dev.leavesLow_plenty {d : Dev} (h : d.mc.leaf = 0) : d.leavesLow = d := by
  unfold Dev.leavesLow
  dsimp only
  rw [h]
  rfl

/-- So it is with the record of a restart of the MC. -/
theorem Dev.watchdogRestart_lastPlace {d : Dev} (hl : d.mc.buf.length = 511) (hd : d.mc.dropped ≠ 0) (hb : d.mc.blocks = 0) (x : LogRec)
    (h : x ∈ d.watchdogRestart.mc.buf) : x ∈ d.mc.buf ∨ x.code = 0x1006 := by
  have hlog : d.mcStart 2 = (d.updMc (fun m => { m with leaf := m.blocks * 4096, claimed := false })).logOnly 0x100B 0 2 :=
    Dev.leavesLow_plenty ((Dev.logRecord_leaf _ _).trans (show d.mc.blocks * 4096 = 0 by rw [hb]))
  change x ∈ (d.mcStart 2).mc.buf at h
  rw [hlog] at h
  exact Dev.logRecord_lastPlace (d := d.updMc (fun m => { m with leaf := m.blocks * 4096, claimed := false })) hl hd _ x h

/-- A record of no meaning. -/
def blankRecord : LogRec := { seq := 0, boot := 0, sev := 0, src := 0, code := 0, ms := 0, tb := 0 }

/-- A write buffer with 511 records, after one was dropped. -/
def bufferAlmostFull : State := { dev := { mc := { buf := List.replicate 511 blankRecord, dropped := 1 } } }

theorem bufferAlmostFull_length : bufferAlmostFull.dev.mc.buf.length = 511 := List.length_replicate ..

/-- No record of the restart is in the buffer after it. -/
theorem restart_bufferAlmostFull (r : LogRec) (h : r ∈ bufferAlmostFull.dev.watchdogRestart.mc.buf) : r.code ≠ 0x100B := by
  rcases Dev.watchdogRestart_lastPlace bufferAlmostFull_length Nat.one_ne_zero rfl r h with hx | hx
  · rw [List.eq_of_mem_replicate hx]
    decide
  · rw [hx]
    decide

/-- Refutes O57: the buffer holds 511 records, fewer than 512, and takes none with code 0x100B. -/
theorem not_managementControllerRuns : ¬ Obligations.ManagementControllerRuns := by
  intro h
  obtain ⟨-, ⟨t, ht, -, -, -, -, -, -, -, -, hrec⟩, -⟩ := h.2.1 0 bufferAlmostFull rfl
  have hrow : exec (.mcWatchdogRestart 0) bufferAlmostFull = .next (bufferAlmostFull.onto bufferAlmostFull.dev.watchdogRestart) := rfl
  obtain rfl := Host.Outcome.next.inj (hrow.symm.trans ht)
  have hroom : bufferAlmostFull.dev.mc.buf.length < 512 := by
    rw [bufferAlmostFull_length]
    decide
  obtain ⟨r, hr, hcode, -⟩ := hrec hroom
  exact restart_bufferAlmostFull r hr hcode

end Sys2Proof.Machine
end

section
/-!
PROOF. Resets that keep the rails, standby power, rails and shutdown (R585, R597–R600, R616, R617).
-/

namespace Sys2Proof.Machine

/-! ### Resets that keep the rails -/

theorem Power.enables_of_resettable {p : Power} (h : p.resettable = true) : p.enables = 8 := by
  unfold Power.resettable at h
  simp only [Bool.and_eq_true, decide_eq_true_eq] at h
  exact h.1.1.1.2

/-- What a reset that resumes at stage 0x10 leaves of the device before it. -/
def Dev.restartedFrom (d : Dev) (y : Dev × Mems) : Prop :=
  y.2 = {} ∧ y.1.aps = [] ∧ y.1.rings = [] ∧ y.1.fw.stage = 0x10 ∧ y.1.fw.ready = false ∧ y.1.clk.run = false ∧ y.1.clk.count = 0 ∧
    y.1.pwr.enables = 8 ∧ y.1.mc.update = none ∧ y.1.spares.retired = d.spares.retired ∧ y.1.mc.svn = d.mc.svn ∧ y.1.mc.log = d.mc.log ∧
    y.1.mc.userSets = d.mc.userSets ∧ y.1.cmc.p = d.cmc.p

theorem restartAt10_restarted (x : Dev × Mems) (h : x.1.pwr.enables = 8) : x.1.restartedFrom (restartAt10 x) :=
  ⟨rfl, rfl, rfl, rfl, rfl, rfl, rfl, h, rfl, rfl, rfl, rfl, rfl, rfl⟩

theorem restartAt10_faults (x : Dev × Mems) (h : x.1.mc.readyAt = none) : (restartAt10 x).1.mc.faults = x.1.mc.faults := by
  change (if x.1.mc.readyAt.isSome && decide (x.1.mc.fwAt + 1800000000000 < x.1.clk.time) then 0 else x.1.mc.faults) = _
  rw [h]
  rfl

theorem firmwareFault_restarts {x : Dev × Mems} (hr : x.1.pwr.resettable = true) (hs : x.1.pwr.stopped = false) (hf : x.1.fw.stage = 0x3F) (ht : x.1.mc.trial = false) :
    x.1.restartedFrom (firmwareFault x) ∧
      (firmwareFault x).1.mc.faults = if x.1.clk.time ≤ x.1.mc.fwAt + 1803000000000 then x.1.mc.faults + 1 else 0 := by
  have hrow : firmwareFault x = restartAt10 (x.1.updMc (fun m =>
      { m with faults := if decide (x.1.clk.time ≤ x.1.mc.fwAt + 1803000000000) then m.faults + 1 else 0, readyAt := none }), x.2) := by
    have hgo : (!x.1.pwr.resettable || x.1.pwr.stopped || decide (x.1.fw.stage ≠ 0x3F ∧ x.1.fw.stage ≠ 0x32)) = false := by
      rw [hr, hs, hf]
      rfl
    exact (if_neg (fun h => Bool.false_ne_true (hgo.symm.trans h))).trans (if_neg (fun h => Bool.false_ne_true (ht.symm.trans h)))
  rw [hrow]
  refine ⟨restartAt10_restarted (_, x.2) (Power.enables_of_resettable hr), (restartAt10_faults (_, x.2) rfl).trans ?_⟩
  exact if_congr decide_eq_true_iff rfl rfl

theorem stageRestart_due {x : Dev × Mems} {a : Nat} (hr : x.1.pwr.resettable = true) (ha : x.1.pwr.failAt = some a) (ht : a + 3000000000 ≤ x.1.clk.time) :
    stageRestart x = if 3 ≤ x.1.mc.faults + 1 then
        (((x.1.updMc (fun m => { m with faults := m.faults + 1, readyAt := none })).updPwr (fun p => { p with failAt := none })).enterRecovery, x.2)
      else restartAt10 (x.1.updMc (fun m => { m with faults := m.faults + 1, readyAt := none }), x.2) := by
  unfold stageRestart
  rw [ha]
  dsimp only
  rw [hr, decide_eq_false (Nat.not_lt.mpr ht)]
  rfl

theorem mrstLow_restarts {x : Dev × Mems} (hr : x.1.pwr.resettable = true) (hs : 0x10 ≤ x.1.fw.stage) :
    x.1.restartedFrom (mrstLow x) ∧ (mrstLow x).1.pwr.mrstLow = true := by
  have hrow : mrstLow x = ((restartAt10 x).1.updPwr (fun p => { p with mrstLow := true }), (restartAt10 x).2) := by
    unfold mrstLow
    rw [hr, decide_eq_true hs]
    rfl
  rw [hrow]
  exact ⟨restartAt10_restarted x (Power.enables_of_resettable hr), rfl⟩

theorem stageRestart_restarts {x : Dev × Mems} {a : Nat} (hr : x.1.pwr.resettable = true) (ha : x.1.pwr.failAt = some a) (ht : a + 3000000000 ≤ x.1.clk.time)
    (hn : x.1.mc.faults < 2) : x.1.restartedFrom (stageRestart x) ∧ (stageRestart x).1.mc.faults = x.1.mc.faults + 1 := by
  rw [stageRestart_due hr ha ht, if_neg (by omega)]
  exact ⟨restartAt10_restarted _ (Power.enables_of_resettable hr), restartAt10_faults _ rfl⟩

/-- The third failure in succession ends in recovery mode. -/
theorem stageRestart_recovers {x : Dev × Mems} {a : Nat} (hr : x.1.pwr.resettable = true) (ha : x.1.pwr.failAt = some a) (ht : a + 3000000000 ≤ x.1.clk.time)
    (hn : 2 ≤ x.1.mc.faults) : (stageRestart x).1.fw.recovery = true ∧ (stageRestart x).1.fw.ready = true ∧ (stageRestart x).1.fw.stage = 0xE0 ∧
      (stageRestart x).1.mc.state = 2 := by
  rw [stageRestart_due hr ha ht, if_pos (by omega)]
  exact ⟨rfl, rfl, rfl, rfl⟩

/-! ### Supplies -/

/-- Standby power lost: flash and OTP stay. -/
theorem powerOff_shows (x : Dev × Mems) : (powerOff x).2 = {} ∧ (powerOff x).1.pwr.standby = false ∧ (powerOff x).1.fw.ready = false ∧ (powerOff x).1.rings = [] ∧
    (powerOff x).1.aps = [] ∧ (powerOff x).1.mc.log = x.1.mc.log ∧ (powerOff x).1.mc.slots = x.1.mc.slots ∧ (powerOff x).1.mc.active = x.1.mc.active ∧
    (powerOff x).1.mc.svn = x.1.mc.svn ∧ (powerOff x).1.mc.revoked = x.1.mc.revoked ∧ (powerOff x).1.mc.blocks = x.1.mc.blocks ∧ (powerOff x).1.mc.buf = [] :=
  ⟨rfl, rfl, rfl, rfl, rfl, rfl, rfl, rfl, rfl, rfl, rfl, rfl⟩

/-- Standby power returned: bring-up begins, with one more power-up counted. -/
theorem powerUp_shows (rcv shdn : Bool) (x : Dev × Mems) : (powerUp rcv shdn x).2 = {} ∧ (powerUp rcv shdn x).1.pwr.standby = true ∧
    (powerUp rcv shdn x).1.fw.stage = 0x00 ∧ (powerUp rcv shdn x).1.mc.boots = (x.1.mc.boots + 1) % 2 ^ 32 ∧ (powerUp rcv shdn x).1.mc.rcv = rcv ∧
    (powerUp rcv shdn x).1.pwr.shdnLow = shdn ∧ (powerUp rcv shdn x).1.pwr.enables = 0 ∧ (powerUp rcv shdn x).1.pwr.tripped = false ∧
    (powerUp rcv shdn x).1.mc.log = x.1.mc.log :=
  ⟨rfl, rfl, rfl, rfl, rfl, rfl, rfl, rfl, rfl⟩

theorem railFault_shows (f : Bool) (code : Nat) (x : Dev × Mems) : (railFault f code x).2 = {} ∧ (railFault f code x).1.pwr.enables = 0 ∧
    (railFault f code x).1.pwr.railsLocked = true ∧ (railFault f code x).1.mc.state = 4 ∧ (railFault f code x).1.fw.stage = 0xF0 ∧ (railFault f code x).1.mc.fault = code :=
  ⟨rfl, rfl, rfl, rfl, rfl, rfl⟩

theorem Dev.railEnable_due {d : Dev} (hm : d.mayEnable = true) (hn : d.pwr.enables < 8) (ht : d.pwr.enables = 0 ∨ d.pwr.enableAt + 3000000 ≤ d.clk.time) :
    d.railEnable.pwr = { d.pwr with enables := d.pwr.enables + 1, enableAt := d.clk.time } := by
  unfold Dev.railEnable
  dsimp only
  rw [hm, decide_eq_false (Nat.not_le.mpr hn), decide_eq_false (by omega)]
  rfl

theorem railTimeout_due {x : Dev × Mems} (hm : x.1.mayEnable = true) (hn : x.1.pwr.enables ≠ 0) (ht : x.1.pwr.enableAt + 30000000 < x.1.clk.time) :
    railTimeout x = railFault false (0x300 + railOrder.getD (x.1.pwr.enables - 1) 0) x := by
  unfold railTimeout
  dsimp only
  rw [hm, decide_eq_false (by omega)]
  rfl

theorem shutdownDone_due {x : Dev × Mems} (hs : x.1.pwr.shutting = true) (hb : x.1.mc.buf = []) :
    shutdownDone x = (((mainReset 0x02 x).1.railsOff.updMc (fun m => { m with state := 1 })), (mainReset 0x02 x).2) := by
  unfold shutdownDone
  rw [hs, hb]
  rfl

/-- The end of a shutdown: bring-up resumes at stage 0x02. -/
theorem shutdownDone_shows {x : Dev × Mems} (hs : x.1.pwr.shutting = true) (hb : x.1.mc.buf = []) : (shutdownDone x).2 = {} ∧ (shutdownDone x).1.pwr.mainOk = false ∧
    (shutdownDone x).1.pwr.enables = 0 ∧ (shutdownDone x).1.pwr.shutting = false ∧ (shutdownDone x).1.fw.stage = 0x02 ∧ (shutdownDone x).1.mc.state = 1 := by
  rw [shutdownDone_due hs hb]
  exact ⟨rfl, rfl, rfl, rfl, rfl, rfl⟩

theorem Dev.shdnHigh_unlocks {d : Dev} (hs : d.pwr.shdnLow = true) (hl : d.pwr.railsLocked = true) (ht : d.pwr.tripped = false) :
    d.shdnHigh = (((d.updPwr (fun p => { p with shdnLow := false })).updPwr (fun p => { p with railsLocked := false })).updMc
      (fun m => { m with state := 1 })).enterStage 0x02 := by
  unfold Dev.shdnHigh
  dsimp only
  rw [hs, hl, ht]
  rfl

/-! ### Shutdown -/

theorem Dev.mem_liveWith_all {d : Dev} {a : Nat} {p : Aperture} (hp : (a, p) ∈ d.aps) (hs : p.state = 3) (hl : p.live ≠ []) : a ∈ d.liveWith (fun _ => true) := by
  unfold Dev.liveWith
  rw [List.mem_reverse, List.mem_map]
  refine ⟨(a, p), List.mem_filter.mpr ⟨hp, ?_⟩, rfl⟩
  rw [decide_eq_true hs, Bool.true_and, List.any_eq_true]
  exact (List.exists_mem_of_ne_nil _ hl).imp fun b hb => ⟨hb, rfl⟩

/-- Halts one after another: each aperture's is scheduled for the lead from now, and nothing else changes. -/
theorem Dev.haltSoon_all (cause : Nat) (l : List Nat) (d : Dev) : l.foldl (fun (d : Dev) a => d.haltSoon cause a) d =
    d.updGlob (fun g => { g with halts := g.halts ++ l.map (fun a => { unit := a, tick := d.now + scopeLead 0, cause := cause }) }) := by
  induction l generalizing d with
  | nil => simp [Dev.updGlob]
  | cons a t ih =>
    rw [List.foldl_cons, ih]
    simp [Dev.updGlob, Dev.haltSoon, Dev.now]

/-- A shutdown with no Relay stream. -/
theorem Dev.shutdown_begins {d : Dev} (hb : d.pwr.standby = true) (hs : d.pwr.shdnLow = false) (hr : d.relays = []) :
    d.shutdown = (d.updPwr (fun p => { p with shdnLow := true, shutting := decide (p.enables ≠ 0) })).updGlob (fun g => { g with
      halts := g.halts ++ (d.liveWith (fun _ => true)).map (fun a => { unit := a, tick := d.now + scopeLead 0, cause := 5 }) }) := by
  unfold Dev.shutdown
  dsimp only
  rw [hb, hs, Dev.haltSoon_all]
  change List.foldl _ _ d.relays = _
  rw [hr]
  rfl

/-- Settles O58: each row's branch for its premises, whose reset, loss of power or change of the rails is read off field by field. -/
theorem resetsAndSupplies : Obligations.ResetsAndSupplies := by
  unfold Obligations.ResetsAndSupplies
  refine ⟨fun dt s => ?_, fun dt s rcv shdn => ?_⟩
  · intro d fresh hr
    refine ⟨fun hs hf ht => ?_, fun a ha ht hn => ?_, fun a ha ht hn => ?_, fun hs => ?_, fun hm => ?_⟩
    · exact ⟨s.ontoAll (firmwareFault (d, s.mem)), rfl, firmwareFault_restarts (x := (d, s.mem)) hr hs hf ht⟩
    · exact ⟨s.ontoAll (stageRestart (d, s.mem)), rfl, stageRestart_restarts (x := (d, s.mem)) hr ha ht hn⟩
    · exact ⟨s.ontoAll (stageRestart (d, s.mem)), rfl, stageRestart_recovers (x := (d, s.mem)) hr ha ht hn⟩
    · exact ⟨s.ontoAll (mrstLow (d, s.mem)), rfl, mrstLow_restarts (x := (d, s.mem)) hr hs⟩
    · exact ⟨_, rfl, rfl, rfl, rfl, fun h => if_pos h⟩
  · intro d
    refine ⟨?_, ?_, fun hm hn ht => ?_, fun hm hn ht => ?_, fun hb hs hr => ?_, fun hs hb => ?_, fun hs hl ht => ?_⟩
    · exact ⟨s.ontoAll (powerOff (d, s.mem)), rfl, powerOff_shows (d, s.mem)⟩
    · exact ⟨s.ontoAll (powerUp rcv shdn (d, s.mem)), rfl, powerUp_shows rcv shdn (d, s.mem)⟩
    · refine ⟨s.onto d.railEnable, rfl, State.onto_mem _ _, ?_⟩
      rw [State.onto_dev, Dev.railEnable_due hm hn ht]
      exact ⟨rfl, rfl⟩
    · refine ⟨s.ontoAll (railTimeout (d, s.mem)), rfl, ?_⟩
      rw [railTimeout_due (x := (d, s.mem)) hm hn ht]
      exact railFault_shows _ _ _
    · refine ⟨s.onto d.shutdown, rfl, State.onto_mem _ _, ?_⟩
      rw [State.onto_dev, Dev.shutdown_begins hb hs hr]
      refine ⟨rfl, decide_eq_true_iff, fun a p hp hs hl => ?_⟩
      exact ⟨_, List.mem_append_right _ (List.mem_map.mpr ⟨a, Dev.mem_liveWith_all hp hs hl, rfl⟩), rfl, rfl, rfl⟩
    · exact ⟨s.ontoAll (shutdownDone (d, s.mem)), rfl, shutdownDone_shows (x := (d, s.mem)) hs hb⟩
    · refine ⟨s.onto d.shdnHigh, rfl, State.onto_mem _ _, ?_⟩
      rw [State.onto_dev, Dev.shdnHigh_unlocks hs hl ht]
      exact ⟨rfl, rfl, rfl, rfl⟩

end Sys2Proof.Machine
end

section
/-!
PROOF. Clocks and bring-up: REFCLK, the MDLL, the synthesisers, and the stages of R618 (R602–R607, R618, R623).
-/

namespace Sys2Proof.Machine

/-! ### Synthesisers -/

theorem mem_insertBy {α : Type} (key : α → Nat) (x y : α) (l : List α) : y ∈ insertBy key x l ↔ y = x ∨ y ∈ l := by
  induction l with
  | nil => exact List.mem_cons
  | cons z t ih =>
    unfold insertBy
    split
    · exact List.mem_cons
    · rw [List.mem_cons, ih, List.mem_cons]
      exact or_left_comm

theorem mem_sortBy {α : Type} (key : α → Nat) (y : α) (l : List α) : y ∈ sortBy key l ↔ y ∈ l := by
  induction l with
  | nil => exact Iff.rfl
  | cons x t ih =>
    unfold sortBy
    rw [mem_insertBy, ih, List.mem_cons]

theorem Power.mem_lock (p : Power) (n k : Nat) : k ∈ (p.lock n).synths ↔ k = n ∨ k ∈ p.synths := by
  unfold Power.lock
  rw [mem_sortBy, List.mem_cons, List.mem_filter]
  by_cases h : k = n <;> simp [h]

theorem Dev.jesdCheckUp_pwr (d : Dev) (l : Nat) : (d.jesdCheckUp l).pwr = d.pwr := by
  obtain h | ⟨_, _, -, h⟩ := d.jesdCheckUp_cases l <;> rw [h]
  rfl

/-- The end of a synthesiser's lock, and the link that its output may bring up. -/
def Dev.synthLock (d : Dev) (n : Nat) (ok : Bool) : Dev :=
  let d := d.updPwr (fun p => if ok then p.lock n else { p with synths := p.synths.filter (fun k => decide (k ≠ n)) })
  if ok ∧ 16 ≤ n then d.jesdCheckUp (n - 16) else d

theorem exec_synthesiserLock {s : State} {dt n : Nat} (ok : Bool) (hm : (s.after dt).pwr.mdll = true) (hn : n < 40) :
    exec (.synthesiserLock dt n ok) s = .next (s.onto ((s.after dt).synthLock n ok)) := by
  have hgo : (!(s.after dt).pwr.mdll || decide (40 ≤ n)) = false := by
    rw [hm, decide_eq_false (by omega)]
    rfl
  exact congrArg (fun d => Host.Outcome.next (s.onto d)) (if_neg (fun h => Bool.false_ne_true (hgo.symm.trans h)))

theorem Dev.synthLock_pwr (d : Dev) (n : Nat) (ok : Bool) :
    (d.synthLock n ok).pwr = if ok then d.pwr.lock n else { d.pwr with synths := d.pwr.synths.filter (fun k => decide (k ≠ n)) } := by
  unfold Dev.synthLock
  dsimp only
  split
  · exact Dev.jesdCheckUp_pwr _ _
  · rfl

/-! ### The clocks of the root -/

theorem refclkLost_stops {x : Dev × Mems} (hr : x.1.pwr.refclk = true) (hm : x.1.pwr.mdll = true) (he : x.1.pwr.enables = 8) :
    refclkLost x = (let d := (((x.1.updPwr (fun p => { p with refclk := false })).mainReset 0xF0).mcFault 0x401).updPwr (fun p => { p with stopped := true })
      ({ d with fw := { d.fw with fault := true } }, {})) := by
  unfold refclkLost
  dsimp only
  rw [hr, hm, he]
  rfl

theorem mdllLock_due (ok : Bool) {x : Dev × Mems} (hs : x.1.fw.stage = 0x10) (hr : x.1.pwr.refclk = true) (hl : x.1.pwr.mrstLow = false) (hm : x.1.pwr.mdll = false) :
    mdllLock ok x = if ok then (x.1.updPwr (fun p => { p with mdll := true }), x.2) else railFault false 0x402 x := by
  unfold mdllLock
  rw [hs, hr, hl, hm]
  rfl

/-! ### Stages -/

/-- A stage's own end, at a stage that has one. -/
theorem stageEnd_runs {x : Dev × Mems} {ok : Bool} {bad : List (Nat × Nat)} (hb : x.1.pwr.standby = true) (hs : x.1.pwr.shutting = false)
    (hn : x.1.fw.stage ≠ 0x3F ∧ x.1.fw.stage ≠ 0xE0 ∧ x.1.fw.stage ≠ 0xF0) :
    stageEnd ok bad x = if ok then stageDone bad x else (x.1.stageFailed, x.2) := by
  unfold stageEnd
  dsimp only
  rw [hb, hs, decide_eq_false (by omega)]
  rfl

theorem Dev.mcStart_leaf (d : Dev) (cause : Nat) : (d.mcStart cause).mc.leaf = d.mc.blocks * 4096 :=
  (Dev.leavesLow_leaf _).trans (Dev.logRecord_leaf _ _)

section
variable {x : Dev × Mems}

theorem stageDone_00 (h : x.1.fw.stage = 0x00) (ht : x.1.pwr.stageAt + 6000000 ≤ x.1.clk.time) : stageDone [] x = (x.1.enterStage 0x01, x.2) := by
  unfold stageDone
  dsimp only
  simp only [h]
  rw [if_neg (Nat.not_lt.mpr ht)]

theorem stageDone_01 (h : x.1.fw.stage = 0x01) (hs : x.1.pwr.shdnLow = false) :
    stageDone [] x = (((x.1.mcStart 1).updMc (fun m => { m with state := 1 })).enterStage 0x02, x.2) := by
  unfold stageDone
  dsimp only
  simp only [h]
  exact if_neg (fun hx => Bool.false_ne_true (hs.symm.trans hx))

theorem stageDone_02 (h : x.1.fw.stage = 0x02) (he : x.1.pwr.enables = 8) :
    stageDone [] x = ((x.1.updMc (fun m => { m with railGood := 127 })).enterStage 0x10, x.2) := by
  unfold stageDone
  dsimp only
  simp only [h]
  exact if_pos he

theorem stageDone_10 (h : x.1.fw.stage = 0x10) (hr : x.1.pwr.refclk = true) (hm : x.1.pwr.mdll = true) (hl : x.1.pwr.mrstLow = false) :
    stageDone [] x = (x.1.startClocks.enterStage 0x11, x.2) := by
  unfold stageDone
  dsimp only
  simp only [h]
  exact if_pos (by rw [hr, hm, hl]; rfl)

theorem stageDone_11 (h : x.1.fw.stage = 0x11) : stageDone [] x = ((x.1.updPwr (fun p => { p.lock 2 with mainOk := true })).enterStage 0x12, x.2) := by
  unfold stageDone
  dsimp only
  simp only [h]

theorem stageDone_12 (h : x.1.fw.stage = 0x12) : stageDone [] x = ((x.1.updPwr (fun p => p.lock 3)).enterStage 0x20, x.2) := by
  unfold stageDone
  dsimp only
  simp only [h]

theorem stageDone_20 (h : x.1.fw.stage = 0x20) : stageDone [] x = (x.1.enterStage 0x21, x.2) := by
  unfold stageDone
  dsimp only
  rw [h]
  rfl

theorem stageDone_21 (h : x.1.fw.stage = 0x21) (hr : x.1.cmc.relock = none) (hq : x.1.cmc.rateReq = none) :
    stageDone [] x = ((x.1.updPwr (fun p => p.lock 4)).endTraining.enterStage 0x22, x.2) := by
  unfold stageDone
  dsimp only
  simp only [h]
  exact if_neg (by change ¬ (x.1.cmc.relock.isSome || x.1.cmc.rateReq.isSome) = true; rw [hr, hq]; exact Bool.false_ne_true)

theorem stageDone_22 (h : x.1.fw.stage = 0x22) : ∃ d : Dev, stageDone [] x = (d.enterStage 0x30, x.2) := by
  unfold stageDone
  dsimp only
  simp only [h]
  exact ⟨_, rfl⟩

/-- RCV_N low at standby power-up: no image is chosen. -/
theorem stageDone_30_recovery (h : x.1.fw.stage = 0x30) (hr : x.1.mc.rcv = true) (hp : x.1.mc.pending = none ∨ x.1.mc.trials = 0) :
    stageDone [] x = (x.1.enterRecovery, x.2) := by
  have htrial : (x.1.mc.pending.isSome && decide (x.1.mc.trials ≠ 0)) = false := by
    rcases hp with hp | hp <;> rw [hp] <;> simp
  have hselect : x.1.selectImage = (false, x.1.enterRecovery) := by
    unfold Dev.selectImage
    rw [htrial]
    exact if_pos (by rw [Bool.or_eq_true]; exact .inl hr)
  unfold stageDone
  dsimp only
  simp only [h]
  rw [hselect]
  rfl

theorem stageDone_31 (h : x.1.fw.stage = 0x31) : ∃ d : Dev, stageDone [] x = ((d.updMc (fun m => { m with fwAt := x.1.clk.time, readyAt := none })).enterStage 0x32, x.2) := by
  unfold stageDone
  dsimp only
  simp only [h]
  exact ⟨_, rfl⟩

theorem stageDone_32 (h : x.1.fw.stage = 0x32) : stageDone [] x = ((x.1.updPwr (fun p => (p.lock 0).lock 1)).calibrate.ready, x.2) := by
  unfold stageDone
  dsimp only
  rw [h]
  rfl

end

/-! ### READY -/

theorem Dev.newDelayTrim_clk (d : Dev) (n : Nat) : (d.newDelayTrim n).clk = d.clk := by
  unfold Dev.newDelayTrim Dev.retrim
  dsimp only
  split <;> rfl

theorem Dev.calibrate_clk (d : Dev) : d.calibrate.clk = d.clk := by
  refine foldl_clk (fun e n => ?_) _ _
  obtain ⟨k, hk⟩ := e.meanT_only n
  dsimp only
  rw [Dev.newDelayTrim_clk, hk]
  rfl

/-- Firmware is ready from now on, whatever it then reports. -/
theorem Dev.ready_shows (d : Dev) : d.ready.fw.stage = 0x3F ∧ d.ready.fw.ready = true ∧ d.ready.mc.readyAt = some d.clk.time := by
  have hkeep {a b : Dev} (h : a.sameButReports b) (ha : a.fw.stage = 0x3F ∧ a.fw.ready = true ∧ a.mc.readyAt = some d.clk.time) :
      b.fw.stage = 0x3F ∧ b.fw.ready = true ∧ b.mc.readyAt = some d.clk.time := by
    unfold Dev.sameButReports at h
    rw [h]
    exact ha
  unfold Dev.ready
  extract_lets d1 fw d2 d3
  have h3 : d3.fw.stage = 0x3F ∧ d3.fw.ready = true ∧ d3.mc.readyAt = some d.clk.time := hkeep (d2.sameButReports_raiseAt _ _ _ _ _ _) ⟨rfl, rfl, rfl⟩
  clear_value d3
  split
  · next n _ => exact hkeep ((d3.updMc (fun m => { m with rolled := none })).sameButReports_raiseAt _ _ _ _ _ _) h3
  · exact h3

theorem stageDone_32_ready {x : Dev × Mems} (h : x.1.fw.stage = 0x32) : ∃ e, stageDone [] x = (e, x.2) ∧
    e.fw.stage = 0x3F ∧ e.fw.ready = true ∧ e.mc.readyAt = some x.1.clk.time := by
  obtain ⟨hstage, hready, hat⟩ := (x.1.updPwr (fun p => (p.lock 0).lock 1)).calibrate.ready_shows
  rw [Dev.calibrate_clk] at hat
  exact ⟨_, stageDone_32 h, hstage, hready, hat⟩

/-- A stage that ends well leaves the device that its branch gives, and the memories as they were. -/
theorem exec_bringupStageEnd {s : State} {dt : Nat} {e : Dev} (hb : (s.after dt).pwr.standby = true) (hs : (s.after dt).pwr.shutting = false)
    (hn : (s.after dt).fw.stage ≠ 0x3F ∧ (s.after dt).fw.stage ≠ 0xE0 ∧ (s.after dt).fw.stage ≠ 0xF0) (hd : stageDone [] (s.after dt, s.mem) = (e, s.mem)) :
    exec (.bringupStageEnd dt true []) s = .next (s.ontoAll (e, s.mem)) :=
  congrArg (fun y => Host.Outcome.next (s.ontoAll y)) ((stageEnd_runs (x := (s.after dt, s.mem)) hb hs hn).trans hd)

/-- Settles O59: the clocks' own branches, and at each stage the branch of its end. -/
theorem clocksAndBringup : Obligations.ClocksAndBringup := by
  unfold Obligations.ClocksAndBringup
  refine ⟨fun dt n s => ?_, fun dt s => ?_⟩
  · intro d he
    have hnext {a b : Dev} (h : a = b) : Host.Outcome.next (s.onto a) = (Host.Outcome.next (s.onto b) : Host.Outcome State Fault Refusal) :=
      congrArg (fun z => Host.Outcome.next (s.onto z)) h
    refine ⟨hnext (if_pos (decide_eq_true he)), fun hr hm => ?_, fun hs hr hl hm => ⟨?_, ?_⟩, fun hm hn => ⟨?_, ?_⟩⟩
    · refine ⟨s.ontoAll (refclkLost (d, s.mem)), rfl, ?_⟩
      rw [refclkLost_stops (x := (d, s.mem)) hr hm he]
      exact ⟨rfl, rfl, rfl, rfl, rfl, rfl, rfl, he, rfl⟩
    · exact congrArg (fun y => Host.Outcome.next (s.ontoAll y)) (mdllLock_due true (x := (d, s.mem)) hs hr hl hm)
    · refine ⟨s.ontoAll (mdllLock false (d, s.mem)), rfl, ?_⟩
      rw [mdllLock_due false (x := (d, s.mem)) hs hr hl hm]
      exact ⟨rfl, rfl, rfl, rfl⟩
    · refine ⟨s.onto (d.synthLock n true), exec_synthesiserLock true hm hn, State.onto_mem _ _, ?_⟩
      rw [State.onto_dev, Dev.synthLock_pwr, if_pos rfl]
      exact ⟨(Power.mem_lock _ _ _).2 (.inl rfl), fun k hk => (Power.mem_lock _ _ _).trans (or_iff_right hk)⟩
    · refine ⟨s.onto (d.synthLock n false), exec_synthesiserLock false hm hn, State.onto_mem _ _, ?_⟩
      rw [State.onto_dev, Dev.synthLock_pwr, if_neg Bool.false_ne_true]
      exact ⟨fun h => absurd rfl (of_decide_eq_true (List.mem_filter.1 h).2),
        fun k hk => List.mem_filter.trans (and_iff_left (decide_eq_true hk))⟩
  · intro d n ends hb hs
    have hends {e : Dev} {p : State → Prop} (hd : stageDone [] (d, s.mem) = (e, s.mem)) (hn : n ≠ 0x3F ∧ n ≠ 0xE0 ∧ n ≠ 0xF0)
        (hp : p (s.ontoAll (e, s.mem))) : ends true p := ⟨s.ontoAll (e, s.mem), exec_bringupStageEnd hb hs hn hd, rfl, hp⟩
    refine ⟨fun h ht => ?_, fun h hl => ?_, fun h he => ?_, fun h hr hm hl => ?_, fun h => ?_, fun h => ?_, fun h => ?_, fun h _ hr hq => ?_, fun h => ?_,
      fun h hr hp => ?_, fun h => ?_, fun h => ?_, fun h3 hE hF => ?_⟩
    · exact hends (stageDone_00 (x := (d, s.mem)) h ht) (by omega) rfl
    · exact hends (stageDone_01 (x := (d, s.mem)) h hl) (by omega) ⟨rfl, rfl, (d.mcStart_leaf 1).trans (Nat.mul_comm _ _)⟩
    · exact hends (stageDone_02 (x := (d, s.mem)) h he) (by omega) ⟨rfl, rfl⟩
    · exact hends (stageDone_10 (x := (d, s.mem)) h hr hm hl) (by omega) ⟨rfl, rfl, rfl, rfl⟩
    · exact hends (stageDone_11 (x := (d, s.mem)) h) (by omega) ⟨rfl, rfl⟩
    · exact hends (stageDone_12 (x := (d, s.mem)) h) (by omega) rfl
    · exact hends (stageDone_20 (x := (d, s.mem)) h) (by omega) rfl
    · exact hends (stageDone_21 (x := (d, s.mem)) h hr hq) (by omega) rfl
    · obtain ⟨e, he⟩ := stageDone_22 (x := (d, s.mem)) h
      exact hends he (by omega) rfl
    · exact hends (stageDone_30_recovery (x := (d, s.mem)) h hr hp) (by omega) ⟨rfl, rfl, rfl, rfl⟩
    · obtain ⟨e, he⟩ := stageDone_31 (x := (d, s.mem)) h
      exact hends he (by omega) ⟨rfl, rfl⟩
    · obtain ⟨e, he, hready⟩ := stageDone_32_ready (x := (d, s.mem)) h
      exact hends he (by omega) hready
    · refine ⟨s.ontoAll (d.stageFailed, s.mem),
        congrArg (fun y => Host.Outcome.next (s.ontoAll y)) (stageEnd_runs (x := (d, s.mem)) (ok := false) (bad := []) hb hs ⟨h3, hE, hF⟩), rfl, rfl, rfl, rfl, rfl⟩

end Sys2Proof.Machine
end

section
/-!
PROOF. Spares and test ports: lockstep, wear, rotation, JTAG and SMBus (R181, R196, R197, R412, R420, R593, R639, R640).
-/

namespace Sys2Proof.Machine

/-! ### Lockstep -/

section
variable {d : Dev} {k : Nat} {agree : Bool} {x : Takeover}

/-- The one take-over that runs becomes `y`. -/
def Dev.putRunning (d : Dev) (y : Takeover) : Dev := d.updSpares (fun s => { s with running := [y] })

/-- The end of the lockstep of the only take-over, which has no launch yet. -/
theorem Dev.lockstepEnd_only (hr : d.spares.running = [x]) (hk : x.kind = k) (hl : x.launch = none) : d.lockstepEnd k agree =
    if decide (k = 0) && d.lostPad x.unit then d.putRunning { x with launch := some (d.spareTick x) }
    else if decide (k = 7) && decide (Tbl.look 0 d.cmc.copy (d.pc x.unit).logical < 2 ^ 21) || decide (d.cyc < x.began + d.lockSpan x) then d
    else if d.lockstepPassed x agree then d.putRunning { x with launch := some (d.spareTick x) }
    else if 2 ≤ x.mismatches then d.abandon x
    else d.putRunning { x with mismatches := x.mismatches + 1, differed := true, began := d.cyc } := by
  have hfind : d.spares.running.find? (fun (t : Takeover) => decide (t.kind = k) && t.launch.isNone) = some x := by
    rw [hr]
    exact List.find?_cons_of_pos (by rw [decide_eq_true hk, hl]; rfl)
  have hput (y : Takeover) : d.updSpares (fun s => { s with running := s.running.map (fun t => if t = x then y else t) }) = d.putRunning y := by
    unfold Dev.putRunning Dev.updSpares
    dsimp only
    rw [hr, List.map_cons, if_pos rfl, List.map_nil]
  unfold Dev.lockstepEnd
  rw [hfind]
  dsimp only
  rw [hput, hput]

theorem Dev.endTakeover_spares (d : Dev) (t : Takeover) :
    (d.endTakeover t).spares = { d.spares with running := d.spares.running.filter (fun y => decide (y ≠ t)) } := by
  unfold Dev.endTakeover
  extract_lets d1
  have h1 : d1.spares = { d.spares with running := d.spares.running.filter (fun y => decide (y ≠ t)) } := by
    unfold d1
    split <;> rfl
  clear_value d1
  split <;> exact h1

theorem Dev.sameButReports.spares {a b : Dev} (h : a.sameButReports b) : b.spares = a.spares := by
  unfold Dev.sameButReports at h
  rw [h]

/-- An abandoned take-over runs no more, and is counted. -/
theorem Dev.abandon_spares (d : Dev) (t : Takeover) : (d.abandon t).spares =
    { d.spares with running := d.spares.running.filter (fun y => decide (y ≠ t)), abandoned := d.spares.abandoned + 1 } := by
  have hbegin : ((d.endTakeover t).updSpares (fun s => { s with abandoned := s.abandoned + 1 })).spares =
      { d.spares with running := d.spares.running.filter (fun y => decide (y ≠ t)), abandoned := d.spares.abandoned + 1 } := by
    unfold Dev.updSpares
    rw [Dev.endTakeover_spares]
  unfold Dev.abandon
  extract_lets d1 d2
  have h2 : d2.spares = d1.spares := (d1.sameButReports_logRecord _).spares
  rw [← hbegin]
  split
  · exact (d2.sameButReports_raise _ _ _ _).spares.trans h2
  · exact h2

end

/-! ### Wear -/

theorem mem_putFigure (key : Nat × Nat × Nat) (v : Nat) (l : List (Nat × Nat × Nat × Nat)) : (key.1, key.2.1, key.2.2, v) ∈ putFigure key v l :=
  List.mem_append_right _ (List.mem_singleton_self _)

/-- A command that holds nothing up: where none is held before and the rings stay, none follows. -/
theorem onHeld_none {dt : Nat} {f : Dev → Mems → Dev × Mems} {s : State} (hr : (f (s.after dt) s.mem).1.rings = (s.after dt).rings) (hh : (s.after dt).heldCmds = []) :
    onHeld dt f s = .next (s.ontoAll (f (s.after dt) s.mem)) := by
  have hnone : (f (s.after dt) s.mem).1.runHeldAll = (f (s.after dt) s.mem).1 :=
    Dev.runHeldAll_of_noneHeld (Dev.noneHeld_of_rings hr ((Dev.noneHeld_iff _).2 hh))
  exact congrArg (fun e => Host.Outcome.next (s.ontoAll (e, (f (s.after dt) s.mem).2))) hnone

/-- An indicator within its threshold: its value and margin are kept, and it counts as crossed no more. -/
def Dev.wearNoted (d : Dev) (kind unit ind value : Nat) : Dev :=
  ((d.noteValue kind unit ind value).updSpares (fun s => { s with evalAt := putFigure (kind, unit, ind) d.clk.time s.evalAt })).updMc
    (fun m => { m with crossed := m.crossed.filter (fun k => decide (k ≠ (kind, unit, ind))) })

theorem wearEvaluation_within {kind unit ind value : Nat} {x : Dev × Mems} (hi : ind ≠ 15) (he : x.1.evaluated kind unit ind = false)
    (hc : x.1.wearCrossed kind ind value = false) : wearEvaluation kind unit ind value x = (x.1.wearNoted kind unit ind value, x.2) := by
  have hcross : ((x.1.noteValue kind unit ind value).updSpares (fun s => { s with evalAt := putFigure (kind, unit, ind) x.1.clk.time s.evalAt })).wearCrossed
      kind ind value = false := hc
  unfold wearEvaluation
  dsimp only
  rw [if_neg hi, if_neg (by rw [he]; exact Bool.false_ne_true), hcross]
  rfl

/-- An indicator is evaluated once a second. -/
theorem wearEvaluation_again {kind unit ind value : Nat} {x : Dev × Mems} (hi : ind ≠ 15) (he : x.1.evaluated kind unit ind = true) :
    wearEvaluation kind unit ind value x = x := by
  unfold wearEvaluation
  dsimp only
  rw [if_neg hi, if_pos he]

/-- An evaluation that leaves the rings, where no command is held. -/
theorem exec_wearEvaluation {s : State} {dt kind unit ind value : Nat} {e : Dev} (hw : wearEvaluation kind unit ind value (s.after dt, s.mem) = (e, s.mem))
    (hr : e.rings = (s.after dt).rings) (hh : (s.after dt).heldCmds = []) : exec (.wearEvaluation dt kind unit ind value) s = .next (s.onto e) :=
  (onHeld_none (f := fun d m => wearEvaluation kind unit ind value (d, m)) ((congrArg (fun y : Dev × Mems => y.1.rings) hw).trans hr) hh).trans
    (congrArg (fun y => Host.Outcome.next (s.ontoAll y)) hw)

theorem Dev.wearNoted_rings (d : Dev) (kind unit ind value : Nat) : (d.wearNoted kind unit ind value).rings = d.rings := rfl

theorem Dev.wearNoted_margins {d : Dev} {kind unit ind value : Nat} (h : (wearDefault kind ind).isSome = true) :
    (kind, unit, ind, d.wearMargin kind ind value) ∈ (d.wearNoted kind unit ind value).spares.margins := by
  change _ ∈ if (wearDefault kind ind).isNone then d.spares.margins else putFigure (kind, unit, ind) (d.wearMargin kind ind value) d.spares.margins
  rw [if_neg (by rw [Option.isNone_iff_eq_none]; exact Option.isSome_iff_ne_none.1 h)]
  exact mem_putFigure _ _ _

/-! ### Rotation -/

/-- Measurements of a slice leave the converters' slices. -/
theorem Dev.noteValues_ain (d : Dev) (u : Nat) (l : List (Nat × Nat)) : (l.foldl (fun (d : Dev) p => d.noteValue 1 u p.2 p.1) d).ain = d.ain :=
  foldl_keeps (fun y : Dev => y.ain = d.ain) _ _ _ rfl fun _ _ hy => hy

theorem Dev.noteValues_mc (d : Dev) (u : Nat) (l : List (Nat × Nat)) : (l.foldl (fun (d : Dev) p => d.noteValue 1 u p.2 p.1) d).mc = d.mc :=
  foldl_keeps (fun y : Dev => y.mc = d.mc) _ _ _ rfl fun _ _ hy => hy

theorem Dev.sliceExcess_of_mc {a b : Dev} (h : b.mc = a.mc) (l : List Nat) : b.sliceExcess l = a.sliceExcess l := by
  unfold Dev.sliceExcess Dev.wearCrossed Dev.wearEnabled Dev.wearLimit
  rw [h]

/-- The swap gives slice `o` the next position, and takes the one that had it outside. -/
theorem Dev.swapSlices_ain (d : Dev) (n o : Nat) : (d.swapSlices n o).ainOf n = { d.ainOf n with
    slices := Tbl.put ((d.ainOf n).swaps % 64) o (d.ainOf n).slices
    out := some (Tbl.look ((d.ainOf n).swaps % 64) (d.ainOf n).slices ((d.ainOf n).swaps % 64))
    swaps := (d.ainOf n).swaps + 1 } := by
  unfold Dev.swapSlices
  extract_lets x p d1
  have h1 : d1.ainOf n = { d.ainOf n with slices := Tbl.put p o x.slices, out := some (Tbl.look p x.slices p), swaps := x.swaps + 1 } := by
    unfold d1
    exact Tbl.look_put_same _ _ _ _
  clear_value d1
  split <;> exact h1

/-- A slice within its limits takes the next position, once its residuals have been noted. -/
theorem rotationSwap_within {n o r offset gain skew bandwidth : Nat} {x : Dev × Mems} (hn : n < 4) (ho : (x.1.ainOf n).out = some o) (hd : (x.1.ainOf n).degraded = false)
    (hf : x.1.fw.stage = 0x3F) (hr : x.1.mc.readyAt = some r) (ht : r + ((x.1.ainOf n).swaps + 1) * 24000000 ≤ x.1.clk.time) (hs : x.1.spares.running = [])
    (he : x.1.sliceExcess [offset, gain, skew] = none) :
    ∃ e : Dev, rotationSwap n offset gain skew bandwidth x = (e.swapSlices n o, x.2) ∧ ∃ res, e.ainOf n = { x.1.ainOf n with residuals := res } := by
  have hgo : (decide (x.1.fw.stage ≠ 0x3F ∨ 3 < n) || (x.1.ainOf n).degraded || decide (x.1.clk.time < r + ((x.1.ainOf n).swaps + 1) * 24000000) ||
      x.1.spares.running.any (fun (t : Takeover) => decide (t.kind = 1 ∧ t.unit / 65 = n))) = false := by
    rw [hf, hd, hs, decide_eq_false (by omega), decide_eq_false (Nat.not_lt.mpr ht)]
    rfl
  let d1 : Dev := x.1.fresh.2.setAin n { x.1.ainOf n with residuals := Tbl.put o (((x.1.fresh.1.toNat % 501 : Nat) : Int) - 250) (x.1.ainOf n).residuals }
  let d2 : Dev := ([offset, gain, skew, bandwidth].zipIdx).foldl (fun (d : Dev) p => d.noteValue 1 (65 * n + o) p.2 p.1) d1
  have hexcess : d2.sliceExcess [offset, gain, skew] = none := by
    rw [Dev.sliceExcess_of_mc (d1.noteValues_mc _ _)]
    exact he
  refine ⟨d2, ?_, _, (congrArg (fun t => Tbl.look ({} : Ain) t n) (d1.noteValues_ain _ _)).trans (Tbl.look_put_same _ _ _ _)⟩
  unfold rotationSwap
  dsimp only
  rw [ho, hr]
  dsimp only
  rw [if_neg (fun h => Bool.false_ne_true (hgo.symm.trans h))]
  split
  · rfl
  · next h => exact nomatch hexcess.symm.trans h

/-! ### JTAG -/

/-- What an instruction that is loaded leaves: the instruction register, the data register that it selects, and the boundary values. -/
def Dev.jtagLoaded (d e : Dev) (ir bits v : Nat) (held : Option Nat) : Prop :=
  e.jtag.ir = ir ∧ e.out = d.out ++ [.jtag bits v] ∧ e.jtag.boundary = held.getD d.jtag.boundary ∧ e.regs = d.regs

theorem Dev.jtagLoad_loads {d : Dev} (h : d.pwr.standby = true) (ir bits v : Nat) : d.jtagLoaded (d.jtagLoad ir bits v) ir bits v none := by
  unfold Dev.jtagLoad
  rw [if_pos h]
  exact ⟨rfl, rfl, rfl, rfl⟩

/-- The levels of the balls have been sampled, and a boundary value preloaded. -/
def Dev.preloaded (d : Dev) (b : Nat) : Dev := { d.fresh.2 with jtag := { d.fresh.2.jtag with boundary := b } }

theorem Dev.jtagLoad_preloads {d : Dev} (h : d.pwr.standby = true) (ir bits b v : Nat) :
    d.jtagLoaded ((d.preloaded b).jtagLoad ir bits v) ir bits v (some b) := by
  obtain ⟨hir, hout, hheld, hregs⟩ := Dev.jtagLoad_loads (d := d.preloaded b) h ir bits v
  exact ⟨hir, hout, hheld, hregs⟩

theorem Dev.jtagHeld_released {d : Dev} (hm : d.pwr.mrstLow = false) (ir : Nat) (v : Option Nat) : d.jtagHeld ir v = d.jtagLoad 0 1 0 :=
  if_neg (fun h => Bool.false_ne_true (hm.symm.trans h))

theorem Dev.jtagHeld_bypass {d : Dev} (hm : d.pwr.mrstLow = true) (ir : Nat) : d.jtagHeld ir none = d.jtagLoad ir 1 0 := if_pos hm

theorem Dev.jtagHeld_boundary {d : Dev} (hm : d.pwr.mrstLow = true) (hs : d.pwr.standby = true) (ir b : Nat) : d.jtagHeld ir (some b) =
    (d.preloaded b).jtagLoad ir 64 d.fresh.1.toNat :=
  (if_pos hm).trans (if_pos hs)

/-- Settles O60: the branch of a take-over's lockstep, an indicator and a slice within their limits, and the JTAG and SMBus rows as they stand. -/
theorem sparesAndTestPorts : Obligations.SparesAndTestPorts := by
  unfold Obligations.SparesAndTestPorts
  have hnext {s : State} {a b : Dev} (h : a = b) : Host.Outcome.next (s.onto a) = (Host.Outcome.next (s.onto b) : Host.Outcome State Fault Refusal) :=
    congrArg (fun z => Host.Outcome.next (s.onto z)) h
  refine ⟨fun dt k agree x s => ?_, fun dt v s => ?_⟩
  · intro d
    refine ⟨fun hr hk hl => ⟨fun h0 hlost => ?_, fun h0 h7 => ?_⟩, fun u i v hi h15 hh => ⟨fun he => ?_, fun he hc => ?_⟩, fun o r offset gain skew bandwidth hn ho hd hf hr ht hs he => ?_⟩
    · refine ⟨s.onto (d.lockstepEnd k agree), rfl, State.onto_mem _ _, ?_⟩
      rw [State.onto_dev, Dev.lockstepEnd_only hr hk hl, if_pos (by rw [decide_eq_true h0, hlost]; rfl)]
      rfl
    · have hsighted : ¬ (decide (k = 0) && d.lostPad x.unit) = true := by
        rw [Bool.and_eq_true, decide_eq_true_eq]
        exact fun h => Bool.false_ne_true ((h0 h.1).symm.trans h.2)
      have hcopied : (decide (k = 7) && decide (Tbl.look 0 d.cmc.copy (d.pc x.unit).logical < 2 ^ 21)) = false := by
        rw [Bool.and_eq_false_imp]
        exact fun h => decide_eq_false (Nat.not_lt.mpr (h7 (of_decide_eq_true h)))
      have hend := (Dev.lockstepEnd_only (agree := agree) hr hk hl).trans (if_neg hsighted)
      rw [hcopied, Bool.false_or] at hend
      refine ⟨fun ht => hnext (hend.trans (if_pos (decide_eq_true ht))), fun ht => ?_⟩
      have hrun := hend.trans (if_neg (fun h => absurd (of_decide_eq_true h) (Nat.not_lt.mpr ht)))
      refine ⟨fun hp => ⟨s.onto (d.lockstepEnd k agree), rfl, State.onto_mem _ _, ?_⟩, fun hp =>
        ⟨fun hm => ⟨s.onto (d.lockstepEnd k agree), rfl, State.onto_mem _ _, ?_⟩, fun hm => ⟨s.onto (d.lockstepEnd k agree), rfl, State.onto_mem _ _, ?_⟩⟩⟩
      · rw [State.onto_dev, hrun, if_pos hp]
        rfl
      · rw [State.onto_dev, hrun, if_neg (fun h => Bool.false_ne_true (hp.symm.trans h)), if_neg (Nat.not_le.mpr hm)]
        rfl
      · rw [State.onto_dev, hrun, if_neg (fun h => Bool.false_ne_true (hp.symm.trans h)), if_pos hm, Dev.abandon_spares, hr]
        have hrest : [x].filter (fun y => decide (y ≠ x)) = [] := by simp
        exact ⟨hrest, rfl⟩
    · exact exec_wearEvaluation (e := d) (wearEvaluation_again (x := (d, s.mem)) h15 he) rfl hh
    · refine ⟨s.onto (d.wearNoted k u i v), exec_wearEvaluation (e := d.wearNoted k u i v) (wearEvaluation_within (x := (d, s.mem)) h15 he hc) (d.wearNoted_rings k u i v) hh, State.onto_mem _ _, ?_⟩
      rw [State.onto_dev]
      refine ⟨mem_putFigure (k, u, i) v _, Dev.wearNoted_margins hi, fun hx => ?_, rfl⟩
      exact absurd rfl (of_decide_eq_true (List.mem_filter.1 hx).2)
    · intro p
      obtain ⟨e, hrow, res, hain⟩ := rotationSwap_within (x := (d, s.mem)) (bandwidth := bandwidth) hn ho hd hf hr ht hs he
      refine ⟨s.onto (e.swapSlices k o), congrArg (fun y => Host.Outcome.next (s.ontoAll y)) hrow, State.onto_mem _ _, ?_⟩
      rw [State.onto_dev, Dev.swapSlices_ain, hain]
      exact ⟨rfl, Tbl.look_put_same _ _ _ _, rfl⟩
  · intro d loads
    have hloads {i : Instr} {e : Dev} {ir bits w : Nat} {out : Nat → Prop} {held : Option Nat} (hi : exec i s = .next (s.onto e))
        (he : d.jtagLoaded e ir bits w held) (hw : out w) : loads i ir bits out held := ⟨s.onto e, w, hi, hw, State.onto_mem _ _, he⟩
    refine ⟨rfl, fun hb => ⟨?_, ?_, ?_, fun hm => ⟨?_, ?_, ?_⟩, fun hm => ⟨?_, ?_, ?_⟩, ?_, ?_, rfl⟩⟩
    · exact hloads rfl (Dev.jtagLoad_loads hb 0 1 0) rfl
    · exact hloads rfl (Dev.jtagLoad_loads hb 1 32 0x175123CB) rfl
    · exact hloads (hnext (if_pos hb)) (Dev.jtagLoad_preloads hb 2 64 v d.fresh.1.toNat) trivial
    · exact hloads (hnext (Dev.jtagHeld_boundary hm hb 3 v)) (Dev.jtagLoad_preloads hb 3 64 v _) trivial
    · exact hloads (hnext (Dev.jtagHeld_bypass hm 4)) (Dev.jtagLoad_loads hb 4 1 0) rfl
    · exact hloads (hnext (Dev.jtagHeld_bypass hm 5)) (Dev.jtagLoad_loads hb 5 1 0) rfl
    · exact hloads (hnext (Dev.jtagHeld_released hm 3 (some v))) (Dev.jtagLoad_loads hb 0 1 0) rfl
    · exact hloads (hnext (Dev.jtagHeld_released hm 4 none)) (Dev.jtagLoad_loads hb 0 1 0) rfl
    · exact hloads (hnext (Dev.jtagHeld_released hm 5 none)) (Dev.jtagLoad_loads hb 0 1 0) rfl
    · exact hnext (if_pos hb)
    · refine hnext (congrArg (fun bs => d.emit (.smbus bs)) (if_congr ?_ rfl rfl))
      change (d.pwr.standby && d.alert) = true ↔ _
      rw [hb, Bool.true_and, Dev.alert, Bool.or_eq_true, decide_eq_true_eq, decide_eq_true_eq]

end Sys2Proof.Machine
end
